-- ==== Sys2Proof/Word.lean ====
section
/-! DEFINITION. Sys2Proof/Word.lean: the plain word types and the small index types of the Yunoam Y2 (01 R11 Table 1.1). -/

namespace Sys2Proof

abbrev Byte := BitVec 8
abbrev W16 := BitVec 16
abbrev W32 := BitVec 32
abbrev W48 := BitVec 48
abbrev W64 := BitVec 64
abbrev W128 := BitVec 128

/-- A string of bytes, lowest address first. -/
abbrev Bytes := List Byte

/-- Cluster C00 to C63 (01 R10). -/
abbrev CId := Fin 64
/-- Stream slot S0 to S3 of a cluster (05 R103). -/
abbrev SId := Fin 4
/-- Accumulation group of a cluster (03 R68). -/
abbrev GId := Fin 16
/-- Chain port P0 to P11 (11 R280). -/
abbrev PortId := Fin 12
/-- LPDDR5X controller M0 to M19 (07 R165). -/
abbrev CtlId := Fin 20
/-- Field F0 to F3 (01 R10). -/
abbrev FieldId := Fin 4
/-- Update context (10 R251). -/
abbrev CtxId := Fin 64
/-- PCI Express function: 0 is the physical function (12 R318). -/
abbrev FnId := Fin 64
/-- Queue of a function (12 R319). -/
abbrev QId := Fin 16
/-- Barrier object (06 R144). -/
abbrev BarId := Fin 16
/-- Slot of the Firn catalogue (08 R186). -/
abbrev FSlotId := Fin 8
/-- Node ID (11 R291). -/
abbrev NodeId := BitVec 16
/-- Variant ID (09 R221). -/
abbrev Vid := BitVec 16
/-- Domain (07 R156). -/
abbrev Dom := BitVec 12
/-- Job tag (12 R329). -/
abbrev Tag := BitVec 24

end Sys2Proof
end

