-- ==== Sys2Proof/Parts.lean ====
section
/-! DEFINITION. Sys2Proof/Parts.lean: the operand records of the commands: what an issued instruction, an arrived message, a DMA entry or a boot brings with it. Values that the device obtains from outside (memory of the host, sensors, whether a check of a ciphertext passes, how many reads fail parity) are operands. -/

namespace Sys2Proof

/-- The outlier list of a layer slice (02 R51) with the K it is judged by: its 64 entries, unused ones 0xFFFF. A quantising
conversion takes besides the zero points z_i, one per row, and the pointer (03 R70) to its BF16 side tile. No instruction word
names a list, so the list of the slice that an instruction works on comes with the command (log 13). -/
structure Outliers where
  list : List W16
  k : Nat
  zero : List Int := []
  side : W48 := 0
deriving DecidableEq, Repr

/-- A stream instruction that issues (05 R107): cluster, slot, the 128-bit word its slot fetched, and the parity failures met:
`fetchBad` fetches of the word that failed (05 R104); `readBad` how often each read of the instruction failed, in the order it
makes them, reads beyond the list none (03 R83, 04 R98, 07 R162); `regBad` a vector or mask register in error (04 R98);
`outliers` the list of a side pass or of a quantising conversion. -/
structure Issue where
  cluster : CId
  slot : SId
  word : W128
  fetchBad : Nat := 0
  readBad : List Nat := []
  regBad : Bool := false
  outliers : Option Outliers := none
deriving DecidableEq, Repr

/-- Header of a message that has arrived whole on a port (11 R291); `verifies`: its tag verifies under the key
its key_id, job tag and domain select (11 R314). -/
structure Msg where
  port : PortId
  src : NodeId
  dst : NodeId
  tag : Tag
  keyId : BitVec 12
  vc : BitVec 2
  verifies : Bool
deriving DecidableEq, Repr

/-- What a COLLECTIVE message holds: the header of Table 11.9, the row scales and the rows. -/
structure CollMsg where
  step : W32
  entry : Nat
  kind : Nat
  hops : Nat
  firstRow : Nat
  nrows : Nat
  firstCol : Nat
  count : Nat
  data : Bytes
deriving DecidableEq, Repr

/-- One variant's part of a VERDICT (10 R258). -/
structure VerdictPart where
  apply : Bool
  c : W32
  norm : W32
deriving DecidableEq, Repr

/-- A VERDICT message (10 R258). -/
structure VerdictMsg where
  step : W64
  skip : Bool
  parts : List VerdictPart
  scale : W32
deriving DecidableEq, Repr

/-- A DMA list as the host memory holds it (12 R330): its bytes, and for an input list what each entry's host address holds. -/
structure DmaList where
  bytes : Bytes
  data : List Bytes
deriving DecidableEq, Repr

/-- A register space of a function: BAR0, BAR2, or what the SR-IOV capability of its configuration space sets (12 R317, R318); or
control space as the debugger reaches it (13 R367). -/
inductive RegSpace where
  | bar0 | bar2 | sriov | debug
deriving DecidableEq, Repr

/-- A gang of a node (11 R296): the ports of it that lead to one neighbour, bit p for port Pp. -/
structure Gang where
  peer : NodeId
  ports : BitVec 12
deriving DecidableEq, Repr

/-- A node of the topology table (11 R296): its ID, its gangs, its parent in the control tree (none for the root) and, in a
ring, its clockwise and counter-clockwise gangs. -/
structure TopoNode where
  node : NodeId
  gangs : List Gang := []
  parent : Option NodeId := none
  cw : BitVec 12 := 0
  ccw : BitVec 12 := 0
deriving DecidableEq, Repr

/-- The topology table of 11 R296, whose bytes the spec does not lay out: shape (0 chain, 1 ring, 2 tree), the members in position
order, coordinator and deputy. -/
structure Topo where
  shape : Nat := 0
  nodes : List TopoNode := []
  coordinator : NodeId := 0
  deputy : NodeId := 0
deriving DecidableEq, Repr

/-- An endorsement of Table 13.6: the kinds it permits, the greatest svn, and the root's signature over the signer key and these. -/
structure Endorsement where
  kinds : Byte
  svnMax : Nat
  sig : Bytes
deriving DecidableEq, Repr

/-- The signer parts of an image or a debug token (13 Table 13.6): the root public key, the signer's, which is the root's where there is no
endorsement, and the signer's signature. -/
structure Signer where
  root : Bytes
  key : Bytes
  endorse : Option Endorsement
  sig : Bytes
deriving DecidableEq, Repr

/-- A signed image (13 R359): the kind and svn of its trailer, its signer parts and its body. -/
structure Image where
  kind : Byte
  svn : Nat
  signer : Signer
  body : Bytes
deriving DecidableEq, Repr

/-- The firmware and the configuration image of one slot (13 R359). -/
structure ImageSet where
  fw : Image
  cfg : Image
deriving DecidableEq, Repr

/-- A KEY offer (13 R354): the identity certificate with the root key that its chain ends at (R345), the attestation certificate of R346
with its identity signature, and the node exchange key with the attestation key's signature on it. -/
structure KeyOffer where
  root : Bytes
  idCert : Bytes
  attCert : Bytes
  exchange : Bytes
  sig : Bytes
deriving DecidableEq, Repr

/-- A request on the board management port (15 R420): SMBus ARP gives it an address, or a sensor is read at an address. -/
inductive SmbReq where
  | assign (a : BitVec 7)
  | read (a : BitVec 7) (sensor : Nat)
deriving DecidableEq, Repr

/-- What a start meets (13 R361, 14 R377, 15 R403, R406, R408): the straps; whether the entropy test passes; the image set that a host
download or a neighbour brings; the topology that the booted topology table, whose layout the spec does not give, means; the slots
whose life record fails its digest (14 R390), and which halves of stripe 0 check (08 R186); the controllers and channels whose
training fails (07 R167); the ports whose lanes train. At a warm start besides: the member list that joins (empty: no ADMIT yet), the
generation and slot of a running chain (0: none), its registry; of the current, the old and a swap's generation the segments whose
working digest fails, those that the store cannot return, and those that fail again (R214). -/
structure Boot where
  bootSrc : BitVec 2
  clkMode : BitVec 2
  entropy : Bool
  set : Option ImageSet
  topo : Topo
  lifeBad : List Nat
  catOk : Bool × Bool
  memFail : List (CtlId × Fin 4)
  ports : List PortId
  members : List NodeId
  gen : W32
  slot : FSlotId
  registry : List (BitVec 512)
  firnBad : List Nat
  firnUnread : List Nat
  reFirnBad : List Nat
  old : List Nat × List Nat × List Nat := ([], [], [])
  swap : List Nat × List Nat × List Nat := ([], [], [])
deriving DecidableEq, Repr

/-- One sample of the thermal and power sensors (15 R410, 07 R180), in units of 1/16 °C: the compute-die sensors of each
field, those of the Firn dies, and the input power. -/
structure Sensors where
  die : List (List W16)
  firn : List W16
  powerW : Nat
deriving DecidableEq, Repr

end Sys2Proof
end

