-- ==== Sys2Proof/Syntax.lean ====
section
/-! DEFINITION. Sys2Proof/Syntax.lean: the commands: one constructor per row of spec/opcode_table.json, in the table's order. Each docstring gives the row's mnemonic and the rule that governs it. -/

namespace Sys2Proof

inductive Instr where
  /-- PACE_UPDATE (R22): rate and average of each cluster. -/
  | paceUpdate (mon : List (BitVec 12 × BitVec 12))
  /-- MOVE_COPY (R112). -/
  | moveCopy (i : Issue)
  /-- MOVE_CONV (R112). -/
  | moveConv (i : Issue)
  /-- MOVE_FILL (R112). -/
  | moveFill (i : Issue)
  /-- MMA_OPEN (R71). -/
  | mmaOpen (i : Issue)
  /-- MMA_ACC (R114). -/
  | mmaAcc (i : Issue)
  /-- MMA_SIDE (R114). -/
  | mmaSide (i : Issue)
  /-- MMA_CLOSE (R73). -/
  | mmaClose (i : Issue)
  /-- CHUNK_END (R57): the parity errors of each array of the set. -/
  | chunkEnd (c : CId) (g : GId) (bad : List Nat)
  /-- EPILOGUE (R76). -/
  | epilogue (c : CId) (g : GId) (bad : List Nat)
  /-- CLOSE_DONE (R79). -/
  | closeDone (c : CId) (g : GId)
  /-- VEC_ADD (R91). -/
  | vecAdd (i : Issue)
  /-- VEC_SUB (R91). -/
  | vecSub (i : Issue)
  /-- VEC_MUL (R91). -/
  | vecMul (i : Issue)
  /-- VEC_FMA (R91). -/
  | vecFma (i : Issue)
  /-- VEC_MIN (R91). -/
  | vecMin (i : Issue)
  /-- VEC_MAX (R91). -/
  | vecMax (i : Issue)
  /-- VEC_ABS (R91). -/
  | vecAbs (i : Issue)
  /-- VEC_NEG (R91). -/
  | vecNeg (i : Issue)
  /-- VEC_CMP (R91). -/
  | vecCmp (i : Issue)
  /-- VEC_SEL (R116). -/
  | vecSel (i : Issue)
  /-- VEC_MOV (R116). -/
  | vecMov (i : Issue)
  /-- VEC_DIV (R92). -/
  | vecDiv (i : Issue)
  /-- VEC_SQRT (R92). -/
  | vecSqrt (i : Issue)
  /-- VEC_RCP (R92). -/
  | vecRcp (i : Issue)
  /-- VEC_RSQRT (R92). -/
  | vecRsqrt (i : Issue)
  /-- VEC_EXP2 (R92). -/
  | vecExp2 (i : Issue)
  /-- VEC_LOG2 (R92). -/
  | vecLog2 (i : Issue)
  /-- VEC_EXP (R92). -/
  | vecExp (i : Issue)
  /-- VEC_LOG (R92). -/
  | vecLog (i : Issue)
  /-- VEC_TANH (R92). -/
  | vecTanh (i : Issue)
  /-- VEC_SIGMOID (R92). -/
  | vecSigmoid (i : Issue)
  /-- VEC_ERF (R92). -/
  | vecErf (i : Issue)
  /-- VEC_GELU (R92). -/
  | vecGelu (i : Issue)
  /-- VEC_SILU (R92). -/
  | vecSilu (i : Issue)
  /-- VEC_SIN (R92). -/
  | vecSin (i : Issue)
  /-- VEC_COS (R92). -/
  | vecCos (i : Issue)
  /-- VEC_IADD (R91). -/
  | vecIadd (i : Issue)
  /-- VEC_ISUB (R91). -/
  | vecIsub (i : Issue)
  /-- VEC_IMUL (R91). -/
  | vecImul (i : Issue)
  /-- VEC_AND (R91). -/
  | vecAnd (i : Issue)
  /-- VEC_OR (R91). -/
  | vecOr (i : Issue)
  /-- VEC_XOR (R91). -/
  | vecXor (i : Issue)
  /-- VEC_SHL (R91). -/
  | vecShl (i : Issue)
  /-- VEC_SHR (R91). -/
  | vecShr (i : Issue)
  /-- VEC_SRA (R91). -/
  | vecSra (i : Issue)
  /-- VEC_IMIN (R91). -/
  | vecImin (i : Issue)
  /-- VEC_IMAX (R91). -/
  | vecImax (i : Issue)
  /-- VEC_ADDSAT (R91). -/
  | vecAddsat (i : Issue)
  /-- VEC_SUBSAT (R91). -/
  | vecSubsat (i : Issue)
  /-- VEC_ICMP (R91). -/
  | vecIcmp (i : Issue)
  /-- VEC_CVT (R95). -/
  | vecCvt (i : Issue)
  /-- VEC_RSUM (R94). -/
  | vecRsum (i : Issue)
  /-- VEC_RMAX (R94). -/
  | vecRmax (i : Issue)
  /-- VEC_RMIN (R94). -/
  | vecRmin (i : Issue)
  /-- VEC_LD (R90). -/
  | vecLd (i : Issue)
  /-- VEC_ST (R90). -/
  | vecSt (i : Issue)
  /-- VEC_GATHER (R93). -/
  | vecGather (i : Issue)
  /-- VEC_SCATTER (R93). -/
  | vecScatter (i : Issue)
  /-- VEC_SCATADD (R93). -/
  | vecScatadd (i : Issue)
  /-- VEC_BCAST (R116). -/
  | vecBcast (i : Issue)
  /-- VEC_RRAW (R102). -/
  | vecRraw (i : Issue)
  /-- VEC_RUNI (R102). -/
  | vecRuni (i : Issue)
  /-- VEC_RBERN (R102). -/
  | vecRbern (i : Issue)
  /-- VEC_LDGEN (R100). -/
  | vecLdgen (i : Issue)
  /-- VEC_TOPK (R96). -/
  | vecTopk (i : Issue)
  /-- VEC_SETVL (R88). -/
  | vecSetvl (i : Issue)
  /-- VEC_MLD (R115). -/
  | vecMld (i : Issue)
  /-- VEC_MST (R115). -/
  | vecMst (i : Issue)
  /-- VEC_MAND (R115). -/
  | vecMand (i : Issue)
  /-- VEC_MOR (R115). -/
  | vecMor (i : Issue)
  /-- VEC_MNOT (R115). -/
  | vecMnot (i : Issue)
  /-- SIGNAL (R134). -/
  | signalOp (i : Issue)
  /-- WAIT_TAKE (R135). -/
  | waitTake (i : Issue)
  /-- WAIT_OBS (R135). -/
  | waitObs (i : Issue)
  /-- BARRIER (R145). -/
  | barrier (i : Issue)
  /-- SYNC_SET (R117). -/
  | syncSet (i : Issue)
  /-- NOP (R118). -/
  | nop (i : Issue)
  /-- END (R118). -/
  | endOp (i : Issue)
  /-- BR (R119). -/
  | br (i : Issue)
  /-- LOOP (R119). -/
  | loopOp (i : Issue)
  /-- SETX (R118). -/
  | setx (i : Issue)
  /-- ADDX (R118). -/
  | addx (i : Issue)
  /-- MULX (R118). -/
  | mulx (i : Issue)
  /-- PTEST_OCCUPANCY (R120). -/
  | ptestOccupancy (i : Issue)
  /-- PTEST_ROUTER_COUNT (R120). -/
  | ptestRouterCount (i : Issue)
  /-- PTEST_BELOW (R120). -/
  | ptestBelow (i : Issue)
  /-- PTEST_EQUAL (R120). -/
  | ptestEqual (i : Issue)
  /-- PTEST_AND (R120). -/
  | ptestAnd (i : Issue)
  /-- PTEST_OR (R120). -/
  | ptestOr (i : Issue)
  /-- LDTD (R118). -/
  | ldtd (i : Issue)
  /-- LDBASE (R106). -/
  | ldbase (i : Issue)
  /-- LDSCL (R118). -/
  | ldscl (i : Issue)
  /-- LDX (R118). -/
  | ldx (i : Issue)
  /-- TOPK (R123). -/
  | topk (i : Issue)
  /-- GATHER (R122). -/
  | gather (i : Issue)
  /-- SCATTER (R123). -/
  | scatter (i : Issue)
  /-- DISPATCH (R122). -/
  | dispatch (i : Issue)
  /-- INSTR_COMPLETE (R124). -/
  | instrComplete (c : CId) (k : SId) (id : Nat)
  /-- STREAM_END (R118). -/
  | streamEnd (c : CId) (k : SId)
  /-- SEM_SET (R143). -/
  | semSet (c : CId) (v : W64) (control : Bool)
  /-- SIGNAL_MSG (R141). -/
  | signalMsg (m : Msg) (sem : W32) (n : W32)
  /-- SIGNAL_ACK (R137). -/
  | signalAck (m : Msg) (sem : W32) (applied : Bool)
  /-- ARRIVE (R146). -/
  | arrive (m : Msg) (b : BarId) (step : W32)
  /-- RELEASE (R146). -/
  | release (m : Msg) (b : BarId) (step : W32) (removed : List Vid)
  /-- BARRIER_ABORT (R147). -/
  | barrierAbort (m : Msg) (b : BarId) (skew : Bool)
  /-- MEM_RETAG (R160). -/
  | memRetag (v : W64)
  /-- PAGE_ASSIGN (R171). -/
  | pageAssign (v : W64)
  /-- PAGE_SCRUB (R170). -/
  | pageScrub (v : W64)
  /-- PAGE_QUERY (R183). -/
  | pageQuery (v : W64)
  /-- SCRUB_DONE (R171). -/
  | scrubDone (first : Nat)
  /-- LPDDR_PARITY_FAIL (R173): the line, the job that reads, how many of the three replays fail too. -/
  | lpddrParityFail (a : BitVec 41) (tag : Tag) (replays : Nat)
  /-- LINE_REFETCH (R216): whether the store returns the line, and how many reads in a row of the read-back fail. -/
  | lineRefetch (a : BitVec 41) (tag : Tag) (firnOk : Bool) (readBack : Nat)
  /-- WCK_TRACKING (R168). -/
  | wckTracking (m : CtlId)
  /-- MR4_POLL (R168). -/
  | mr4Poll (m : CtlId) (rate : BitVec 5)
  /-- SRAM_STEP_SAMPLE (R180): the 16 sensors of each tier. -/
  | sramStepSample (t : List (List W16))
  /-- SRAM_OVER (R181). -/
  | sramOver (f : FieldId)
  /-- FIRN_INSTALL (R201). -/
  | firnInstall (v : W64)
  /-- FIRN_ERASE (R219). -/
  | firnErase (v : W64)
  /-- FIRN_SWAP (R211). -/
  | firnSwap (v : W64)
  /-- FIRN_ABORT_INSTALL (R200). -/
  | firnAbortInstall (v : W64)
  /-- FIRN_RING_DOORBELL (R197). -/
  | firnRingDoorbell (prod : W32)
  /-- INSTALL_FRAME (R198): a frame of the host ring, or the data of one INSTALL message of it; the stripes that fail to program, whether
the segment it completes cannot be read. -/
  | installFrame (m : Option Msg) (f : Bytes) (bad : List Nat) (unread : Bool)
  /-- INSTALL_OPEN (R201): the chip it is for, the head of the stream path, slot and positions. -/
  | installOpen (m : Msg) (dst head : NodeId) (slot : FSlotId) (positions : W16)
  /-- INSTALL_ABORT (R200): the chip it is for, and whether it goes away from the head. -/
  | installAbort (m : Msg) (dst : NodeId) (onward : Bool) (slot : FSlotId)
  /-- INSTALL_COMPLETE (R199): of this chip, or a message: the chip it is for, the chip that is done, the head, the slot. -/
  | installComplete (m : Option (Msg × NodeId × NodeId × NodeId × FSlotId))
  /-- SLOT_ERASE_DONE (R187): the stripes that fail to erase. -/
  | slotEraseDone (slot : FSlotId) (bad : List Nat)
  /-- SWAP_PREPARE (R211): slot, generation, chain tag and image version. -/
  | swapPrepare (m : Msg) (slot : FSlotId) (g : W32) (tag : W64) (version : W32)
  /-- THAW_DONE (R211): the segments whose digest fails, and those that the store cannot return (R217). -/
  | thawDone (bad : List Nat) (unread : List Nat)
  /-- THAW_READY (R211). -/
  | thawReady (m : Msg) (node : NodeId) (g : W32)
  /-- COMMIT (R211). -/
  | commitMsg (m : Msg) (g : W32)
  /-- SWAP_ABORT (R211): the reason where step 2 refused. -/
  | swapAbort (m : Msg) (g : W32) (refused : Option Nat)
  /-- SWAP_SETTLE (R211): whether a catalogue has recorded the generation, and the members that have thawed it. -/
  | swapSettle (recorded : Bool) (done : List NodeId)
  /-- OLD_GEN_FREE (R211). -/
  | oldGenFree
  /-- SWEEP_SEGMENT (R215): old or current generation, segment, whether its digest matches, whether the store returns it, whether it matches after the repair. -/
  | sweepSegment (old : Bool) (seg : Nat) (same : Bool) (firnOk : Bool) (again : Bool)
  /-- FIRN_DAILY_CHECK (R215): the slots whose digest fails, and those that cannot be read. -/
  | firnDailyCheck (mismatch : List FSlotId) (unread : List FSlotId)
  /-- FIRN_HOT_STOP (R413). -/
  | firnHotStop
  /-- FIRN_HOT_RESUME (R413). -/
  | firnHotResume
  /-- VAR_REGISTER (R224). -/
  | varRegister (v : W64) (d : BitVec 512)
  /-- VAR_LOAD (R227): the image that the host holds, and whether the base segments it needs can be read. -/
  | varLoad (v : W64) (img : Bytes) (firnOk : Bool)
  /-- VAR_LOAD_DONE (R227). -/
  | varLoadDone (vid : Vid)
  /-- VAR_UNLOAD (R243). -/
  | varUnload (v : W64)
  /-- VAR_IMAGE_WRITE (R243). -/
  | varImageWrite (vid : Vid)
  /-- VAR_EVICT (R242). -/
  | varEvict (v : W64)
  /-- EVICT_RELEASE (R242). -/
  | evictRelease (vid : Vid)
  /-- VAR_PUBLISH (R230). -/
  | varPublish (v : W64)
  /-- VAR_REMOVE (R246). -/
  | varRemove (v : W64)
  /-- VAR_UNREGISTER (R250): whether every other member has it Dormant. -/
  | varUnregister (v : W64) (dormant : Bool)
  /-- VAR_STATE_OUT (R244). -/
  | varStateOut (v : W64)
  /-- STATE_OUT_WRITE (R244). -/
  | stateOutWrite (vid : Vid)
  /-- VAR_STATE_IN (R244). -/
  | varStateIn (v : W64) (img : Bytes)
  /-- VAR_QUERY (R249). -/
  | varQuery (v : W64)
  /-- REGISTRY_UPDATE (R221): the descriptor, none for a variant that goes. -/
  | registryUpdate (m : Msg) (vid : Vid) (d : Option (BitVec 512))
  /-- PUBLISH_COMMIT (R230). -/
  | publishCommit (m : Msg) (vid : Vid) (g : W32)
  /-- REMOVE (R246). -/
  | removeMsg (m : Msg) (vid : Vid)
  /-- REMOVED (R246): of this node, or the message of a node. -/
  | removed (m : Option (Msg × NodeId)) (vid : Vid)
  /-- CACHE_FILL_DONE (R240). -/
  | cacheFillDone (vid : Vid)
  /-- GRAD_SLICE (R257). -/
  | gradSlice (tag : Tag) (vid : Vid) (layer : W16) (step : W32)
  /-- STEP_VOTE (R258): the parity failures of the control block and of the next step's freeze bitmaps. -/
  | stepVote (x : CtxId) (bad : List Nat)
  /-- VOTE (R258): `rd` the parity failures of the next step's freeze bitmaps. -/
  | vote (m : Msg) (step : W32) (bad : Bool) (norms : List W32) (rd : List Nat)
  /-- VERDICT (R259): `rd` the parity failures of the next step's freeze bitmaps. -/
  | verdict (m : Msg) (v : VerdictMsg) (rd : List Nat)
  /-- LAYER_UPDATE_DONE (R263): the parity failures of the next step's freeze bitmaps. -/
  | layerUpdateDone (x : CtxId) (layer : Nat) (bad : List Nat)
  /-- PARKED_APPLY (R276). -/
  | parkedApply (vid : Vid)
  /-- WQ_STEP_LR (R333). -/
  | wqStepLr (f : FnId) (q : QId) (v : W64)
  /-- COLLECTIVE_RUN (R301): the parity failures of the rows it reads. -/
  | collectiveRun (tag : Tag) (entry : Nat) (bad : List Nat)
  /-- COLLECTIVE (R302): the bytes of the message, and the parity failures of the rows it is added to. -/
  | collective (m : Msg) (data : Bytes) (bad : List Nat)
  /-- PORT_TRAINED (R283). -/
  | portTrained (p : PortId) (ok : Bool)
  /-- KEY_OFFER (R354). -/
  | keyOffer (p : PortId) (x : KeyOffer)
  /-- KEY_CIPHERTEXT (R354). -/
  | keyCiphertext (p : PortId) (ct : Bytes)
  /-- FLIT_RECEIVE (R289): whether the message that it begins is under the keys of the epoch before (R313). -/
  | flitReceive (p : PortId) (f : BitVec 2048) (old : Bool)
  /-- RX_SILENCE_TIMEOUT (R284). -/
  | rxSilenceTimeout (p : PortId)
  /-- LANE_LOCK_LOSS (R284). -/
  | laneLockLoss (p : PortId)
  /-- RETRAIN_DONE (R284). -/
  | retrainDone (p : PortId) (ok : Bool)
  /-- RST_FLIT (R396). -/
  | rstFlit (p : PortId)
  /-- WRITE (R293). -/
  | writeMsg (m : Msg) (a : BitVec 44) (data : Bytes)
  /-- HELLO (R306): the port of the peer, whether its topology is this one, its GLB_ID. -/
  | hello (m : Msg) (peerPort : PortId) (sameHash : Bool) (glb : W64)
  /-- JOIN (R306): the node, the greatest generation it knows of (R208), its exchange key (13 R356). -/
  | join (m : Msg) (node : NodeId) (seen : W32) (key : Bytes)
  /-- ADMIT (R306): members and their exchange keys, current generation and its slot, registry, the greatest generation recorded, and
what the thaw meets. -/
  | admitMsg (m : Msg) (members : List NodeId) (keys : List (NodeId × Bytes)) (g : W32) (slot : FSlotId) (registry : List (BitVec 512)) (seen : W32) (bad unread : List Nat)
  /-- LEAVE (R308). -/
  | leave (m : Msg)
  /-- LOST (R308): the nodes, and whether a reset of theirs is the cause. -/
  | lost (m : Msg) (nodes : List NodeId) (reset : Bool)
  /-- NEIGHBOUR_LOSS_TIMEOUT (R308). -/
  | neighbourLossTimeout (node : NodeId)
  /-- REKEY_THRESHOLD (R313). -/
  | rekeyThreshold (p : PortId) (d : Option Dom)
  /-- KEY_EXHAUSTED (R313). -/
  | keyExhausted (p : PortId) (d : Option Dom)
  /-- LNK_LEAVE (R309). -/
  | lnkLeave (v : W64)
  /-- LEAVE_SEND (R309). -/
  | leaveSend
  /-- LNK_REJOIN (R306). -/
  | lnkRejoin (v : W64)
  /-- LNK_REKEY (R313). -/
  | lnkRekey (v : W64)
  /-- RESET_MSG (R311). -/
  | resetMsg (m : Msg)
  /-- QUIET (R419). -/
  | quiet (m : Msg)
  /-- BOOT_IMAGE_REQUEST (R403). -/
  | bootImageRequest (p : PortId)
  /-- WQ_DOORBELL (R321). -/
  | wqDoorbell (f : FnId) (q : QId) (tail : W32)
  /-- DESCRIPTOR_CONSUME (R322): the parity failures of what admission reads. -/
  | descriptorConsume (f : FnId) (q : QId) (d : BitVec 1024) (bad : List Nat)
  /-- WQ_CQ_HEAD (R322). -/
  | wqCqHead (f : FnId) (q : QId) (v : W32)
  /-- WQ_CFG (R320). -/
  | wqCfg (f : FnId) (q : QId) (v : W32)
  /-- HIF_WQ_BIND (R320). -/
  | hifWqBind (f : FnId) (q : QId) (v : W32)
  /-- SETUP (R328): job_id, members, est, base generation, domain, the job key sealed to each member (R356); the parity failures of
what admission reads. -/
  | setup (m : Msg) (jobId : W64) (members : List NodeId) (est : W32) (g : W32) (dom : Dom) (keys : List (NodeId × Bytes)) (bad : List Nat)
  /-- ACCEPT (R328): the member, and the origin that it is for. -/
  | accept (m : Msg) (node origin : NodeId)
  /-- REFUSE (R328): the member, the origin that it is for, the status. -/
  | refuse (m : Msg) (node origin : NodeId) (status : Nat)
  /-- GO (R328). -/
  | go (m : Msg)
  /-- JOB_ABORT (R329). -/
  | jobAbort (m : Msg) (status : Nat) (event : W16)
  /-- SETUP_HOLD_TIMEOUT (R328). -/
  | setupHoldTimeout (jobId : W64)
  /-- INPUT_DMA_DONE (R330): the input list and what its entries name. -/
  | inputDmaDone (tag : Tag) (l : DmaList)
  /-- JOB_START (R105): the parity failures of the read of the stream pointers. -/
  | jobStart (tag : Tag) (bad : List Nat)
  /-- JOB_OUTPUT (R330): the output list, and the parity failures of the reads. -/
  | jobOutput (tag : Tag) (l : DmaList) (bad : List Nat)
  /-- JOB_COMPLETE (R331). -/
  | jobComplete (tag : Tag)
  /-- FUNCTION_LEVEL_RESET (R334). -/
  | functionLevelReset (f : FnId)
  /-- VF_ENABLE_CLEAR (R334). -/
  | vfEnableClear
  /-- D3HOT_ENTRY (R334). -/
  | d3hotEntry (f : FnId)
  /-- BUS_MASTER_CLEAR (R334). -/
  | busMasterClear (f : FnId)
  /-- FENCE_RELEASE (R334). -/
  | fenceRelease (f : FnId)
  /-- EVIDENCE_WRITE (R338). -/
  | evidenceWrite
  /-- CHECKPOINT (R339). -/
  | checkpoint
  /-- INTERRUPT_COALESCE_TIMEOUT (R448): of a queue, or of the event mirror. -/
  | interruptCoalesceTimeout (f : FnId) (q : QId) (mirror : Bool)
  /-- SEC_OPEN (R348). -/
  | secOpen (v : W64)
  /-- SEC_PROVISION (R349). -/
  | secProvision (v : W64) (arg : Bytes)
  /-- SEC_EXPORT (R353). -/
  | secExport (v : W64) (key : Bytes)
  /-- SEC_CLEAR_EXPORT (R353). -/
  | secClearExport (v : W64)
  /-- SEC_REMOVE (R357). -/
  | secRemove (v : W64)
  /-- TENANT_RETIRE (R357). -/
  | tenantRetire (d : Dom)
  /-- REMOVAL_RELEASE (R357). -/
  | removalRelease (d : Dom)
  /-- SEC_ATTEST (R364). -/
  | secAttest (v : W64) (req : Bytes)
  /-- SEC_STAGE (R362). -/
  | secStage (v : W64)
  /-- STAGE_VERIFY_DONE (R362): the two images written. -/
  | stageVerifyDone (x : ImageSet)
  /-- SEC_CANCEL (R362). -/
  | secCancel (v : W64)
  /-- SEC_COMMIT_SVN (R363). -/
  | secCommitSvn (v : W64)
  /-- ATT_KEY_READY (R346). -/
  | attKeyReady
  /-- DRBG_RESEED (R342). -/
  | drbgReseed
  /-- TRNG_HEALTH_FAIL (R342). -/
  | trngHealthFail
  /-- TRNG_FAIL_TIMEOUT (R342). -/
  | trngFailTimeout
  /-- JTAG_IDCODE (R366). -/
  | jtagIdcode
  /-- JTAG_BYPASS (R366). -/
  | jtagBypass
  /-- JTAG_CHALLENGE (R366). -/
  | jtagChallenge
  /-- JTAG_TOKEN (R366): level, challenge, identity and signer parts. -/
  | jtagToken (level : Byte) (challenge : Bytes) (idd : Bytes) (signer : Signer)
  /-- JTAG_LEVEL_CLEAR (R366). -/
  | jtagLevelClear
  /-- CFG_STAGE_LOAD (R378). -/
  | cfgStageLoad (v : W64)
  /-- CFG_STAGE_DMA_DONE (R378). -/
  | cfgStageDmaDone (data : Option Bytes)
  /-- CFG_STAGE_DISCARD (R378). -/
  | cfgStageDiscard (v : W64)
  /-- CFG_CHECK (R380). -/
  | cfgCheck (v : W32)
  /-- CFG_COMMIT (R381). -/
  | cfgCommit (v : W32)
  /-- CFG_COMMIT_INSTANT (R381). -/
  | cfgCommitInstant
  /-- LIFE_HOST_TIME (R388). -/
  | lifeHostTime (v : W64)
  /-- LIFE_SAVE (R389). -/
  | lifeSave (v : W32)
  /-- LIFE_RECORD_TIMER (R389). -/
  | lifeRecordTimer
  /-- LIFE_RECORD_DONE (R389). -/
  | lifeRecordDone
  /-- LIFE_SECOND (R385). -/
  | lifeSecond
  /-- THERMAL_EXCURSION_START (R386). -/
  | thermalExcursionStart
  /-- THERMAL_EXCURSION_END (R386). -/
  | thermalExcursionEnd
  /-- POWER_ON_RESET (R392). -/
  | powerOnReset
  /-- PERST_ASSERT (R392). -/
  | perstAssert
  /-- WARM_RST_ASSERT (R392). -/
  | warmRstAssert
  /-- SOFTWARE_RESET (R392). -/
  | softwareReset (v : W32)
  /-- WATCHDOG_EXPIRY (R394). -/
  | watchdogExpiry
  /-- THERMAL_TRIP (R415). -/
  | thermalTrip
  /-- TRIP_RELEASE (R416). -/
  | tripRelease
  /-- COLD_START (R406). -/
  | coldStart (b : Boot)
  /-- WARM_START (R408). -/
  | warmStart (b : Boot)
  /-- HOST_DOWNLOAD_BOOT (R403). -/
  | hostDownloadBoot (b : Boot)
  /-- RST_BLOCK_CTL (R400). -/
  | rstBlockCtl (v : W64)
  /-- BLOCK_RESET_DONE (R400). -/
  | blockResetDone (k : Fin 22)
  /-- THROTTLE_SAMPLE (R410). -/
  | throttleSample (x : Sensors)
  /-- POWER_GOVERNOR_TICK (R411): input power over 1 ms and over 10 µs, in W. -/
  | powerGovernorTick (avg1ms : Nat) (avg10us : Nat)
  /-- AVS_READBACK (R405). -/
  | avsReadback (mv : Nat)
  /-- AVS_TIMEOUT (R405). -/
  | avsTimeout
  /-- PWR_CTL (R418). -/
  | pwrCtl (v : W32)
  /-- REST_ENTRY (R418). -/
  | restEntry
  /-- REST_WAKE (R419). -/
  | restWake
  /-- SMBUS_REQUEST (R420). -/
  | smbusRequest (x : SmbReq)
  /-- EVENT_MERGE_WINDOW (R441). -/
  | eventMergeWindow (code : W16) (unit : Byte) (sub : Byte) (tag : Tag)
  /-- EVENT_MIRROR (R442). -/
  | eventMirror
  /-- EVT_IDX_HEAD (R442). -/
  | evtIdxHead (v : W32)
  /-- REGISTER_WRITE (R449): function, space, offset and value. -/
  | registerWrite (f : FnId) (space : RegSpace) (off : Nat) (v : W64)
  /-- HEALTH_TEST_RECOVERY (R342). -/
  | healthTestRecovery
  /-- REVOKE (R357). -/
  | revoke (m : Msg) (d : Dom)
  /-- MEMBER_ANNOUNCE (R306): the node, the greatest generation it knows of (R208), its exchange key (13 R356). -/
  | memberAnnounce (m : Msg) (node : NodeId) (seen : W32) (key : Bytes)
  /-- RETAG_COMPLETE (R160). -/
  | retagComplete
  /-- PUBLISH_COPY_DONE (R230). -/
  | publishCopyDone (vid : Vid)
  /-- PUBLISH_READY (R230): the member, and whether it copied (R249). -/
  | publishReady (m : Msg) (node : NodeId) (vid : Vid) (ok : Bool)
deriving DecidableEq, Repr

end Sys2Proof
end

