-- ==== Sys2Proof/Machine/Codes.lean ====
section
/-! DEFINITION. Sys2Proof/Machine/Codes.lean: the event catalogue of 17 R438 Table 17.1 (severity × 0x1000 + block × 0x100 + specific code, R437) and the completion status codes of 12 R332. -/

namespace Sys2Proof.Machine.Ev

open Sys2Proof

def glbReady : W16 := 0x0001
def rstStart : W16 := 0x0101
def rstBlockBusy : W16 := 0x1102
def rstBlockDone : W16 := 0x0103
def pwrAvsFail : W16 := 0x3104
def cfgImageBad : W16 := 0x3201
def cfgRefused : W16 := 0x1202
def cfgCommitted : W16 := 0x0203
def lifeRecordLost : W16 := 0x1301
def secTrngFail : W16 := 0x3401
def secImageBad : W16 := 0x3402
def secSessionOpen : W16 := 0x0403
def secProvisioned : W16 := 0x0404
def secRemoved : W16 := 0x0405
def secImageUnseal : W16 := 0x1406
def secPeerBad : W16 := 0x1407
def secTrialRejected : W16 := 0x1408
def secStageFail : W16 := 0x1409
def secDebugUnlock : W16 := 0x140A
def secDebugDenied : W16 := 0x140B
def hifDescBad : W16 := 0x2501
def hifSetupBad : W16 := 0x2502
def hifUnseal : W16 := 0x2503
def hifOverrun : W16 := 0x2504
def hifLrNoJob : W16 := 0x1505
def hifCkptMissed : W16 := 0x1506
def hifFence : W16 := 0x0507
def lnkTrainFail : W16 := 0x1601
def lnkRetrain : W16 := 0x1602
def lnkDown : W16 := 0x1603
def lnkPeerBad : W16 := 0x1604
def lnkBadMsg : W16 := 0x1605
def lnkNoRoute : W16 := 0x1606
def lnkAuthFailJob : W16 := 0x2607
def lnkAuthFailWarn : W16 := 0x1607
def lnkMemberJoined : W16 := 0x0608
def lnkMemberLost : W16 := 0x1609
def lnkResetDenied : W16 := 0x160A
def lnkRekey : W16 := 0x060B
def collDescBad : W16 := 0x260C
def collStep : W16 := 0x260D
def memTrainFail : W16 := 0x3701
def memDeviceParity : W16 := 0x3702
def memPoisonFull : W16 := 0x3703
def memPoison : W16 := 0x2704
def memSpdParity : W16 := 0x2705
def memReplay : W16 := 0x0706
def memRefetch : W16 := 0x1707
def memBaseStuck : W16 := 0x1708
def memSpdRefill : W16 := 0x1709
def memDomainMiss : W16 := 0x170A
def memCmdRefused : W16 := 0x170B
def memCmdBusy : W16 := 0x170C
def memScrubDone : W16 := 0x070D
def memSramOver : W16 := 0x170E
def baseUnrepairable : W16 := 0x3801
def firnRefetchFail : W16 := 0x2802
def firnInstallDone : W16 := 0x0803
def firnInstallFail : W16 := 0x1804
def firnCmdRefused : W16 := 0x1805
def firnSlotDamaged : W16 := 0x1806
def firnReadFail : W16 := 0x1807
def baseSwapDone : W16 := 0x0808
def baseSwapFail : W16 := 0x1809
def baseGenFreed : W16 := 0x080A
def sweepRepair : W16 := 0x180B
def firnWearHigh : W16 := 0x180C
def firnStripeRetired : W16 := 0x180D
def firnHot : W16 := 0x180E
def updDescBad : W16 := 0x2901
def updNonfinite : W16 := 0x1902
def lrStale : W16 := 0x1903
def stepSkew : W16 := 0x1904
def updWithheld : W16 := 0x1905
def updStepSkipped : W16 := 0x0906
def updParkApplied : W16 := 0x0907
def seqAddr : W16 := 0x2A01
def seqFetch : W16 := 0x2A02
def seqDecode : W16 := 0x2A03
def seqTile : W16 := 0x2A04
def seqPriv : W16 := 0x2A05
def seqLoop : W16 := 0x2A06
def routeCap : W16 := 0x2A07
def accIntSat : W16 := 0x1B01
def accDescBad : W16 := 0x2B02
def accOpenBusy : W16 := 0x2B03
def accNotOwner : W16 := 0x2B04
def accShape : W16 := 0x2B05
def accReplay : W16 := 0x0B06
def accPoison : W16 := 0x2B07
def vecOpBad : W16 := 0x2C01
def vecAddr : W16 := 0x2C02
def vecReplay : W16 := 0x0C03
def vecParity : W16 := 0x2C04
def semWindowBusy : W16 := 0x2D01
def semRange : W16 := 0x2D02
def semAddr : W16 := 0x2D03
def semSat : W16 := 0x2D04
def barBusy : W16 := 0x2D05
def barSkew : W16 := 0x2D06
def realignUnder : W16 := 0x2D07
def semStray : W16 := 0x1D08
def semSetDenied : W16 := 0x1D09
def semManualSet : W16 := 0x1D0A
def varTableBad : W16 := 0x2E01
def varBaseMismatch : W16 := 0x2E02
def varFaulted : W16 := 0x2E03
def varEvicted : W16 := 0x0E04
def varUnloaded : W16 := 0x0E05
def varRemoved : W16 := 0x0E06

/-- The counter-saturation event of a block (17 R446). -/
def saturated (block : Nat) : W16 := BitVec.ofNat 16 (0x10FF + 0x100 * block)

/-- Severity of a code (17 R437). -/
def severity (c : W16) : Nat := c.toNat / 0x1000

end Sys2Proof.Machine.Ev

namespace Sys2Proof.Machine.Stat

def ok : Nat := 0
def busy : Nat := 1
def notReady : Nat := 2
def variantGone : Nat := 3
def domainRevoked : Nat := 4
def stepSkipped : Nat := 5
def deferred : Nat := 6
def aborted : Nat := 7
def memberLost : Nat := 8
def fault : Nat := 15

end Sys2Proof.Machine.Stat
end

