-- ==== Sys2Proof/Config.lean ====
section
/-! DEFINITION. Sys2Proof/Config.lean: what one implementation fixes, and the free values: opaque constants with no body, so that no proof can lean on a value the spec leaves open. Each names its rule and its log entry. -/

namespace Sys2Proof.Config

open Sys2Proof

/-- The first `n` bytes, with zeros where there are fewer: a value of the size that 13 Table 13.1 gives it. -/
def sized (n : Nat) (l : Bytes) : Bytes := (l ++ List.replicate (n - l.length) 0).take n

/-- A fresh free value, numbered by `State.free` (log 3). -/
opaque freeBits : Nat → BitVec 512

/-- GLB_ID.stepping, fixed in silicon (15 R422 Table 15.22; log 5). -/
opaque stepping : BitVec 8
/-- GLB_ID.rom, fixed in silicon (15 R422 Table 15.22; log 5). -/
opaque romRelease : BitVec 8

/-- The vector engine's functions where 04 R92 gives a bound and no value: a function of the input alone,
the same on every Y2. Indexed by the func code of Table 5.8 (log 9). -/
opaque transcendental : Nat → W32 → W32

/-- How an addition into a run register breaks a tie: 02 R43 bounds the error, it names no tie rule (log 10). -/
opaque runTieUp : (mant : Nat) → Bool

/-- Byte i of the SHAKE256 output over an input (FIPS 202; 13 R343; log 11). -/
opaque shakeByte : Bytes → Nat → Byte
/-- SHAKE256: `n` bytes of output over the input (13 R343; log 11). -/
def shake256 (l : Bytes) (n : Nat) : Bytes := (List.range n).map (shakeByte l)
/-- Byte i of the AES-256-CTR key stream of a key and nonce (13 R343; log 11). -/
opaque gcmStream : Bytes → Bytes → Nat → Byte
/-- The AES-256-GCM tag: key, nonce, additional data, ciphertext (13 R343; log 11). -/
opaque gcmTag : Bytes → Bytes → Bytes → Bytes → BitVec 128
/-- The key stream from byte `i` on over a string of bytes, which undoes itself. -/
def gcmXorAt (k n : Bytes) (i : Nat) (l : Bytes) : Bytes := l.zipIdx.map fun e => e.1 ^^^ gcmStream k n (i + e.2)
def gcmXor (k n l : Bytes) : Bytes := gcmXorAt k n 0 l
/-- The tag as bytes. -/
def gcmTagBytes (k n a c : Bytes) : Bytes := (List.range 16).map fun i => (gcmTag k n a c).extractLsb' (8 * i) 8
/-- AES-256-GCM seal: key, nonce, additional data, plaintext to ciphertext and tag (13 R343; log 11). -/
def gcmSeal (k n a p : Bytes) : Bytes := gcmXor k n p ++ gcmTagBytes k n a (gcmXor k n p)
/-- AES-256-GCM open: none when the tag fails (13 R343; log 11). -/
def gcmOpen (k n a l : Bytes) : Option Bytes :=
  let c := l.take (l.length - 16)
  if 16 ≤ l.length ∧ l.drop (l.length - 16) = gcmTagBytes k n a c then some (gcmXor k n c) else none
/-- AES-256-XTS of one 64 B line (IEEE 1619; 07 R172; log 11): the 64 B pair of a data half and the tweak key (13 Tables 13.1, 13.2),
tweak, plaintext, byte number. -/
opaque xtsByte : Bytes → Nat → Bytes → Fin 64 → Byte
def xtsSeal (k : Bytes) (tweak : Nat) (l : Bytes) : Bytes := (List.finRange 64).map (xtsByte k tweak l)
/-- The SLH-DSA public key of the seeds of a private key (FIPS 205; 13 R343; log 11). -/
opaque slhPublicRaw : Bytes → Bytes
/-- The same in the size of 13 Table 13.1. -/
def slhPublic (seeds : Bytes) : Bytes := sized 64 (slhPublicRaw seeds)
/-- Byte i after the randomizer of the signature that the holder of a public key makes (FIPS 205; log 11): parameter set by its signature
length, public key, message, randomizer. -/
opaque slhByte : Nat → Bytes → Bytes → Bytes → Nat → Byte
/-- The signature of `n` bytes that the holder of a public key makes over a message with a randomizer, which it begins with. -/
def slhMake (n : Nat) (key msg r : Bytes) : Bytes := sized 32 r ++ (List.range (n - 32)).map (slhByte n key msg (sized 32 r))
/-- SLH-DSA verification (13 R343): no signature but one that the key's holder makes verifies (log 11). -/
def slhVerify (n : Nat) (key msg sig : Bytes) : Bool := sig == slhMake n key msg (sig.take 32)
/-- Signature lengths of SLH-DSA-SHAKE-256s and 256f (13 Table 13.1). -/
def slhS : Nat := 29792
def slhF : Nat := 49856
/-- The catalogue of the ROM for the state-machine tables (14 R375; log 6), by kind: state, event, and the least and greatest timer. -/
opaque smCatalogue : Nat → List (Nat × Nat × Nat × Nat)
/-- The contract defaults of the ROM copy, which the spec does not state (14 R373; log 6). -/
opaque romServePct : Fin 101
opaque romBulkJobs : Fin 65
/-- The IEEE 1149.1 identification code, which the spec does not state (13 R366; log 5). -/
opaque idcode : BitVec 32
/-- ML-KEM-1024 encapsulation key of a seed (13 R343; log 11). -/
opaque kemPublicRaw : Bytes → Bytes
/-- The same in the size of 13 Table 13.1. -/
def kemPublic (seed : Bytes) : Bytes := sized 1568 (kemPublicRaw seed)
/-- ML-KEM-1024 decapsulation: seed and ciphertext to the shared secret; it reports no error (13 R349; log 11). -/
opaque kemDecapRaw : Bytes → Bytes → Bytes
/-- The same in the size of 13 Table 13.1. -/
def kemDecap (seed ct : Bytes) : Bytes := sized 32 (kemDecapRaw seed ct)
/-- ML-KEM-1024 encapsulation: key and randomness to ciphertext and shared secret (13 R352; log 11). -/
opaque kemEncapRaw : Bytes → Bytes → Bytes × Bytes
/-- The same in the size of 13 Table 13.1. -/
def kemEncap (key r : Bytes) : Bytes × Bytes := (sized 1568 (kemEncapRaw key r).1, sized 32 (kemEncapRaw key r).2)
/-- The three 32 B seeds of the identity key, blown into fuses (13 R345; log 5). -/
opaque identitySeedRaw : Bytes
/-- The same in the size of 13 R345. -/
def identitySeed : Bytes := sized 96 identitySeedRaw
/-- The length of this part's identity certificate, at most 32 KiB, and its bytes (13 R345; log 5). -/
opaque identityCertLen : Fin 32769
opaque identityCertByte : Nat → Byte
/-- The identity certificate of this part (13 R345; log 5). -/
def identityCert : Bytes := (List.range identityCertLen.val).map identityCertByte
/-- The Krebaris root public key (13 R345; log 5). -/
opaque rootKeyRaw : Bytes
/-- The same in the size of 13 Table 13.1. -/
def rootKey : Bytes := sized 64 rootKeyRaw
/-- The digest of the root key that the fuses hold (13 R345). -/
def rootDigest : Bytes := shake256 rootKey 32
/-- The measurement of the 256 KiB ROM (13 R346; log 5). -/
opaque romMeas : Bytes

/-- How a checkpoint lays out its fields in the 124 B after its magic: the spec's list of them does not fit (12 R339; log 3). -/
opaque checkpoint : Bytes → Bytes

end Sys2Proof.Config
end

