-- ==== Sys2Proof/Machine/Bits.lean ====
section
/-! DEFINITION. Sys2Proof/Machine/Bits.lean: bit fields, byte order (little-endian, 00 Conventions), serial-number arithmetic (00 R447), CRC-32C, and the sparse maps in canonical form that State uses. -/

namespace Sys2Proof.Machine

open Sys2Proof

/-- The field of `len` bits of `n` that starts at bit `lo`. -/
def fld (n lo len : Nat) : Nat := n / 2 ^ lo % 2 ^ len

/-- Bits [hi:lo] of a word, as the register tables write them (00 Conventions). -/
def bitsOf {w : Nat} (x : BitVec w) (hi lo : Nat) : Nat := fld x.toNat lo (hi + 1 - lo)

/-- One bit of a word. -/
def bitOf {w : Nat} (x : BitVec w) (i : Nat) : Bool := x.toNat / 2 ^ i % 2 == 1

/-- `v` placed in the field of `len` bits at `lo` of `n`. -/
def setFld (n lo len v : Nat) : Nat := n - fld n lo len * 2 ^ lo + v % 2 ^ len * 2 ^ lo

/-- 1 for true. -/
def b2n (b : Bool) : Nat := if b then 1 else 0

/-- Multi-byte fields in memory are little-endian (00 Conventions). -/
def leNat : Bytes → Nat
  | [] => 0
  | b :: r => b.toNat + 256 * leNat r

/-- `n` bytes of a number, lowest first. -/
def leBytes : (n : Nat) → Nat → Bytes
  | 0, _ => []
  | k + 1, x => BitVec.ofNat 8 x :: leBytes k (x / 256)

/-- `n` bytes of `l` from byte `i`, as a number; bytes beyond the end read as zero. -/
def leAt (l : Bytes) (i n : Nat) : Nat := leNat ((l.drop i).take n)

/-- Rounds up to a multiple of `k`. -/
def alignUp (x k : Nat) : Nat := (x + k - 1) / k * k

/-- ⌈x / k⌉. -/
def ceilDiv (x k : Nat) : Nat := (x + k - 1) / k

/-- 00 R447: `a` is ahead of `b` in an n-bit serial space. -/
def serialAhead (n a b : Nat) : Bool :=
  let d := (a + 2 ^ n - b % 2 ^ n) % 2 ^ n
  decide (1 ≤ d) && decide (d < 2 ^ (n - 1))

/-- 00 R447: `a` is behind `b`; half the space counts as behind. -/
def serialBehind (n a b : Nat) : Bool :=
  let d := (a + 2 ^ n - b % 2 ^ n) % 2 ^ n
  decide (2 ^ (n - 1) ≤ d)

/-- The serially greater of two 32-bit generation numbers (08 R208). -/
def serialMax (a b : W32) : W32 := if serialAhead 32 a.toNat b.toNat then a else b

/-- The greater of two recorded generation numbers, 0 standing for none (08 R208). -/
def genMax (a b : W32) : W32 := if b = 0 then a else if a = 0 then b else serialMax a b

/-- The next 32-bit generation number; 0 is passed over (08 R208, 14 R381). -/
def nextGen (g : W32) : W32 := if g + 1 = 0 then 1 else g + 1

/-- Signed value of the low `w` bits of `n` (two's complement). -/
def sext (w n : Nat) : Int :=
  let m := n % 2 ^ w
  if m < 2 ^ (w - 1) then (m : Int) else (m : Int) - (2 ^ w : Nat)

/-- Clamps an integer to a range. -/
def clampInt (lo hi x : Int) : Int := if x < lo then lo else if hi < x then hi else x

/-- One step of the CRC-32C shift register (reflected polynomial 0x82F63B78). -/
def crcBit (c : Nat) : Nat := if c % 2 = 1 then c / 2 ^^^ 0x82F63B78 else c / 2

/-- CRC-32C of a byte string (08 R191, Table 8.4; log 11). -/
def crc32c (l : Bytes) : Nat :=
  (l.foldl (fun c b => (List.range 8).foldl (fun c _ => crcBit c) (c ^^^ b.toNat)) 0xFFFF_FFFF) ^^^ 0xFFFF_FFFF

/-- A sparse map with a default: what an unlisted key reads as is the default. -/
abbrev SMap (α : Type) := List (Nat × α)

/-- Lookup: the default for an unlisted key. -/
def mget {α : Type} (d : α) : SMap α → Nat → α
  | [], _ => d
  | (k, v) :: r, i => if k = i then v else mget d r i

/-- Removes a key. -/
def merase {α : Type} (i : Nat) : SMap α → SMap α
  | [] => []
  | (k, v) :: r => if k = i then merase i r else (k, v) :: merase i r

/-- Inserts at the key's place in rising order. -/
def minsert {α : Type} (i : Nat) (x : α) : SMap α → SMap α
  | [] => [(i, x)]
  | (k, v) :: r => if i < k then (i, x) :: (k, v) :: r else (k, v) :: minsert i x r

/-- Update in canonical form: keys strictly rising, no entry equal to the default. -/
def mset {α : Type} [DecidableEq α] (d : α) (m : SMap α) (i : Nat) (x : α) : SMap α :=
  if x = d then merase i m else minsert i x (merase i m)

/-- The canonical form: keys strictly rising and no entry equal to the default. -/
def mwf {α : Type} [DecidableEq α] (d : α) : SMap α → Bool
  | [] => true
  | [(_, v)] => decide (v ≠ d)
  | (k, v) :: (k', v') :: r => decide (v ≠ d) && decide (k < k') && mwf d ((k', v') :: r)

/-- Writes consecutive bytes from key `i`. -/
def mputBytes (m : SMap Byte) (i : Nat) : Bytes → SMap Byte
  | [] => m
  | b :: r => mputBytes (mset 0 m i b) (i + 1) r

/-- Reads `n` consecutive bytes from key `i`. -/
def mgetBytes (m : SMap Byte) (i : Nat) : (n : Nat) → Bytes
  | 0 => []
  | k + 1 => mget 0 m i :: mgetBytes m (i + 1) k

/-- Replaces element `i` of a list; out of range it changes nothing. -/
def lset {α : Type} (l : List α) (i : Nat) (x : α) : List α := l.set i x

/-- Serial sum of a list of Nats. -/
def nsum (l : List Nat) : Nat := l.foldl (· + ·) 0

/-- The greatest of a list of Nats; 0 for none. -/
def nmax (l : List Nat) : Nat := l.foldl Nat.max 0

/-- Exactly `n` bytes. -/
def fitBytes (n : Nat) (l : Bytes) : Bytes := (l ++ List.replicate (n - l.length) 0).take n

end Sys2Proof.Machine
end

