-- ==== Sys2Proof/Machine/Flt.lean ====
section
/-! DEFINITION. Sys2Proof/Machine/Flt.lean: the floating-point formats of 02 R29, their special values (R30), and exact arithmetic narrowed once: every operation computes the exact dyadic value and rounds it at the end. -/

namespace Sys2Proof.Machine

open Sys2Proof

/-- An exact value: NaN, a signed infinity, or (−1)^neg × m × 2^e. A zero keeps its sign (02 R30). -/
inductive FVal where
  | nan
  | inf (neg : Bool)
  | fin (neg : Bool) (m : Nat) (e : Int)
deriving DecidableEq, Repr

/-- A floating-point layout of Table 2.2. `e4m3` has no infinities (Table 2.3). -/
structure FFmt where
  eb : Nat
  fb : Nat
  bias : Nat
  e4m3 : Bool
deriving DecidableEq, Repr

def fmtF32 : FFmt := ⟨8, 23, 127, false⟩
def fmtBF16 : FFmt := ⟨8, 7, 127, false⟩
def fmtF16 : FFmt := ⟨5, 10, 15, false⟩
def fmtE4M3 : FFmt := ⟨4, 3, 7, true⟩
def fmtE5M2 : FFmt := ⟨5, 2, 15, false⟩
def fmtRun : FFmt := ⟨8, 15, 127, false⟩

/-- Exponent of the least bit of the subnormals. -/
def FFmt.q (f : FFmt) : Int := 1 - (f.bias : Int) - (f.fb : Int)

/-- Magnitude bits of the largest finite value (Table 2.2). -/
def FFmt.maxMag (f : FFmt) : Nat :=
  if f.e4m3 then 2 ^ (f.eb + f.fb) - 2 else (2 ^ f.eb - 1) * 2 ^ f.fb - 1

/-- Magnitude bits of infinity; in E4M3 there is none. -/
def FFmt.infMag (f : FFmt) : Nat := (2 ^ f.eb - 1) * 2 ^ f.fb

/-- The canonical NaN (Table 2.3), sign 0. -/
def FFmt.nanBits (f : FFmt) : Nat :=
  if f.e4m3 then 2 ^ (f.eb + f.fb) - 1 else f.infMag + 2 ^ (f.fb - 1)

/-- The sign bit's weight. -/
def FFmt.signW (f : FFmt) : Nat := 2 ^ (f.eb + f.fb)

/-- The value an encoding stands for (02 R29, R30). -/
def FFmt.decode (f : FFmt) (b : Nat) : FVal :=
  let neg := fld b (f.eb + f.fb) 1 == 1
  let ex := fld b f.fb f.eb
  let fr := fld b 0 f.fb
  if ex = 2 ^ f.eb - 1 ∧ (¬ f.e4m3 ∨ fr = 2 ^ f.fb - 1) then
    if ¬ f.e4m3 ∧ fr = 0 then .inf neg else .nan
  else if ex = 0 then .fin neg fr f.q
  else .fin neg (2 ^ f.fb + fr) (f.q + (ex - 1 : Nat))

/-- The magnitude m × 2^e split at the format's grid: truncated mantissa, exponent of its unit,
the remainder and the remainder's range. -/
structure Split where
  mant : Nat
  t : Int
  rem : Nat
  range : Nat
deriving DecidableEq, Repr

def FFmt.split (f : FFmt) (m : Nat) (e : Int) : Split :=
  let t0 : Int := (Nat.log2 m + 1 : Nat) + e - (f.fb + 1 : Nat)
  let t := if m = 0 then f.q else max t0 f.q
  if t ≤ e then ⟨m * 2 ^ (e - t).toNat, t, 0, 1⟩
  else
    let sh := (t - e).toNat
    ⟨m / 2 ^ sh, t, m % 2 ^ sh, 2 ^ sh⟩

/-- Magnitude bits of mant × 2^t on the format's grid. -/
def FFmt.magBits (f : FFmt) (mant : Nat) (t : Int) : Nat := (t - f.q).toNat * 2 ^ f.fb + mant

/-- Magnitude rounded to nearest, ties to even; it may exceed `maxMag`. -/
def FFmt.rneMag (f : FFmt) (m : Nat) (e : Int) : Nat :=
  let s := f.split m e
  let up := decide (s.range < 2 * s.rem) || (decide (s.range = 2 * s.rem) && s.mant % 2 == 1)
  f.magBits (s.mant + b2n up) s.t

/-- Is the exact magnitude above the largest finite value? (Table 2.6) -/
def FFmt.aboveMax (f : FFmt) (m : Nat) (e : Int) : Bool :=
  let s := f.split m e
  decide (f.maxMag < f.magBits s.mant s.t) || (decide (f.maxMag = f.magBits s.mant s.t) && decide (0 < s.rem))

/-- With the sign placed. -/
def FFmt.withSign (f : FFmt) (neg : Bool) (mag : Nat) : Nat := mag + b2n neg * f.signW

/-- RNE to an IEEE format: NaN canonical, overflow to infinity (02 R30, R34). E4M3 never comes here except
through `conv`. -/
def FFmt.round (f : FFmt) : FVal → Nat
  | .nan => f.nanBits
  | .inf neg => f.withSign neg f.infMag
  | .fin neg m e =>
    let g := f.rneMag m e
    f.withSign neg (if f.maxMag < g then f.infMag else g)

/-- FP32 value of 32 bits. -/
def f32 (b : W32) : FVal := fmtF32.decode b.toNat
/-- FP32 bits by RNE. -/
def toF32 (v : FVal) : W32 := BitVec.ofNat 32 (fmtF32.round v)

def FVal.isNan : FVal → Bool
  | .nan => true
  | _ => false
def FVal.isInf : FVal → Bool
  | .inf _ => true
  | _ => false
def FVal.isFinite : FVal → Bool
  | .fin _ _ _ => true
  | _ => false
/-- Zero of either sign. -/
def FVal.isZero : FVal → Bool
  | .fin _ 0 _ => true
  | _ => false
/-- The sign bit; false for NaN. -/
def FVal.sign : FVal → Bool
  | .nan => false
  | .inf n => n
  | .fin n _ _ => n

def FVal.neg : FVal → FVal
  | .nan => .nan
  | .inf n => .inf !n
  | .fin n m e => .fin (!n) m e

def FVal.abs : FVal → FVal
  | .nan => .nan
  | .inf _ => .inf false
  | .fin _ m e => .fin false m e

/-- Exact value of an integer. -/
def FVal.ofInt (x : Int) : FVal := .fin (decide (x < 0)) x.natAbs 0

/-- A finite value as an integer multiple of 2^g, for g at most its exponent. -/
def scaled (neg : Bool) (m : Nat) (e g : Int) : Int :=
  let v : Int := (m * 2 ^ (e - g).toNat : Nat)
  if neg then -v else v

/-- Exact sum; ∞ − ∞ is NaN; an exact zero of unlike signs is +0 (02 R30). -/
def FVal.add : FVal → FVal → FVal
  | .nan, _ => .nan
  | _, .nan => .nan
  | .inf a, .inf b => if a = b then .inf a else .nan
  | .inf a, _ => .inf a
  | _, .inf b => .inf b
  | .fin n1 m1 e1, .fin n2 m2 e2 =>
    if m1 = 0 ∧ m2 = 0 then .fin (n1 && n2) 0 0
    else
      let g := min e1 e2
      let s := scaled n1 m1 e1 g + scaled n2 m2 e2 g
      .fin (decide (s < 0)) s.natAbs g

/-- Exact product; 0 × ∞ is NaN. -/
def FVal.mul : FVal → FVal → FVal
  | .nan, _ => .nan
  | _, .nan => .nan
  | .inf a, .inf b => .inf (a != b)
  | .inf a, .fin b m _ => if m = 0 then .nan else .inf (a != b)
  | .fin b m _, .inf a => if m = 0 then .nan else .inf (a != b)
  | .fin a m1 e1, .fin b m2 e2 => .fin (a != b) (m1 * m2) (e1 + e2)

/-- Quotient with a sticky low bit, enough for one exact rounding (04 R92 Table 4.3). -/
def FVal.div : FVal → FVal → FVal
  | .nan, _ => .nan
  | _, .nan => .nan
  | .inf _, .inf _ => .nan
  | .inf a, .fin b _ _ => .inf (a != b)
  | .fin a _ _, .inf b => .fin (a != b) 0 0
  | .fin a m1 e1, .fin b m2 e2 =>
    if m2 = 0 then (if m1 = 0 then .nan else .inf (a != b))
    else
      let n := m1 * 2 ^ 64
      .fin (a != b) (n / m2 * 2 + b2n (n % m2 != 0)) (e1 - e2 - 65)

/-- Integer square root, one bit a round from 2^(k−1) down. -/
def isqrt (n : Nat) : (k : Nat) → (acc : Nat) → Nat
  | 0, acc => acc
  | k + 1, acc => isqrt n k (if (acc + 2 ^ k) * (acc + 2 ^ k) ≤ n then acc + 2 ^ k else acc)

/-- Square root with a sticky low bit (04 R92 Table 4.3). -/
def FVal.sqrt : FVal → FVal
  | .nan => .nan
  | .inf n => if n then .nan else .inf false
  | .fin n m e =>
    if m = 0 then .fin n 0 0
    else if n then .nan
    else
      let e' : Int := if e % 2 = 0 then e else e - 1
      let m' := (if e % 2 = 0 then m else 2 * m) * 2 ^ 64
      let r := isqrt m' 64 0
      .fin false (2 * r + b2n (r * r != m')) (e' / 2 - 33)

/-- Numerical order: some true when a < b, some false when not; none when either is NaN. +0 equals −0. -/
def FVal.lt : FVal → FVal → Option Bool
  | .nan, _ => none
  | _, .nan => none
  | .inf a, .inf b => some (a && !b)
  | .inf a, _ => some a
  | _, .inf b => some (!b)
  | .fin n1 m1 e1, .fin n2 m2 e2 =>
    let g := min e1 e2
    some (decide (scaled n1 m1 e1 g < scaled n2 m2 e2 g))

/-- Numerical equality. -/
def FVal.eqv (a b : FVal) : Bool := a.lt b == some false && b.lt a == some false

/-- min and max order −0 below +0 (04 R91). -/
def FVal.ltZ (a b : FVal) : Bool :=
  if a.isZero && b.isZero then a.sign && !b.sign else a.lt b == some true

/-- 04 R91: min; a NaN input yields the other input. -/
def FVal.min (a b : FVal) : FVal := if a.isNan then b else if b.isNan then a else if a.ltZ b then a else b
/-- 04 R91: max. -/
def FVal.max (a b : FVal) : FVal := if a.isNan then b else if b.isNan then a else if a.ltZ b then b else a

/-- One FP32 operation with RNE. -/
def fadd (a b : W32) : W32 := toF32 ((f32 a).add (f32 b))
def fsub (a b : W32) : W32 := toF32 ((f32 a).add (f32 b).neg)
def fmul (a b : W32) : W32 := toF32 ((f32 a).mul (f32 b))
def fdiv (a b : W32) : W32 := toF32 ((f32 a).div (f32 b))
def fsqrt (a : W32) : W32 := toF32 (f32 a).sqrt
def fmax (a b : W32) : W32 := toF32 ((f32 a).max (f32 b))
def flt (a b : W32) : Bool := (f32 a).lt (f32 b) == some true

/-- FP32 +0 and 1.0. -/
def f32Zero : W32 := 0
def f32One : W32 := 0x3F80_0000
/-- ±∞ of FP32. -/
def f32Inf (neg : Bool) : W32 := if neg then 0xFF80_0000 else 0x7F80_0000

end Sys2Proof.Machine
end

