-- ==== Sys2Proof/Machine/Conv.lean ====
section
/-! DEFINITION. Sys2Proof/Machine/Conv.lean: format codes (02 R28), element values, the conversion control field (R33) and conversion (R34 to R37), compensated pairs (R48), the random generator Philox-4x32-10 (04 R100). -/

namespace Sys2Proof.Machine

open Sys2Proof

/-- The format codes of Table 2.1 that name a format. -/
inductive Fmt where
  | fp32 | bf16 | fp16 | e4m3 | e5m2 | int8 | uint8 | int4 | int32 | run | pair
deriving DecidableEq, Repr

/-- Table 2.1; codes 0xB to 0xF are reserved. -/
def Fmt.ofCode : Nat → Option Fmt
  | 0 => some .fp32 | 1 => some .bf16 | 2 => some .fp16 | 3 => some .e4m3 | 4 => some .e5m2
  | 5 => some .int8 | 6 => some .uint8 | 7 => some .int4 | 8 => some .int32 | 9 => some .run
  | 10 => some .pair
  | _ => none

def Fmt.code : Fmt → Nat
  | .fp32 => 0 | .bf16 => 1 | .fp16 => 2 | .e4m3 => 3 | .e5m2 => 4 | .int8 => 5 | .uint8 => 6
  | .int4 => 7 | .int32 => 8 | .run => 9 | .pair => 10

/-- Width in bits (Table 2.1). -/
def Fmt.width : Fmt → Nat
  | .fp32 => 32 | .bf16 => 16 | .fp16 => 16 | .e4m3 => 8 | .e5m2 => 8 | .int8 => 8 | .uint8 => 8
  | .int4 => 4 | .int32 => 32 | .run => 24 | .pair => 32

/-- Width in whole bytes of the byte-wide formats; INT4 counts as 1 and never stands in a register. -/
def Fmt.bytes (f : Fmt) : Nat := ceilDiv f.width 8

/-- The floating-point layout of a format, if it is one of Table 2.2. -/
def Fmt.flt? : Fmt → Option FFmt
  | .fp32 => some fmtF32 | .bf16 => some fmtBF16 | .fp16 => some fmtF16
  | .e4m3 => some fmtE4M3 | .e5m2 => some fmtE5M2 | .run => some fmtRun
  | _ => none

def Fmt.isFloat (f : Fmt) : Bool := f.flt?.isSome
def Fmt.isInt : Fmt → Bool
  | .int8 | .uint8 | .int4 | .int32 => true
  | _ => false

/-- Table 2.4, column Matrix operand. -/
def Fmt.okOperand : Fmt → Bool
  | .int32 | .run | .pair => false
  | _ => true
/-- Table 2.4, column Epilogue output. -/
def Fmt.okOutput : Fmt → Bool
  | .int4 | .run => false
  | _ => true
/-- Table 2.4, column Vector engine (the pair as input only). -/
def Fmt.okVector : Fmt → Bool
  | .int4 | .run => false
  | _ => true

/-- The integer value of an element (02 R29). -/
def Fmt.intVal (f : Fmt) (b : Nat) : Int :=
  match f with
  | .uint8 => (b % 256 : Nat)
  | .int8 => sext 8 b
  | .int4 => sext 4 b
  | _ => sext 32 b

/-- The range of an integer format (02 R29). -/
def Fmt.intRange : Fmt → Int × Int
  | .uint8 => (0, 255)
  | .int8 => (-128, 127)
  | .int4 => (-8, 7)
  | _ => (-2147483648, 2147483647)

/-- 02 R48: hi + lo, exact in FP32. -/
def pairVal (b : Nat) : FVal := (fmtBF16.decode (fld b 0 16)).add (fmtBF16.decode (fld b 16 16))

/-- The exact value of an element; integers exactly, a compensated pair as hi + lo (02 R48). -/
def Fmt.val (f : Fmt) (b : Nat) : FVal :=
  match f.flt? with
  | some g => g.decode b
  | none => if f = .pair then pairVal b else FVal.ofInt (f.intVal b)

/-- An element as FP32: floats exactly, integers by RNE (05 R112). -/
def Fmt.f32 (f : Fmt) (b : Nat) : W32 := toF32 (f.val b)

/-- A NaN in an element. -/
def Fmt.isNanBits (f : Fmt) (b : Nat) : Bool := (f.val b).isNan

/-- The conversion control field of Table 2.5. -/
structure ConvCtl where
  dst : Fmt
  stoch : Bool
  nonsat : Bool
  amaxEn : Bool
  amaxRow : Bool
  zpEn : Bool
deriving DecidableEq, Repr

/-- Decodes the 12-bit field. None: a reserved encoding, or a request that R32, R33 or R36 ends with FAULT
(stochastic to another destination than BF16, E4M3, E5M2; nonsat elsewhere than E4M3, E5M2; zp_en for a
floating-point destination; INT4 or the run format). The compensated pair counts as no integer destination. -/
def ConvCtl.decode (n : Nat) : Option ConvCtl :=
  match Fmt.ofCode (fld n 8 4) with
  | none => none
  | some d =>
    let rnd := fld n 6 2
    let nonsat := fld n 5 1 == 1
    let zp := fld n 2 1 == 1
    if 2 ≤ rnd ∨ fld n 0 2 ≠ 0 then none
    else if ¬ d.okOutput then none
    else if rnd = 1 ∧ ¬ (d = .bf16 ∨ d = .e4m3 ∨ d = .e5m2) then none
    else if nonsat ∧ ¬ (d = .e4m3 ∨ d = .e5m2) then none
    else if zp ∧ ¬ d.isInt then none
    else some ⟨d, rnd == 1, nonsat, fld n 4 1 == 1, fld n 3 1 == 1, zp⟩

/-- What a conversion of one element gives: the bits, whether the input counts as saturated (02 R41),
whether a finite input became infinite or was clamped (flags of Table 4.4). -/
structure ConvOut where
  bits : Nat
  sat : Bool
  ovf : Bool
  clamp : Bool
deriving DecidableEq, Repr

/-- Rounds an exact magnitude to an integer, ties to even (02 R37). -/
def rneInt (neg : Bool) (m : Nat) (e : Int) : Int :=
  if 0 ≤ e then scaled neg m e 0
  else
    let sh := (-e).toNat
    let k := m / 2 ^ sh
    let r := m % 2 ^ sh
    let up := decide (2 ^ sh < 2 * r) || (decide (2 ^ sh = 2 * r) && k % 2 == 1)
    let v : Int := (k + b2n up : Nat)
    if neg then -v else v

/-- 02 R35: the stochastic magnitude: u when F > G, else t. -/
def FFmt.stochMag (f : FFmt) (m : Nat) (e : Int) (g : Nat) : Nat :=
  let s := f.split m e
  let fr := 65536 * s.rem / s.range
  f.magBits (s.mant + b2n (decide (g < fr))) s.t

/-- 02 R34 Table 2.6: conversion to a floating-point destination. `g` is the 16-bit random value of R35. -/
def convFloat (c : ConvCtl) (f : FFmt) (v : FVal) (g : Nat) : ConvOut :=
  let sat8 := c.dst = .e4m3 ∨ c.dst = .e5m2
  match v with
  | .nan => ⟨f.nanBits, false, false, false⟩
  | .inf n =>
    if f.e4m3 then ⟨if c.nonsat then f.nanBits else f.withSign n f.maxMag, false, !c.nonsat, !c.nonsat⟩
    else if sat8 ∧ ¬ c.nonsat then ⟨f.withSign n f.maxMag, false, true, true⟩
    else ⟨f.withSign n f.infMag, false, false, false⟩
  | .fin n m e =>
    let big := f.aboveMax m e
    let mag := if c.stoch then f.stochMag m e g else f.rneMag m e
    if big ∧ sat8 ∧ ¬ c.nonsat then ⟨f.withSign n f.maxMag, true, true, true⟩
    else if big ∧ (c.stoch ∨ f.maxMag < mag) then
      ⟨if f.e4m3 then f.nanBits else f.withSign n f.infMag, false, !f.e4m3, false⟩
    else ⟨f.withSign n mag, false, false, false⟩

/-- 02 R37: conversion to an integer destination, the zero point added exactly before saturation. -/
def convInt (d : Fmt) (v : FVal) (zp : Int) : ConvOut :=
  let r := d.intRange
  let enc (x : Int) : Nat := (x % (2 ^ d.width : Nat)).toNat
  match v with
  | .nan => ⟨0, false, false, false⟩
  | .inf n => ⟨enc (if n then r.1 else r.2), false, false, true⟩
  | .fin n m e =>
    let x := rneInt n m e + zp
    let y := clampInt r.1 r.2 x
    let above := match (FVal.fin n m e).abs.lt (FVal.ofInt r.2) with
      | some true => false
      | _ => !((FVal.fin n m e).abs.eqv (FVal.ofInt r.2))
    ⟨enc y, decide (x ≠ y) && above, false, decide (x ≠ y)⟩

/-- 02 R48: the compensated pair. The rule speaks of an FP32 total; the integer total of an integer group that is not scaled gives hi and
lo from its exact value, not rounded to FP32 first (DESIGN CHOICE, log 13). -/
def convPair (v : FVal) : ConvOut :=
  match v with
  | .nan => ⟨fmtBF16.nanBits, false, false, false⟩
  | .inf n => ⟨fmtBF16.withSign n fmtBF16.infMag, false, false, false⟩
  | .fin n m e =>
    let big := decide (fmtBF16.maxMag < fmtBF16.rneMag m e)
    let hi := fmtBF16.withSign n (if big then fmtBF16.maxMag else fmtBF16.rneMag m e)
    let lo := fmtBF16.round (v.add (fmtBF16.decode hi).neg)
    ⟨hi + lo * 65536, big && fmtBF16.aboveMax m e, false, big⟩

/-- 02 R33 to R37, R48: one element converted. `zp` is used when zp_en is 1. -/
def convert (c : ConvCtl) (v : FVal) (g : Nat) (zp : Int) : ConvOut :=
  match c.dst.flt? with
  | some f => convFloat c f v g
  | none => if c.dst = .pair then convPair v else convInt c.dst v (if c.zpEn then zp else 0)

/-- Encodes with RNE under the saturating columns: the paths of 02 R34 without a control field of their own. -/
def encSat (d : Fmt) (v : FVal) : Nat := (convert ⟨d, false, false, false, false, false⟩ v 0 0).bits

/-- The ten rounds of Philox-4x32-10 (04 The random generator). -/
def philoxRounds : (n : Nat) → (c : Nat × Nat × Nat × Nat) → (k0 k1 : Nat) → Nat × Nat × Nat × Nat
  | 0, c, _, _ => c
  | n + 1, (c0, c1, c2, c3), k0, k1 =>
    let p0 := 0xD251_1F53 * c0
    let p1 := 0xCD9E_8D57 * c2
    philoxRounds n
      ((p1 / 2 ^ 32) ^^^ c1 ^^^ k0, p1 % 2 ^ 32, (p0 / 2 ^ 32) ^^^ c3 ^^^ k1, p0 % 2 ^ 32)
      ((k0 + 0x9E37_79B9) % 2 ^ 32) ((k1 + 0xBB67_AE85) % 2 ^ 32)

/-- The generator descriptor of Table 4.6. -/
structure GenDesc where
  seed : W64
  streamId : W32
  step : W32
  layer : W16
  purpose : W16
  posBase : W32
deriving DecidableEq, Repr

/-- The zero descriptor that a job starts with (04 R86). -/
def GenDesc.zero : GenDesc := ⟨0, 0, 0, 0, 0, 0⟩

/-- The four words for a block number c0 (04 R100). -/
def GenDesc.block (d : GenDesc) (c0 : Nat) : Nat × Nat × Nat × Nat :=
  philoxRounds 10 (c0, d.purpose.toNat * 65536 + d.layer.toNat, d.step.toNat, d.streamId.toNat)
    (d.seed.toNat % 2 ^ 32) (d.seed.toNat / 2 ^ 32)

/-- Word `i` of a block. -/
def word4 (x : Nat × Nat × Nat × Nat) (i : Nat) : Nat :=
  match i with
  | 0 => x.1
  | 1 => x.2.1
  | 2 => x.2.2.1
  | _ => x.2.2.2

/-- Position of element e (04 R100). -/
def GenDesc.pos (d : GenDesc) (e : Nat) : Nat := (d.posBase.toNat + e) % 2 ^ 32

/-- A 32-bit draw (04 R100). -/
def GenDesc.draw32 (d : GenDesc) (e : Nat) : Nat :=
  let p := d.pos e
  word4 (d.block (p / 4)) (p % 4)

/-- A 16-bit draw (04 R100, used by 02 R35). -/
def GenDesc.draw16 (d : GenDesc) (e : Nat) : Nat :=
  let p := d.pos e
  let w := word4 (d.block (p / 8)) (p % 8 / 2)
  if p % 2 = 0 then w % 65536 else w / 65536

/-- Table 4.6 decoded from 32 bytes. None: a reserved purpose (Table 4.7) or a non-zero reserved byte. -/
def GenDesc.decode (l : Bytes) : Option GenDesc :=
  let p := leAt l 18 2
  if (4 ≤ p ∧ p ≤ 0xFF) ∨ leAt l 24 8 ≠ 0 then none
  else some
    { seed := BitVec.ofNat 64 (leAt l 0 8), streamId := BitVec.ofNat 32 (leAt l 8 4),
      step := BitVec.ofNat 32 (leAt l 12 4), layer := BitVec.ofNat 16 (leAt l 16 2),
      purpose := BitVec.ofNat 16 p, posBase := BitVec.ofNat 32 (leAt l 20 4) }

end Sys2Proof.Machine
end

