-- ==== Sys2Proof/Machine/Types.lean ====
section
/-! DEFINITION. Sys2Proof/Machine/Types.lean: the records that State is made of, block by block, as plain data. A sparse map (`SMap`) holds the entries that differ from the default stated with it. -/

namespace Sys2Proof.Machine

open Sys2Proof

/-! ### Memory -/

/-- An address of one of the two spaces of 07 R153: a 33-bit scratchpad address or a 41-bit device address. -/
structure Addr where
  dev : Bool
  a : Nat
deriving DecidableEq, Repr

/-- Mode of a parcel or page (07 R156 Table 7.2). `priv` is 'private to the domain'. -/
inductive MemMode where
  | free | priv | base | device
deriving DecidableEq, Repr

/-- A scratchpad parcel of 64 KiB (07 Table 7.11, R157): one valid bit per 1 KiB line. `cache`: it holds a copy of a variant; the
parcels that the cache occupies are told by `Mem.cachePer` too. -/
structure Parcel where
  mode : MemMode := .free
  cache : Bool := false
  domain : Dom := 0
  valid : W64 := 0
deriving DecidableEq, Repr

/-- The tag of an 8 MiB page (07 R170). -/
structure Page where
  mode : MemMode := .free
  domain : Dom := 0
  scrubbing : Bool := false
deriving DecidableEq, Repr

/-- Who asks (07 R158 Table 7.3). `none`: a chain write whose job tag is not live. -/
inductive Req where
  | dom (d : Dom)
  | thaw
  | control
  | none
deriving DecidableEq, Repr

/-! ### Matrix arrays -/

/-- A tile with its base resolved: the rectangle of elements an instruction or group works on (05 R109). -/
structure Tile where
  fmt : Fmt
  addr : Addr
  rows : Nat
  cols : Nat
  pitch : Nat
  scl : Nat
deriving DecidableEq, Repr

/-- State of an accumulation group (03 R68). -/
inductive GrpState where
  | free | opened | closing | poisoned
deriving DecidableEq, Repr

/-- One chunk issued to a group and not yet promoted (03 R57, R58): positions [k0, k1) of K, and the piece pairs of its
passes in order (02 R46); `side` for a side pass (02 R52); `last` ends its instruction `id`. -/
structure Chunk where
  side : Bool
  a : Tile
  b : Tile
  metaT : Option Tile
  occ : Option Tile
  aK : Bool
  bK : Bool
  k0 : Nat
  k1 : Nat
  passes : List (Nat × Nat)
  last : Bool
  id : Nat
deriving DecidableEq, Repr

/-- The fields of the group descriptor of Table 3.6 that a close needs, decoded at open. -/
structure GrpDesc where
  raw : BitVec 1024
  target : Tile
  init : Option Tile
  out : Option Tile
  ew : Option Tile
deriving DecidableEq, Repr

/-- One accumulation group (03 Table 3.5, R69). `epilogued`: the outputs are written and CLOSE_DONE is due;
`dying`: its job was stopped while a chunk ran (05 R125); `gen`: the generator that its close took. -/
structure Group where
  state : GrpState := .free
  slot : SId := 0
  tag : Tag := 0
  replays : Byte := 0
  desc : Option GrpDesc := none
  chunks : List Chunk := []
  closeId : Nat := 0
  intSat : Bool := false
  rowSums : SMap Int := []
  epilogued : Bool := false
  dying : Bool := false
  gen : GenDesc := GenDesc.zero
deriving DecidableEq, Repr

/-! ### Vector engine -/

/-- The sticky flags of Table 4.4. -/
structure VFlags where
  intSat : Bool := false
  overflow : Bool := false
  dz : Bool := false
  invalid : Bool := false
  nanIn : Bool := false
deriving DecidableEq, Repr

/-- Context of one slot (04 R85 Table 4.1). `v`: byte 1024 r + i of the register file, default 0; `m`: mask
registers m1 to m7 by number, default 0. -/
structure VCtx where
  v : SMap Byte := []
  m : SMap (BitVec 256) := []
  vl : Nat := 1024
  gen : GenDesc := GenDesc.zero
  flags : VFlags := {}
deriving DecidableEq, Repr

/-! ### Sequencer -/

inductive SlotState where
  | idle | running | waiting | draining
deriving DecidableEq, Repr

/-- SEQ_SLOT_STATUS.wait (05 Table 5.12). -/
inductive WaitKind where
  | none | semaphore | barrier | hazard
deriving DecidableEq, Repr

/-- One active LOOP body (05 R119). -/
structure Loop where
  first : Nat
  len : Nat
  left : Nat
  index : W32
  xd : Nat
deriving DecidableEq, Repr

/-- Bytes an issued instruction reads or writes (05 R124): `len` bytes in each of `rows` rows, `pitch` apart. -/
structure Rng where
  addr : Addr
  len : Nat
  rows : Nat
  pitch : Nat
  write : Bool
deriving DecidableEq, Repr

/-- A semaphore of this or another node (06 R131). -/
structure SemRef where
  node : NodeId
  cluster : CId
  index : Nat
deriving DecidableEq, Repr

/-- Kind of an instruction that is issued and not complete (05 R124). -/
inductive OutKind where
  | move | route | acc | closing | remoteSignal
deriving DecidableEq, Repr

/-- An issued instruction that has not completed. `sem`: the semaphore it signals +1 at completion; `group`: the group
of an accumulate or close, whose own chunk order it follows (03 R73). -/
structure Outst where
  id : Nat
  kind : OutKind
  ranges : List Rng
  sem : Option SemRef
  group : Option GId
deriving DecidableEq, Repr

/-- Sequencer state of one slot (05 R105 Table 5.1) with SEQ_SLOT_CTL and SEQ_SLOT_STATUS. The loop stack has its
innermost body first; `firstUs`: the life clock at the stream's first instruction (12 R331). -/
structure Slot where
  strict : Bool := false
  weight : Nat := 4
  state : SlotState := .idle
  wait : WaitKind := .none
  waitIndex : Nat := 0
  tag : Tag := 0
  pc : W48 := 0
  x : SMap W32 := []
  p : SMap Bool := []
  t : SMap W64 := []
  b : SMap W48 := []
  s : SMap W48 := []
  loops : List Loop := []
  out : List Outst := []
  nextId : Nat := 0
  firstUs : Option W64 := none
deriving DecidableEq, Repr

/-- A slot blocked on a semaphore (06 R133, R135); the list of waiters is in arrival order. -/
structure Waiter where
  slot : SId
  sem : Nat
  take : Bool
  n : W32
deriving DecidableEq, Repr

/-- An arbiter's place in its round (05 R127): the slot whose turn it is and the grants it has taken in it. -/
structure Turn where
  slot : Nat := 0
  used : Nat := 0
deriving DecidableEq, Repr

/-- One cluster: scratchpad, sequencer, vector engine, groups, semaphores, pace monitor. `runs`: the two run registers of
each cell (03 R57), the last run in [23:0] and the one before in [47:24]; `stuck`: semaphores held at their limit
(06 R136); `owners`: the groups whose oldest chunk holds its array set now; `arrTurn`, `vecTurn`: the arbiters of the arrays
and of the vector engine (05 R127). -/
structure Cluster where
  bytes : SMap Byte := []
  parcels : SMap Parcel := []
  miss : W64 := 0
  missSat : Bool := false
  throttleStep : BitVec 8 := 0
  avgMsps : BitVec 12 := 0
  rateMsps : BitVec 12 := 0
  slots : SMap Slot := []
  vec : SMap VCtx := []
  groups : SMap Group := []
  runs : SMap (BitVec 48) := []
  owners : List GId := []
  arrTurn : Turn := {}
  vecTurn : Turn := {}
  sems : SMap W32 := []
  stuck : List Nat := []
  waiters : List Waiter := []
  semDrop : W64 := 0
  semDropSat : Bool := false
deriving DecidableEq, Repr

/-- Reset of slot `s`: S3 is strict (05 Table 5.11). -/
def Slot.init (s : Nat) : Slot := { strict := s == 3 }

/-! ### Barriers -/

inductive BarState where
  | free | armed | collecting | waitRelease | aborting
deriving DecidableEq, Repr

/-- A barrier object (06 R144, Tables 6.8 to 6.10). `blocked`: the slots waiting in it; `childIds`: the children
whose ARRIVE came. -/
structure Bar where
  state : BarState := .free
  tag : Tag := 0
  arrived : Nat := 0
  children : Nat := 0
  epStep : W32 := 0
  localArrivals : Nat := 0
  periodLog2 : Nat := 0
  realignEn : Bool := false
  list : List (SemRef × W32) := []
  blocked : List (CId × SId) := []
deriving DecidableEq, Repr

/-! ### Main memory -/

/-- One LPDDR5X controller (07 Tables 7.12, 7.13; R168, R174, R175). -/
structure MemCtl where
  replays : W64 := 0
  refetches : W64 := 0
  poisoned : W64 := 0
  miss : W64 := 0
  missSat : Bool := false
  replaysSat : Bool := false
  refetchesSat : Bool := false
  poisonedSat : Bool := false
  poison : List Nat := []
  stuck : List Nat := []
  refresh : BitVec 5 := 0
deriving DecidableEq, Repr

/-- A class of Table 7.8, as MEM_PRIO holds it. -/
structure Prio where
  strict : Bool
  weight : Nat
  ceiling : Nat
  subA : Nat
  subB : Nat
deriving DecidableEq, Repr

/-- What a scrub is for (07 R170): a command, an unload, a removal, a swap or a generation. -/
structure Scrub where
  first : Nat
  count : Nat
  byCmd : Bool
deriving DecidableEq, Repr

/-- MEM_CMD_STATUS.state (07 Table 7.17). -/
inductive CmdState where
  | idle | busy | done | refused
deriving DecidableEq, Repr

/-- Main memory with its commands, classes and tier sensors. `cachePer`: the parcels of highest number that the variant cache occupies
in each cluster (07 R161). -/
structure Mem where
  bytes : SMap Byte := []
  pages : SMap Page := []
  ctls : SMap MemCtl := []
  rate : Nat := 0
  density : Nat := 0
  ranks : Nat := 0
  trained : Bool := false
  usablePages : Nat := 0
  cmdState : CmdState := .idle
  qmode : MemMode := .free
  qdomain : Dom := 0
  reason : Nat := 0
  retagBusy : Bool := false
  scrubs : List Scrub := []
  refetching : List (Nat × Tag) := []
  prio : List Prio := [⟨true, 0, 25, 0, 0⟩, ⟨false, 6, 100, 0, 0⟩, ⟨false, 6, 100, 3, 1⟩, ⟨false, 1, 80, 1, 1⟩]
  tierStep : SMap Nat := []
  tierOver : SMap Bool := []
  tierTemp : SMap W16 := []
  tierHold : SMap Bool := []
  cachePer : Nat := 0
deriving DecidableEq, Repr

/-! ### Firn store and Thaw -/

/-- Table 8.1. -/
inductive FSlotState where
  | empty | installing | valid | damaged | erasing
deriving DecidableEq, Repr

/-- A segment table entry (Table 8.3) with the stored bytes. -/
structure Segment where
  entry : Bytes
  stored : Bytes
deriving DecidableEq, Repr

/-- A catalogue slot (08 R186, Table 8.10) and the image it holds. -/
structure FSlot where
  state : FSlotState := .empty
  stripes : List Nat := []
  position : W16 := 0
  imageVersion : W32 := 0
  chainTag : W64 := 0
  header : Bytes := []
  segments : List Segment := []
deriving DecidableEq, Repr

/-- One of the two copies of the catalogue in stripe 0, with the images that its slots name (08 R186). -/
structure CatCopy where
  seq : Nat := 0
  slots : SMap FSlot := []
  greatest : W32 := 0
  retired : List Nat := []
deriving DecidableEq, Repr

/-- A segment placed in scratchpad (08 R207): its scratchpad address, its bytes, and where they lie in the working copy. -/
structure Place where
  spd : Nat
  len : Nat
  dev : Nat
deriving DecidableEq, Repr

/-- A live generation on this node (08 R208, R209): where it lies, the working digests kept by R203 and the placed
segments. -/
structure Gen where
  num : W32
  slot : FSlotId
  first : Nat
  pages : Nat
  parcels : List (CId × Nat)
  digests : List Bytes
  places : List Place := []
deriving DecidableEq, Repr

/-- A Firn command in progress (Table 8.11). -/
structure FirnCmd where
  op : Nat
  slot : FSlotId
  src : Bool
  port : Nat
  positions : W16
  ringFrames : Nat
deriving DecidableEq, Repr

/-- An installation on this member (08 R197, R198). `piece`: the 4,016 B of a frame whose other 80 B are still to come (11 R292);
`staged`: bytes of segment data that wait in the staging area while programming has stopped. -/
structure Install where
  slot : FSlotId
  head : NodeId
  nextSeq : Nat := 0
  chainTag : Option W64 := none
  header : Bytes := []
  table : Bytes := []
  signature : Bytes := []
  verified : Bool := false
  segments : List Bytes := []
  ended : Bool := false
  done : List NodeId := []
  mineDone : Bool := false
  piece : Option Bytes := none
  staged : Nat := 0
deriving DecidableEq, Repr

/-- A base swap as this member sees it (08 R211). `start`: it is the thaw of a cold start (R214), whose number the coordinator gives
with COMMIT; `settle`: a member has been reset since, so the coordinator settles it. -/
structure Swap where
  slot : FSlotId
  gen : Gen
  ready : List NodeId
  mineReady : Bool
  thawed : Bool
  recorded : Bool
  start : Bool := false
  settle : Bool := false
deriving DecidableEq, Repr

/-- The Firn store and the generations. `halves`: the two halves of stripe 0; `seen`: the greatest generation number that a
catalogue of another member records, as far as this node has been told (08 R208, log 16); `catRead`: the controller has read the
catalogue since its last reset (08 R186), and shows it in its registers; `idCert`: the identity certificate in the high-endurance
area (13 R345). -/
structure Firn where
  slots : SMap FSlot := []
  greatest : W32 := 0
  seen : W32 := 0
  catSeq : Nat := 0
  halves : CatCopy × CatCopy := ({}, {})
  retired : List Nat := []
  wearHigh : List Nat := []
  cmdState : CmdState := .idle
  reason : Nat := 0
  progress : Nat := 0
  cmd : Option FirnCmd := none
  ring : W64 := 0
  prod : W32 := 0
  cons : W32 := 0
  install : Option Install := none
  current : Option Gen := none
  old : Option Gen := none
  swap : Option Swap := none
  sweepOn : Bool := false
  sweepAt : Nat := 0
  hotStop : Bool := false
  catRead : Bool := false
  idCert : Bytes := Config.identityCert
deriving DecidableEq, Repr

/-! ### Variants -/

/-- Table 9.1. -/
inductive VarState where
  | unregistered | dormant | loading | live | hot | unloading | removing | faulted
deriving DecidableEq, Repr

/-- A slice directory entry (Table 9.4). -/
structure DirEntry where
  offset : Nat
  stateOff : Nat
  layer : Nat
  kind : Nat
  slot : Nat
  baseSeg : Nat
  init : Nat
  spdCluster : Nat
  rows : Nat
  cols : Nat
  raw : Bytes
deriving DecidableEq, Repr

/-- A live serving generation of a variant (09 R229, R230): its number, the area that holds it (0 for A, 1 for B),
the device address of its working directory, whether its spd pointers are set. -/
structure ServGen where
  num : W32
  area : Nat
  dir : Nat
  spd : Bool
deriving DecidableEq, Repr

/-- A registered variant on this node: the descriptor of Table 9.2 and the node's record of it. `cacheParcels`: the copy numbered
`copyNo`; `oldCopies`: copies whose references have not cleared, by number; `was`: the state before a removal. -/
structure Variant where
  domain : Dom
  trainable : Bool
  cacheable : Bool
  rule : Nat
  modelId : W64
  baseMask : BitVec 256
  state : VarState := .dormant
  first : Nat := 0
  pages : Nat := 0
  sfirst : Nat := 0
  spages : Nat := 0
  dir : List DirEntry := []
  weightBytes : Nat := 0
  stateBytes : Nat := 0
  cur : Option ServGen := none
  old : Option ServGen := none
  stateIn : Bool := false
  noState : Bool := false
  pinned : Bool := false
  cacheParcels : List (CId × Nat) := []
  copyNo : Nat := 0
  oldCopies : List (Nat × List (CId × Nat)) := []
  filling : Bool := false
  evicting : Bool := false
  stateOut : Bool := false
  stateWait : Option Bytes := none
  copied : Bool := false
  was : VarState := .dormant
  unloadTo : W64 := 0
  lastAdmit : Nat := 0
deriving DecidableEq, Repr

structure Var where
  reg : List (Nat × Variant) := []
  cmdState : CmdState := .idle
  reason : Nat := 0
  qstate : Nat := 0
  qdomain : Dom := 0
  qgen : W32 := 0
  arg : W64 := 0
  pFirst : Nat := 0
  pCount : Nat := 1
  sFirst : Nat := 0
  sCount : Nat := 1
  fills : W64 := 0
  fillFails : W64 := 0
  evictions : W64 := 0
  fillsSat : Bool := false
  fillFailsSat : Bool := false
  evictionsSat : Bool := false
  loading : Option Nat := none
  publish : Option (Nat × List NodeId) := none
  removals : List (Nat × List NodeId) := []
  clock : Nat := 0
deriving DecidableEq, Repr

/-! ### Training -/

/-- A training variant entry (Table 10.2) with what the lanes keep of it in the step. -/
structure TVar where
  vid : Nat
  clipEn : Bool
  lrMul : W32
  beta1 : W32
  beta2 : W32
  eps : W32
  wd : W32
  clip : W32
  normLimit : W32
  rmsClip : W32
  freeze : W64
  park : Option W64 := none
  frozenAll : Bool := false
  freezeBits : Bytes := []
  normParts : List (Nat × Nat × W32) := []
  got : List Nat := []
  skewed : List Nat := []
  apply : Bool := false
  c : W32 := 0x3F80_0000
  norm : W32 := 0
deriving DecidableEq, Repr

/-- A park record (10 R275); `left`: the layers that were frozen or skewed in its step; `grad`: where the variant's gradient starts
in grad_area. -/
structure Park where
  vid : Nat
  step : W64
  scale : W32
  c : W32
  eta : W32
  norm : W32
  left : List Nat
  grad : Nat
deriving DecidableEq, Repr

/-- Rows that the collective engine has handed to the lanes (11 R305): variant, layer, low 32 bits of the run's step, descriptor,
row, its E5M2 elements and its scale. -/
structure SliceRow where
  vid : Nat
  layer : Nat
  step : W32
  entry : Nat
  row : Nat
  elems : Bytes
  scale : W32
deriving DecidableEq, Repr

inductive CtxState where
  | free | receiving | voting | updating
deriving DecidableEq, Repr

/-- A training context (10 R251, R279). -/
structure Ctx where
  state : CtxState := .free
  tag : Tag := 0
  domain : Dom := 0
  firstStep : W64 := 0
  steps : Nat := 0
  layers : Nat := 0
  growth : Nat := 0
  seed : W64 := 0
  varList : W48 := 0
  gradArea : W48 := 0
  gradLen : Nat := 0
  stepLog : W48 := 0
  logLen : Nat := 1
  updSem : Nat := 0
  voteSem : Nat := 0
  clusters : W64 := 0
  ctrl : W48 := 0
  voteCount : Nat := 0
  vars : List TVar := []
  clean : Nat := 0
  lrLast : W32 := 0
  stepNow : W64 := 0
  bad : Bool := false
  childVotes : List (PortId × Bool × List W32) := []
  voted : Bool := false
  skippedAny : Bool := false
  scaleUsed : W32 := 0
  stale : Bool := false
  nextLayer : Nat := 0
  parks : List Park := []
  slice : List SliceRow := []
  ended : Bool := false
  upStep : W64 := 0
  scale : W32 := 0
  lrTag : W32 := 0
  lr : W32 := 0
  skipped : W64 := 0
  frozen : W64 := 0
  lrStale : W64 := 0
  skew : W64 := 0
  skippedSat : Bool := false
  frozenSat : Bool := false
  staleSat : Bool := false
  skewSat : Bool := false
deriving DecidableEq, Repr

/-! ### Chain -/

inductive PortState where
  | untrained | training | upVc0 | up | retraining | down
deriving DecidableEq, Repr

/-- What a message is sealed or opened with: its key and nonce, and the headers and ciphertext that have gone by (11 R312); `old`: the
keys of the epoch before (R313), `no`: the number of the per-link key. -/
structure Crypt where
  no : Nat
  key : Bytes
  nonce : Bytes
  aad : Bytes := []
  text : Bytes := []
  old : Bool := false
deriving DecidableEq, Repr

/-- A flit that waits at a port: the port it came by (none: this node's own); `link`: the number of the per-link key under which it is
encrypted as it leaves (none: it goes as it is), `bad`: its message failed its check upstream (11 R312). -/
structure TxFlit where
  src : Option PortId
  flit : BitVec 2048
  link : Option Nat := none
  bad : Bool := false
deriving DecidableEq, Repr

/-- Chain port p (11 Tables 11.13 to 11.16, R284, R288 to R290, R294, R312, R354). `rxSeq`: the number expected next; `ack`: the
highest received in order; `freed`, `credit`: receive slots granted here and by the peer; `sent`: flits sent by channel; `txQ`: flits
that wait to leave, `mid`: whose message is under way on a channel,
`localNext`: an own message goes next, `vc3Sent`: VC3 flits of this microsecond, `turn12`: the turn of VC1 and VC2; `said`: a flit
left in this microsecond; `granted`: the channels whose slots are granted; `restart`: the link layer restarts until the HELLO;
`cut`: the egress port and number of a stomped flit whose good copy is awaited, and what it is sealed with; `missing`: the numbers of such copies on the
egress; `secret`: the link secret agreed; `heldKey`: the secret of the epoch before, which this end still receives under, with
its counters `heldCount`; `heldEnds`: a message under the new keys has begun;
`txCount`, `rxCount`: messages sent and received under each per-link key (13 R355); `opening`, `sealing`:
the per-link messages under way in and out, by channel; `trained`: the lanes are trained and the keys are not agreed yet, so that
only what needs no key goes; `owed`: receive slots that INSTALL messages hold until they are staged (08 R198); `peerGlb`: GLB_ID of
the peer, from its HELLO (11 R306). -/
structure Port where
  state : PortState := .untrained
  mode : Bool := false
  peer : NodeId := 0xFFFF
  peerPort : Nat := 0
  retrains : BitVec 8 := 0
  enabled : Bool := false
  gang : Nat := 0
  replays : W64 := 0
  stomped : W64 := 0
  authDrop : W64 := 0
  authFail : W64 := 0
  noRoute : W64 := 0
  badMsg : W64 := 0
  replaySat : Bool := false
  stompSat : Bool := false
  dropSat : Bool := false
  failSat : Bool := false
  routeSat : Bool := false
  badSat : Bool := false
  txSeq : BitVec 12 := 0
  rxSeq : BitVec 12 := 0
  ack : BitVec 12 := 0
  discarding : Bool := false
  nakNext : Bool := false
  naks : Nat := 0
  replayBuf : List (BitVec 2048) := []
  freed : List (BitVec 9) := [0, 0, 0, 0]
  credit : List (BitVec 9) := [0, 0, 0, 0]
  sent : List (BitVec 9) := [0, 0, 0, 0]
  txQ : List TxFlit := []
  mid : List (Option (Option PortId)) := [none, none, none, none]
  localNext : List Bool := [false, false, false, false]
  vc3Sent : Nat := 0
  turn12 : Nat := 0
  said : Bool := false
  granted : List Bool := [false, false, false, false]
  restart : Bool := false
  cut : Option (PortId × BitVec 12 × Option Crypt) := none
  missing : List (BitVec 12) := []
  wantReplay : Bool := false
  idleOnly : Bool := false
  quiet : Bool := false
  peerQuiet : Bool := false
  secret : Option Bytes := none
  heldKey : Option Bytes := none
  heldCount : SMap W64 := []
  heldEnds : Bool := false
  epoch : W32 := 0
  agreed : Bool := false
  peerIdd : Bytes := []
  peerExchange : Bytes := []
  txCount : SMap W64 := []
  rxCount : SMap W64 := []
  opening : List (Option Crypt) := [none, none, none, none]
  sealing : List (Option Crypt) := [none, none, none, none]
  trained : Bool := false
  owed : Nat := 0
  peerGlb : W64 := 0
  rekeying : Bool := false
  stopped : List Nat := []
  partialMsg : List (BitVec 2048) := []
deriving DecidableEq, Repr

/-- A route entry (11 Table 11.18). -/
structure Route where
  first : NodeId
  last : NodeId
  ports : BitVec 12
  valid : Bool
  parent : Bool
  child : Bool
deriving DecidableEq, Repr

/-- The chain unit of this node. `memberKeys`: the verified exchange key of each member, passed with the member list (13 R356). -/
structure Lnk where
  ports : SMap Port := []
  node : NodeId := 0xFFFF
  coordinator : NodeId := 0xFFFF
  deputy : NodeId := 0xFFFF
  shape : Nat := 0
  member : Bool := false
  position : Nat := 0
  routes : List Route := []
  cmdState : CmdState := .idle
  reason : Nat := 0
  members : List NodeId := []
  memberKeys : List (NodeId × Bytes) := []
  leaving : Bool := false
  left : Bool := false
  lost : List NodeId := []
  rekeyPort : Option PortId := none
  cut : Nat := 0
deriving DecidableEq, Repr

/-! ### Jobs -/

/-- A binding of a job to a variant (09 R236, R241). `spd`: it holds a reference on the cache copy numbered `copy`; `mask`: the base mask;
`gone`: its references were dropped at a token boundary. -/
structure Binding where
  vid : Nat
  first : Nat
  count : Nat
  gen : W32
  dir : Nat
  spd : Bool
  copy : Nat := 0
  mask : BitVec 256
  gone : Bool := false
deriving DecidableEq, Repr

/-- A request table entry (09 Table 9.8). -/
structure ReqEntry where
  vid : Nat
  rows : Nat
  rowFirst : Nat
  status : Nat
  lastToken : W32
deriving DecidableEq, Repr

/-- Where a job stands on this node. -/
inductive Phase where
  | held | setup | accepted | input | waiting | running | output | ended
deriving DecidableEq, Repr

/-- The job descriptor of Table 12.5. -/
structure JobDesc where
  jobId : W64
  domain : Dom
  mode : Nat
  semFirst : Nat
  semCount : Nat
  barriers : W16
  origin : NodeId
  memberCount : Nat
  vid : Nat
  est : Nat
  collCount : Nat
  evidCount : Nat
  clusters : W64
  streams : W64
  members : W64
  barDesc : W64
  admRecord : W64
  requestTable : W64
  training : W64
  collTable : W64
  evidList : W64
  inList : W64
  outList : W64
deriving DecidableEq, Repr

/-- A job on this node (12 R324 to R332). `stop`: the status and event an abort or fault gave it; `firstUs`: the life clock at the
first instruction of its streams that have ended here. A job that waits for answers to its SETUP and is not admitted is one whose
origin refuses it for a variant (09 R235). -/
structure Job where
  tag : Tag
  fn : FnId
  q : QId
  sqIndex : W32
  d : JobDesc
  members : List NodeId := []
  replies : List (NodeId × Nat) := []
  phase : Phase
  admitted : Bool := false
  stop : Option (Nat × W16) := none
  gen : W32 := 0
  cfgGen : W32 := 0
  slots : List (CId × SId × W48) := []
  live : List (CId × SId) := []
  bindings : List Binding := []
  reqs : List ReqEntry := []
  tokenBar : Nat := 0xFF
  area : W48 := 0
  areaRows : Nat := 0
  areaPitch : Nat := 0
  reqBase : W48 := 0
  ctx : Option CtxId := none
  charge : Nat := 0
  lastUs : W64 := 0
  firstUs : Option W64 := none
  endUs : W64 := 0
  missed : Bool := false
  retire : List Vid := []
  remote : List (CId × SId × SemRef × Nat) := []
  raw : Bytes := []
  turned : Bool := false
  evidFirst : Option W64 := none
  cfgFence : Bool := false
deriving DecidableEq, Repr

/-- A SETUP that waits for this member's descriptor (12 R328); `keys`: what it holds of the job key, sealed to each member (13
R356). -/
structure Setup where
  tag : Tag
  jobId : W64
  origin : NodeId
  members : List NodeId
  est : W32
  gen : W32
  keys : List (NodeId × Bytes) := []
deriving DecidableEq, Repr

/-- The jobs of this node. `passing`: the jobs whose SETUP has passed this node, which is no member: domain, and whether they have at
most 32 members (11 R312, R314). -/
structure Jobs where
  list : List Job := []
  setups : List Setup := []
  passing : List (Tag × Dom × Bool) := []
  tagCount : BitVec 12 := 0
deriving DecidableEq, Repr

/-- A collective of a live job on this member (11 R300 to R302). `run`: the run that is on or comes next; `due`: rows still
to come, by direction (clockwise) and phase (passed round unchanged); `place`: rows whose result is not in place yet;
`told`: done has been signalled; `held`: the run's messages, with their ports; `sent`: messages of the run sent by gang. -/
structure Coll where
  tag : Tag
  entry : Nat
  kind : Nat
  fmt : Fmt
  bothDirs : Bool
  deliver : Bool
  start : SemRef
  done : SemRef
  buf : W48
  scales : W48
  health : W48
  rows : Nat
  cols : Nat
  vid : Nat
  layer : Nat
  baseStep : W64
  run : Nat := 0
  busy : Bool := false
  due : List (Bool × Bool × Nat) := []
  place : Nat := 0
  told : Bool := false
  held : List (PortId × CollMsg) := []
  sent : List (BitVec 12 × Nat) := []
deriving DecidableEq, Repr

/-! ### Host port -/

inductive QState where
  | disabled | running | fenced | error
deriving DecidableEq, Repr

/-- An entry of a function's MSI-X table with its pending bit (12 R318; the layout and its reset values are those of PCI Express:
PRESUMED, log 19). -/
structure IrqVec where
  addr : W64 := 0
  data : W32 := 0
  masked : Bool := true
  pending : Bool := false
deriving DecidableEq, Repr

/-- Queue q of a function (12 Tables 12.2 to 12.4, 12.14). `fencing`: a fence of it is under way (R334); `alone`: one of this queue
alone, which WQ_CFG.enable began. -/
structure Queue where
  sqBase : W64 := 0
  cqBase : W64 := 0
  enable : Bool := false
  msixEn : Bool := false
  sqLog2 : Nat := 4
  cqLog2 : Nat := 4
  coalCount : Nat := 0
  coalUs : Nat := 0
  state : QState := .disabled
  error : Nat := 0
  sqTail : W32 := 0
  sqHead : W32 := 0
  cqHead : W32 := 0
  cqTail : W32 := 0
  cqReserved : Nat := 0
  gathered : Nat := 0
  fencing : Bool := false
  alone : Bool := false
  bindValid : Bool := false
  bindDomain : Dom := 0
deriving DecidableEq, Repr

structure Hif where
  rate : Nat := 0
  width : Nat := 0
  vfs : Nat := 0
  dbDrop : W64 := 0
  dbDropSat : Bool := false
  committed : Nat := 0
  cap : Nat := 0
  queues : SMap Queue := []
  evidBase : W64 := 0
  ckptBase : W64 := 0
  evidEn : Bool := false
  evidLog2 : Nat := 12
  ckptLog2 : Nat := 4
  evidHead : W32 := 0
  evidTail : W32 := 0
  ckptHead : W32 := 0
  ckptTail : W32 := 0
  evidReserved : Nat := 0
  evidBuf : List Bytes := []
  evidSeq : W64 := 0
  evidLink : Bytes := List.replicate 64 0
  vectors : SMap IrqVec := []
deriving DecidableEq, Repr

/-! ### Security -/

inductive SessState where
  | free | opened | provisioned | removing
deriving DecidableEq, Repr

/-- A domain's session slot and keys (13 R347, Tables 13.2, 13.14). -/
structure Session where
  state : SessState := .free
  epoch : W16 := 0
  sess : W32 := 0
  seed : Option Bytes := none
  memKey : Option Bytes := none
  dataKey : Option Bytes := none
  outCtr : W64 := 0
  exportKey : Option Bytes := none
deriving DecidableEq, Repr

/-- SEC_IMG.staged_state (13 Table 13.12). -/
inductive StagedState where
  | none | writing | verified | failed | trial | rejected
deriving DecidableEq, Repr

/-- A tenant removal on this member (13 R357 Table 13.5): the steps done so far, the tags of the domain's jobs at the revoke,
and the page runs whose scrub is still to end. -/
structure Removal where
  domain : Dom
  step : Nat
  tags : List Tag
  scrubbing : List (Nat × Nat)
deriving DecidableEq, Repr

/-- The key store and the image slots (13). `fuseSeed`: the three seeds of the identity key, in fuses, `idSeed`: the identity key as it is
loaded at a cold start (R345); `attKey`: the seeds of the attestation key (R346); `exchangeSig`: the attestation key's signature on the
node exchange key (R354); `flashA`, `flashB`: the image sets of the slots of the serial NOR, none where a slot holds no whole set
(R359); `runningImg`, `stagedImg`: image hashes (R359); `stageAt`, `stageLen`: where the staged set stands and its length (R362); `runningSet`: the set that runs; `jobCounts`, `jobRx`: epoch and
count of the messages sent to, and received from, each member under a job key (R356). -/
structure Sec where
  entropyOk : Bool := false
  attReady : Bool := false
  runningSlot : Bool := false
  trial : Bool := false
  arg : W64 := 0
  cmdState : CmdState := .idle
  reason : Nat := 0
  written : Nat := 0
  attestWait : Option Bytes := none
  activeSlot : Bool := false
  staged : StagedState := .none
  stagedSlot : Bool := false
  stagedImg : Bytes := []
  stagedSvn : Nat := 0
  fuseSvn : Nat := 0
  runningSvn : Nat := 0
  runningImg : Bytes := []
  debugLevel : Nat := 0
  challenge : Option Bytes := none
  jtag : Nat := 0
  jtagOut : Bytes := []
  sessions : SMap Session := []
  attKey : Option Bytes := none
  attCert : Bytes := []
  fuseSeed : Bytes := Config.identitySeed
  idSeed : Option Bytes := none
  exchangeSig : Bytes := []
  flashA : Option ImageSet := none
  flashB : Option ImageSet := none
  stageAt : W64 := 0
  stageLen : Nat := 0
  runningSet : Option ImageSet := none
  exchangeSeed : Option Bytes := none
  tweakKey : Option Bytes := none
  baseKey : Option Bytes := none
  deviceKey : Option Bytes := none
  sessionSinceCold : Bool := false
  drbgRequests : Nat := 0
  healthFail : Bool := false
  removals : List Removal := []
  retiredDoms : List Dom := []
  retiredTags : List Tag := []
  jobKeys : List (Tag × Bytes) := []
  jobCounts : List (Tag × NodeId × Nat × Nat) := []
  jobRx : List (Tag × NodeId × Nat × Nat) := []
  challengeWait : Bool := false
  openWait : Option Dom := none
  download : Bool := false
  noImage : Bool := false
deriving DecidableEq, Repr

/-! ### Configuration and life -/

/-- A contract entry (14 Table 14.5). -/
structure Contract where
  domain : Dom
  servePct : Nat
  bulkJobs : Nat
  cacheShare : Nat
  liveLimit : Nat
  pinCount : Nat
  pins : List Nat
deriving DecidableEq, Repr

/-- The device parameters of Table 14.4. -/
structure DevParams where
  rate : Nat := 3
  density : Nat := 1
  ranks : Nat := 0
  defaultSlot : Nat := 0xFF
  position : Nat := 0
  varCache : Nat := 32
  horizonUs : Nat := 2000
  sweepS : Nat := 600
  lossMs : Nat := 50
  chainReset : Bool := false
deriving DecidableEq, Repr

/-- The live tables (14 Table 14.3). -/
structure Tables where
  dev : DevParams := {}
  topo : Topo := {}
  throttle : List (Nat × Nat) :=
    [(860, 100), (820, 100), (780, 100), (750, 100), (720, 100), (690, 100), (660, 100), (620, 100), (620, 75),
     (620, 50), (620, 25), (600, 10)]
  thermal : List (Int × Nat) :=
    [(800, 0), (1120, 0), (1360, 0), (1520, 1), (1568, 3), (1600, 5), (1632, 7), (1664, 9), (1680, 11)]
  fan : List (Int × Nat) :=
    [(800, 20), (1120, 40), (1360, 70), (1520, 100), (1568, 100), (1600, 100), (1632, 100), (1664, 100), (1680, 100)]
  prio : List Prio := [⟨true, 0, 25, 0, 0⟩, ⟨false, 6, 100, 0, 0⟩, ⟨false, 6, 100, 3, 1⟩, ⟨false, 1, 80, 1, 1⟩]
  slotArb : List (Bool × Nat) := [(false, 4), (false, 4), (false, 4), (true, 4)]
  vc3Ceiling : Nat := 50
  vc1Weight : Nat := 1
  vc2Weight : Nat := 1
  contracts : List Contract := []
  defServePct : Nat := 0
  defBulkJobs : Nat := 0
  installerKeys : List Bytes := []
  ruleCode : List Nat := []
deriving DecidableEq, Repr

/-- CFG_STATUS.state (14 Table 14.11). -/
inductive CfgState where
  | none | loading | staged | checking | checked | refused | committing
deriving DecidableEq, Repr

structure Cfg where
  state : CfgState := .none
  reason : Nat := 0
  staged : List (Nat × Bytes) := []
  loading : Option (Nat × Nat) := none
  gen : W32 := 0
  stageArg : W64 := 0
  image : W64 := 0
  live : Tables := {}
deriving DecidableEq, Repr

/-- A life record in the high-endurance area (14 Table 14.9). -/
structure LifeRecord where
  seq : W64
  counters : List (BitVec 48)
  lastCfgGen : W32
  pe : SMap (BitVec 48)
deriving DecidableEq, Repr

/-- The life keeper. `slots`: the life record slots of the high-endurance area, by number, taken in turn (14 R390); `writing`: a record
that is being written. -/
structure Life where
  clock : W64 := 0
  offset : W64 := 0
  timeSet : Bool := false
  counters : List (BitVec 48) := [0, 0, 0, 0, 0, 0]
  saves : W16 := 0
  saveBusy : Bool := false
  restored : Bool := false
  peSel : BitVec 12 := 0
  pe : SMap (BitVec 48) := []
  record : Option LifeRecord := none
  slots : SMap (Option LifeRecord) := []
  writing : Option LifeRecord := none
  excursion : Bool := false
deriving DecidableEq, Repr

/-! ### Events -/

/-- An event record (17 Table 17.2). -/
structure EvRec where
  code : W16
  node : NodeId
  lost : Bool
  unit : Byte
  sub : Byte
  repeats : Nat
  lifeUs : W64
  tag : Tag
  domain : Dom
  aux : W16
  arg : W64
deriving DecidableEq, Repr

/-- An open merge window (17 R441): the raise that opened it and, when one came, the first merged raise and how
many were merged. -/
structure EvWindow where
  key : EvRec
  merged : Option EvRec
  count : Nat
deriving DecidableEq, Repr

structure Evt where
  ring : List EvRec := []
  ringReady : Bool := false
  windows : List EvWindow := []
  lostNext : Bool := false
  lost : W64 := 0
  lostSat : Bool := false
  fatalCode : W16 := 0
  fatalUnit : Byte := 0
  fatalSub : Byte := 0
  fatalArg : W32 := 0
  ringBase : BitVec 41 := 0
  hostBase : W64 := 0
  enable : Bool := false
  hostLog2 : Nat := 12
  irqSev : Nat := 1
  coalCount : Nat := 0
  coalUs : Nat := 0
  head : W32 := 0
  tail : W32 := 0
  gathered : Nat := 0
deriving DecidableEq, Repr

/-! ### Reset, power and status -/

/-- A device-wide reset that is held (15 R392). -/
inductive Held where
  | none | warm | cold
deriving DecidableEq, Repr

/-- PWR_STATE.state (15 Table 15.19). -/
inductive PwrState where
  | starting | ready | entering | rest | restQuiet | waking
deriving DecidableEq, Repr

structure Glb where
  ready : Bool := false
  fatal : Bool := false
  phase : Nat := 0
  bootSrc : BitVec 2 := 0
  clkMode : BitVec 2 := 0
  slowest : BitVec 6 := 0
  minMsps : BitVec 12 := 0
  meanMsps : BitVec 12 := 0
  readyN : Bool := false
  faultN : Bool := false
  alertN : Bool := false
  tripN : Bool := false
deriving DecidableEq, Repr

/-- Resets, power and temperatures. `romStart`: a trip's release has let the ROM start, which has not sampled the straps yet (15 R416);
`measured`, `tierRead`, `coreRead`: which sensors have been measured (15 R420); `smbAddr`: the address of the board management port;
`bootPort`: the port whose peer has been asked for its image set, `bootTried`: the ports that the ROM has gone past (15 R403). -/
structure Rst where
  held : Held := .cold
  source : Nat := 1
  srcNode : NodeId := 0
  cause : Nat := 1
  causeNode : NodeId := 0
  readyOnce : Bool := false
  startWait : Bool := false
  fromCold : Bool := true
  trip : Bool := false
  block : BitVec 22 := 0
  blockAct : BitVec 22 := 0
  pwr : PwrState := .starting
  powerStep : Nat := 0
  lastRaise : Option W64 := none
  lastFall : Option W64 := none
  coreMv : Nat := 750
  target : Nat := 750
  restReq : Bool := false
  quietReq : Bool := false
  floorStep : Nat := 0
  dieTemp : W16 := 0
  firnTemp : W16 := 0
  powerW : Nat := 0
  fanPct : Nat := 0
  fieldStep : List Nat := [0, 0, 0, 0]
  thermPoint : List (Option Nat) := [none, none, none, none]
  halving : Bool := false
  avsFail : Bool := false
  measured : Bool := false
  tierRead : SMap Bool := []
  coreRead : Bool := false
  smbAddr : BitVec 7 := 0x4C
  romStart : Bool := false
  bootPort : Option PortId := none
  bootTried : List PortId := []
deriving DecidableEq, Repr

/-! ### What leaves the device -/

/-- The control-tree edges that a message leaves by (11 R299): up, down, every one, or every one but the gang of a port. -/
inductive Edge where
  | up | down | all
  | but (p : PortId)
deriving DecidableEq, Repr

/-- A message or signal that the device sends, a host write, an interrupt, an answer: what the outside can see. -/
inductive Out where
  | hostWrite (addr : W64) (data : Bytes)
  | completion (f : FnId) (q : QId) (index : W32) (record : Bytes)
  | msix (f : FnId) (vector : Nat) (addr : W64) (data : W32)
  | answer (v : Int)
  | unavailable
  | rail (mv : Nat)
  | jtag (data : Bytes)
  | arrive (e : Edge) (tag : Tag) (b : BarId) (step : W32)
  | release (e : Edge) (tag : Tag) (b : BarId) (step : W32) (removed : List Vid)
  | barAbort (e : Edge) (tag : Tag) (b : BarId) (skew : Bool)
  | signal (dst : NodeId) (tag : Tag) (vc : Nat) (sem : W32) (n : W32)
  | signalAck (dst : NodeId) (tag : Tag) (sem : W32) (applied : Bool)
  | write (dst : NodeId) (tag : Tag) (vc : Nat) (addr : BitVec 44) (data : Bytes)
  | setup (e : Edge) (tag : Tag) (jobId : W64) (gen : W32) (dom : Dom) (keys : List (NodeId × Bytes))
  | accept (origin : NodeId) (tag : Tag) (node : NodeId)
  | refuse (origin : NodeId) (tag : Tag) (node : NodeId) (status : Nat)
  | go (e : Edge) (tag : Tag)
  | abort (e : Edge) (tag : Tag) (status : Nat) (event : W16)
  | vote (e : Edge) (tag : Tag) (step : W32) (bad : Bool) (norms : List W32)
  | verdict (e : Edge) (tag : Tag) (v : VerdictMsg)
  | collective (gang : BitVec 12) (num : Nat) (tag : Tag) (data : Bytes)
  | installOpen (dst head : NodeId) (slot : FSlotId) (positions : W16)
  | installFrame (dst : NodeId) (data : Bytes)
  | installAbort (dst : NodeId) (onward : Bool) (slot : FSlotId)
  | installDone (dst node head : NodeId) (slot : FSlotId)
  | swapPrepare (slot : FSlotId) (gen : W32) (tag : W64) (version : W32)
  | thawReady (node : NodeId) (gen : W32)
  | swapCommit (gen : W32)
  | swapAbort (e : Edge) (gen : W32) (refused : Option Nat)
  | registry (vid : Nat) (d : Option (BitVec 512))
  | publish (vid : Nat)
  | publishReady (node : NodeId) (vid : Nat) (ok : Bool)
  | publishCommit (vid : Nat) (gen : W32)
  | varRemove (vid : Nat)
  | varRemoved (node : NodeId) (vid : Nat)
  | revoke (d : Dom)
  | removalDone (d : Dom)
  | released (d : Dom)
  | hello (p : PortId) (node : NodeId) (glb : W64)
  | join (node : NodeId) (seen : W32) (key : Bytes)
  | admitOk (node : NodeId) (members : List NodeId) (keys : List (NodeId × Bytes)) (gen : W32) (slot : FSlotId)
      (registry : List (BitVec 512)) (seen : W32)
  | announce (e : Edge) (node : NodeId) (seen : W32) (key : Bytes)
  | lost (nodes : List NodeId) (reset : Bool)
  | leave
  | flit (p : PortId) (f : BitVec 2048)
  | forward (p : PortId) (m : Msg)
  | keyOffer (p : PortId) (offer : KeyOffer)
  | keyCiphertext (p : PortId) (ct : Bytes)
  | jobRekey (dst : NodeId) (tag : Tag) (epoch : Nat)
  | imageRequest (p : PortId)
  | image (p : PortId)
  | quiet (p : PortId)
deriving DecidableEq, Repr

end Sys2Proof.Machine
end

