-- ==== Sys2Proof/Machine/State.lean ====
section
/-! DEFINITION. Sys2Proof/Machine/State.lean: the state of one Yunoam Y2 node with its queue of waiting commands, the reasons a step can stop, and the state after reset. -/

namespace Sys2Proof.Machine

open Sys2Proof

/-- A step stops with a fault. -/
inductive Fault where
  /-- Never raised by a meaning of this model: every fault of the spec is a job fault or a device fatal event, after
  which the machine goes on (17 R439). Kept so that the type has a member; safe. -/
  | none
deriving DecidableEq, Repr

/-- A step is refused. -/
inductive Refusal where
  /-- A command whose meaning is not written yet; raised by no arm of exec in this model; safe. -/
  | notModelled (mnemonic : String)
deriving DecidableEq, Repr

/-- One node: the queue of commands, and the blocks of the device. -/
structure State where
  pending : List Instr
  free : Nat
  glb : Glb
  evt : Evt
  rst : Rst
  life : Life
  cfg : Cfg
  sec : Sec
  hif : Hif
  jobs : Jobs
  lnk : Lnk
  mem : Mem
  cl : SMap Cluster
  bars : SMap Bar
  firn : Firn
  var : Var
  upd : SMap Ctx
  coll : List Coll
  out : List Out
deriving DecidableEq, Repr

/-- The machine in cold reset, before a cold start has run (15 R395 Table 15.2): every register at the reset value its
table states; every key but the identity key absent; memory with nothing listed. -/
def State.reset : State where
  pending := []
  free := 0
  glb := {}
  evt := {}
  rst := {}
  life := {}
  cfg := {}
  sec := {}
  hif := {}
  jobs := {}
  lnk := {}
  mem := {}
  cl := []
  bars := []
  firn := {}
  var := {}
  upd := []
  coll := []
  out := []

end Sys2Proof.Machine
end

