-- ==== Sys2Proof/Machine/Ops.lean ====
section
/-! DEFINITION. Sys2Proof/Machine/Ops.lean: the named operations over State that the meanings share: reading and updating one block, raising events (17 R441), counters (17 R446), memory accesses resolved by mode and domain (07 R156, R157), semaphores (06 R134 to R136), stopping a job (05 R125, 12 R329). -/

namespace Sys2Proof.Machine

open Sys2Proof

/-- The three outcomes with the model's own reasons. -/
abbrev Res := Host.Outcome State Fault Refusal

/-! ### Access to the parts of State -/

def State.clu (s : State) (c : Nat) : Cluster := mget {} s.cl c
def State.setClu (s : State) (c : Nat) (x : Cluster) : State := { s with cl := mset {} s.cl c x }
def State.modClu (s : State) (c : Nat) (f : Cluster → Cluster) : State := s.setClu c (f (s.clu c))

def Cluster.slot (x : Cluster) (k : Nat) : Slot := mget (Slot.init k) x.slots k
def Cluster.setSlot (x : Cluster) (k : Nat) (y : Slot) : Cluster := { x with slots := mset (Slot.init k) x.slots k y }
def State.slot (s : State) (c k : Nat) : Slot := (s.clu c).slot k
def State.setSlot (s : State) (c k : Nat) (y : Slot) : State := s.modClu c (·.setSlot k y)
def State.modSlot (s : State) (c k : Nat) (f : Slot → Slot) : State := s.setSlot c k (f (s.slot c k))

def State.vctx (s : State) (c k : Nat) : VCtx := mget {} (s.clu c).vec k
def State.setVctx (s : State) (c k : Nat) (y : VCtx) : State :=
  s.modClu c fun x => { x with vec := mset {} x.vec k y }
def State.modVctx (s : State) (c k : Nat) (f : VCtx → VCtx) : State := s.setVctx c k (f (s.vctx c k))

def State.group (s : State) (c g : Nat) : Group := mget {} (s.clu c).groups g
def State.setGroup (s : State) (c g : Nat) (y : Group) : State :=
  s.modClu c fun x => { x with groups := mset {} x.groups g y }
def State.modGroup (s : State) (c g : Nat) (f : Group → Group) : State := s.setGroup c g (f (s.group c g))

def State.bar (s : State) (b : Nat) : Bar := mget {} s.bars b
def State.setBar (s : State) (b : Nat) (y : Bar) : State := { s with bars := mset {} s.bars b y }

def State.page (s : State) (p : Nat) : Page := mget {} s.mem.pages p
def State.setPage (s : State) (p : Nat) (y : Page) : State :=
  { s with mem := { s.mem with pages := mset {} s.mem.pages p y } }
def State.ctl (s : State) (m : Nat) : MemCtl := mget {} s.mem.ctls m
def State.setCtl (s : State) (m : Nat) (y : MemCtl) : State :=
  { s with mem := { s.mem with ctls := mset {} s.mem.ctls m y } }

def State.ctx (s : State) (x : Nat) : Ctx := mget {} s.upd x
def State.setCtx (s : State) (x : Nat) (y : Ctx) : State := { s with upd := mset {} s.upd x y }
def State.modCtx (s : State) (x : Nat) (f : Ctx → Ctx) : State := s.setCtx x (f (s.ctx x))

def State.session (s : State) (d : Nat) : Session := mget {} s.sec.sessions d
def State.setSession (s : State) (d : Nat) (y : Session) : State :=
  { s with sec := { s.sec with sessions := mset {} s.sec.sessions d y } }

/-- Key of queue q of function f. -/
def qkey (f : FnId) (q : QId) : Nat := 16 * f.val + q.val
def State.queue (s : State) (f : FnId) (q : QId) : Queue := mget {} s.hif.queues (qkey f q)
def State.setQueue (s : State) (f : FnId) (q : QId) (y : Queue) : State :=
  { s with hif := { s.hif with queues := mset {} s.hif.queues (qkey f q) y } }
def State.modQueue (s : State) (f : FnId) (q : QId) (g : Queue → Queue) : State := s.setQueue f q (g (s.queue f q))

def State.port (s : State) (p : Nat) : Port := mget {} s.lnk.ports p
def State.setPort (s : State) (p : Nat) (y : Port) : State :=
  { s with lnk := { s.lnk with ports := mset {} s.lnk.ports p y } }
def State.modPort (s : State) (p : Nat) (f : Port → Port) : State := s.setPort p (f (s.port p))

def State.fslot (s : State) (k : Nat) : FSlot := mget {} s.firn.slots k
def State.setFslot (s : State) (k : Nat) (y : FSlot) : State :=
  { s with firn := { s.firn with slots := mset {} s.firn.slots k y } }

/-- Registered variant by ID. -/
def State.variant (s : State) (v : Nat) : Option Variant := (s.var.reg.find? (·.1 == v)).map (·.2)
/-- Replaces or adds the record of a variant, in rising ID order. -/
def State.setVariant (s : State) (v : Nat) (y : Variant) : State :=
  { s with var := { s.var with reg := minsert v y (merase v s.var.reg) } }
def State.dropVariant (s : State) (v : Nat) : State := { s with var := { s.var with reg := merase v s.var.reg } }
def State.modVariant (s : State) (v : Nat) (f : Variant → Variant) : State :=
  match s.variant v with
  | some y => s.setVariant v (f y)
  | none => s

def State.job (s : State) (t : Tag) : Option Job := s.jobs.list.find? fun j => j.admitted && j.tag == t && j.phase != .ended
def State.modJobs (s : State) (f : Job → Job) : State := { s with jobs := { s.jobs with list := s.jobs.list.map f } }
/-- Updates the live job of a tag. -/
def State.modJob (s : State) (t : Tag) (f : Job → Job) : State :=
  s.modJobs fun j => if j.admitted && j.tag == t && j.phase != .ended then f j else j

/-- Appends to the outbox. -/
def State.emit (s : State) (o : Out) : State := { s with out := s.out ++ [o] }

/-- Applies a list of updates in order. -/
def foldS {α : Type} (s : State) (l : List α) (f : State → α → State) : State := l.foldl f s

/-- A context that is free again: its counters, UPD_STEP and UPD_STEP_LR stay (10 R279, 17 R446). -/
def Ctx.freed (x : Ctx) : Ctx :=
  { upStep := x.upStep, lrTag := x.lrTag, lr := x.lr, skipped := x.skipped, frozen := x.frozen, lrStale := x.lrStale
    skew := x.skew, skippedSat := x.skippedSat, frozenSat := x.frozenSat, staleSat := x.staleSat, skewSat := x.skewSat }

/-! ### Free values -/

/-- A free value of 512 bits and the state that has used it up (log 3). -/
def State.fresh (s : State) : BitVec 512 × State := (Config.freeBits s.free, { s with free := s.free + 1 })

/-- Successive free bytes (log 3). -/
def State.freeBytes (s : State) : (n : Nat) → Bytes × State
  | 0 => ([], s)
  | n + 1 =>
    let a := s.fresh
    let r := a.2.freeBytes n
    (leBytes 64 a.1.toNat ++ r.1, r.2)

/-- Fresh random bytes from the DRBG: free values, counted as one generate request; after 2^16 it is reseeded before the next
(13 R342; log 3). -/
def State.random (s : State) (n : Nat) : Bytes × State :=
  let x := s.freeBytes (ceilDiv n 64)
  let c := if 2 ^ 16 ≤ x.2.sec.drbgRequests then 0 else x.2.sec.drbgRequests
  (x.1.take n, { x.2 with sec := { x.2.sec with drbgRequests := c + 1 } })

/-! ### Events -/

/-- Arguments of a raise; fields that Table 17.3 does not name stay zero, unit and sub 0xFF for none. -/
structure EvInfo where
  unit : Byte := 0xFF
  sub : Byte := 0xFF
  tag : Tag := 0
  domain : Dom := 0
  aux : W16 := 0
  arg : W64 := 0
deriving DecidableEq, Repr

/-- Capacity of the ring: 262,144 records, 256 before it exists (17 R441). -/
def Evt.capacity (e : Evt) : Nat := if e.ringReady then 262144 else 256

/-- Removes the oldest info or warn record; none when there is none (17 R441). -/
def dropOldest : List EvRec → Option (List EvRec)
  | [] => none
  | r :: l => if Ev.severity r.code < 2 then some l else (dropOldest l).map (r :: ·)

/-- Adds one to EVT_LOST, saturating with its sticky bit (17 R446). -/
def Evt.countLost (e : Evt) : Evt :=
  if e.lost = BitVec.allOnes 64 then e
  else if e.lost + 1 = BitVec.allOnes 64 then { e with lost := e.lost + 1, lostSat := true }
  else { e with lost := e.lost + 1 }

/-- A record enters the ring, or is dropped or displaces one when the ring is full (17 R441). -/
def Evt.write (e : Evt) (r : EvRec) : Evt :=
  if e.ring.length < e.capacity then { e with ring := e.ring ++ [{ r with lost := e.lostNext }], lostNext := false }
  else if Ev.severity r.code < 2 then { e.countLost with lostNext := true }
  else
    match dropOldest e.ring with
    | some l => { e.countLost with ring := l ++ [{ r with lost := e.lostNext }], lostNext := false }
    | none => { e.countLost with lostNext := true }

/-- Two raises are identical when they match in code, node, unit, sub and job_tag (17 R441). -/
def sameKey (a b : EvRec) : Bool :=
  a.code == b.code && a.node == b.node && a.unit == b.unit && a.sub == b.sub && a.tag == b.tag

/-- Merges a raise into an open window of its key; none when no window is open. -/
def mergeInto (r : EvRec) : List EvWindow → Option (List EvWindow)
  | [] => none
  | w :: l =>
    if sameKey w.key r then some ({ w with merged := w.merged.orElse fun _ => some r, count := w.count + 1 } :: l)
    else (mergeInto r l).map (w :: ·)

/-- One raise reaches the event unit (17 R441); the first device fatal one is latched in EVT_FATAL. -/
def Evt.raise (e : Evt) (r : EvRec) : Evt :=
  if Ev.severity r.code < 2 then
    match mergeInto r e.windows with
    | some w => { e with windows := w }
    | none => { e.write r with windows := e.windows ++ [⟨r, none, 0⟩] }
  else
    let e := if Ev.severity r.code = 3 ∧ e.fatalCode = 0 then
        { e with fatalCode := r.code, fatalUnit := r.unit, fatalSub := r.sub, fatalArg := r.arg.truncate 32 }
      else e
    e.write r

/-- BAR0 offset of EVT_LOST (17 Table 17.4). -/
def offEvtLost : Nat := 0x080_0020

/-- Raises an event with the node's ID and the life clock (17 R440). A saturation of EVT_LOST raises 0x10FF. -/
def State.raise (s : State) (code : W16) (i : EvInfo := {}) : State :=
  let r : EvRec := ⟨code, s.lnk.node, false, i.unit, i.sub, 0, s.life.clock, i.tag, i.domain, i.aux, i.arg⟩
  let e := s.evt.raise r
  if e.lostSat && !s.evt.lostSat && e.lost == BitVec.allOnes 64 && s.evt.lost != BitVec.allOnes 64 then
    { s with evt := e.raise ⟨Ev.saturated 0, s.lnk.node, false, 0xFF, 0xFF, 0, s.life.clock, 0, 0, 0,
        BitVec.ofNat 64 offEvtLost⟩ }
  else { s with evt := e }

/-- Reason code as an event argument (17 Table 17.3). -/
def argReason (n : Nat) : EvInfo := { arg := BitVec.ofNat 64 (n % 256) }

/-! ### Counters -/

/-- One more on a statistics counter: the new value and whether it has just reached its limit (17 R446). -/
def bump (x : W64) : W64 × Bool :=
  if x = BitVec.allOnes 64 then (x, false) else (x + 1, x + 1 == BitVec.allOnes 64)

/-- Raises the saturation event of a block when a counter has just reached its limit; `off` its BAR0 offset. -/
def State.satEvent (s : State) (just : Bool) (block off : Nat) : State :=
  if just then s.raise (Ev.saturated block) { arg := BitVec.ofNat 64 off } else s

/-- One more on a 48-bit life counter: saturates and then never changes (14 R385). -/
def bump48 (x : BitVec 48) : BitVec 48 := if x = BitVec.allOnes 48 then x else x + 1

/-- A sum of 48-bit life counts, saturating as they do. -/
def add48 (a b : BitVec 48) : BitVec 48 := BitVec.ofNat 48 (min (2 ^ 48 - 1) (a.toNat + b.toNat))

/-- Life counter i advances (14 Table 14.8). -/
def State.bumpLife (s : State) (i : Nat) : State :=
  { s with life := { s.life with counters := s.life.counters.set i (bump48 (s.life.counters.getD i 0)) } }

/-- BAR0 offset of a register in a cluster window (01 R21). -/
def winOff (c off : Nat) : Nat := 0x100_0000 + 0x4_0000 * c + off

/-! ### Memory -/

/-- Who makes an access: requester of Table 7.3, the job it is made for (tag 0 for none), and the stream slot or group that makes
it, 0xFF for none (17 Table 17.3). -/
structure Who where
  req : Req
  tag : Tag
  dom : Dom
  sub : Byte := 0xFF
deriving DecidableEq, Repr

/-- Requester of a job's streams and DMA (07 R158): the domain of its descriptor. -/
def Job.who (j : Job) : Who := { req := .dom j.d.domain, tag := j.tag, dom := j.d.domain }
/-- The control processor and the device's own units. -/
def whoControl : Who := { req := .control, tag := 0, dom := 0 }
/-- A unit that carries the domain of a variant (07 R158). -/
def whoDomain (d : Dom) : Who := { req := .dom d, tag := 0, dom := d }
def whoThaw : Who := { req := .thaw, tag := 0, dom := 0 }

/-- 07 R156 Table 7.2. -/
def allowed (mode : MemMode) (d : Dom) (r : Req) (write : Bool) : Bool :=
  match mode with
  | .free => false
  | .priv => r == .dom d || r == .control
  | .base => !write || r == .thaw || r == .control
  | .device => r == .control

/-- Scratchpad address to cluster and offset (07 R153). -/
def spdCluster (a : Nat) : Nat := a / 2 ^ 27 % 64
def spdOff (a : Nat) : Nat := a % 2 ^ 27

def Cluster.parcel (x : Cluster) (p : Nat) : Parcel := mget {} x.parcels p

/-- The channel of a device address within its controller (07 R165). -/
def chanOf (a : Nat) : Nat := a / 2 ^ 8 % 4
/-- The controller of a device address (07 R165). -/
def ctlOf (a : Nat) : Nat := a / 2 ^ 11 % 20
/-- The page of a device address. -/
def pageOf (a : Nat) : Nat := a / 2 ^ 23

/-- Is an access to the byte at `a` admitted? -/
def State.mayAccess (s : State) (r : Req) (a : Addr) (write : Bool) : Bool :=
  if a.dev then
    let p := s.page (pageOf a.a)
    allowed p.mode p.domain r write
  else
    let p := (s.clu (spdCluster a.a)).parcel (spdOff a.a / 65536)
    allowed p.mode p.domain r write

/-- Is the 1 KiB line of a scratchpad byte valid? Device memory has no valid lines. -/
def State.lineValid (s : State) (a : Addr) : Bool :=
  a.dev || bitOf ((s.clu (spdCluster a.a)).parcel (spdOff a.a / 65536)).valid (spdOff a.a % 65536 / 1024)

/-- The byte stored at an address, whoever asks. -/
def State.rawByte (s : State) (a : Addr) : Byte :=
  if a.dev then mget 0 s.mem.bytes a.a else mget 0 (s.clu (spdCluster a.a)).bytes (spdOff a.a)

/-- What a read of one byte returns: zeros on a miss (R156) and from an invalid line (R157). -/
def State.readByte (s : State) (r : Req) (a : Addr) : Byte :=
  if s.mayAccess r a false && s.lineValid a then s.rawByte a else 0

def Addr.plus (a : Addr) (n : Nat) : Addr := ⟨a.dev, a.a + n⟩

/-- What a read of `n` bytes returns. -/
def State.read (s : State) (r : Req) (a : Addr) (n : Nat) : Bytes :=
  (List.range n).map fun i => s.readByte r (a.plus i)

/-- The byte stored at an address replaced. -/
def State.putByte (s : State) (a : Addr) (b : Byte) : State :=
  if a.dev then { s with mem := { s.mem with bytes := mset 0 s.mem.bytes a.a b } }
  else s.modClu (spdCluster a.a) fun x => { x with bytes := mset 0 x.bytes (spdOff a.a) b }

/-- A write to a line makes it valid; an invalid line holds no bytes, so the rest of it reads as zero (07 R157). -/
def State.makeValid (s : State) (a : Addr) : State :=
  if a.dev then s
  else
    s.modClu (spdCluster a.a) fun x =>
      let i := spdOff a.a / 65536
      let p := x.parcel i
      { x with parcels := mset {} x.parcels i { p with valid := p.valid ||| BitVec.ofNat 64 (2 ^ (spdOff a.a % 65536 / 1024)) } }

/-- One byte written by a requester: stored when Table 7.2 admits it, else dropped. -/
def State.writeByte (s : State) (r : Req) (a : Addr) (b : Byte) : State :=
  if s.mayAccess r a true then (s.makeValid a).putByte a b else s

/-- A string of bytes written, byte by byte. -/
def State.write (s : State) (r : Req) (a : Addr) : Bytes → State
  | [] => s
  | b :: l => (s.writeByte r a b).write r (a.plus 1) l

/-- The 64 B blocks that `n` bytes from `a` touch. -/
def blocks (a n : Nat) : List Nat := if n = 0 then [] else (List.range ((a + n - 1) / 64 + 1 - a / 64)).map (· + a / 64)

/-- Blocks of an access that Table 7.2 denies. -/
def State.deniedBlocks (s : State) (r : Req) (a : Addr) (n : Nat) (write : Bool) : List Nat :=
  (blocks a.a n).filter fun k => !s.mayAccess r ⟨a.dev, 64 * k⟩ write

/-- One domain miss at the owner of a block (07 R159): SPD_MISS of the cluster or MEM_CTL_MISS of the controller. -/
def State.countMiss (s : State) (a : Addr) : State :=
  if a.dev then
    let m := ctlOf a.a
    let x := s.ctl m
    let b := bump x.miss
    (s.setCtl m { x with miss := b.1, missSat := x.missSat || b.2 }).satEvent b.2 7 (0x020_1018 + 0x40 * m)
  else
    let c := spdCluster a.a
    let x := s.clu c
    let b := bump x.miss
    (s.setClu c { x with miss := b.1, missSat := x.missSat || b.2 }).satEvent b.2 7 (winOff c 0x3_A000)

/-- R70 pointer form of an address (03 R70). -/
def Addr.ptr (a : Addr) : Nat := 2 ^ 47 + b2n a.dev * 2 ^ 46 + a.a % 2 ^ 41

/-- Arguments of MEM_DOMAIN_MISS: the owner of the block, the slot, group or channel, and the first address missed in it (17
Table 17.3). -/
def missInfo (w : Who) (a : Addr) (k : Nat) : EvInfo :=
  let first := max a.a (64 * k)
  { unit := BitVec.ofNat 8 (if a.dev then ctlOf first else spdCluster first)
    sub := if a.dev then BitVec.ofNat 8 (chanOf first) else w.sub, tag := w.tag, domain := w.dom,
    arg := BitVec.ofNat 64 (Addr.ptr ⟨a.dev, first⟩) }

/-- 07 R159: counts the misses of an access; the first of a job on this node raises MEM_DOMAIN_MISS, and so does each miss that no
live job made. -/
def State.noteMiss (s : State) (w : Who) (a : Addr) (n : Nat) (write : Bool) : State :=
  match s.deniedBlocks w.req a n write with
  | [] => s
  | k :: l =>
    let s := foldS s (k :: l) fun s k => s.countMiss ⟨a.dev, 64 * k⟩
    match s.job w.tag with
    | some j =>
      if j.missed then s
      else (s.modJob w.tag fun j => { j with missed := true }).raise Ev.memDomainMiss (missInfo w a k)
    | none => foldS s (k :: l) fun s k => s.raise Ev.memDomainMiss { missInfo w a k with tag := 0 }

/-- A read with its misses counted. -/
def State.load (s : State) (w : Who) (a : Addr) (n : Nat) : Bytes × State :=
  (s.read w.req a n, s.noteMiss w a n false)

/-- A write that covers a whole 64 B line removes it from its controller's poison list (07 R174); one that is dropped does not. -/
def State.unpoison (s : State) (r : Req) (a : Addr) (n : Nat) : State :=
  if a.dev then
    foldS s ((blocks a.a n).filter fun k => decide (a.a ≤ 64 * k) && decide (64 * k + 64 ≤ a.a + n)) fun s k =>
      if s.mayAccess r ⟨true, 64 * k⟩ true then
        let x := s.ctl (ctlOf (64 * k))
        s.setCtl (ctlOf (64 * k)) { x with poison := x.poison.filter (· != 64 * k) }
      else s
  else s

/-- A write by a unit of the device. -/
def State.rewrite (s : State) (r : Req) (a : Addr) (l : Bytes) : State := (s.write r a l).unpoison r a l.length

/-- A write with its misses counted. -/
def State.store (s : State) (w : Who) (a : Addr) (l : Bytes) : State := (s.noteMiss w a l.length true).rewrite w.req a l

/-- The first poisoned line that `n` bytes from a device address touch (07 R174). -/
def State.poisonIn (s : State) (a : Addr) (n : Nat) : Option Nat :=
  if a.dev then ((blocks a.a n).find? fun k => (s.ctl (ctlOf (64 * k))).poison.contains (64 * k)).map (64 * ·)
  else none

/-- Device capacity in bytes (07 R164). -/
def State.devBytes (s : State) : Nat := s.mem.usablePages * 2 ^ 23

/-- Does an access of `n` bytes lie in its space (05 R106)? -/
def State.inSpace (s : State) (a : Addr) (n : Nat) : Bool :=
  if a.dev then decide (a.a + n ≤ s.devBytes) else decide (a.a + n ≤ 2 ^ 33)

/-- A pointer field (03 R70). None: reserved bits set, or a scratchpad address beyond 33 bits. Some none: null. -/
def ptrDecode (p : Nat) : Option (Option Addr) :=
  if fld p 41 5 ≠ 0 then none
  else if fld p 46 1 = 0 ∧ fld p 33 8 ≠ 0 then none
  else if fld p 47 1 = 0 then some none
  else some (some ⟨fld p 46 1 == 1, fld p 0 41⟩)

/-- The address of a pointer that is not null and well formed. -/
def ptrAddr (p : Nat) : Option Addr := (ptrDecode p).getD none

/-- Frees a parcel or gives it a new mode: every line invalid at one instant (07 R157, R160). -/
def State.retag (s : State) (c p : Nat) (y : Parcel) : State :=
  s.modClu c fun x =>
    { x with parcels := mset {} x.parcels p { y with valid := 0 }
             bytes := x.bytes.filter fun e => e.1 / 65536 != p }

/-- Marks pages free and forgets their bytes: the instant of a scrub (07 R170). -/
def State.scrubPages (s : State) (first count : Nat) (byCmd : Bool) : State :=
  if count = 0 then s
  else
    let s := foldS s (List.range count) fun s i => s.setPage (first + i) ⟨.free, 0, true⟩
    { s with mem := { s.mem with
        bytes := s.mem.bytes.filter fun e => decide (pageOf e.1 < first) || decide (first + count ≤ pageOf e.1)
        scrubs := s.mem.scrubs ++ [⟨first, count, byCmd⟩] } }

/-- Marks a run of pages with a mode and domain. -/
def State.assignPages (s : State) (first count : Nat) (mode : MemMode) (d : Dom) : State :=
  foldS s (List.range count) fun s i => s.setPage (first + i) ⟨mode, d, false⟩

/-! ### Semaphores -/

def Cluster.sem (x : Cluster) (i : Nat) : W32 := mget 0 x.sems i

/-- Lets a blocked slot run again. -/
def Cluster.wake (x : Cluster) (k : Nat) : Cluster :=
  let y := x.slot k
  x.setSlot k { y with state := if y.state == .waiting then .running else y.state, wait := .none, waitIndex := 0 }

/-- Second pass of 06 R135 over the takers in queue order: releases from the head while n is at most the count. -/
def takePass (count : Nat) : List Waiter → Nat × List Waiter × List Waiter
  | [] => (count, [], [])
  | w :: l =>
    if w.n.toNat ≤ count then
      let r := takePass (count - w.n.toNat) l
      (r.1, w :: r.2.1, r.2.2)
    else (count, [], w :: l)

/-- 06 R135: releases the waiters of semaphore i in two passes, observers first; a count held at its limit stays there
(06 R136). -/
def Cluster.release (x : Cluster) (i : Nat) : Cluster :=
  let count := (x.sem i).toNat
  let mine := x.waiters.filter (·.sem == i)
  let obs := mine.filter fun w => !w.take && decide (w.n.toNat ≤ count)
  let r := takePass count (mine.filter (·.take))
  let gone := obs ++ r.2.1
  let left := if x.stuck.contains i then x.sem i else BitVec.ofNat 32 r.1
  let y := { x with sems := mset 0 x.sems i left, waiters := x.waiters.filter fun w => !gone.contains w }
  gone.foldl (fun y w => y.wake w.slot) y

/-- A change of a count, and the releases it causes. -/
def Cluster.setSem (x : Cluster) (i : Nat) (v : W32) : Cluster := ({ x with sems := mset 0 x.sems i v }).release i

/-- Does the job use cluster c? -/
def Job.uses (j : Job) (c : Nat) : Bool := bitOf j.d.clusters c

/-- Does the job hold semaphore i of cluster c in its window (06 R132)? -/
def Job.holdsSem (j : Job) (c i : Nat) : Bool :=
  j.uses c && decide (j.d.semFirst ≤ i) && decide (i < j.d.semFirst + j.d.semCount)

/-! ### The arbiter (05 R127) -/

/-- The slots in the order their turns come after slot k, k itself last. -/
def turnOrder (k : Nat) : List Nat := [(k + 1) % 4, (k + 2) % 4, (k + 3) % 4, k % 4]

/-- 05 R127 among the ready slots: the highest strict one; else the slot whose turn it is while it has grants left, then the
next in turn; slots of weight 0 only when no other is ready, one grant each. The first turn is S0's. A slot that is not ready loses its
turn, and a strict grant counts in no turn (log 12). -/
def chooseSlot (slot : Nat → Slot) (ready : List Nat) (t : Turn) : Option (Nat × Turn) :=
  match ([3, 2, 1, 0] : List Nat).find? fun k => ready.contains k && (slot k).strict with
  | some k => some (k, t)
  | none =>
    let weighted := ready.filter fun k => decide (0 < (slot k).weight)
    let pool := if weighted.isEmpty then ready else weighted
    if pool.contains t.slot ∧ t.used < max 1 (slot t.slot).weight then some (t.slot, { t with used := t.used + 1 })
    else ((turnOrder t.slot).find? pool.contains).map fun k => (k, ⟨k, 1⟩)

/-- The arrays of a group's set, numbered 8 × row + column (03 Table 3.6). -/
def GrpDesc.arrays (d : GrpDesc) : List Nat :=
  (List.range 32).filter fun n =>
    decide (bitsOf d.raw 71 70 ≤ n / 8) && decide (n / 8 ≤ bitsOf d.raw 69 68) &&
    decide (bitsOf d.raw 67 65 ≤ n % 8) && decide (n % 8 ≤ bitsOf d.raw 64 62)

def Cluster.group (x : Cluster) (g : Nat) : Group := mget {} x.groups g
def Group.arrays (g : Group) : List Nat := match g.desc with | some d => d.arrays | none => []

/-- The groups that have a chunk to start and hold no arrays. -/
def Cluster.wanting (x : Cluster) : List GId :=
  (List.finRange 16).filter fun g =>
    !(x.group g.val).chunks.isEmpty && !x.owners.contains g && (x.group g.val).state != .poisoned

/-- Of a slot's groups, the one whose chunk was issued first: the spec gives no order among them (DESIGN CHOICE, log 12). -/
def Cluster.firstOf (x : Cluster) (k : Nat) (l : List GId) : Option GId :=
  (l.filter fun g => (x.group g.val).slot.val == k).foldl (fun b g =>
    let id (g : GId) : Nat := match (x.group g.val).chunks with | ch :: _ => ch.id | [] => 0
    match b with
    | none => some g
    | some h => if id g < id h then some g else some h) none

/-- 05 R127: array sets are granted in the arbiter's order; a chosen group whose arrays are not all free keeps the free ones
idle for itself, and a later choice takes only arrays that are left. A slot that waits on a semaphore contends with the chunks that it
has issued, or a WAIT for a group's own done_sem would never end (DEDUCED, log 12). -/
def Cluster.grantLoop : (fuel : Nat) → Cluster → (taken : List Nat) → (want : List GId) → Cluster
  | 0, x, _, _ => x
  | n + 1, x, taken, want =>
    let ready := (List.range 4).filter fun k => want.any fun g => (x.group g.val).slot.val == k
    match chooseSlot x.slot ready x.arrTurn with
    | none => x
    | some (k, t) =>
      match x.firstOf k want with
      | none => x
      | some g =>
        let a := (x.group g.val).arrays
        let rest := want.filter (· != g)
        if a.any taken.contains then grantLoop n x (taken ++ a) rest
        else grantLoop n { x with owners := x.owners ++ [g], arrTurn := t } (taken ++ a) rest

/-- The choice at a chunk boundary, and whenever a chunk becomes ready (05 R127, 01 R17). -/
def Cluster.grant (x : Cluster) : Cluster :=
  x.grantLoop 16 (x.owners.flatMap fun g => (x.group g.val).arrays) x.wanting

def State.grantArrays (s : State) (c : Nat) : State := s.modClu c (·.grant)

/-! ### Stopping a job -/

/-- All clusters of a 64-bit set, ascending. -/
def clustersOf (m : W64) : List CId := (List.finRange 64).filter fun c => bitOf m c.val

/-- A stopped or ended stream leaves its slot: the slot becomes idle and the job's list of running streams shrinks. -/
def State.slotIdle (s : State) (c : CId) (k : SId) : State :=
  let y := s.slot c.val k.val
  let s := s.setSlot c.val k.val { y with state := .idle, wait := .none, waitIndex := 0, loops := [], out := [], tag := 0 }
  s.modJob y.tag fun j =>
    let l := j.live.filter (· != (c, k))
    { j with
      live := l, endUs := if l.isEmpty then s.life.clock else j.endUs
      firstUs := match j.firstUs, y.firstUs with | some a, some b => some (if b < a then b else a) | none, x => x | x, none => x }

/-- What an abort leaves of a group (05 R125, 03 R68): a chunk that runs ends and is promoted, no later one starts; a closing
group goes on to its close; a poisoned one stays until its job has ended; any other returns to free, at once or with the end
of the chunk that runs. -/
def Group.abort (g : Group) (runs : Bool) : Group :=
  let one := if runs then (g.chunks.take 1).map fun ch => { ch with last := true } else []
  match g.state with
  | .closing => { g with chunks := one }
  | .poisoned => g
  | _ => if one.isEmpty then {} else { g with chunks := one, dying := true }

/-- Is the chunk that runs for a group one of this accumulate's? -/
def Cluster.runsFor (x : Cluster) (o : Outst) : Bool :=
  match o.group with
  | some g => o.kind == .acc && x.owners.contains g && (x.group g.val).chunks.head?.any fun ch => ch.id == o.id
  | none => false

/-- 05 R125 for one slot: it issues nothing more; its waiter leaves the queue and the two passes run again (06 R135);
issued MOVE, ROUTE and CLOSE instructions go on; accumulate work keeps only the chunk that is running, and the slot drains until that
has ended. The arrays are granted anew only when every slot of the job has stopped. -/
def State.abortSlot (s : State) (c : CId) (k : SId) : State :=
  let y := s.slot c.val k.val
  let left := (s.clu c.val).waiters.filter fun w => w.slot == k
  let s := s.modClu c.val fun x =>
    let x := { x with waiters := x.waiters.filter fun w => w.slot != k }
    left.foldl (fun x w => x.release w.sem) x
  let s := s.modClu c.val fun x =>
    let runs (g : Nat) : Bool := x.owners.any fun o => o.val == g
    let l := x.groups.map fun e =>
      if e.2.slot == k && e.2.tag == y.tag && e.2.state != .free then (e.1, e.2.abort (runs e.1)) else e
    { x with groups := l.filter fun e => e.2 != ({} : Group) }
  let keep := y.out.filter fun o => o.kind == .move || o.kind == .route || o.kind == .closing || (s.clu c.val).runsFor o
  if keep.isEmpty then s.slotIdle c k
  else s.setSlot c.val k.val { y with state := .draining, wait := .none, waitIndex := 0, out := keep }

/-- Every group that the job opened returns to free, whatever its state, and its arrays go to others (03 R68). -/
def Cluster.freeGroups (x : Cluster) (t : Tag) : Cluster :=
  let mine (g : Group) : Bool := g.tag == t && g.state != .free
  let owners := x.owners.filter fun o => !mine (x.group o.val)
  ({ x with owners := owners, groups := x.groups.filter fun e => !mine e.2 } : Cluster).grant

def State.freeGroups (s : State) (t : Tag) : State := foldS s (List.range 64) fun s c => s.modClu c (·.freeGroups t)

/-- An abort of a barrier object (06 R147, Table 6.9): its slots are stopped with their job, and it stays aborting until the job
has ended here. -/
def State.abortBars (s : State) (t : Tag) : State :=
  { s with bars := s.bars.map fun e =>
      if e.2.tag == t && e.2.state != .free then (e.1, { e.2 with state := .aborting, blocked := [] }) else e }

/-- The barrier objects of a job that ends are free; GLB_BAR_STEP keeps the step of the last episode (06 R149). -/
def State.freeBars (s : State) (t : Tag) : State :=
  { s with bars := (s.bars.map fun e =>
      if e.2.tag == t && e.2.state != .free then (e.1, ({ epStep := e.2.epStep } : Bar)) else e).filter fun e => e.2 != ({} : Bar) }

/-- An abort of a job on this node (12 R329, 05 R125): its status and event are set once, its slots stop, its barrier
objects are aborted, and the other members are told by `tell`. -/
def State.haltJob (s : State) (t : Tag) (status : Nat) (event : W16) (tell : Out) : State :=
  match s.job t with
  | none => s
  | some j =>
    if j.stop.isSome then s
    else
      let s := s.modJob t fun j => { j with stop := some (status, event) }
      let s := foldS s j.live fun s e => s.abortSlot e.1 e.2
      let s := foldS s (clustersOf j.d.clusters) fun s c => s.grantArrays c.val
      let s := s.abortBars t
      if 1 < j.members.length then s.emit tell else s

/-- An abort that starts here goes to every member by the control tree. -/
def State.stopJob (s : State) (t : Tag) (status : Nat) (event : W16) : State :=
  s.haltJob t status event (.abort .all t status event)

/-- The domain that an event of a job carries: 0 where no live job has the tag (17 Table 17.2). -/
def State.domainOf (s : State) (t : Tag) : Dom :=
  match s.job t with
  | some j => j.d.domain
  | none => 0

/-- The raise of an event of a job, with its tag and domain. -/
def State.raiseJob (s : State) (t : Tag) (code : W16) (i : EvInfo) : State :=
  s.raise code { i with tag := t, domain := s.domainOf t }

/-- A job-fault event ends the job that caused it with FAULT (17 R439). -/
def State.faultJob (s : State) (t : Tag) (code : W16) (i : EvInfo := {}) : State :=
  (s.raiseJob t code i).stopJob t Stat.fault code

/-- A stop that leaves arrays free: they are granted with the stop, or at once where the job was stopped before. -/
def State.stopThenGrant (s : State) (c : CId) (t : Tag) (stop : State → State) : State :=
  if (s.job t).all (·.stop.isSome) then (stop s).grantArrays c.val else stop s

/-- A fault of a barrier episode (06 R147): the abort goes along the tree as an abort of the object. -/
def State.faultBar (s : State) (t : Tag) (b : BarId) (code : W16) (i : EvInfo := {}) : State :=
  (s.raiseJob t code i).haltJob t Stat.fault code (.barAbort .all t b (code == Ev.barSkew))

/-- A device fatal event (17 R439): latched, FAULT_N low, every live job ends with FAULT. -/
def State.deviceFatal (s : State) (code : W16) (i : EvInfo := {}) : State :=
  let s := s.raise code i
  let s := { s with glb := { s.glb with fatal := true, faultN := true } }
  foldS s (s.jobs.list.filter fun j => j.admitted && j.phase != .ended) fun s j => s.stopJob j.tag Stat.fault code

/-! ### Routes -/

/-- The ports of a route's gang, ascending. -/
def portsOf (m : BitVec 12) : List PortId := (List.finRange 12).filter fun p => bitOf m p.val

/-- The lowest-numbered valid route entry for a destination (11 R297). -/
def State.route (s : State) (dst : NodeId) : Option Route :=
  s.lnk.routes.find? fun r => r.valid && decide (r.first.toNat ≤ dst.toNat) && decide (dst.toNat ≤ r.last.toNat)

/-- The port of the gang that a WRITE, SIGNAL or INSTALL takes: number (tag + src + dst) mod g (11 R297). -/
def Route.port (r : Route) (tag : Tag) (src dst : NodeId) : Option PortId :=
  let l := portsOf r.ports
  l[(tag.toNat + src.toNat + dst.toNat) % l.length]?

/-- BAR0 offset of a register of port p (11 Table 11.12). -/
def portOff (p off : Nat) : Nat := 0x010_0000 + 0x8000 * p + off

/-- One more in LNK_NO_ROUTE of a port. -/
def State.countNoRoute (s : State) (p : PortId) : State :=
  let b := bump (s.port p.val).noRoute
  (s.modPort p.val fun x => { x with noRoute := b.1, routeSat := x.routeSat || b.2 }).satEvent b.2 6 (portOff p.val 0x30)

/-- A message of this node's own for `dst`: sent where a route exists, else dropped with LNK_NO_ROUTE (11 R297). It came by no
port, and counts at P0 (log 21). -/
def State.sendTo (s : State) (dst : NodeId) (t : Tag) (o : Out) : State :=
  if (s.route dst).isSome then s.emit o else (s.countNoRoute 0).raise Ev.lnkNoRoute { aux := dst, tag := t }

/-! ### Signals -/

/-- 06 R141: a signal that no live job's window takes is dropped, counted and raises SEM_STRAY; `sub` the slot it came from, 0xFF
where none of this node is known. -/
def State.dropSignal (s : State) (t : Tag) (c i : Nat) (sub : Byte := 0xFF) : State :=
  let x := s.clu c
  let b := bump x.semDrop
  let s := (s.setClu c { x with semDrop := b.1, semDropSat := x.semDropSat || b.2 }).satEvent b.2 0xD (winOff c 0x3_1008)
  let v := (x.sem i).setWidth 64
  s.raiseJob t Ev.semStray { unit := BitVec.ofNat 8 c, sub := sub, aux := BitVec.ofNat 16 i, arg := v <<< 32 ||| v }

/-- 06 R134, R136, R141: a signal of n takes effect at a semaphore of this node on behalf of the job tag. -/
def State.signalSem (s : State) (t : Tag) (c i : Nat) (n : W32) (sub : Byte := 0xFF) : State :=
  match s.job t with
  | none => s.dropSignal t c i sub
  | some j =>
    if !j.holdsSem c i then s.dropSignal t c i sub
    else
      let x := s.clu c
      let old := x.sem i
      if x.stuck.contains i then s
      else if 2 ^ 32 ≤ old.toNat + n.toNat then
        let s := s.setClu c ({ x with stuck := i :: x.stuck }.setSem i (BitVec.allOnes 32))
        s.faultJob t Ev.semSat
          { unit := BitVec.ofNat 8 c, sub := sub, aux := BitVec.ofNat 16 i,
            arg := BitVec.ofNat 64 (old.toNat * 2 ^ 32 + 0xFFFF_FFFF) }
      else s.setClu c (x.setSem i (old + n))

/-- Table 6.1. -/
def SemRef.word (r : SemRef) : W32 := BitVec.ofNat 32 (r.node.toNat * 65536 + r.cluster.val * 1024 + r.index)

/-- Serving jobs have mode[2] = 1 (12 R323). -/
def Job.serving (j : Job) : Bool := j.d.mode.testBit 2

/-- The channel of a job's data and signals as they are issued: VC3 for a serving job, VC1 for another (11 Table 11.7). A job that has
ended here counts while it is listed, so that what it wrote and what it signals stay on one channel (06 R140). -/
def State.dataVc (s : State) (t : Tag) : Nat :=
  match s.jobs.list.find? fun j => j.admitted && j.tag == t with
  | some j => if j.serving then 3 else 1
  | none => 1

/-- A signal to a semaphore of any node: applied here or sent as a message (06 R140). -/
def State.signalTo (s : State) (t : Tag) (r : SemRef) (n : W32) (sub : Byte := 0xFF) : State :=
  if r.node = s.lnk.node then s.signalSem t r.cluster.val r.index n sub
  else s.sendTo r.node t (.signal r.node t (s.dataVc t) r.word n)

/-- Table 6.1. -/
def semRef (v : W32) : SemRef :=
  ⟨BitVec.ofNat 16 (bitsOf v 31 16), ⟨bitsOf v 15 10 % 64, Nat.mod_lt _ (by decide)⟩, bitsOf v 9 0⟩

/-- KDF(x, n) of 13 R343: the first n bytes of SHAKE256. -/
def kdf (x : Bytes) (n : Nat) : Bytes := Config.shake256 x n

/-- The attestation key's signature: the seeds of the key, randomness, message (13 R342, Table 13.1). -/
def slhSign (seeds r msg : Bytes) : Bytes := Config.slhMake Config.slhF (Config.slhPublic seeds) msg r

/-- The 32 B digest that names this part (13 R343, R345). -/
def State.idd (s : State) : Bytes := Config.shake256 (Config.slhPublic s.sec.fuseSeed) 32

/-- A register word from its fields (lowest bit, width, value); every bit that no field names reads as zero (00 R8). -/
def fieldsOf (l : List (Nat × Nat × Nat)) : W64 :=
  BitVec.ofNat 64 (nsum (l.map fun e => e.2.2 % 2 ^ e.2.1 * 2 ^ e.1))

/-- GLB_ID (15 Table 15.22). -/
def glbId : W64 :=
  fieldsOf [(48, 16, 0x4B4D), (32, 16, 0x0002), (24, 8, Config.stepping.toNat), (16, 8, Config.romRelease.toNat)]

/-- GLB_STATUS.phase (15 Table 15.15): the step of a start. -/
def State.inPhase (s : State) (p : Nat) : State := { s with glb := { s.glb with phase := p } }

/-- All stream slots. -/
def allSlots : List SId := List.finRange 4

/-- Is any job live on this node? A descriptor that is only held is none: a job is live from its admission. -/
def State.anyLive (s : State) : Bool := s.jobs.list.any fun j => j.admitted && j.phase != .ended

/-- Is a job of domain d live on this node? -/
def State.liveOf (s : State) (d : Dom) : Bool :=
  s.jobs.list.any fun j => j.admitted && j.phase != .ended && j.d.domain == d

/-- A domain has a live session while its slot is Open or Provisioned (13 R347). -/
def State.liveSession (s : State) (d : Dom) : Bool :=
  (s.session d.toNat).state == .opened || (s.session d.toNat).state == .provisioned

/-- The device runs: no reset is held and ready is set. -/
def State.up (s : State) : Bool := s.rst.held == .none && s.glb.ready

/-- A resting device, or one that is entering rest, wakes (15 R419). -/
def State.wakeUp (s : State) : State :=
  match s.rst.pwr with
  | .entering | .rest | .restQuiet => { s with rst := { s.rst with pwr := .waking } }
  | _ => s

/-- The record that the counts of this node go on from: the one being written, else the one in force. -/
def Life.newest (l : Life) : Option LifeRecord := l.writing.orElse fun _ => l.record

/-- A life record write starts, with the counts of the moment and a CFG_GEN (14 R389, Table 14.9). -/
def State.lifeNow (s : State) (gen : W32) : State :=
  let l := s.life
  let seq : W64 := match l.newest with
    | some r => r.seq + 1
    | none => 1
  { s with life := { l with writing := some ⟨seq, l.counters, gen, l.pe⟩, saveBusy := true } }

/-- A life record write starts, with the counts of the moment and the CFG_GEN in force or about to be committed (before a warm start has
set it, the one recorded last); one that is under way goes on with the new counts (14 R389, Table 14.9). Before a cold start has restored the record in force its counts go on:
the new record adds those made since, and holds them until the restore (DEDUCED, log 8). -/
def State.lifeWrite (s : State) : State :=
  let l := s.life
  match s.rst.fromCold, l.newest with
  | true, some r =>
    { s with life := { l with
        writing := some ⟨r.seq + 1, (r.counters.zip l.counters).map fun e => add48 e.1 e.2, r.lastCfgGen, r.pe⟩
        counters := [0, 0, 0, 0, 0, 0], saveBusy := true } }
  | _, _ =>
    let now := if s.cfg.gen = 0 then (match l.newest with | some r => r.lastCfgGen | none => 0) else s.cfg.gen
    s.lifeNow (if s.cfg.state = .committing then nextGen now else now)

/-- A record stands in the slot whose turn it is, and is in force (14 R390). -/
def Life.store (l : Life) (r : LifeRecord) : Life :=
  { l with record := some r, slots := mset none l.slots (r.seq.toNat % 64) (some r) }

end Sys2Proof.Machine
end

