-- ==== Sys2Proof/Machine/Layout.lean ====
section
/-! DEFINITION. Sys2Proof/Machine/Layout.lean: where things lie: the place of a cluster and the way through the mesh (01 R10, R13), bank and row of a scratchpad offset (07 R154), channel and byte of a device address (R165), and the encrypted line that a controller stores (R172). No meaning acts on these: they are views of State and of addresses. -/

namespace Sys2Proof.Machine

open Sys2Proof

/-! ### The mesh (01 R10, R13) -/

/-- The field of cluster n, 0 to 3. -/
def cluField (n : Nat) : Nat := n / 16 % 4
/-- Row and column within the field, from the north and from the west. -/
def cluRow (n : Nat) : Nat := n / 4 % 4
def cluCol (n : Nat) : Nat := n % 4
/-- Global column and row on the 8 × 8 mesh. -/
def meshCol (n : Nat) : Nat := 4 * (n / 16 % 2) + n % 4
def meshRow (n : Nat) : Nat := 4 * (n / 32 % 2) + n / 4 % 4

/-- The cluster at a global row and column. -/
def meshAt (row col : Nat) : Nat := row / 4 % 2 * 32 + col / 4 % 2 * 16 + row % 4 * 4 + col % 4

/-- The numbers from a to b, either way, without a. -/
def stepsTo (a b : Nat) : List Nat :=
  if a ≤ b then (List.range (b - a)).map (· + a + 1) else (List.range (a - b)).map fun i => a - i - 1

/-- The clusters whose routers a transfer passes after its source (01 R13): along the global row to the column of its
destination, then along that column. -/
def meshPath (src dst : Nat) : List Nat :=
  ((stepsTo (meshCol src) (meshCol dst)).map fun c => meshAt (meshRow src) c) ++
    (stepsTo (meshRow src) (meshRow dst)).map fun r => meshAt r (meshCol dst)

/-! ### Scratchpad banks (07 R154) -/

/-- The bank of an offset in a cluster: 64 B blocks interleaved over 128 banks. -/
def spdBank (off : Nat) : Nat := (off / 2 ^ 6 % 128) ^^^ (off / 2 ^ 13 % 128)
/-- The row within the bank. -/
def spdRow (off : Nat) : Nat := off / 2 ^ 13 % 2 ^ 14

/-! ### Device addresses (07 R165) -/

/-- The byte address within the channel. -/
def chanByte (a : Nat) : Nat := a / 2 ^ 11 / 20 * 512 + a / 2 ^ 10 % 2 * 256 + a % 256

/-! ### Encryption (07 R172) -/

/-- The data half of the memory key of a page by its mode; none for a free page, or where the key is absent. -/
def State.pageKey (s : State) (p : Nat) : Option Bytes :=
  match (s.page p).mode with
  | .priv => (s.session (s.page p).domain.toNat).memKey
  | .base => s.sec.baseKey
  | .device => s.sec.deviceKey
  | .free => none

/-- What the controller stores for the 64 B line at a device address: the plaintext that `Mem.bytes` holds, under AES-256-XTS with
the key pair of the page, its own half and the tweak key that all memory keys share (13 Table 13.2), and the tweak A >> 6 (log 7). -/
def State.cipherLine (s : State) (a : Nat) : Option Bytes :=
  (s.pageKey (pageOf a)).bind fun k => s.sec.tweakKey.map fun w =>
    Config.xtsSeal (k ++ w) (a / 64) ((List.range 64).map fun i => s.rawByte ⟨true, a / 64 * 64 + i⟩)

end Sys2Proof.Machine
end

