-- ==== Sys2Proof/Machine/Operands.lean ====
section
/-! DEFINITION. Sys2Proof/Machine/Operands.lean: the instruction word of 05 (header, reserved fields, which row of the table it spells), every operand form (operand references, M addresses, tile descriptors, semaphore fields), elements of a tile, hazard ranges (05 R124), and the issue of one instruction (05 R104, R107, R124). -/

namespace Sys2Proof.Machine

open Sys2Proof

/-! ### The word -/

/-- A field of the instruction word. -/
def wf (w : W128) (hi lo : Nat) : Nat := bitsOf w hi lo

/-- Code of a row: class, op, and func (VEC) or kind (PTEST). -/
def rowCode (cls op sub : Nat) : Nat := cls * 0x10000 + op * 0x100 + sub

/-- func codes of Table 5.8 that name an operation. -/
def funcOk (f : Nat) : Bool :=
  decide (f ≤ 0x0A) || (decide (0x10 ≤ f) && decide (f ≤ 0x1E)) || (decide (0x20 ≤ f) && decide (f ≤ 0x2D)) ||
  f == 0x30 || (decide (0x38 ≤ f) && decide (f ≤ 0x3A)) || (decide (0x40 ≤ f) && decide (f ≤ 0x45)) ||
  (decide (0x48 ≤ f) && decide (f ≤ 0x4B)) || f == 0x50 || (decide (0x58 ≤ f) && decide (f ≤ 0x5D))

/-- The row a word spells; none where its class, op, func or kind is reserved (05 R107, R116, R120). -/
def rowOf (w : W128) : Option Nat :=
  let op := wf w 123 120
  match wf w 127 124 with
  | 1 => if op < 3 then some (rowCode 1 op 0) else none
  | 2 => if op < 4 then some (rowCode 2 op 0) else none
  | 3 => if op = 0 ∧ funcOk (wf w 111 104) then some (rowCode 3 0 (wf w 111 104)) else none
  | 4 => if op < 5 then some (rowCode 4 op 0) else none
  | 5 =>
    if op = 7 then (if wf w 108 106 < 6 then some (rowCode 5 7 (wf w 108 106)) else none)
    else if op < 12 then some (rowCode 5 op 0) else none
  | 6 => if op < 4 then some (rowCode 6 op 0) else none
  | _ => none

/-- VEC: which bits of the conv field a func may use (Table 5.7). -/
def vecConvOk (w : W128) (func : Nat) : Bool :=
  if func = 0x30 then true
  else if func = 0x08 ∨ func = 0x2D then wf w 75 67 == 0 && wf w 66 64 != 7
  else if func = 0x50 then wf w 75 70 == 0
  else wf w 75 64 == 0

/-- Reserved encodings of the conversion field (02 Table 2.5). -/
def convReserved (n : Nat) : Bool := (Fmt.ofCode (fld n 8 4)).isNone || decide (2 ≤ fld n 6 2) || fld n 0 2 != 0

/-- A VEC word's fmt code, and the conversion field of cvt, carry no reserved encoding (00 R9, 02 R28, R33). -/
def vecFmtOk (w : W128) : Bool :=
  (Fmt.ofCode (wf w 103 100)).isSome && (wf w 111 104 != 0x30 || !convReserved (wf w 75 64))

/-- Fields of CTRL that an op does not use are zero; destinations that cannot be written are reserved
(05 R106, R118, R119, R120). The bits that PTEST leaves unused of a field that its kind does use are ignored: imm[31:5] of kind
0, bit 3 of the xa and xb fields of kinds 4 and 5; the spec says only that unused fields are 0 (DESIGN CHOICE, log 12). -/
def ctrlOk (w : W128) (op : Nat) : Bool :=
  match op with
  | 0 | 1 => wf w 111 0 == 0
  | 2 => wf w 79 0 == 0
  | 3 => wf w 87 0 == 0 && wf w 103 88 != 0
  | 4 => wf w 107 96 == 0 && wf w 63 0 == 0
  | 5 => wf w 99 96 == 0 && wf w 63 0 == 0
  | 6 => wf w 103 96 == 0 && wf w 63 0 == 0
  | 7 =>
    wf w 111 109 != 0 && wf w 105 104 == 0 && wf w 95 64 == 0 &&
    (match wf w 108 106 with
     | 0 => wf w 103 96 == 0
     | 1 => wf w 103 96 == 0
     | 2 => wf w 63 0 == 0
     | 3 => wf w 99 96 == 0 && wf w 63 32 == 0
     | _ => wf w 63 0 == 0)
  | 8 => wf w 105 64 == 0 && wf w 31 0 == 0
  | 9 => wf w 108 64 == 0 && wf w 31 0 == 0 && wf w 111 109 != 0
  | 10 => wf w 106 64 == 0 && wf w 31 0 == 0 && wf w 111 107 != 0
  | _ => wf w 107 64 == 0 && wf w 31 0 == 0

/-- Are the fields that Tables 5.2 to 5.10 reserve, or leave unused by the operation, zero? -/
def reservedOk (w : W128) : Bool :=
  wf w 114 112 == 0 &&
  (let op := wf w 123 120
   match wf w 127 124 with
   | 1 =>
     wf w 45 32 == 0 && (op == 1 || wf w 91 80 == 0) && (wf w 63 63 == 1 || wf w 79 64 == 0) &&
     (op != 2 || wf w 101 92 == 0) && (op == 2 || (op == 1 && wf w 84 84 == 1) || wf w 31 0 == 0)
   | 2 =>
     match op with
     | 0 => wf w 75 0 == 0
     | 1 => wf w 65 0 == 0
     | 2 => wf w 87 68 == 0 && wf w 65 0 == 0
     | _ => wf w 107 0 == 0
   | 3 => vecConvOk w (wf w 111 104) && vecFmtOk w
   | 4 => wf w 11 0 == 0 && (if op = 4 then wf w 111 48 == 0 else wf w 47 12 == 0)
   | 5 => ctrlOk w op
   | 6 =>
     wf w 74 74 == 0 && (if op = 0 then wf w 111 102 == 0 && wf w 91 82 == 0 else op == 3 || wf w 31 16 == 0)
   | _ => false)

/-- The MOVE conversion field is checked where it stands (02 R32, R33, R36). -/
def moveConvOk (w : W128) : Bool :=
  wf w 127 124 != 1 || wf w 123 120 != 1 || (ConvCtl.decode (wf w 91 80)).isSome

/-! ### Environment of an issue -/

/-- Why an instruction ends its job: the event with its arguments (17 Table 17.3); `sub` the group where one is
concerned, the channel where memory is, else the slot; `unit` the controller where memory is concerned, else the cluster. -/
structure Fail where
  code : W16
  arg : Nat := 0
  aux : Nat := 0
  sub : Option Nat := none
  unit : Option Nat := none
deriving DecidableEq, Repr

/-- An instruction at issue: its cluster, slot, job, the slot's state and the word. -/
structure Env where
  c : CId
  k : SId
  job : Job
  y : Slot
  w : W128
  readBad : List Nat
  regBad : Bool
  outliers : Option Outliers

def Env.f (e : Env) (hi lo : Nat) : Nat := wf e.w hi lo
def Env.who (e : Env) : Who := { e.job.who with sub := BitVec.ofNat 8 e.k.val }
def Env.req (e : Env) : Req := e.job.who.req

/-- Scalar register; x0 reads 0 (05 R105). -/
def Slot.rx (y : Slot) (i : Nat) : Nat := if i = 0 then 0 else (mget 0 y.x i).toNat
def Slot.setX (y : Slot) (i : Nat) (v : W32) : Slot := if i = 0 then y else { y with x := mset 0 y.x i v }
/-- Predicate register; p0 reads 1 (05 R105). -/
def Slot.rp (y : Slot) (i : Nat) : Bool := i == 0 || mget false y.p i
def Slot.setP (y : Slot) (i : Nat) (v : Bool) : Slot := if i = 0 then y else { y with p := mset false y.p i v }

/-- Start of cluster c's scratchpad (07 R153). -/
def spdBase (c : CId) : Addr := ⟨false, c.val * 2 ^ 27⟩

/-- Base register: b0 is the cluster's own scratchpad; none for a null or malformed pointer (05 R106). -/
def Slot.base (y : Slot) (c : CId) (i : Nat) : Option Addr :=
  if i = 0 then some (spdBase c) else ptrAddr (mget 0 y.b i).toNat

/-- Scale table entry; none where null (05 R105). -/
def Slot.scale (y : Slot) (i : Nat) : Option Addr := if i = 0 then none else ptrAddr (mget 0 y.s i).toNat

/-- M address (05 R108), checked for its space over `len` bytes and its alignment. -/
def mAddr (s : State) (c : CId) (y : Slot) (m len align : Nat) : Except Fail Addr :=
  match y.base c (fld m 29 3) with
  | none => .error { code := Ev.seqAddr }
  | some b =>
    let a := b.plus (16 * fld m 0 25 + y.rx (fld m 25 4))
    if s.inSpace a len ∧ a.a % align = 0 then .ok a else .error { code := Ev.seqAddr, arg := Addr.ptr a }

/-! ### Tiles -/

def Tile.rowBytes (t : Tile) : Nat := ceilDiv (t.cols * t.fmt.width) 8
def Tile.rowAddr (t : Tile) (i : Nat) : Addr := t.addr.plus (i * t.pitch)
/-- Bytes from the first to just past the last. -/
def Tile.extent (t : Tile) : Nat := (t.rows - 1) * t.pitch + t.rowBytes

/-- Resolves a tile descriptor (05 R109, R110; Table 5.4) with index value x. -/
def tileOf (s : State) (c : CId) (y : Slot) (d x : Nat) : Except Fail Tile :=
  match Fmt.ofCode (fld d 60 4) with
  | none => .error { code := Ev.seqTile }
  | some f =>
    match y.base c (fld d 57 3) with
    | none => .error { code := Ev.seqAddr }
    | some b =>
      let cols := fld d 17 14 + 1
      let rb := ceilDiv (cols * f.width) 8
      let st := fld d 5 12
      let t : Tile :=
        { fmt := f, addr := b.plus (64 * (fld d 41 16 + x)), rows := fld d 31 10 + 1, cols := cols
          pitch := if st = 0 then alignUp rb 64 else 64 * st, scl := fld d 0 5 }
      if ¬ s.inSpace t.addr 1 then .error { code := Ev.seqAddr, arg := Addr.ptr t.addr }
      else if st ≠ 0 ∧ 64 * st < rb then .error { code := Ev.seqTile }
      else if ¬ s.inSpace t.addr t.extent then .error { code := Ev.seqTile }
      else if ¬ t.addr.dev ∧ t.addr.a / 2 ^ 27 ≠ (t.addr.a + t.extent - 1) / 2 ^ 27 then .error { code := Ev.seqTile }
      else .ok t

/-- An operand reference (05 R108): tile register and index register. -/
def Env.tile (e : Env) (s : State) (r : Nat) : Except Fail Tile :=
  tileOf s e.c e.y (mget 0 e.y.t (fld r 4 6)).toNat (e.y.rx (fld r 0 4))

/-- The elements of a row of bytes; INT4 holds two to a byte, the even one low (02 R29). -/
def elemsOf (f : Fmt) (n : Nat) (l : Bytes) : List Nat :=
  (List.range n).map fun j =>
    if f = .int4 then fld (leAt l (j / 2) 1) (4 * (j % 2)) 4 else leAt l (f.bytes * j) f.bytes

/-- INT4 pairs into bytes; an odd last half byte is zero (02 R29). -/
def packNibbles : List Nat → Bytes
  | [] => []
  | [a] => [BitVec.ofNat 8 (a % 16)]
  | a :: b :: l => BitVec.ofNat 8 (a % 16 + 16 * (b % 16)) :: packNibbles l

/-- The bytes of a row of elements. -/
def packElems (f : Fmt) (l : List Nat) : Bytes :=
  if f = .int4 then packNibbles l else l.flatMap (leBytes f.bytes)

/-- Row i of a tile as its requester reads it. -/
def State.tileRow (s : State) (r : Req) (t : Tile) (i : Nat) : List Nat :=
  elemsOf t.fmt t.cols (s.read r (t.rowAddr i) t.rowBytes)

/-- The element at (i, j) of a tile. -/
def State.elem (s : State) (r : Req) (t : Tile) (i j : Nat) : Nat :=
  if t.fmt = .int4 then fld (leNat (s.read r (t.rowAddr i |>.plus (j / 2)) 1)) (4 * (j % 2)) 4
  else leNat (s.read r (t.rowAddr i |>.plus (t.fmt.bytes * j)) t.fmt.bytes)

/-- Row i of a tile written. -/
def State.putRow (s : State) (w : Who) (t : Tile) (i : Nat) (l : List Nat) : State :=
  s.store w (t.rowAddr i) (packElems t.fmt l)

/-! ### Hazards -/

def Tile.rng (t : Tile) (write : Bool) : Rng := ⟨t.addr, t.rowBytes, t.rows, t.pitch, write⟩
def Addr.rng (a : Addr) (len : Nat) (write : Bool) : Rng := ⟨a, len, 1, 0, write⟩

/-- Do `l` bytes at p meet a byte of a range? -/
def Rng.meets (r : Rng) (p l : Nat) : Bool :=
  let q := r.addr.a
  decide (0 < l) && decide (0 < r.len) && decide (q < p + l) &&
  (let lo := if p < q + r.len then 0 else if r.pitch = 0 then r.rows else (p - r.len - q) / r.pitch + 1
   let hi := if r.pitch = 0 then 0 else (p + l - q - 1) / r.pitch
   decide (lo ≤ min hi (r.rows - 1)))

/-- Two ranges conflict when they share a byte and one of them writes (05 R124). -/
def Rng.conflict (a b : Rng) : Bool :=
  (a.write || b.write) && a.addr.dev == b.addr.dev &&
  (List.range a.rows).any fun i => b.meets (a.addr.a + i * a.pitch) a.len

/-- Must the instruction wait (05 R124)? Accumulates and closes of one group follow the order of their chunks. -/
def Slot.hazard (y : Slot) (rs : List Rng) (g : Option GId) : Bool :=
  y.out.any fun o => !(g.isSome && o.group == g) && o.ranges.any fun a => rs.any fun b => a.conflict b

/-- The tracked byte ranges in use (05 R124). -/
def Slot.tracked (y : Slot) : Nat := nsum (y.out.map (·.ranges.length))
/-- All 32 tracked ranges are in use (05 R124). -/
def Slot.full (y : Slot) : Bool := decide (32 ≤ y.tracked)
/-- An instruction of n ranges does not fit beside the tracked ones (05 R124). -/
def Slot.crowded (y : Slot) (n : Nat) : Bool := decide (32 < y.tracked + n)

/-! ### Issue -/

/-- What an instruction's own part answers. -/
inductive Ans where
  /-- It has issued: the pc advances. -/
  | ok (s : State)
  /-- It has issued and set the pc itself. -/
  | jump (s : State)
  /-- It waits for a hazard or its unit. -/
  | stall
  /-- It ends the job. -/
  | fail (f : Fail)
  /-- It ends the job after some of its effects. -/
  | failIn (s : State) (f : Fail)

/-- An answer that needs a check first. -/
def Ans.of {α : Type} (x : Except Fail α) (f : α → Ans) : Ans :=
  match x with
  | .ok a => f a
  | .error e => .fail e

/-- An answer after an effect that may end the job (parity, 03 R83, 04 R98, 07 R162). -/
def Ans.after (x : State × Option Fail) (f : State → Ans) : Ans :=
  match x.2 with
  | none => f x.1
  | some e => .failIn x.1 e

/-- The loop levels whose body ends at pc (05 R119): the innermost repeats or ends, with the index it writes. -/
def loopEnd (pc : Nat) : List Loop → Nat × List Loop × Option (Nat × W32)
  | [] => (pc, [], none)
  | l :: r =>
    if pc = l.first + 16 * l.len then
      if 1 < l.left then (l.first, { l with left := l.left - 1, index := l.index + 1 } :: r, some (l.xd, l.index + 1))
      else loopEnd pc r
    else (pc, l :: r, none)

/-- The slot goes on at an address: loops that end there are handled (05 R119). -/
def Slot.goTo (y : Slot) (pc : Nat) : Slot :=
  let r := loopEnd pc y.loops
  let y := { y with pc := BitVec.ofNat 48 r.1, loops := r.2.1 }
  match r.2.2 with
  | some (xd, v) => y.setX xd v
  | none => y

/-- The slot waits for a hazard or a unit. -/
def Slot.stall (y : Slot) : Slot := { y with state := .waiting, wait := .hazard, waitIndex := 0 }

/-- A slot that stalled runs again. -/
def Slot.unstall (y : Slot) : Slot :=
  if y.state = .waiting ∧ y.wait = .hazard then { y with state := .running, wait := .none } else y

/-- The life clock at the first instruction of a stream is kept (12 R331). -/
def Slot.noteFirst (y : Slot) (now : W64) : Slot := { y with firstUs := y.firstUs.orElse fun _ => some now }

/-- May the slot issue? -/
def Slot.ready (y : Slot) : Bool := y.state == .running || (y.state == .waiting && y.wait == .hazard)

/-- Advances the pc past the instruction that stood at `pc`, unless the slot was stopped meanwhile. -/
def State.advance (s : State) (c : CId) (k : SId) (pc : Nat) : State :=
  s.modSlot c.val k.val fun y => if y.state = .idle then y else (y.noteFirst s.life.clock).unstall.goTo (pc + 16)

/-- A cache copy with a line that failed parity is to be evicted once its references clear (09 R245). -/
def State.cacheBad (s : State) (a : Addr) : State :=
  let owns (x : Variant) : Bool :=
    x.cacheParcels.any fun e => e.1.val == spdCluster a.a && e.2 == spdOff a.a / 65536
  let reg := s.var.reg.map fun e => if owns e.2 then (e.1, { e.2 with evicting := true }) else e
  { s with var := { s.var with reg := reg } }

/-- What a failed read does to the cache copy that it read. -/
def State.cacheFault (s : State) (f : Fail) : State :=
  match ptrAddr f.arg with
  | some a => if f.code = Ev.memSpdParity ∧ !a.dev then s.cacheBad a else s
  | none => s

/-- A stream instruction that fails ends its job (17 R439), with the cluster and the slot. -/
def State.failJob (s : State) (c : CId) (k : SId) (t : Tag) (f : Fail) : State :=
  (s.cacheFault f).faultJob t f.code
    { unit := BitVec.ofNat 8 (f.unit.getD c.val),
      sub := BitVec.ofNat 8 (f.sub.getD k.val),
      aux := BitVec.ofNat 16 f.aux, arg := BitVec.ofNat 64 f.arg }

/-- The predicate of the header selects the instruction (05 R107). -/
def selected (y : Slot) (w : W128) : Bool := y.rp (wf w 119 117) != (wf w 116 116 == 1)

/-- A fetch of the word at an address that the mode or the domain of its memory denies, or from an invalid line, reads zeros
(05 R104, 07 R156, R157); 16 aligned bytes lie in one line. -/
def State.fetchable (s : State) (j : Job) (a : Addr) : Bool := s.mayAccess j.who.req a false && s.lineValid a

/-- The word that memory holds at an address, as the job's streams read it (05 R107, 07 Table 7.3). -/
def State.fetchWord (s : State) (j : Job) (a : Addr) : W128 := BitVec.ofNat 128 (leNat (s.read j.who.req a 16))

/-- The part of the issue after the word is known to be well formed. -/
def State.run (s : State) (e : Env) (body : Env → State → Ans) : State :=
  if (wf e.w 115 115 = 1 ∧ e.y.out ≠ []) ∨ e.y.full then s.setSlot e.c.val e.k.val e.y.stall
  else if !selected e.y e.w then s.advance e.c e.k e.y.pc.toNat
  else
    match body e s with
    | .ok t => t.advance e.c e.k e.y.pc.toNat
    | .jump t => t
    | .stall => s.setSlot e.c.val e.k.val e.y.stall
    | .fail f => s.failJob e.c e.k e.job.tag f
    | .failIn t f => t.failJob e.c e.k e.job.tag f

/-- A read that meets a poisoned line ends the job (07 R173, R174); a denied read returns zeros and meets none. -/
def poisonCheck (s : State) (r : Req) (a : Addr) (n : Nat) : Except Fail Unit :=
  match s.poisonIn a n with
  | none => .ok ()
  | some k =>
    if s.mayAccess r ⟨true, k⟩ false then
      .error { code := Ev.memPoison, arg := Addr.ptr ⟨true, k⟩, sub := some (chanOf k), unit := some (ctlOf k) }
    else .ok ()

/-- One instruction of row `row` issues in its slot. A slot that runs no job issues nothing, nor does one of a device that wakes
(15 R419); the address of the
instruction must lie in the space of the pc (05 R104, R106); a word that fails its parity once is fetched again, which in
scratchpad counts as a replay (07 R162), one that fails twice ends the job, as does one that carries a reserved encoding, and
so does a fetch that reads zeros, whose misses count (07 R159), or that meets a poisoned line (07 R174); a word of another row is
not this command. -/
def State.issue (s : State) (i : Issue) (row : Nat) (body : Env → State → Ans) : State :=
  let y := s.slot i.cluster.val i.slot.val
  match s.job y.tag with
  | none => s
  | some j =>
    if !y.ready || s.rst.pwr == .waking then s
    else
      let bad := fun (f : Fail) => s.failJob i.cluster i.slot y.tag f
      match ptrAddr y.pc.toNat with
      | none => bad { code := Ev.seqAddr, arg := y.pc.toNat }
      | some a =>
        if ¬ s.inSpace a 16 then bad { code := Ev.seqAddr, arg := Addr.ptr a }
        else
          let u := if i.fetchBad = 0 ∨ a.dev then s else s.bumpLife 5
          if 2 ≤ i.fetchBad then u.failJob i.cluster i.slot y.tag { code := Ev.seqFetch }
          else if !s.fetchable j a then
            (u.noteMiss { j.who with sub := BitVec.ofNat 8 i.slot.val } a 16 false).failJob i.cluster i.slot y.tag { code := Ev.seqDecode }
          else
            match poisonCheck s j.who.req a 16 with
            | .error f => u.failJob i.cluster i.slot y.tag f
            | .ok _ =>
              match rowOf i.word with
              | none => u.failJob i.cluster i.slot y.tag { code := Ev.seqDecode }
              | some r =>
                if !reservedOk i.word || !moveConvOk i.word then u.failJob i.cluster i.slot y.tag { code := Ev.seqDecode }
                else if r ≠ row then s
                else u.run ⟨i.cluster, i.slot, j, y, i.word, i.readBad, i.regBad, i.outliers⟩ body

/-- Adds an outstanding instruction to its slot. -/
def State.addOut (s : State) (e : Env) (kind : OutKind) (rs : List Rng) (sem : Option SemRef) (g : Option GId) : State :=
  s.modSlot e.c.val e.k.val fun y =>
    { y with out := y.out ++ [⟨y.nextId, kind, rs, sem, g⟩], nextId := y.nextId + 1 }

/-- SEM_RANGE with the semaphore and its count, which does not change (06 R133, Table 17.3). -/
def semFail (s : State) (x : SemRef) : Fail :=
  let v := ((s.clu x.cluster.val).sem x.index).toNat
  { code := Ev.semRange, aux := x.index, arg := v * 2 ^ 32 + v }

/-- A semaphore that a MOVE, ROUTE or close names on this node must lie in the job's window (06 R133); one on another
node is checked there. -/
def semCheck (s : State) (j : Job) (r : Option SemRef) : Except Fail Unit :=
  match r with
  | none => .ok ()
  | some x =>
    if x.node ≠ s.lnk.node ∨ j.holdsSem x.cluster.val x.index then .ok () else .error (semFail s x)

/-! ### Parity, poison and writes to another node -/

/-- The mode of the parcel or page that holds an address. -/
def State.modeAt (s : State) (a : Addr) : MemMode :=
  if a.dev then (s.page (pageOf a.a)).mode else ((s.clu (spdCluster a.a)).parcel (spdOff a.a / 65536)).mode

/-- Reads in order with how often each failed its parity. A first failure repeats the read; `twice` is what a second failure
of the same read does: the reads go on, or they end. -/
def parityReads (once : State → Addr → State) (twice : State → Addr → State × Option Fail) :
    State → List (Addr × Nat) → State × Option Fail
  | s, [] => (s, none)
  | s, (_, 0) :: l => parityReads once twice s l
  | s, (a, 1) :: l => parityReads once twice (once s a) l
  | s, (a, _) :: l =>
    match twice (once s a) a with
    | (t, none) => parityReads once twice t l
    | r => r

/-- The reads of a list with their failures; a read beyond the list of failures meets none. -/
def failures (reads : List (Addr × Nat)) (bad : List Nat) : List (Addr × Nat) := (reads.map (·.1)).zip bad

/-- A base segment laid out in a cluster's scratchpad: the working copy of a byte of it (08 R207). -/
def State.workingOf (s : State) (a : Addr) : Option Addr :=
  (s.firn.current.toList ++ s.firn.old.toList ++ (s.firn.swap.map (·.gen)).toList).findSome? fun g =>
    (g.places.find? fun p => decide (p.spd ≤ a.a) && decide (a.a < p.spd + p.len)).map fun p => ⟨true, p.dev + (a.a - p.spd)⟩

/-- A shared-base line of 1 KiB that failed twice is read from the working copy again and written back (07 R157, R162): every byte of
it that a placed segment holds. -/
def State.refillLine (s : State) (a : Addr) : State :=
  let b : Addr := ⟨false, a.a / 1024 * 1024⟩
  foldS s (List.range 1024) fun u i =>
    match s.workingOf (b.plus i) with
    | none => u
    | some w => u.putByte (b.plus i) (s.rawByte w)

/-- 07 R162: reads of scratchpad and their parity failures. The repeat counts as a replay; after a second failure a
shared-base line is refilled from the working copy, any other line ends the job. Main memory has its own parity (07 R173). -/
def spdParity (s : State) (w : Who) (reads : List (Addr × Nat)) (bad : List Nat) : State × Option Fail :=
  parityReads (fun s a => if a.dev then s else s.bumpLife 5)
    (fun s a =>
      if a.dev then (s, none)
      else if s.modeAt a = .base then
        ((s.refillLine a).raise Ev.memSpdRefill
          { unit := BitVec.ofNat 8 (spdCluster a.a), sub := w.sub, tag := w.tag, domain := w.dom
            arg := BitVec.ofNat 64 (Addr.ptr a) }, none)
      else (s, some { code := Ev.memSpdParity, arg := Addr.ptr a, unit := some (spdCluster a.a) }))
    s (failures reads bad)

/-- The first of several reads that meets poison. -/
def poisonAll (s : State) (r : Req) : List (Addr × Nat) → Except Fail Unit
  | [] => .ok ()
  | x :: l =>
    match poisonCheck s r x.1 x.2 with
    | .ok _ => poisonAll s r l
    | .error e => .error e

/-- The rows of a tile as reads. -/
def Tile.reads (t : Tile) : List (Addr × Nat) := (List.range t.rows).map fun i => (t.rowAddr i, t.rowBytes)

/-- The misses of several reads. -/
def State.noteReads (s : State) (w : Who) (l : List (Addr × Nat)) : State :=
  foldS s l fun s x => s.noteMiss w x.1 x.2 false

/-- Reads on behalf of a job outside its instructions: misses count; poison and a second parity failure of a private line end the
job, else `k` goes on (07 R159, R162, R174). -/
def State.readThen (s : State) (w : Who) (reads : List (Addr × Nat)) (bad : List Nat) (k : State → State) : State :=
  let stop (s : State) (f : Fail) : State :=
    (s.cacheFault f).faultJob w.tag f.code
      { unit := BitVec.ofNat 8 (f.unit.getD 0), sub := BitVec.ofNat 8 (f.sub.getD w.sub.toNat), arg := BitVec.ofNat 64 f.arg }
  let s := s.noteReads w reads
  match poisonAll s w.req reads with
  | .error f => stop s f
  | .ok _ =>
    match spdParity s w reads bad with
    | (t, some f) => stop t f
    | (t, none) => k t

/-- The addr field of a WRITE message (11 Table 11.5). -/
def Addr.msg (a : Addr) : BitVec 44 := BitVec.ofNat 44 (b2n a.dev * 2 ^ 43 + a.a % 2 ^ 41)

/-- Pieces of at most `n` bytes; `fuel` bounds their number. -/
def pieces (n : Nat) : (fuel : Nat) → Nat → Bytes → List (Nat × Bytes)
  | 0, _, _ => []
  | k + 1, off, l => if l.isEmpty then [] else (off, l.take n) :: pieces n k (off + n) (l.drop n)

/-- A string of bytes written on another node: WRITE messages of at most 4,016 B (11 R292, Table 11.6). -/
def State.sendWrite (s : State) (node : NodeId) (t : Tag) (a : Addr) (l : Bytes) : State :=
  foldS s (pieces 4016 l.length 0 l) fun s p => s.sendTo node t (.write node t (s.dataVc t) (a.plus p.1).msg p.2)

/-- A string of bytes written for a job, here or on another node (05 R112, R122). -/
def State.put (s : State) (w : Who) (node : Option NodeId) (a : Addr) (l : Bytes) : State :=
  match node with
  | none => s.store w a l
  | some n => if n = s.lnk.node then s.store w a l else s.sendWrite n w.tag a l

/-- Does a parked update hold one of these pages, in its gradient area (10 R276)? -/
def State.parkHolds (s : State) (first n : Nat) : Bool :=
  s.upd.any fun e =>
    !e.2.parks.isEmpty &&
      match ptrAddr e.2.gradArea.toNat with
      | some a =>
        decide (pageOf a.a < first + n) && decide (first ≤ pageOf (a.a + e.2.gradLen - 1)) && decide (0 < e.2.gradLen)
      | none => false

end Sys2Proof.Machine
end

