-- ==== Sys2Proof/Machine/Memory.lean ====
section
/-! DEFINITION. Sys2Proof/Machine/Memory.lean: the memory commands of the physical function (07 R160, R170, R171, R183), parity, poison and stuck lines of main memory (R173 to R175), refresh (R168), and the fault of a variant whose memory is lost (09 R245). -/

namespace Sys2Proof.Machine

open Sys2Proof

/-- A host register write acts once GLB_STATUS.ready is set (15 R409). -/
def State.hostReg (s : State) (k : State → State) : State := if s.up then k s else s

/-- The physical function, and the virtual functions that are enabled (12 R317). -/
def State.fnOn (s : State) (f : FnId) : Bool := decide (f.val ≤ s.hif.vfs)

/-- A write of a register of a function: the same, by a function that is enabled. -/
def State.fnReg (s : State) (f : FnId) (k : State → State) : State := if s.fnOn f then s.hostReg k else s

/-- Vector v of function f (12 R318). -/
def irqKey (f : FnId) (v : Nat) : Nat := 32 * f.val + v
def State.vector (s : State) (f : FnId) (v : Nat) : IrqVec := mget {} s.hif.vectors (irqKey f v)
def State.setVector (s : State) (f : FnId) (v : Nat) (x : IrqVec) : State :=
  { s with hif := { s.hif with vectors := mset {} s.hif.vectors (irqKey f v) x } }

/-- A vector is signalled: its message leaves, or it is pending while it is masked. -/
def State.signalVector (s : State) (f : FnId) (v : Nat) : State :=
  let x := s.vector f v
  if x.masked then s.setVector f v { x with pending := true } else s.emit (.msix f v x.addr x.data)

/-- Records have gathered to a coalescing count that was lowered (12 R448): the pending signal leaves. -/
def State.mirrorDue (s : State) : State :=
  if 0 < s.evt.gathered ∧ s.evt.coalCount ≤ s.evt.gathered then
    ({ s with evt := { s.evt with gathered := 0 } }).signalVector 0 16
  else s

/-- The same for a queue's completions. -/
def State.queueDue (s : State) (f : FnId) (q : QId) : State :=
  let x := s.queue f q
  if x.msixEn ∧ 0 < x.gathered ∧ x.coalCount ≤ x.gathered then (s.setQueue f q { x with gathered := 0 }).signalVector f q.val
  else s

/-- A write of a vector's mask: a pending message leaves once it is clear. -/
def State.maskVector (s : State) (f : FnId) (v : Nat) (masked : Bool) : State :=
  let x := s.vector f v
  if !masked ∧ x.pending then (s.setVector f v { x with masked := false, pending := false }).emit (.msix f v x.addr x.data)
  else s.setVector f v { x with masked := masked }

/-- MEM_CMD_STATUS (07 Table 7.17) -/
def State.memDone (s : State) : State := { s with mem := { s.mem with cmdState := .done, reason := 0 } }
/-- A refusal as a whole: reason, state and MEM_CMD_REFUSED (07 R160, R171). -/
def State.memRefuse (s : State) (reason : Nat) : State :=
  ({ s with mem := { s.mem with cmdState := .refused, reason := reason } }).raise Ev.memCmdRefused (argReason reason)
/-- One memory command at a time (07 R183). -/
def State.memCmd (s : State) (k : State → State) : State :=
  s.hostReg fun s =>
    if s.mem.cmdState = .busy then s.raise Ev.memCmdBusy (argReason s.mem.reason) else k s

/-- Does the variant cache occupy parcel p of each cluster, one of the highest (07 R161)? -/
def State.inCache (s : State) (p : Nat) : Bool := decide (2048 - s.mem.cachePer ≤ p)

/-- Has the domain a live job that uses cluster c? -/
def State.liveOn (s : State) (d : Dom) (c : Nat) : Bool :=
  s.jobs.list.any fun j => j.admitted && j.phase != .ended && j.d.domain == d && j.uses c

/-- MEM_RETAG (07 R160, Table 7.15; reserved bits are ignored, 00 R8). The parcels change at one instant; RETAG_COMPLETE ends the
command. -/
def memRetag (v : W64) (s : State) : State :=
  s.memCmd fun s =>
    let mode := bitsOf v 63 62
    let d : Dom := BitVec.ofNat 12 (bitsOf v 61 50)
    let c := bitsOf v 49 44
    let first := bitsOf v 43 33
    let n := bitsOf v 32 22 + 1
    let ps := (List.range n).map fun i => (s.clu c).parcel (first + i)
    if 2 ≤ mode ∨ (mode = 0 ∧ d ≠ 0) then s.memRefuse 0x06
    else if 2048 < first + n then s.memRefuse 0x04
    else if (ps.any fun p => p.mode == .base || p.cache) ∨ s.inCache (first + n - 1) then s.memRefuse 0x05
    else if mode = 1 ∧ !s.liveSession d then s.memRefuse 0x02
    else if ps.any fun p => p.mode == .priv && s.liveOn p.domain c then s.memRefuse 0x03
    else
      let y : Parcel := { mode := if mode = 1 then .priv else .free, domain := if mode = 1 then d else 0 }
      let s := foldS s (List.range n) fun s i => s.retag c (first + i) y
      { s with mem := { s.mem with cmdState := .busy, reason := 0, retagBusy := true } }

/-- RETAG_COMPLETE (07 R160): the command is done. -/
def retagComplete (s : State) : State :=
  if s.mem.retagBusy then
    { s with mem := { s.mem with cmdState := .done, retagBusy := false } }
  else s

/-- Fields of MEM_PAGE_CMD (07 Table 7.16). -/
structure PageCmd where
  op : Nat
  d : Dom
  first : Nat
  n : Nat

/-- Reserved bits are ignored (00 R8). -/
def pageCmd (v : W64) : PageCmd := ⟨bitsOf v 63 61, BitVec.ofNat 12 (bitsOf v 58 47), bitsOf v 46 29, bitsOf v 28 11 + 1⟩

/-- A MEM_PAGE_CMD of one op: a reserved op, or a field that must be zero for its op and is not, is refused with 0x06, a range past the last usable page with 0x04;
an op of another command is not this one. -/
def State.memPage (s : State) (v : W64) (op : Nat) (ok : PageCmd → Bool) (k : PageCmd → State → State) : State :=
  s.memCmd fun s =>
    let p := pageCmd v
    if p.op ≠ op ∧ p.op < 3 then s
    else if p.op ≠ op ∨ !ok p then s.memRefuse 0x06
    else if s.mem.usablePages < p.first + p.n then s.memRefuse 0x04
    else k p s

/-- The pages of a run. -/
def State.pagesOf (s : State) (first n : Nat) : List Page := (List.range n).map fun i => s.page (first + i)

/-- PAGE_ASSIGN (07 R170, R171). -/
def pageAssign (v : W64) (s : State) : State :=
  s.memPage v 0 (fun _ => true) fun p s =>
    if (s.pagesOf p.first p.n).any fun x => x.mode != .free || x.scrubbing then s.memRefuse 0x01
    else if !s.liveSession p.d then s.memRefuse 0x02
    else (s.assignPages p.first p.n .priv p.d).memDone

/-- PAGE_SCRUB (07 R170, R171; 10 R276): free at one instant; SCRUB_DONE ends it. -/
def pageScrub (v : W64) (s : State) : State :=
  s.memPage v 1 (fun p => p.d == 0) fun p s =>
    let ps := s.pagesOf p.first p.n
    if ps.any fun x => x.mode == .base || x.mode == .device then s.memRefuse 0x05
    else if (ps.any fun x => x.mode == .priv && s.liveOf x.domain) ∨ s.parkHolds p.first p.n then s.memRefuse 0x03
    else
      let s := s.scrubPages p.first p.n true
      { s with mem := { s.mem with cmdState := .busy, reason := 0 } }

/-- PAGE_QUERY (07 R183, Table 7.17). -/
def pageQuery (v : W64) (s : State) : State :=
  s.memPage v 2 (fun p => p.d == 0 && p.n == 1) fun p s =>
    let x := s.page p.first
    ({ s with mem := { s.mem with qmode := x.mode, qdomain := if x.mode = MemMode.priv then x.domain else 0 } }).memDone

/-- Step 5 of a tenant removal ends on this member once every run is scrubbed; the coordinator hears of it (13 Table 13.5). -/
def State.removalScrubbed (s : State) (r : Removal) (first : Nat) : State :=
  let r' := { r with scrubbing := r.scrubbing.filter fun x => x.1 != first }
  let put (y : Removal) (s : State) : State :=
    { s with sec := { s.sec with removals := s.sec.removals.map fun x => if x.domain = y.domain then y else x } }
  if r.step ≠ 4 then s
  else if r'.scrubbing.isEmpty then
    let s := put { r' with step := 5 } s
    if s.lnk.node = s.lnk.coordinator then s else s.emit (.removalDone r.domain)
  else put r' s

/-- SCRUB_DONE (07 R170, R171): Moraine has written zeros over the run; its poisoned entries are gone, the pages can be
assigned. -/
def scrubDone (first : Nat) (s : State) : State :=
  match s.mem.scrubs.find? fun x => x.first == first with
  | none => s
  | some x =>
    let inRun (line : Nat) : Bool := decide (x.first ≤ pageOf line) && decide (pageOf line < x.first + x.count)
    let s := foldS s (List.range x.count) fun s i =>
      s.setPage (x.first + i) { s.page (x.first + i) with scrubbing := false }
    let s := foldS s (List.range 20) fun s m =>
      s.setCtl m { s.ctl m with poison := (s.ctl m).poison.filter fun l => !inRun l }
    let s := { s with mem := { s.mem with scrubs := s.mem.scrubs.erase x } }
    let s := s.raise Ev.memScrubDone
    let s := foldS s s.sec.removals fun s r => s.removalScrubbed r first
    if x.byCmd then s.memDone else s

/-! ### Parity in main memory (07 R173 to R175) -/

/-- Arguments of a memory event: controller, channel, address, the job with its domain (17 Table 17.3). -/
def State.memInfo (s : State) (a : Nat) (t : Tag) : EvInfo :=
  { unit := BitVec.ofNat 8 (ctlOf a), sub := BitVec.ofNat 8 (chanOf a), tag := t, domain := s.domainOf t
    arg := BitVec.ofNat 64 (Addr.ptr ⟨true, a⟩) }

/-- One replay: the controller's count and the life counter (07 R173). -/
def State.countReplay (s : State) (a : Nat) : State :=
  let m := ctlOf a
  let x := s.ctl m
  let b := bump x.replays
  ((s.setCtl m { x with replays := b.1, replaysSat := x.replaysSat || b.2 }).satEvent b.2 7 (0x020_1000 + 0x40 * m)).bumpLife 5

def State.countRefetch (s : State) (a : Nat) : State :=
  let m := ctlOf a
  let x := s.ctl m
  let b := bump x.refetches
  (s.setCtl m { x with refetches := b.1, refetchesSat := x.refetchesSat || b.2 }).satEvent b.2 7 (0x020_1008 + 0x40 * m)

def State.countPoisoned (s : State) (a : Nat) : State :=
  let m := ctlOf a
  let x := s.ctl m
  let b := bump x.poisoned
  (s.setCtl m { x with poisoned := b.1, poisonedSat := x.poisonedSat || b.2 }).satEvent b.2 7 (0x020_1010 + 0x40 * m)

/-- Does a job hold a reference on variant v (09 R241)? -/
def Job.refs (j : Job) (v : Nat) : Bool := j.bindings.any fun b => b.vid == v && !b.gone

/-- A variant whose memory is lost becomes Faulted, and every job that references it ends with FAULT (09 R245). -/
def State.faultVariant (s : State) (v : Nat) : State :=
  match s.variant v with
  | none => s
  | some x =>
    if x.state = .faulted then s
    else
      let s := (s.setVariant v { x with state := .faulted }).raise Ev.varFaulted
        { domain := x.domain, aux := BitVec.ofNat 16 v
          arg := match x.cur with | some g => g.num.setWidth 64 | none => 0 }
      foldS s (s.jobs.list.filter fun j => j.admitted && j.phase != .ended && j.refs v) fun s j =>
        s.stopJob j.tag Stat.fault Ev.varFaulted

/-- The variants whose page runs hold a page. -/
def State.variantsAt (s : State) (p : Nat) : List Nat :=
  (s.var.reg.filter fun e =>
    (decide (e.2.first ≤ p) && decide (p < e.2.first + e.2.pages)) ||
    (decide (e.2.sfirst ≤ p) && decide (p < e.2.sfirst + e.2.spages))).map (·.1)

/-- The reading job ends, or the event alone is raised where no live job reads. -/
def State.poisonJob (s : State) (a : Nat) (t : Tag) : State :=
  if (s.job t).isSome then s.faultJob t Ev.memPoison (s.memInfo a t) else s.raise Ev.memPoison (s.memInfo a t)

/-- A private line enters the poison list (07 R173 step 5, R174). -/
def State.addPoison (s : State) (line : Nat) (t : Tag) : State :=
  let m := ctlOf line
  let x := s.ctl m
  if 4096 ≤ x.poison.length then s.deviceFatal Ev.memPoisonFull (s.memInfo line 0)
  else
    let s := (s.setCtl m { x with poison := x.poison ++ [line] }).countPoisoned line
    foldS (s.poisonJob line t) (s.variantsAt (pageOf line)) fun s v => s.faultVariant v

/-- LPDDR_PARITY_FAIL (07 R173): a read for job `tag` fails parity; `replays` of the at most three replays fail too. A
listed line delivers poison at once, a stuck line is refetched at once. -/
def lpddrParityFail (a : BitVec 41) (tag : Tag) (replays : Nat) (s : State) : State :=
  let line := a.toNat / 64 * 64
  let x := s.ctl (ctlOf line)
  let refetch (s : State) : State := { s with mem := { s.mem with refetching := s.mem.refetching ++ [(line, tag)] } }
  if s.devBytes ≤ line then s
  else if x.poison.contains line then s.poisonJob line tag
  else if x.stuck.contains line then refetch s
  else if (s.page (pageOf line)).mode = .free then s
  else
    let s := s.raise Ev.memReplay (s.memInfo line tag)
    let s := foldS s (List.range (min (replays + 1) 3)) fun s _ => s.countReplay line
    if replays < 3 then s
    else
      match (s.page (pageOf line)).mode with
      | .base => refetch s
      | .priv => s.addPoison line tag
      | .device => s.deviceFatal Ev.memDeviceParity (s.memInfo line tag)
      | .free => s

/-! ### Refresh (07 R168) -/

/-- WCK_TRACKING: the stall of at most 250 ns is timing; no state changes. -/
def wckTracking (_m : CtlId) (s : State) : State := s

/-- MR4_POLL: the controller applies the refresh rate that MR4 asks for. -/
def mr4Poll (m : CtlId) (rate : BitVec 5) (s : State) : State := s.setCtl m.val { s.ctl m.val with refresh := rate }

/-- MEM_RETAG (07 R160). -/
def execMemRetag (v : W64) (s : State) : Res := .next (memRetag v s)
/-- RETAG_COMPLETE (07 R160). -/
def execRetagComplete (s : State) : Res := .next (retagComplete s)
/-- PAGE_ASSIGN (07 R171). -/
def execPageAssign (v : W64) (s : State) : Res := .next (pageAssign v s)
/-- PAGE_SCRUB (07 R170). -/
def execPageScrub (v : W64) (s : State) : Res := .next (pageScrub v s)
/-- PAGE_QUERY (07 R183). -/
def execPageQuery (v : W64) (s : State) : Res := .next (pageQuery v s)
/-- SCRUB_DONE (07 R171). -/
def execScrubDone (first : Nat) (s : State) : Res := .next (scrubDone first s)
/-- LPDDR_PARITY_FAIL (07 R173). -/
def execLpddrParityFail (a : BitVec 41) (tag : Tag) (replays : Nat) (s : State) : Res :=
  .next (lpddrParityFail a tag replays s)
/-- WCK_TRACKING (07 R168). -/
def execWckTracking (m : CtlId) (s : State) : Res := .next (wckTracking m s)
/-- MR4_POLL (07 R168). -/
def execMr4Poll (m : CtlId) (rate : BitVec 5) (s : State) : Res := .next (mr4Poll m rate s)

/-! ### Signed images (13 R359, R360, R366; 14 R369, R370) -/

/-- The 8 B of an endorsement before its signature (Table 13.6). -/
def endorseHead (e : Endorsement) : Bytes := [e.kinds, 0, 0, 0] ++ leBytes 4 e.svnMax

/-- The trailer of an image before its signature (Table 13.6). -/
def imageTrailer (x : Image) : Bytes :=
  [x.kind, 0, 0, 0] ++ leBytes 4 x.svn ++ x.signer.root ++ x.signer.key ++
    match x.signer.endorse with
    | some e => endorseHead e ++ e.sig
    | none => []

/-- The bytes that an image's signature is over, and all its bytes (13 R359). -/
def imageSigned (x : Image) : Bytes := x.body ++ imageTrailer x
def imageBytes (x : Image) : Bytes := imageSigned x ++ x.signer.sig

/-- The image hash: SHAKE256, 32 B, of both images of a slot, trailers included (13 R359). -/
def setHash (x : ImageSet) : Bytes := Config.shake256 (imageBytes x.fw ++ imageBytes x.cfg) 32

/-- The signer parts of Table 13.6 hold for a message (R360, R366): the root key's digest is the fused one; the signer is the root, or the
root endorses it for this kind, `bit`, and svn; the signer's signature over the message verifies. -/
def signerOk (bit svn : Nat) (msg : Bytes) (g : Signer) : Bool :=
  (g.root.length == 64 && Config.shake256 g.root 32 == Config.rootDigest) &&
    (match g.endorse with
      | none => g.key == g.root
      | some e =>
        e.kinds.getLsbD bit && decide (svn ≤ e.svnMax) && Config.slhVerify Config.slhS g.root (g.key ++ endorseHead e) e.sig) &&
    Config.slhVerify Config.slhS g.key msg g.sig

/-- The bytes of an image's trailer (Table 13.6). -/
def trailerLen (g : Signer) : Nat := 8 + 64 + 64 + (if g.endorse.isSome then 8 + 29792 else 0) + 29792
/-- The bytes of an image, and of a set. -/
def imageSize (x : Image) : Nat := x.body.length + trailerLen x.signer
def setSize (x : ImageSet) : Nat := imageSize x.fw + imageSize x.cfg

/-- Does an image fit its region of the flash, its body a multiple of 64 B (14 R369, R370)? -/
def imageFits (region : Nat) (x : Image) : Bool :=
  x.body.length % 64 == 0 && decide (imageSize x ≤ region)

/-- Does an image verify (R360)? -/
def imageOk (kind fuse : Nat) (x : Image) : Bool :=
  x.kind.toNat == kind && signerOk (kind - 1) x.svn (imageSigned x) x.signer && decide (fuse ≤ x.svn)

/-- Do both images of a set fit and verify? -/
def setOk (fuse : Nat) (x : ImageSet) : Bool :=
  imageOk 1 fuse x.fw && imageOk 2 fuse x.cfg && imageFits 0x20_0000 x.fw && imageFits 0x60_0000 x.cfg

/-- The svn of a set: the lower one of its two images (log 20). -/
def setSvn (x : ImageSet) : Nat := min x.fw.svn x.cfg.svn

end Sys2Proof.Machine
end

