-- ==== Sys2Proof/Machine/Life.lean ====
section
/-! DEFINITION. Sys2Proof/Machine/Life.lean: the life keeper (14 R385 to R390): calendar time, life records, power-on seconds, thermal excursions. -/

namespace Sys2Proof.Machine

open Sys2Proof

/-- LIFE_HOST_TIME and LIFE_CMD act before ready too (15 R409), while no device-wide reset is held. -/
def State.hostEarly (s : State) (k : State → State) : State := if s.rst.held = .none then k s else s

/-- LIFE_HOST_TIME (14 R388): the offset of calendar time from the life clock. -/
def lifeHostTime (v : W64) (s : State) : State :=
  s.hostEarly fun s => { s with life := { s.life with offset := v - s.life.clock, timeSet := true } }

/-- What a read of LIFE_HOST_TIME returns (14 R388). -/
def Life.hostTime (l : Life) : W64 := if l.timeSet then l.offset + l.clock else BitVec.allOnes 64

/-- LIFE_CMD.save (14 R389, Table 14.18). -/
def lifeSave (v : W32) (s : State) : State := s.hostEarly fun s => if bitOf v 0 then s.lifeWrite else s

/-- The life keeper runs while no cold reset is held. -/
def State.lifeRuns (s : State) (k : State → State) : State := if s.rst.held = .cold then s else k s

/-- LIFE_RECORD_TIMER (14 R389). -/
def lifeRecordTimer (s : State) : State := s.lifeRuns (·.lifeWrite)

/-- LIFE_RECORD_DONE (14 R389): the record is in force and save_busy clears. -/
def lifeRecordDone (s : State) : State :=
  match s.life.writing with
  | none => s
  | some r =>
    { s with life := { s.life.store r with
        writing := none, saveBusy := false
        saves := if s.life.saves = 0xFFFF then s.life.saves else s.life.saves + 1 } }

/-- LIFE_SECOND (14 R385). -/
def lifeSecond (s : State) : State := s.lifeRuns (·.bumpLife 0)

/-- THERMAL_EXCURSION_START (14 R386, 15 R414): counted once, and THERM_ALERT_N goes low; through a warm reset the pin is held (15
Table 15.4). -/
def thermalExcursionStart (s : State) : State :=
  s.lifeRuns fun s =>
    if s.life.excursion then s
    else
      let s := s.bumpLife 3
      { s with life := { s.life with excursion := true }, glb := { s.glb with alertN := s.glb.alertN || s.rst.held == .none } }

/-- THERMAL_EXCURSION_END (14 R386). -/
def thermalExcursionEnd (s : State) : State :=
  s.lifeRuns fun s =>
    { s with life := { s.life with excursion := false }, glb := { s.glb with alertN := s.glb.alertN && s.rst.held != .none } }

/-- LIFE_HOST_TIME (14 R388). -/
def execLifeHostTime (v : W64) (s : State) : Res := .next (lifeHostTime v s)
/-- LIFE_SAVE (14 R389). -/
def execLifeSave (v : W32) (s : State) : Res := .next (lifeSave v s)
/-- LIFE_RECORD_TIMER (14 R389). -/
def execLifeRecordTimer (s : State) : Res := .next (lifeRecordTimer s)
/-- LIFE_RECORD_DONE (14 R389). -/
def execLifeRecordDone (s : State) : Res := .next (lifeRecordDone s)
/-- LIFE_SECOND (14 R385). -/
def execLifeSecond (s : State) : Res := .next (lifeSecond s)
/-- THERMAL_EXCURSION_START (14 R386). -/
def execThermalExcursionStart (s : State) : Res := .next (thermalExcursionStart s)
/-- THERMAL_EXCURSION_END (14 R386). -/
def execThermalExcursionEnd (s : State) : Res := .next (thermalExcursionEnd s)

end Sys2Proof.Machine
end

