-- ==== Sys2Proof/Machine/Pace.lean ====
section
/-! DEFINITION. Sys2Proof/Machine/Pace.lean: the pace monitors and what the control processor publishes of them (01 R20 to R23). -/

namespace Sys2Proof.Machine

open Sys2Proof

/-- The lowest of a list of paces and the cluster that gives it. Where several give it, the lowest-numbered one: Table 1.7
names one cluster and does not say which (DESIGN CHOICE, log 23). -/
def slowestOf : (i : Nat) → List Nat → Nat × Nat
  | _, [] => (0, 0)
  | i, [x] => (i, x)
  | i, x :: y :: l =>
    let r := slowestOf (i + 1) (y :: l)
    if x ≤ r.2 then (i, x) else r

/-- The readings (rate_msps, avg_msps) of the 64 monitors. After ready none is zero (01 R23): a reading that is missing or
zero, which no device gives, counts as 1 (DESIGN CHOICE, log 23). -/
def paceReadings (mon : List (BitVec 12 × BitVec 12)) : List (BitVec 12 × BitVec 12) :=
  let one (x : BitVec 12) : BitVec 12 := if x = 0 then 1 else x
  (List.range 64).map fun i => let e := mon.getD i (1, 1); (one e.1, one e.2)

/-- Mean of avg_msps over all clusters (01 Table 1.7), rounded down to the field's integer: the table does not say how it is
rounded (DESIGN CHOICE, log 23). -/
def meanPace (l : List (BitVec 12 × BitVec 12)) : Nat :=
  nsum (l.map fun (e : BitVec 12 × BitVec 12) => e.2.toNat) / 64

/-- Every SEQ_PACE and GLB_PACE follow the monitors (01 R22), HIF_POOL.cap with them (12 R325, Table 12.13). -/
def State.takePace (s : State) (mon : List (BitVec 12 × BitVec 12)) : State :=
  let l := paceReadings mon
  let s := foldS s l.zipIdx fun s e => s.modClu e.2 fun x => { x with rateMsps := e.1.1, avgMsps := e.1.2 }
  let m := slowestOf 0 (l.map fun e => min e.1.toNat e.2.toNat)
  { s with
    glb := { s.glb with
      slowest := BitVec.ofNat 6 m.1, minMsps := BitVec.ofNat 12 m.2, meanMsps := BitVec.ofNat 12 (meanPace l) }
    hif := { s.hif with cap := s.cfg.live.dev.horizonUs * m.2 / 1024 } }

/-- The monitors are read when ready is set, since from then on no pace reads as zero (01 R23): free readings (log 3). -/
def State.firstPace (s : State) : State :=
  let r := s.freeBytes 3
  r.2.takePace ((List.range 64).map fun i => (BitVec.ofNat 12 (leAt r.1 (3 * i) 3), BitVec.ofNat 12 (leAt r.1 (3 * i) 3 / 4096)))

end Sys2Proof.Machine
end

