-- ==== Sys2Proof/Machine/Power.lean ====
section
/-! DEFINITION. Sys2Proof/Machine/Power.lean: pace (01 R20 to R23), the charge of serving jobs (12 R326), SRAM steps (07 R180, R181), throttle steps, the power governor and the regulator (15 R405, R410 to R412), rest (R418, R419), board management (R420). -/

namespace Sys2Proof.Machine

open Sys2Proof

/-! ### Pace -/

/-- The charge of a serving job since the last update: µs × M steps/s (12 R326). -/
def Job.charged (j : Job) (now : W64) (m : Nat) : Job :=
  { j with charge := j.charge + (now - j.lastUs).toNat * m, lastUs := now }

/-- 12 R326: charges every serving job whose streams run and aborts one that passes est × 1,024. -/
def State.chargeAll (s : State) : State :=
  let on (j : Job) : Bool := j.admitted && j.phase == .running && j.serving && !j.live.isEmpty && j.stop.isNone
  let s := s.modJobs fun j => if on j then j.charged s.life.clock s.glb.minMsps.toNat else j
  foldS s (s.jobs.list.filter fun j => on j && decide (j.d.est * 1024 < j.charge)) fun s j =>
    (s.raise Ev.hifOverrun { tag := j.tag, domain := j.d.domain }).stopJob j.tag Stat.aborted Ev.hifOverrun

/-- PACE_UPDATE (01 R22): `mon` gives (rate_msps, avg_msps) of each cluster. SEQ_PACE and GLB_PACE read as zero until
ready (R23). -/
def paceUpdate (mon : List (BitVec 12 × BitVec 12)) (s : State) : State :=
  if s.up then (s.takePace mon).chargeAll else s

/-! ### SRAM steps (07 R180, R181); temperatures in 1/16 °C -/

/-- The next step k of a tier at temperature t. -/
def sramNext (k : Nat) (t : Int) : Nat :=
  if 16 * (92 + (k : Int)) ≤ t then k + 1 else if 0 < k ∧ t < 16 * (90 + (k : Int)) then k - 1 else k

/-- The highest of some sensors. -/
def hottest (l : List W16) : W16 := l.foldl (fun a b => if a.toInt < b.toInt then b else a) (l.headD 0)

/-- The temperature of a tier: the highest of its 16 sensors (07 R180). -/
def tierTemp (l : List W16) : W16 := hottest (l.take 16)

/-- SRAM_STEP_SAMPLE (07 R180): `t` gives the 16 sensors of each tier; the hold of R181 ends below 92 °C. -/
def sramStepSample (t : List (List W16)) (s : State) : State :=
  if s.rst.held ≠ .none then s
  else
    foldS s ((t.take 4).map tierTemp).zipIdx fun s e =>
      let m := s.mem
      { s with
        rst := { s.rst with tierRead := mset false s.rst.tierRead e.2 true }
        mem := { m with
          tierStep := mset 0 m.tierStep e.2 (sramNext (mget 0 m.tierStep e.2) e.1.toInt)
          tierTemp := mset 0 m.tierTemp e.2 e.1
          tierHold := mset false m.tierHold e.2 (mget false m.tierHold e.2 && decide (1472 ≤ e.1.toInt)) } }

/-- SRAM_OVER (07 R181). -/
def sramOver (f : FieldId) (s : State) : State :=
  if s.rst.held ≠ .none then s
  else
    let m := s.mem
    ({ s with mem := { m with
        tierOver := mset false m.tierOver f.val true, tierHold := mset false m.tierHold f.val true } }).raise
      Ev.memSramOver { unit := BitVec.ofNat 8 f.val }

/-! ### Throttle steps -/

/-- Index of the highest point of a curve at or below t (15 R412). -/
def curvePoint (cv : List (Int × Nat)) (t : Int) : Option Nat :=
  (cv.zipIdx.filter fun e => decide (e.1.1 ≤ t)).getLast?.map (·.2)

/-- The thermal point that applies: it rises at once and falls only 2 °C below the point that now applies (15 R412). -/
def thermalPoint (cv : List (Int × Nat)) (now : Option Nat) (t : Int) : Option Nat :=
  let new := curvePoint cv t
  match now.bind (fun i => cv[i]?), now with
  | some (p, _), some i =>
    match new with
    | some n => if i ≤ n then new else if t ≤ p - 32 then new else now
    | none => if t ≤ p - 32 then none else now
  | _, _ => new

/-- Value of a curve at a point; 0 below the first. -/
def curveValue (cv : List (Int × Nat)) (i : Option Nat) : Nat :=
  match i.bind (fun k => cv[k]?) with
  | some (_, v) => v
  | none => 0

/-- The lowest step whose core voltage is at most 750 mV (15 R410). -/
def idleStep (c : List (Nat × Nat)) : Nat := c.findIdx fun e => decide (e.1 ≤ 750)

/-- The step of a field (15 R410, 07 R180, R181). -/
def State.fieldStepOf (s : State) (f : Nat) (point : Option Nat) : Nat :=
  let c := s.cfg.live.throttle
  let last := c.length - 1
  if mget false s.mem.tierHold f then last
  else
    let curve := max s.rst.powerStep (curveValue s.cfg.live.thermal point)
    let k := mget 0 s.mem.tierStep f
    min last (max (max curve k) (max s.rst.floorStep (if s.anyLive then 0 else idleStep c)))

/-- Steps applied to the fields: the rail takes the voltage of the lowest, SEQ_PACE shows each (15 R410, 07 R180). -/
def State.applySteps (s : State) (steps : List Nat) (points : List (Option Nat)) : State :=
  let top := nmax steps
  let low := steps.foldl Nat.min top
  let mv := match s.cfg.live.throttle[low]? with
    | some e => e.1
    | none => s.rst.target
  let s := foldS s (List.finRange 64) fun s c =>
    s.modClu c.val fun x => { x with throttleStep := BitVec.ofNat 8 (steps.getD (c.val / 16) 0) }
  { s with
    rst := { s.rst with fieldStep := steps, thermPoint := points, target := mv, halving := false }
    out := if mv = s.rst.target then s.out else s.out ++ [.rail mv] }

/-- THROTTLE_SAMPLE (15 R410, R412): the temperatures are taken always, the steps only while ready, not in rest and while
the regulator answers (R405). -/
def throttleSample (x : Sensors) (s : State) : State :=
  if s.rst.held ≠ .none then s
  else
    let t := (List.range 4).map fun i => (hottest (x.die.getD i [])).toInt
    let hot := t.foldl (fun a b => if a < b then b else a) (t.headD 0)
    let s := { s with rst := { s.rst with
      dieTemp := BitVec.ofInt 16 hot, firnTemp := hottest x.firn, powerW := x.powerW, measured := true
      fanPct := curveValue s.cfg.live.fan (curvePoint s.cfg.live.fan hot) } }
    if !s.up ∨ s.rst.avsFail ∨ s.rst.pwr = .rest ∨ s.rst.pwr = .restQuiet then s
    else
      let points := t.zipIdx.map fun e => thermalPoint s.cfg.live.thermal (s.rst.thermPoint.getD e.2 none) e.1
      s.applySteps (points.zipIdx.map fun e => s.fieldStepOf e.2 e.1) points

/-- Has a span passed on the life clock since a moment, if there was one? -/
def State.since (s : State) (t : Option W64) (us : Nat) : Bool := t.all fun t => decide (us ≤ (s.life.clock - t).toNat)

/-- The governor's raise or fall by one (15 R411): up at most once per 100 µs, down at most once per 1 ms, timed by the life clock. -/
def State.governOne (s : State) (avg1ms : Nat) : Rst :=
  let r := { s.rst with powerW := avg1ms }
  if 1500 < avg1ms ∧ s.since r.lastRaise 100 then
    { r with powerStep := min 31 (r.powerStep + 1), lastRaise := some s.life.clock }
  else if avg1ms < 1400 ∧ s.since r.lastFall 1000 then
    { r with powerStep := r.powerStep - 1, lastFall := some s.life.clock }
  else r

/-- POWER_GOVERNOR_TICK (15 R411): the raise or fall by one, and apart from it the halving with its raise by 2, which ends with the next
step taken (log 23). -/
def powerGovernorTick (avg1ms avg10us : Nat) (s : State) : State :=
  if !s.up then s
  else
    let r := s.governOne avg1ms
    { s with rst :=
        if 1650 < avg10us ∧ !r.halving then { r with halving := true, powerStep := min 31 (r.powerStep + 2) } else r }

/-- AVS_READBACK (15 R405): the regulator answers. -/
def avsReadback (mv : Nat) (s : State) : State :=
  if s.rst.held = .cold then s else { s with rst := { s.rst with coreMv := mv % 1024, coreRead := true, avsFail := false } }

/-- AVS_TIMEOUT (15 R405): the steps hold, PWR_AVS_FAIL. -/
def avsTimeout (s : State) : State :=
  if s.rst.held = .cold then s
  else ({ s with rst := { s.rst with avsFail := true } }).deviceFatal Ev.pwrAvsFail

/-! ### Rest (15 R418, R419) -/

/-- No job is live and no Firn command, thaw, scrub, fill or eviction is running. -/
def State.quietDevice (s : State) : Bool :=
  !s.anyLive && s.firn.cmdState != .busy && s.firn.install.isNone && s.firn.swap.isNone && s.mem.scrubs.isEmpty &&
    s.mem.refetching.isEmpty && s.var.reg.all fun e => !e.2.filling && !e.2.evicting && e.2.oldCopies.isEmpty

/-- PWR_CTL (15 Table 15.20). -/
def pwrCtl (v : W32) (s : State) : State :=
  s.hostReg fun s =>
    let s := { s with rst := { s.rst with
      restReq := bitOf v 31, quietReq := bitOf v 30, floorStep := bitsOf v 29 25 } }
    if !s.rst.restReq then s.wakeUp
    else if s.rst.pwr = .ready ∧ s.quietDevice then { s with rst := { s.rst with pwr := .entering } }
    else s

/-- The ports that are up. -/
def State.upPorts (s : State) : List PortId := (List.finRange 12).filter fun p => (s.port p.val).state == .up

/-- Is a state of rest to be entered: from ready, or the other state of rest, when PWR_CTL.quiet asks for it (15 R418)? -/
def Rst.enters (r : Rst) : Bool :=
  match r.pwr with
  | .entering | .ready => true
  | .rest => r.quietReq
  | .restQuiet => !r.quietReq
  | _ => false

/-- REST_ENTRY (15 R418): the rail goes to 0.60 V; quiet links are asked for with QUIET, and links that are no longer asked to be quiet
carry idle flits again (R419). -/
def restEntry (s : State) : State :=
  if !s.up ∨ !s.rst.restReq ∨ !s.quietDevice ∨ !s.rst.enters then s
  else
    let s := { s with rst := { s.rst with pwr := if s.rst.quietReq then .restQuiet else .rest, target := 600 } }
    let s := s.emit (.rail 600)
    if s.rst.quietReq then foldS s s.upPorts fun s p => (s.modPort p.val fun x => { x with quiet := x.peerQuiet }).emit (.quiet p)
    else foldS s (List.range 12) fun s p => s.modPort p fun x => { x with quiet := false }

/-- REST_WAKE (15 R419): the device is ready again, at the idle step until the next sample. -/
def restWake (s : State) : State :=
  if s.rst.pwr ≠ .waking then s
  else
    let cv := s.cfg.live.throttle
    let mv := match cv[idleStep cv]? with
      | some e => e.1
      | none => 750
    let s := { s with rst := { s.rst with pwr := .ready, target := mv } }
    foldS (s.emit (.rail mv)) (List.range 12) fun s p => s.modPort p fun x => { x with quiet := false, peerQuiet := false }

/-! ### Board management (15 R420) -/

/-- A reading of Table 15.13, once that sensor has been measured. -/
def State.sensor (s : State) (n : Nat) : Option Int :=
  let r := s.rst
  let when' (b : Bool) (v : Int) : Option Int := if b then some v else none
  match n with
  | 1 => when' r.measured (r.dieTemp.toInt / 16)
  | 2 | 3 | 4 | 5 => when' (mget false r.tierRead (n - 2)) ((mget 0 s.mem.tierTemp (n - 2)).toInt / 16)
  | 6 => when' r.measured (r.firnTemp.toInt / 16)
  | 7 => when' r.measured r.powerW
  | 8 => when' r.coreRead r.coreMv
  | 9 => when' r.measured r.fanPct
  | 10 => when' r.measured (nmax r.fieldStep)
  | 11 => some (b2n s.glb.ready)
  | _ => none

/-- SMBUS_REQUEST (15 R420): SMBus ARP assigns the address of the port; a request at its address, 0x4C when no ARP is run, is answered
from the most recent reading, one at another address is not for it. -/
def smbusRequest (x : SmbReq) (s : State) : State :=
  if s.rst.held = .cold then s
  else
    match x with
    | .assign a => { s with rst := { s.rst with smbAddr := a } }
    | .read a n =>
      if a ≠ s.rst.smbAddr then s
      else
        match s.sensor n with
        | some v => s.emit (.answer v)
        | none => s.emit .unavailable

/-- PACE_UPDATE (01 R22). -/
def execPaceUpdate (mon : List (BitVec 12 × BitVec 12)) (s : State) : Res := .next (paceUpdate mon s)
/-- SRAM_STEP_SAMPLE (07 R180). -/
def execSramStepSample (t : List (List W16)) (s : State) : Res := .next (sramStepSample t s)
/-- SRAM_OVER (07 R181). -/
def execSramOver (f : FieldId) (s : State) : Res := .next (sramOver f s)
/-- THROTTLE_SAMPLE (15 R410). -/
def execThrottleSample (x : Sensors) (s : State) : Res := .next (throttleSample x s)
/-- POWER_GOVERNOR_TICK (15 R411). -/
def execPowerGovernorTick (avg1ms avg10us : Nat) (s : State) : Res := .next (powerGovernorTick avg1ms avg10us s)
/-- AVS_READBACK (15 R405). -/
def execAvsReadback (mv : Nat) (s : State) : Res := .next (avsReadback mv s)
/-- AVS_TIMEOUT (15 R405). -/
def execAvsTimeout (s : State) : Res := .next (avsTimeout s)
/-- PWR_CTL (15 R418). -/
def execPwrCtl (v : W32) (s : State) : Res := .next (pwrCtl v s)
/-- REST_ENTRY (15 R418). -/
def execRestEntry (s : State) : Res := .next (restEntry s)
/-- REST_WAKE (15 R419). -/
def execRestWake (s : State) : Res := .next (restWake s)
/-- SMBUS_REQUEST (15 R420). -/
def execSmbusRequest (x : SmbReq) (s : State) : Res := .next (smbusRequest x s)

end Sys2Proof.Machine
end

