-- ==== Sys2Proof/Machine/Thaw.lean ====
section
/-! DEFINITION. Sys2Proof/Machine/Thaw.lean: chip images and the Thaw engine as functions of bytes (08): headers (R188), segment entries (R190), block entropy coding (R193 to R196), malformed segments (R452), conversions (R204 to R206), the working layout (R207, R209). -/

namespace Sys2Proof.Machine

open Sys2Proof

/-- Reason codes of 08 Table 8.13 used by the Thaw engine. -/
def rsnDigest : Nat := 0x04
def rsnReserved : Nat := 0x0A
def rsnNonfinite : Nat := 0x0C
def rsnRead : Nat := 0x0D

/-! ### Header and segment table -/

/-- Fields of a chip image header (08 Table 8.2). -/
structure ImgHeader where
  position : Nat
  positions : Nat
  layers : Nat
  segments : Nat
  chainTag : W64
  modelId : W64
  version : W32
  keyIndex : Nat
  workingBytes : Nat
  spdParcels : Nat
  keyDigest : Bytes

/-- 08 R188; none for a reserved encoding. -/
def imgHeader (h : Bytes) : Option ImgHeader :=
  let zero (i n : Nat) : Bool := ((h.drop i).take n).all (· == 0)
  let pos := leAt h 6 2
  let n := leAt h 8 2
  if h.length = 4096 ∧ leAt h 0 4 = 0x4E52_464B ∧ leAt h 4 2 = 1 ∧ pos < n ∧ n ≤ 256 ∧
      1 ≤ leAt h 12 4 ∧ leAt h 12 4 ≤ 65536 ∧ leAt h 36 1 < 8 ∧ zero 37 3 ∧ zero 60 4 ∧ zero 128 3968 then
    some
      { position := pos, positions := n, layers := leAt h 10 2, segments := leAt h 12 4
        chainTag := BitVec.ofNat 64 (leAt h 16 8), modelId := BitVec.ofNat 64 (leAt h 24 8)
        version := BitVec.ofNat 32 (leAt h 32 4), keyIndex := leAt h 36 1
        workingBytes := leAt h 48 8, spdParcels := leAt h 56 4, keyDigest := (h.drop 64).take 32 }
  else none

/-- A segment table entry (08 Table 8.3), with its reserved fields checked. -/
structure SegEntry where
  offset : Nat
  storedLen : Nat
  workLen : Nat
  rows : Nat
  cols : Nat
  layer : Nat
  kind : Nat
  src : Fmt
  work : Fmt
  coded : Bool
  kmajor : Bool
  colsum : Bool
  sparse : Bool
  outliers : Bool
  place : Bool
  spdCluster : Nat
  blocks : Nat

def segEntry (e : Bytes) : Option SegEntry :=
  let fl := leAt e 38 2
  match Fmt.ofCode (leAt e 37 1 % 16), Fmt.ofCode (leAt e 37 1 / 16) with
  | some a, some b =>
    if leAt e 36 1 ≤ 6 ∧ fl < 64 ∧ leAt e 41 3 = 0 ∧ leAt e 48 16 = 0 ∧ leAt e 40 1 < 64 ∧ a ≠ .run ∧ b ≠ .run then
      some
        { offset := leAt e 0 8, storedLen := leAt e 8 8, workLen := leAt e 16 8, rows := leAt e 24 4, cols := leAt e 28 4
          layer := leAt e 32 2, kind := leAt e 36 1, src := a, work := b, coded := fl.testBit 0, kmajor := fl.testBit 1
          colsum := fl.testBit 2, sparse := fl.testBit 3, outliers := fl.testBit 4, place := fl.testBit 5
          spdCluster := leAt e 40 1, blocks := leAt e 44 4 }
    else none
  | _, _ => none

/-! ### Block entropy coding (08 R193 to R196) -/

/-- Byte planes of a source format (08 Table 8.18): the table gives the compensated pair none, so no coded block of it
decodes. -/
def Fmt.planes : Fmt → Nat
  | .fp32 | .int32 => 4
  | .bf16 | .fp16 => 2
  | .pair | .run => 0
  | _ => 1

/-- Code length of a symbol in a 128 B length table (08 R194). -/
def codeLen (t : Bytes) (s : Nat) : Nat := fld (leAt t (s / 2) 1) (4 * (s % 2)) 4

/-- The symbols with a code, by ascending length and then value (08 R195). -/
def codeSyms (t : Bytes) : List (Nat × Nat) :=
  (List.range 15).flatMap fun l => ((List.range 256).filter fun s => codeLen t s == l + 1).map fun s => (l + 1, s)

/-- Canonical codes: (length, code, symbol) (08 R195). -/
def codeTable : (prev : Nat × Nat) → List (Nat × Nat) → List (Nat × Nat × Nat)
  | _, [] => []
  | (len, next), (l, s) :: r =>
    let code := next * 2 ^ (l - len)
    (l, code, s) :: codeTable (l, code + 1) r

def codes (t : Bytes) : List (Nat × Nat × Nat) :=
  match codeSyms t with
  | [] => []
  | (l, s) :: r => (l, 0, s) :: codeTable (l, 1) r

/-- Lengths sum to one, but for a plane of a single symbol of length 1 (08 R195). -/
def codesOk (t : Bytes) : Bool :=
  let l := codeSyms t
  nsum (l.map fun x => 2 ^ (15 - x.1)) == 2 ^ 15 || (l.length == 1 && l.all fun x => x.1 == 1)

/-- The bits of code bytes, most significant first (08 R195). -/
def codeBits (l : Bytes) : List Bool := l.flatMap fun b => (List.range 8).map fun i => bitOf b (7 - i)

/-- Decodes bits into symbols; none when a code is left incomplete or no code matches within 15 bits. -/
def decodeBits (t : List (Nat × Nat × Nat)) : (len code : Nat) → List Bool → Option (List Nat)
  | 0, _, [] => some []
  | _ + 1, _, [] => none
  | len, code, b :: r =>
    let c := 2 * code + b2n b
    match t.find? fun x => x.1 == len + 1 && x.2.1 == c with
    | some x => (decodeBits t 0 0 r).map (x.2.2 :: ·)
    | none => if 15 ≤ len + 1 then none else decodeBits t (len + 1) c r

/-- One plane at the front of a body: its n symbols and the rest (08 R194). -/
def decodePlane (n : Nat) (l : Bytes) : Option (List Nat × Bytes) :=
  let t := l.take 128
  let bits := leAt l 128 4
  let len := ceilDiv bits 8
  if l.length < 132 + len ∨ !codesOk t then none
  else
    match decodeBits (codes t) 0 0 ((codeBits ((l.drop 132).take len)).take bits) with
    | some s => if s.length = n then some (s, l.drop (132 + len)) else none
    | none => none

/-- P planes in order; the body must end with the last. -/
def decodePlanes (n : Nat) : (p : Nat) → Bytes → Option (List (List Nat))
  | 0, [] => some []
  | 0, _ :: _ => none
  | p + 1, l =>
    match decodePlane n l with
    | some (s, r) => (decodePlanes n p r).map (s :: ·)
    | none => none

/-- Interleaves planes into bytes, element by element. -/
def joinPlanes (n : Nat) (ps : List (List Nat)) : Bytes :=
  (List.range n).flatMap fun i => ps.map fun p => BitVec.ofNat 8 (p.getD i 0)

/-- A coded block decoded to `want` source bytes; none is a Firn read failure (08 R196). `blk` holds exactly the header
and its body. -/
def decodeBlock (f : Fmt) (want : Nat) (blk : Bytes) : Option Bytes :=
  let m := leAt blk 0 1
  let p := f.planes
  let body := blk.drop 16
  if 1 < m ∨ leAt blk 1 1 ≠ p ∨ leAt blk 2 2 ≠ 0 ∨ leAt blk 12 4 ≠ 0 ∨ leAt blk 4 4 ≠ want ∨ p = 0 ∨ want % p ≠ 0 then none
  else if m = 0 then (if body.length = want then some body else none)
  else (decodePlanes (want / p) p body).map (joinPlanes (want / p))

/-! ### Source of a segment (08 R191, R192, R207) -/

/-- Bytes of a run of `n` source elements that starts on a byte. -/
def Fmt.runBytes (f : Fmt) (n : Nat) : Nat := ceilDiv (n * f.width) 8

/-- Does a format carry row scales (08 R192)? -/
def Fmt.scaled : Fmt → Bool
  | .e4m3 | .e5m2 | .int8 | .int4 => true
  | _ => false

def Fmt.workScaled (f : Fmt) : Bool := f.scaled

/-- Output channels of each panel (08 R207). -/
def SegEntry.panels (e : SegEntry) : List (Nat × Nat) :=
  if 4 ≤ e.kind then [(0, e.rows)]
  else (List.range (ceilDiv e.rows 256)).map fun i => (256 * i, min 256 (e.rows - 256 * i))

/-- Bytes of a working row, padded to 64 B. -/
def SegEntry.rowBytes (e : SegEntry) : Nat := ceilDiv (e.cols * e.work.width) 512 * 64

/-- Rows of a working block: as many as fit in 64 KiB, at least one. -/
def SegEntry.blockRows (e : SegEntry) : Nat := max 1 (65536 / e.rowBytes)

/-- The working blocks: first row and count, panel by panel. -/
def SegEntry.workBlocks (e : SegEntry) : List (Nat × Nat) :=
  e.panels.flatMap fun p =>
    (List.range (ceilDiv p.2 e.blockRows)).map fun i => (p.1 + i * e.blockRows, min e.blockRows (p.2 - i * e.blockRows))

/-- Source of `n` output channels as rows of elements, from bytes in source order: channel by channel, or with kmajor
source row by source row (08 R191, R192). -/
def SegEntry.sourceRows (e : SegEntry) (n : Nat) (l : Bytes) : List (List Nat) :=
  if e.kmajor then
    let rb := e.src.runBytes n
    let ks := (List.range e.cols).map fun k => elemsOf e.src n ((l.drop (k * rb)).take rb)
    (List.range n).map fun i => ks.map fun r => r.getD i 0
  else
    let rb := e.src.runBytes e.cols
    (List.range n).map fun i => elemsOf e.src e.cols ((l.drop (i * rb)).take rb)

def SegEntry.sourceBytes (e : SegEntry) (n : Nat) : Nat :=
  if e.kmajor then e.cols * e.src.runBytes n else n * e.src.runBytes e.cols

/-- The parts that are never coded: outlier list, row scales, metadata, with their lengths (08 R191). -/
def SegEntry.outlierLen (e : SegEntry) : Nat := if e.outliers then 128 else 0
def SegEntry.scaleLen (e : SegEntry) : Nat := if e.src.scaled then 4 * e.rows else 0
def SegEntry.metaRow (e : SegEntry) : Nat := ceilDiv e.cols 8
def SegEntry.metaLen (e : SegEntry) : Nat := if e.sparse then e.rows * e.metaRow else 0

/-- A decoded source: rows of elements, outlier list with 0xFFFF for an unused entry (02 R51), scales, metadata. -/
structure Source where
  rows : List (List Nat)
  outliers : List Nat
  scales : List W32
  metas : Bytes

/-- Splits the parts that follow the rows. -/
def SegEntry.tail (e : SegEntry) (outl scl mt : Bytes) (rows : List (List Nat)) : Source :=
  { rows := rows
    outliers := if e.outliers then (List.range 64).map fun i => leAt outl (2 * i) 2 else []
    scales := if e.src.scaled then (List.range e.rows).map fun i => BitVec.ofNat 32 (leAt scl (4 * i) 4) else []
    metas := mt }

/-- An uncoded segment (08 R192, R452). -/
def SegEntry.plain (e : SegEntry) (l : Bytes) : Except Nat Source :=
  let nb := e.sourceBytes e.rows
  let o := e.outlierLen
  if l.length ≠ o + nb + e.scaleLen + e.metaLen then .error rsnReserved
  else
    .ok (e.tail (l.take o) ((l.drop (o + nb)).take e.scaleLen) ((l.drop (o + nb + e.scaleLen)).take e.metaLen)
      (e.sourceRows e.rows ((l.drop o).take nb)))

/-- Decodes the coded blocks in order (08 R191, R196, R452). -/
def SegEntry.codedRows (e : SegEntry) (l : Bytes) : List ((Nat × Nat) × Nat) → Except Nat (List (List Nat))
  | [] => .ok []
  | ((_, n), i) :: r =>
    let off := leAt l (8 * i) 4
    let crc := leAt l (8 * i + 4) 4
    if l.length < off + 16 then .error rsnReserved
    else
      let len := 16 + leAt l (off + 8) 4
      if l.length < off + len then .error rsnReserved
      else
        let blk := (l.drop off).take len
        if crc32c blk ≠ crc then .error rsnRead
        else
          match decodeBlock e.src (e.sourceBytes n) blk with
          | none => .error rsnRead
          | some b =>
            match e.codedRows l r with
            | .ok rows => .ok (e.sourceRows n b ++ rows)
            | .error x => .error x

/-- End of the last coded block. -/
def SegEntry.codedEnd (e : SegEntry) (l : Bytes) : Nat :=
  nmax (8 * e.blocks :: (List.range e.blocks).map fun i => leAt l (8 * i) 4 + 16 + leAt l (leAt l (8 * i) 4 + 8) 4)

/-- A coded segment (08 R191, R452). -/
def SegEntry.codedSrc (e : SegEntry) (l : Bytes) : Except Nat Source :=
  if e.blocks ≠ e.workBlocks.length ∨ l.length < 8 * e.blocks then .error rsnReserved
  else
    match e.codedRows l e.workBlocks.zipIdx with
    | .error x => .error x
    | .ok rows =>
      let tl := e.outlierLen + e.scaleLen + e.metaLen
      let stop := e.codedEnd l
      let at0 := if tl = 0 then stop else alignUp stop 64
      if l.length ≠ at0 + tl then .error rsnReserved
      else
        let b := l.drop at0
        .ok (e.tail (b.take e.outlierLen) ((b.drop e.outlierLen).take e.scaleLen)
          ((b.drop (e.outlierLen + e.scaleLen)).take e.metaLen) rows)

/-! ### Conversion (08 R204 to R206) -/

/-- What one row becomes: working elements and the row scale. -/
structure WorkRow where
  elems : List Nat
  scale : W32

/-- The target of a row-scaled conversion (08 Table 8.6). -/
def scaleTarget : Fmt → Option Nat
  | .e4m3 => some 448
  | .int8 => some 127
  | .int4 => some 7
  | _ => none

/-- A row-scaled conversion (08 R205). -/
def scaleRow (src work : Fmt) (target : Nat) (outl : List Nat) (row : List Nat) : WorkRow :=
  let t := toF32 (FVal.ofInt target)
  let xs := row.zipIdx.map fun x => (src.f32 x.1, outl.contains x.2)
  let amax := xs.foldl (fun m x => if x.2 then m else toF32 ((f32 m).max (f32 x.1).abs)) f32Zero
  let pos := !(f32 amax).isZero
  let s := if pos then fdiv amax t else f32One
  let inv := if pos then fdiv t amax else f32Zero
  { scale := s
    elems := xs.map fun x =>
      let y := if x.2 then f32Zero else fmul x.1 inv
      if work = .e4m3 then encSat .e4m3 (f32 y)
      else
        let v : Int := match f32 y with
          | .fin n m e => clampInt (-(target : Int)) target (rneInt n m e)
          | .inf n => if n then -target else target
          | .nan => 0
        (v % (2 ^ work.width : Nat)).toNat }

/-- The columns of the outlier list are zero in the working format (02 R51, 08 R205, R206). -/
def dropOutliers (outl : List Nat) (row : List Nat) : List Nat :=
  row.zipIdx.map fun x => if outl.contains x.2 then 0 else x.1

/-- One source row converted; none for a pair that Table 8.6 does not give. -/
def convRowThaw (src work : Fmt) (outl : List Nat) (scale : W32) (row : List Nat) : Option WorkRow :=
  if src = work then some ⟨dropOutliers outl row, scale⟩
  else if src = .fp32 ∧ work = .bf16 then
    some ⟨dropOutliers outl (row.map fun x => fmtBF16.round (src.val x)), f32One⟩
  else if src = .fp32 ∨ src = .bf16 then (scaleTarget work).map fun t => scaleRow src work t outl row
  else none

/-- A source element as BF16 with RNE (08 R206, 09 R228): a BF16 element as it is, one of a row-scaled format times its row scale in
FP32 with RNE first, another by its value. -/
def sourceBF16 (f : Fmt) (scale : W32) (x : Nat) : Nat :=
  if f = .bf16 then x
  else if f.scaled then fmtBF16.round (f32 (fmul (f.f32 x) scale))
  else fmtBF16.round (f.val x)

/-- Pads to a multiple of 64 B. -/
def pad64 (l : Bytes) : Bytes := l ++ List.replicate (alignUp l.length 64 - l.length) 0

/-- One panel of `n` channels from row `r0` (08 Table 8.7). -/
def SegEntry.panel (e : SegEntry) (src : Source) (ws : List WorkRow) (r0 n : Nat) : Bytes :=
  let mine := (ws.drop r0).take n
  let rows := mine.flatMap fun w => pad64 (packElems e.work w.elems)
  let scl := if e.work.workScaled then pad64 (mine.flatMap fun w => leBytes 4 w.scale.toNat) else []
  let sums := if e.colsum then
      pad64 (mine.flatMap fun w =>
        leBytes 4 ((w.elems.foldl (fun a x => a + e.work.intVal x) (0 : Int)) % 2 ^ 32).toNat)
    else []
  let side := if e.outliers then
      (List.range 64).flatMap fun i => (List.range n).flatMap fun j =>
        leBytes 2 (match src.outliers[i]? with
          | some c => if c = 0xFFFF ∨ e.cols ≤ c then 0 else 
            sourceBF16 e.src (src.scales.getD (r0 + j) f32One) ((src.rows.getD (r0 + j) []).getD c 0)
          | none => 0)
    else []
  let mt := if e.sparse then (src.metas.drop (r0 * e.metaRow)).take (n * e.metaRow) else []
  rows ++ scl ++ sums ++ pad64 side ++ pad64 mt

/-- The working layout of a segment from its entry and stored bytes, or the reason why the thaw fails. -/
def thawSegment (entry stored : Bytes) : Except Nat Bytes :=
  match segEntry entry with
  | none => .error rsnReserved
  | some e =>
    if e.rows = 0 ∨ e.cols = 0 ∨ (e.colsum ∧ e.work ≠ .int8 ∧ e.work ≠ .int4) ∨ (¬ e.coded ∧ e.blocks ≠ 1) then
      .error rsnReserved
    else
      match (if e.coded then e.codedSrc stored else e.plain stored) with
      | .error x => .error x
      | .ok src =>
        if (e.src.isFloat || e.src == .pair) && src.rows.any (fun r => r.any fun x => !(e.src.val x).isFinite) then .error rsnNonfinite
        else
          let ws := src.rows.zipIdx.map fun r => convRowThaw e.src e.work (src.outliers.filter (· != 0xFFFF)) (src.scales.getD r.2 f32One) r.1
          if ws.any (·.isNone) then .error rsnReserved
          else
            let ws := ws.filterMap id
            .ok (e.panels.flatMap fun p => e.panel src ws p.1 p.2)

/-- The segments of a slot from number `i` on thawed in order (08 R203, R217): a page that the store cannot return, a stored
digest that mismatches, then the decoding and conversion; the first segment that fails with its reason. -/
def thawSegs (bad unread : List Nat) : (i : Nat) → List Segment → Except (Nat × Nat) (List Bytes)
  | _, [] => .ok []
  | i, g :: l =>
    if unread.contains i then .error (i, rsnRead)
    else if bad.contains i then .error (i, rsnDigest)
    else
      match thawSegment g.entry g.stored with
      | .error x => .error (i, x)
      | .ok b =>
        match thawSegs bad unread (i + 1) l with
        | .error x => .error x
        | .ok r => .ok (b :: r)

/-- Offsets of the segments in a working copy: after the directory, each on a 64 KiB boundary (08 R209). -/
def segOffsets (lens : List Nat) : List Nat :=
  (lens.foldl (fun (a : List Nat × Nat) n => (a.1 ++ [a.2], alignUp (a.2 + n) 65536))
    ([], alignUp (16 * lens.length) 65536)).1

end Sys2Proof.Machine
end

