-- ==== Sys2Proof/Machine/Topo.lean ====
section
/-! DEFINITION. Sys2Proof/Machine/Topo.lean: what the topology table gives (11 R296 to R299): neighbours, the control tree, the way a message takes, the parent and child marks of the route entries, and the checks that CFG_CHECK makes of it. -/

namespace Sys2Proof.Machine

open Sys2Proof

/-! ### Nodes and gangs (11 R296) -/

/-- The members in position order. -/
def topoMembers (t : Topo) : List NodeId := t.nodes.map (·.node)
def topoNode (t : Topo) (n : NodeId) : Option TopoNode := t.nodes.find? (·.node == n)
def topoPos (t : Topo) (n : NodeId) : Option Nat := (topoMembers t).findIdx? (· == n)
def topoNeighbours (t : Topo) (n : NodeId) : List NodeId :=
  match topoNode t n with
  | some x => x.gangs.map (·.peer)
  | none => []
/-- The first gang of a node that leads to a neighbour. -/
def gangTo (t : Topo) (n peer : NodeId) : Option (BitVec 12) :=
  ((topoNode t n).bind fun x => x.gangs.find? (·.peer == peer)).map (·.ports)

/-! ### Trees -/

/-- One round of a walk away from the root: the pairs (node, parent) that the nodes of the last round add. -/
def treeStep (t : Topo) (root : NodeId) (front : List NodeId) (tree : List (NodeId × NodeId)) : List (NodeId × NodeId) :=
  front.foldl (fun new f => (topoNeighbours t f).foldl (fun new n =>
    if n = root ∨ (tree ++ new).any (·.1 == n) then new else new ++ [(n, f)]) new) []

/-- The chain or tree as a tree of its own edges, nearest nodes first: each node with its parent. -/
def treeGrow (t : Topo) (root : NodeId) : (fuel : Nat) → (front : List NodeId) → List (NodeId × NodeId) → List (NodeId × NodeId)
  | 0, _, tree => tree
  | n + 1, front, tree =>
    let new := treeStep t root front tree
    if new.isEmpty then tree else treeGrow t root n (new.map (·.1)) (tree ++ new)

/-- The two branches of a ring from position c (R299): c + 1 to c + ⌊P/2⌋ clockwise, the rest counter-clockwise. -/
def ringTree (l : List NodeId) (c : Nat) : List (NodeId × NodeId) :=
  let p := l.length
  let at' (i : Nat) : NodeId := l.getD (i % p) 0xFFFF
  ((List.range (p / 2)).map fun k => (at' (c + k + 1), at' (c + k))) ++
    (List.range (p - 1 - p / 2)).map fun k => (at' (c + p - k - 1), at' (c + p - k))

/-- The control tree with its root at a node (R299): every other node with its parent. -/
def controlTree (t : Topo) (root : NodeId) : List (NodeId × NodeId) :=
  if t.shape = 1 then
    match topoPos t root with
    | some c => ringTree (topoMembers t) c
    | none => []
  else treeGrow t root t.nodes.length [root] []

def parentIn (tree : List (NodeId × NodeId)) (n : NodeId) : Option NodeId := (tree.find? (·.1 == n)).map (·.2)

/-- The nodes above a node, the nearest first. -/
def ancestorsIn (tree : List (NodeId × NodeId)) : (fuel : Nat) → NodeId → List NodeId
  | 0, _ => []
  | k + 1, n =>
    match parentIn tree n with
    | some p => p :: ancestorsIn tree k p
    | none => []

/-! ### The way of a message (11 R298) -/

/-- The neighbour that a message for `dst` goes to: in a ring clockwise to a higher position and counter-clockwise to a lower
one, so that it never crosses the dateline; else along the one way of the chain or tree. -/
def nextHop (t : Topo) (n dst : NodeId) : Option NodeId :=
  if t.shape = 1 then
    match topoPos t n, topoPos t dst with
    | some a, some b => if a = b then none else (topoMembers t)[if a < b then a + 1 else a - 1]?
    | _, _ => none
  else parentIn (controlTree t dst) n

/-- The gang of a node that a message for `dst` leaves by. -/
def hopGang (t : Topo) (n dst : NodeId) : Option (BitVec 12) :=
  if t.shape = 1 then
    match topoNode t n, topoPos t n, topoPos t dst with
    | some x, some a, some b => if a = b then none else some (if a < b then x.cw else x.ccw)
    | _, _, _ => none
  else (nextHop t n dst).bind (gangTo t n)

/-- The nodes that a message passes between two nodes. -/
def between (t : Topo) (dst : NodeId) : (fuel : Nat) → NodeId → List NodeId
  | 0, _ => []
  | k + 1, n =>
    match nextHop t n dst with
    | some x => if x = dst then [] else x :: between t dst k x
    | none => []

/-- A node may join where no route between two members passes (R306). -/
def joinPlace (t : Topo) (members : List NodeId) (n : NodeId) : Bool :=
  members.all fun a => members.all fun b => a == b || !(between t b t.nodes.length a).contains n

/-! ### The marks of the route entries (11 Table 11.18) -/

/-- The gang toward the control-tree parent of a node, and those toward its children. In a ring the branch of an edge tells
which of two gangs it is. -/
def treeGang (t : Topo) (n peer : NodeId) : Option (BitVec 12) :=
  if t.shape = 1 then
    match topoNode t n, topoPos t n, topoPos t peer with
    | some x, some a, some b => some (if b = (a + 1) % t.nodes.length then x.cw else x.ccw)
    | _, _, _ => none
  else gangTo t n peer
def parentGang (t : Topo) (root n : NodeId) : Option (BitVec 12) := (parentIn (controlTree t root) n).bind (treeGang t n)
/-- In ascending order of their lowest ports (R302). -/
def childGangs (t : Topo) (root n : NodeId) : List (BitVec 12) :=
  let l := ((controlTree t root).filter (·.2 == n)).filterMap fun e => treeGang t n e.1
  (List.range 12).flatMap fun p => l.filter fun g => (List.range 12).find? (fun q => bitOf g q) == some p

/-- A route entry with its parent and child marks. -/
def markRoute (t : Topo) (root n : NodeId) (r : Route) : Route :=
  { r with
    parent := r.valid && parentGang t root n == some r.ports
    child := r.valid && (childGangs t root n).contains r.ports }

/-! ### The checks (11 R296, R298, R299) -/

/-- A node's gangs: each leads to another member by ports that no other gang has, and the neighbour has one that leads back. -/
def gangsOk (t : Topo) (x : TopoNode) : Bool :=
  x.gangs.all (fun g => g.peer != x.node && g.ports != 0 && (topoNeighbours t g.peer).contains x.node) &&
    decide (x.gangs.Pairwise fun a b => a.ports &&& b.ports = 0)

/-- The shape: a ring joins position p clockwise to p + 1 mod P, a chain joins neighbours in position, a tree joins every node by
one edge less than it has nodes. -/
def shapeOk (t : Topo) : Bool :=
  let l := topoMembers t
  let p := l.length
  let leads (x : TopoNode) (g : BitVec 12) (i : Nat) : Bool := x.gangs.any fun y => y.ports == g && l[i]? == some y.peer
  t.nodes.zipIdx.all fun e =>
    let n := (topoNeighbours t e.1.node)
    match t.shape with
    | 0 => n.length == b2n (decide (0 < e.2)) + b2n (decide (e.2 + 1 < p)) &&
        (e.2 == 0 || (l[e.2 - 1]?).any n.contains) && (e.2 + 1 == p || (l[e.2 + 1]?).any n.contains)
    | 1 => decide (p ≤ 1) || (n.length == 2 && leads e.1 e.1.cw ((e.2 + 1) % p) && leads e.1 e.1.ccw ((e.2 + p - 1) % p) &&
        e.1.cw != e.1.ccw)
    | _ => decide n.Nodup &&
        nsum (t.nodes.map fun x => x.gangs.length) == 2 * (p - 1) &&
        (controlTree t t.coordinator).length + 1 == p

/-- The topology and route checks (14 R377): the table itself, the modes of this node's gangs, its declared control tree, and
that its routes take the way of R298 with the marks of R299. -/
def topoOk (t : Topo) (pos : Nat) (routes : List Route) (mode : Nat → Bool × Bool) : Bool :=
  let members := topoMembers t
  let me := members.getD pos 0xFFFF
  let gang (n : NodeId) : Option (BitVec 12) :=
    (routes.find? fun r => r.valid && decide (r.first.toNat ≤ n.toNat) && decide (n.toNat ≤ r.last.toNat)).map (·.ports)
  let sameMode (g : Gang) : Bool :=
    let ps := (List.range 12).filter fun p => bitOf g.ports p
    ps.all fun p => (mode p).1 && (ps.head?).all fun q => (mode q).2 == (mode p).2
  decide (t.shape ≤ 2) && decide (pos < members.length) && decide members.Nodup && !members.contains 0xFFFF &&
    members.contains t.coordinator && members.contains t.deputy &&
    t.nodes.all (gangsOk t) && shapeOk t &&
    t.nodes.all (fun x => x.parent == parentIn (controlTree t t.coordinator) x.node) &&
    ((topoNode t me).all fun x => x.gangs.all sameMode) &&
    members.all (fun n => n == me || (gang n).all fun g => hopGang t me n == some g) &&
    routes.all (fun r => markRoute t t.coordinator me r == r) &&
    (childGangs t t.coordinator me ++ (parentGang t t.coordinator me).toList).all fun g => routes.any fun r => r.valid && r.ports == g

end Sys2Proof.Machine
end

