-- ==== Sys2Proof/Machine/Wire.lean ====
section
/-! DEFINITION. Sys2Proof/Machine/Wire.lean: a message that has arrived whole on a chain port (11 R291 to R297, R312 to R314; 13 R355): which are dropped and how they are counted, which are forwarded, which are delivered; the control tree (11 R299). -/

namespace Sys2Proof.Machine

open Sys2Proof

/-- Arguments of a LNK event: port, virtual channel, peer (17 Table 17.3). -/
def lnkInfo (s : State) (p : PortId) (vc : Nat) : EvInfo :=
  { unit := BitVec.ofNat 8 p.val, sub := BitVec.ofNat 8 vc, aux := (s.port p.val).peer }

def State.countAuthDrop (s : State) (p : PortId) : State :=
  let b := bump (s.port p.val).authDrop
  (s.modPort p.val fun x => { x with authDrop := b.1, dropSat := x.dropSat || b.2 }).satEvent b.2 6 (portOff p.val 0x20)
def State.countAuthFail (s : State) (p : PortId) : State :=
  let b := bump (s.port p.val).authFail
  (s.modPort p.val fun x => { x with authFail := b.1, failSat := x.failSat || b.2 }).satEvent b.2 6 (portOff p.val 0x28)
def State.countBadMsg (s : State) (p : PortId) : State :=
  let b := bump (s.port p.val).badMsg
  (s.modPort p.val fun x => { x with badMsg := b.1, badSat := x.badSat || b.2 }).satEvent b.2 6 (portOff p.val 0x38)

/-- A malformed message: dropped, counted, LNK_BAD_MSG (11 R292, 13 R355). -/
def State.badMsg (s : State) (p : PortId) (vc : Nat) : State := (s.countBadMsg p).raise Ev.lnkBadMsg (lnkInfo s p vc)

/-- A port carries a virtual channel when it is up, or VC0 alone before the device is ready (11 R283); through a reset it
carries idle flits only (15 R396). -/
def State.portCarries (s : State) (p : PortId) (vc : Nat) : Bool :=
  s.rst.held == .none && ((s.port p.val).state == .up || ((s.port p.val).state == .upVc0 && vc == 0))

/-! ### Flits (11 R285 to R288) -/

/-- Word w of a flit (R285). -/
def flitWord (f : BitVec 2048) (w : Nat) : Nat := bitsOf f (32 * w + 31) (32 * w)

/-- Has a word an odd number of ones? -/
def oddOnes (n : Nat) : Bool := (List.range 32).foldl (fun p i => p ^^ n.testBit i) false

/-- The parity check of one word (R286). -/
def wordOk (f : BitVec 2048) (w : Nat) : Bool :=
  if w = 6 then !oddOnes (flitWord f 6) else oddOnes (flitWord f w) == bitOf f (192 + w)

/-- Group i of 16 words passes (R286, R287). -/
def groupOk (f : BitVec 2048) (i : Nat) : Bool := (List.range 16).all fun j => wordOk f (16 * i + j)

/-- The parity field that makes every word of a flit pass (R286). -/
def parityField (f : BitVec 2048) : Nat :=
  let a := nsum ((List.range 64).map fun w => if w = 6 ∨ w = 7 then 0 else b2n (oddOnes (flitWord f w)) * 2 ^ w)
  let b := a + b2n (oddOnes (a / 2 ^ 32)) * 2 ^ 7
  b + b2n (oddOnes (b % 2 ^ 32)) * 2 ^ 6

/-- The link word of Table 11.4. -/
def linkSeq (f : BitVec 2048) : BitVec 12 := BitVec.ofNat 12 (bitsOf f 191 180)
def linkAck (f : BitVec 2048) : BitVec 12 := BitVec.ofNat 12 (bitsOf f 179 168)
def linkNak (f : BitVec 2048) : Bool := bitOf f 167
def linkIdle (f : BitVec 2048) : Bool := bitOf f 165
def linkRst (f : BitVec 2048) : Bool := bitOf f 164
def linkCredit (f : BitVec 2048) (vc : Nat) : BitVec 9 := BitVec.ofNat 9 (bitsOf f (136 + 9 * vc) (128 + 9 * vc))

/-- The header of Table 11.5. -/
def hdrDst (f : BitVec 2048) : NodeId := BitVec.ofNat 16 (bitsOf f 127 112)
def hdrSrc (f : BitVec 2048) : NodeId := BitVec.ofNat 16 (bitsOf f 111 96)
def hdrTag (f : BitVec 2048) : Tag := BitVec.ofNat 24 (bitsOf f 95 72)
def hdrVc (f : BitVec 2048) : Nat := bitsOf f 59 58
def hdrType (f : BitVec 2048) : Nat := bitsOf f 57 54
def hdrKey (f : BitVec 2048) : Nat := bitsOf f 71 60
def hdrLen (f : BitVec 2048) : Nat := bitsOf f 51 44
def hdrAddr (f : BitVec 2048) : Nat := bitsOf f 43 0
def hdrFirst (f : BitVec 2048) : Bool := bitOf f 53
def hdrLast (f : BitVec 2048) : Bool := bitOf f 52

/-! ### Ports -/

/-- Receive slots of a virtual channel (11 Table 11.7). -/
def vcSlots (vc : Nat) : Nat := [32, 192, 192, 96].getD vc 0

/-- One more receive slot of a channel is free. -/
def Port.release (x : Port) (vc n : Nat) : Port :=
  { x with freed := x.freed.set vc (x.freed.getD vc 0 + BitVec.ofNat 9 n) }

/-- The receive slots of a channel are granted once, by counting them as freed (11 R283, R288: DEDUCED, log 21). -/
def Port.grant (x : Port) (vc : Nat) : Port :=
  if x.granted.getD vc false then x else { x.release vc (vcSlots vc) with granted := x.granted.set vc true }

/-- A port opens VC0, and once the device is ready the other channels (11 R283). -/
def Port.open' (x : Port) (ready : Bool) : Port :=
  let y := { x.grant 0 with state := if ready then .up else .upVc0 }
  if ready then ((y.grant 1).grant 2).grant 3 else y

/-- Of the flits that wait under a per-link key, those of messages that have not begun to leave, and the rest (13 R357 step 3); `on`:
source and channel of the messages under way. -/
def splitLink (k : Nat) : (on : List (Option PortId × Nat)) → List TxFlit → List TxFlit × List TxFlit
  | _, [] => ([], [])
  | on, e :: l =>
    let key := (e.src, hdrVc e.flit)
    let r := splitLink k (if hdrLast e.flit then on.filter (· != key) else on) l
    if e.link = some k ∧ !on.contains key then (e :: r.1, r.2) else (r.1, e :: r.2)

/-- The messages under way on a port. -/
def Port.under (x : Port) : List (Option PortId × Nat) :=
  x.mid.zipIdx.filterMap fun e => e.1.map fun src => (src, e.2)

/-- A per-link key of a port goes, with its counters and the messages that wait for it (13 R357 step 3). -/
def State.dropLink (s : State) (p : Nat) (k : Nat) : State :=
  let x := s.port p
  let r := splitLink k x.under x.txQ
  let s := s.setPort p { x with
    txQ := r.2, txCount := merase k x.txCount, rxCount := merase k x.rxCount, heldCount := merase k x.heldCount
    stopped := x.stopped.filter (· != k) }
  foldS s r.1 fun s e => match e.src with
    | some q => s.modPort q.val fun x => x.release (hdrVc e.flit) 1
    | none => s

/-- The members in position order. -/
def State.inOrder (s : State) (l : List NodeId) : List NodeId := (topoMembers s.cfg.live.topo).filter fun n => l.contains n

/-- What this node knows of a job tag: its domain, and whether the job has at most 32 members (11 R312): from the job itself, or, where
none is live here, from the SETUP that last came by. -/
def State.tagInfo (s : State) (t : Tag) : Option (Dom × Bool) :=
  match s.job t with
  | some j => some (j.d.domain, decide (j.members.length ≤ 32))
  | none => (s.jobs.passing.find? fun e => e.1 == t).map (·.2)

/-- A SETUP shows how the messages of its job are protected (11 R312, R314). -/
def State.notePassing (s : State) (t : Tag) (d : Dom) (small : Bool) : State :=
  { s with jobs := { s.jobs with passing := (t, d, small) :: s.jobs.passing.filter fun e => e.1 != t } }

/-- Has tenant removal retired the key of the message: its job tag, or the domain of its job (11 R314, 13 R358)? -/
def State.retiredKey (s : State) (t : Tag) : Bool :=
  t != 0 && (s.sec.retiredTags.contains t ||
    match s.tagInfo t with
    | some x => s.sec.retiredDoms.contains x.1
    | none => false)

/-- A tag that does not verify under a live key (11 R314). -/
def State.authFail (s : State) (m : Msg) : State :=
  let i := lnkInfo s m.port m.vc.toNat
  let s := s.countAuthFail m.port
  if m.tag = 0 then s.raise Ev.lnkAuthFailWarn i
  else if (s.job m.tag).isSome then s.faultJob m.tag Ev.lnkAuthFailJob i
  else s.raise Ev.lnkAuthFailWarn { i with tag := m.tag }

/-- The checks of a message for this node: on one of the virtual channels of its type; dropped when malformed, when its key is retired
or when its tag fails; else `k` acts (11 R292, R293, R314). -/
def State.checked (s : State) (m : Msg) (vcs : List Nat) (k : State → State) : State :=
  if !vcs.contains m.vc.toNat || m.keyId.toNat != (if m.tag = 0 then 0 else 0xFFF) then s.badMsg m.port m.vc.toNat
  else if s.retiredKey m.tag then s.countAuthDrop m.port
  else if !m.verifies then s.authFail m
  else k s

/-- A message for this node that has come by a port which carries its channel; it wakes a resting device (15 R419). -/
def State.receive (s : State) (m : Msg) (vcs : List Nat) (k : State → State) : State :=
  if !s.portCarries m.port m.vc.toNat then s else s.wakeUp.checked m vcs k

/-- The number of the per-link key that protects the messages of a tag: 0 for the link key, 1 + d for that of domain d (R312); none where
they are not protected per link, or where this node knows nothing of the tag (log 21). -/
def State.linkNo (s : State) (t : Tag) : Option Nat :=
  if t = 0 then some 0
  else
    match s.tagInfo t with
    | some (d, false) => some (1 + d.toNat)
    | _ => none

/-- Is a message protected per link: that of no job, or of a job of more than 32 members, as this node holds the job or has seen
its SETUP pass (R312)? What it knows nothing of passes unchanged (log 21). -/
def State.perLink (s : State) (t : Tag) : Bool := (s.linkNo t).isSome

/-- A passing message goes on along its route. -/
def State.forward (s : State) (m : Msg) : State :=
  match (s.route m.dst).bind fun r => r.port m.tag m.src m.dst with
  | some p => s.emit (.forward p m)
  | none => (s.countNoRoute m.port).raise Ev.lnkNoRoute (lnkInfo s m.port m.vc.toNat)

/-- An addressed message: forwarded when it is for another node, dropped with LNK_NO_ROUTE when no route matches; a node that
has left forwards nothing (11 R297, R309). One that is protected per link is decrypted here: under a retired key it goes no
further; a tag that fails is counted and goes on as one that cannot verify (R312, R314). -/
def State.receiveTo (s : State) (m : Msg) (vcs : List Nat) (k : State → State) : State :=
  if m.dst = s.lnk.node then s.receive m vcs k
  else if !s.portCarries m.port m.vc.toNat ∨ s.lnk.left then s
  else if !s.perLink m.tag then s.forward m
  else if s.retiredKey m.tag then s.countAuthDrop m.port
  else (if m.verifies then s else s.authFail m).forward m

/-! ### The control tree (11 R299) -/

/-- The gangs to the children of this node in the control tree, and to its parent. -/
def State.childEdges (s : State) : List (BitVec 12) := childGangs s.cfg.live.topo s.lnk.coordinator s.lnk.node
def State.parentEdge (s : State) : Option (BitVec 12) := parentGang s.cfg.live.topo s.lnk.coordinator s.lnk.node
/-- Does port p lead to a child of the control tree? -/
def State.isChildPort (s : State) (p : PortId) : Bool := s.childEdges.any fun g => bitOf g p.val
def State.isParentPort (s : State) (p : PortId) : Bool := s.parentEdge.any fun g => bitOf g p.val
/-- The root of the control tree is the coordinator. -/
def State.isRoot (s : State) : Bool := s.parentEdge.isNone
def State.isCoord (s : State) : Bool := s.lnk.member && s.lnk.node == s.lnk.coordinator

/-- Do tree edges lead on from the port a message came by? -/
def State.leadsOn (s : State) (p : PortId) : Bool := (s.childEdges ++ s.parentEdge.toList).any fun g => !bitOf g p.val

/-! ### A job's control tree (06 R146)

Its nodes are the job's members: the parent of a member is the nearest member above it in the control tree. Of several members
with none above them the first in position order is the root, and the others are its children. A node without the job sends the
job's messages on (log 15). -/

def State.jobParent (s : State) (j : Job) (n : NodeId) : Option NodeId :=
  let t := s.cfg.live.topo
  (ancestorsIn (controlTree t s.lnk.coordinator) t.nodes.length n).find? fun a => j.members.contains a
/-- The members that have no member above them. -/
def State.jobTops (s : State) (j : Job) : List NodeId :=
  (topoMembers s.cfg.live.topo).filter fun n => j.members.contains n && (s.jobParent j n).isNone
def State.jobRoot (s : State) (j : Job) : Bool :=
  decide (j.members.length ≤ 1) || (s.jobTops j).head? == some s.lnk.node
/-- The number of this node's children in the job's tree: none for a job of one member. -/
def State.jobChildren (s : State) (j : Job) : Nat :=
  if j.members.length ≤ 1 then 0
  else
    (j.members.filter fun n => s.jobParent j n == some s.lnk.node).length +
      (if s.jobRoot j then (s.jobTops j).length - 1 else 0)

/-- May a message of a job that goes toward its root come by this port: from below, or at the root from another top member? -/
def State.fromChild (s : State) (j : Job) (p : PortId) : Bool := s.isChildPort p || (s.jobRoot j && s.isParentPort p)
/-- May a message that goes away from the root come by this port: from above, or down from the root to another top member? -/
def State.fromParent (s : State) (p : PortId) : Bool := s.isParentPort p

/-- The gangs to children of the control tree below which the job has members, in ascending order of their lowest ports
(11 R302). -/
def State.jobEdges (s : State) (j : Job) : List (BitVec 12) :=
  let t := s.cfg.live.topo
  let tree := controlTree t s.lnk.coordinator
  s.childEdges.filter fun g => (tree.filter (·.2 == s.lnk.node)).any fun e => treeGang t s.lnk.node e.1 == some g &&
    j.members.any fun n => n == e.1 || (ancestorsIn tree t.nodes.length n).contains e.1

/-- The edges by which this member reaches its children in the job's tree. -/
def State.jobDown (s : State) (j : Job) : Edge := if s.jobRoot j ∧ 1 < (s.jobTops j).length then .all else .down

/-- Where a node without the job sends its message on: up, and at the root of the control tree, or when it came from above, down
(log 15). -/
def State.relayEdge (s : State) (p : PortId) : Edge := if s.isParentPort p ∨ s.isRoot then .down else .up

/-- A message of a job that this node sends on its way one hop further (R298). One that is protected per link is decrypted here: a tag
that fails drops it (R314); of a job with end-to-end keys this node, which has none of them, checks nothing. -/
def State.passOn (s : State) (m : Msg) (vcs : List Nat) (k : State → State) : State :=
  if !s.portCarries m.port m.vc.toNat then s
  else
    let s := s.wakeUp
    if !vcs.contains m.vc.toNat || m.keyId.toNat != (if m.tag = 0 then 0 else 0xFFF) then s.badMsg m.port m.vc.toNat
    else if s.lnk.left then s
    else if s.retiredKey m.tag then s.countAuthDrop m.port
    else if s.perLink m.tag && !m.verifies then s.authFail m
    else k s

/-- A message of a job on the control channel: at a node without the job it goes on as it is (R298: one hop at a time), at a
member it is received. -/
def State.receiveJob (s : State) (m : Msg) (vcs : List Nat) (on : Edge → Out) (k : Job → State → State) : State :=
  match s.job m.tag with
  | some j => s.receive m vcs (k j)
  | none => s.passOn m vcs fun s => if m.tag = 0 then s else s.emit (on (s.relayEdge m.port))

/-- A CONTROL message for the node `dst`: it travels one hop at a time, so each node between takes it and sends its own (R298). -/
def State.receiveHop (s : State) (m : Msg) (dst : NodeId) (o : Out) (k : State → State) : State :=
  if dst = s.lnk.node then s.receive m [0] k else s.passOn m [0] fun s => s.sendTo dst m.tag o

end Sys2Proof.Machine
end

