-- ==== Sys2Proof/Machine/Firn.lean ====
section
/-! DEFINITION. Sys2Proof/Machine/Firn.lean: the Firn store and base generations (08): the catalogue and wear (R184 to R187, R218, R219), installation (R197 to R201), base swaps (R208 to R214), refetches, sweeps and checks of the copies (R215 to R217, 07 R175), the stop of a hot die (15 R413). -/

namespace Sys2Proof.Machine

open Sys2Proof

/-- FIRN and BASE events (17 Table 17.3): slot, segment, generation. -/
def firnInfo (slot seg : Nat) (g : W32) : EvInfo :=
  { unit := BitVec.ofNat 8 slot, aux := BitVec.ofNat 16 seg, arg := g.setWidth 64 }

def State.setFirn (s : State) (f : Firn → Firn) : State := { s with firn := f s.firn }

/-- The control processor writes the catalogue (08 R186): the next copy goes into the half that does not hold the last one. -/
def Firn.written (x : Firn) : Firn :=
  let n := x.catSeq + 1
  let c : CatCopy := ⟨n, x.slots, x.greatest, x.retired⟩
  { x with catSeq := n, halves := if n % 2 = 0 then (c, x.halves.2) else (x.halves.1, c) }
def State.catalogue (s : State) : State := s.setFirn Firn.written

/-- The catalogue read at a start (08 R186): of the halves whose check passes, `ok`, the one with the higher sequence number. With
none the catalogue stays as it was (log 16). -/
def Firn.readCatalogue (x : Firn) (ok : Bool × Bool) : Firn :=
  let x := { x with catRead := true }
  let take (c : CatCopy) : Firn := { x with slots := c.slots, greatest := c.greatest, retired := c.retired, catSeq := c.seq }
  match ok with
  | (true, true) => take (if x.halves.1.seq < x.halves.2.seq then x.halves.2 else x.halves.1)
  | (true, false) => take x.halves.1
  | (false, true) => take x.halves.2
  | (false, false) => x

/-- FIRN_CMD_STATUS (08 Table 8.13). -/
def State.firnDone (s : State) : State := s.setFirn fun x => { x with cmdState := .done, reason := 0, cmd := none }
def State.firnFailed (s : State) (r : Nat) : State :=
  s.setFirn fun x => { x with cmdState := .refused, reason := r, cmd := none }
def State.firnRefuse (s : State) (r : Nat) : State := (s.firnFailed r).raise Ev.firnCmdRefused (argReason r)

/-- Is a Firn command running on this chip? -/
def State.firnBusy (s : State) : Bool :=
  s.firn.cmdState == .busy || s.firn.install.isSome || s.firn.swap.isSome

/-- Fields of FIRN_CMD (08 Table 8.11). -/
def firnCmd (v : W64) : FirnCmd where
  op := bitsOf v 63 60
  slot := ⟨bitsOf v 59 57 % 8, Nat.mod_lt _ (by decide)⟩
  src := bitOf v 56
  port := bitsOf v 55 52
  positions := BitVec.ofNat 16 (bitsOf v 47 32)
  ringFrames := bitsOf v 31 0

/-- A FIRN_CMD write of one op (08 R220): it wakes the device (15 R419); a write while a command runs is ignored with
reason 0x0E, but for the abort of the installation that runs; a reserved op is refused with 0x0A, reserved bits are ignored
(00 R8); an op of another command is not this one. -/
def State.firnOp (s : State) (v : W64) (op : Nat) (k : FirnCmd → State → State) : State :=
  s.hostReg fun s =>
    let c := firnCmd v
    if c.op ≠ op ∧ 1 ≤ c.op ∧ c.op ≤ 4 then s
    else
      let s := s.wakeUp
      if s.firnBusy ∧ ¬ (op = 4 ∧ c.op = 4 ∧ s.firn.install.isSome) then s.raise Ev.firnCmdRefused (argReason 0x0E)
      else if c.op ≠ op then s.firnRefuse rsnReserved
      else k c s

/-! ### Stripes and wear (08 R184, R218) -/

/-- Inserts a stripe by its count; equal counts keep their order. -/
def stripeInsert (key : Nat → Nat) (x : Nat) : List Nat → List Nat
  | [] => [x]
  | y :: l => if key x ≤ key y then x :: y :: l else y :: stripeInsert key x l

/-- The free stripes, those with the lowest counts first. -/
def State.freeStripes (s : State) : List Nat :=
  let held := s.firn.slots.flatMap fun e => e.2.stripes
  let l := (List.range 4091).map (· + 1) |>.filter fun n => !held.contains n && !s.firn.retired.contains n
  l.foldr (stripeInsert fun n => (mget 0 s.life.pe n).toNat) []

/-- A stripe is retired (08 R218). -/
def State.retireStripe (s : State) (slot n : Nat) : State :=
  if s.firn.retired.contains n then s
  else ((s.setFirn fun x => { x with retired := x.retired ++ [n] }).catalogue).raise Ev.firnStripeRetired (firnInfo slot 0 0)

/-- One program/erase cycle of a stripe ends with its erase (14 Table 14.8, 08 R218). -/
def State.countCycle (s : State) (slot n : Nat) : State :=
  let c := bump48 (mget 0 s.life.pe n)
  let s := { s with life := { s.life with pe := mset 0 s.life.pe n c } }
  let s := if 2700 ≤ c.toNat ∧ !s.firn.wearHigh.contains n then
      (s.setFirn fun x => { x with wearHigh := x.wearHigh ++ [n] }).raise Ev.firnWearHigh (firnInfo slot 0 0)
    else s
  if 3000 ≤ c.toNat then s.retireStripe slot n else s

/-- Is a slot the source of a live generation, or of one being laid down (08 R211, R219)? -/
def Firn.liveSlot (x : Firn) (k : FSlotId) : Bool :=
  (x.current.any fun g => g.slot == k) || (x.old.any fun g => g.slot == k) || (x.swap.any fun w => w.slot == k)

def State.modFslot (s : State) (k : FSlotId) (f : FSlot → FSlot) : State := s.setFslot k.val (f (s.fslot k.val))

/-- A check of a stored image has failed (08 R203, R217). -/
def State.damage (s : State) (k : FSlotId) (code : W16) (seg : Nat) (g : W32) : State :=
  ((s.modFslot k fun x => if x.state = .valid then { x with state := .damaged } else x).catalogue).raise code
    (firnInfo k.val seg g)

/-- SLOT_ERASE_DONE (08 R187, R218): the stripes return free; those whose erase failed are retired. -/
def slotEraseDone (slot : FSlotId) (bad : List Nat) (s : State) : State :=
  let x := s.fslot slot.val
  if x.state ≠ .erasing ∨ s.firn.hotStop ∨ (s.firn.swap.any fun w => !w.thawed) then s
  else
    let s := (s.setFslot slot.val {}).catalogue
    let s := foldS s x.stripes fun s n => s.countCycle slot.val n
    let s := foldS s (bad.filter fun n => x.stripes.contains n) fun s n => s.retireStripe slot.val n
    let s := if x.stripes.isEmpty then s else s.lifeWrite
    match s.firn.cmd with
    | some c =>
      if c.op = 2 ∧ c.slot = slot then (s.setFirn fun y => { y with progress := 128 * x.stripes.length }).firnDone else s
    | none => s

/-- FIRN_ERASE (08 R219). An empty slot is done at once. -/
def firnErase (v : W64) (s : State) : State :=
  s.firnOp v 2 fun c s =>
    if s.firn.liveSlot c.slot then s.firnRefuse 0x09
    else
      match (s.fslot c.slot.val).state with
      | .installing | .erasing => s.firnRefuse 0x01
      | .empty => s.firnDone
      | _ =>
        ((s.modFslot c.slot fun x => { x with state := .erasing }).catalogue).setFirn fun x =>
          { x with cmdState := .busy, reason := 0, progress := 0, cmd := some c }

/-! ### Installation (08 R197 to R201) -/

/-- The chips of the stream path round this one: the members in position order, from the head round to the chip before it
(log 16). The tail has no next chip, the head none before it. -/
def State.pathNext (s : State) (head : NodeId) : Option NodeId :=
  match s.lnk.members.findIdx? (· == s.lnk.node) with
  | some i => (s.lnk.members[(i + 1) % s.lnk.members.length]?).filter (· != head)
  | none => none
def State.pathPrev (s : State) (head : NodeId) : Option NodeId :=
  if s.lnk.node = head then none
  else
    match s.lnk.members.findIdx? (· == s.lnk.node) with
    | some i => s.lnk.members[(i + s.lnk.members.length - 1) % s.lnk.members.length]?
    | none => none

/-- Sends to the next chip of the stream path, or to the one before. -/
def State.toNext (s : State) (head : NodeId) (o : NodeId → Out) : State :=
  match s.pathNext head with
  | some n => s.sendTo n 0 (o n)
  | none => s
def State.toPrev (s : State) (head : NodeId) (o : NodeId → Out) : State :=
  match s.pathPrev head with
  | some n => s.sendTo n 0 (o n)
  | none => s

/-- Does this chip head the installation? -/
def State.isHead (s : State) (x : Install) : Bool := x.head == s.lnk.node

/-- An abort on its way along the stream path, and a completion on its way back to the head. -/
def State.abortOnward (s : State) (x : Install) : State := s.toNext x.head fun n => .installAbort n true x.slot
def State.abortBack (s : State) (x : Install) : State := s.toPrev x.head fun n => .installAbort n false x.slot

/-- A failed installation (08 R200): the slot turns to Erasing; the head's command fails. -/
def State.endInstall (s : State) (x : Install) (reason : Nat) : State :=
  let s := (s.modFslot x.slot fun y => { y with state := .erasing }).catalogue
  let s := s.setFirn fun f => { f with install := none }
  if s.isHead x then s.firnFailed reason else s

/-- The chip that found the fault raises FIRN_INSTALL_FAIL and sends the abort along the path in both directions. -/
def State.failInstall (s : State) (x : Install) (reason : Nat) : State :=
  let s := (s.raise Ev.firnInstallFail (argReason reason)).endInstall x reason
  (s.abortBack x).abortOnward x

/-- The slot opens for an installation. -/
def State.openSlot (s : State) (k : FSlotId) (head : NodeId) : State :=
  ((s.modFslot k fun x => { x with state := .installing }).catalogue).setFirn fun x =>
    { x with install := some { slot := k, head := head } }

/-- FIRN_INSTALL (08 R201). With no stripe free there cannot be enough for the image; its size is known at the header frame, where
the check is made again. -/
def firnInstall (v : W64) (s : State) : State :=
  s.firnOp v 1 fun c s =>
    let ringOk := if c.src then c.ringFrames == 0 && decide (c.port < 12)
      else decide (16 ≤ c.ringFrames) && (List.range 32).any fun i => c.ringFrames == 2 ^ i
    if !ringOk ∨ c.positions = 0 ∨ 256 < c.positions.toNat then s.firnRefuse rsnReserved
    else if (s.fslot c.slot.val).state ≠ .empty then s.firnRefuse 0x01
    else if s.freeStripes.isEmpty then s.firnRefuse 0x02
    else
      let s := (s.openSlot c.slot s.lnk.node).setFirn fun x =>
        { x with cmdState := .busy, reason := 0, progress := 0, cmd := some c }
      s.toNext s.lnk.node fun n => .installOpen n s.lnk.node c.slot c.positions

/-- INSTALL_OPEN on a member (08 R201): a refusal goes back along the path to the head. -/
def installOpen (m : Msg) (dst head : NodeId) (slot : FSlotId) (positions : W16) (s : State) : State :=
  s.receiveHop m dst (.installOpen dst head slot positions) fun s =>
    let refuse (r : Nat) : State :=
      (s.raise Ev.firnCmdRefused (argReason r)).toPrev head fun n => .installAbort n false slot
    if s.firnBusy then refuse 0x0E
    else if (s.fslot slot.val).state ≠ .empty then refuse 0x01
    else if s.freeStripes.isEmpty then refuse 0x02
    else (s.openSlot slot head).toNext head fun n => .installOpen n head slot positions

/-- INSTALL_ABORT (08 R200): it goes on along the path, away from the chip that sent it; before any frame it is a member's refusal
(R201). -/
def installAbort (m : Msg) (dst : NodeId) (onward : Bool) (slot : FSlotId) (s : State) : State :=
  s.receiveHop m dst (.installAbort dst onward slot) fun s =>
    match s.firn.install with
    | none => s
    | some x =>
      if x.slot ≠ slot then s
      else
        let s := if s.isHead x ∧ x.nextSeq = 0 then s.raise Ev.firnCmdRefused (argReason 0x06) else s
        let s := s.endInstall x 0x06
        if onward then s.abortOnward x else s.abortBack x

/-- FIRN_ABORT_INSTALL (08 R200). -/
def firnAbortInstall (v : W64) (s : State) : State :=
  s.firnOp v 4 fun c s =>
    match s.firn.install with
    | some x => if x.slot = c.slot then s.failInstall x 0x00 else s.raise Ev.firnCmdRefused (argReason 0x01)
    | none => s.firnRefuse 0x01

/-- FIRN_RING_DOORBELL (08 R197, Table 8.12): prod moves. -/
def firnRingDoorbell (prod : W32) (s : State) : State := s.hostReg fun s => s.setFirn fun x => { x with prod := prod }

/-- An install frame, or the reason that it fails (08 Table 8.4). -/
structure Frame where
  seq : Nat
  position : Nat
  kind : Nat
  segment : Nat
  part : Nat
  tag : W64
  count : Nat
  payload : Bytes

def frameOf (f : Bytes) : Except Nat Frame :=
  let kind := leAt f 6 1
  let len := leAt f 12 4
  let payload := (f.drop 64).take len
  let stop := leAt f 4 2 = 0xFFFF
  if f.length ≠ 4096 then .error 0x05
  else if kind = 0 ∨ 5 < kind ∨ leAt f 7 1 ≠ 0 ∨ (kind ≠ 4 ∧ leAt f 8 4 ≠ 0) ∨ (stop ≠ (kind = 5)) ∨
      leAt f 40 24 ≠ 0 ∨ (kind ≠ 5 ∧ leAt f 36 4 ≠ 0) then .error rsnReserved
  else if 4032 < len ∨ (kind ≠ 5 ∧ len = 0) ∨ crc32c payload ≠ leAt f 32 4 then .error 0x05
  else .ok ⟨leAt f 0 4, leAt f 4 2, kind, leAt f 8 4, leAt f 16 8, BitVec.ofNat 64 (leAt f 24 8), leAt f 36 4, payload⟩

/-- Bytes before the segments: header, table, signature on a 4 KiB boundary, segments on a 64 KiB boundary (08). -/
def imgSigOff (segs : Nat) : Nat := alignUp (4096 + 128 * segs) 4096
def imgSegOff (segs : Nat) : Nat := alignUp (imgSigOff segs + 29792) 65536

/-- The acceptance of an image's signature (08 R189). -/
def State.imageSigned (s : State) (h : ImgHeader) (head table sig : Bytes) : Bool :=
  match s.cfg.live.installerKeys[h.keyIndex]? with
  | some k => (k.any (· != 0)) && Config.shake256 k 32 == h.keyDigest && Config.slhVerify Config.slhS k (head ++ table) sig
  | none => false

/-- Appends a payload to a part that must arrive in order; none when it does not fit. -/
def addPart (part : Bytes) (limit : Nat) (f : Frame) : Option Bytes :=
  if f.part = part.length ∧ part.length + f.payload.length ≤ limit then some (part ++ f.payload) else none

/-- The header frame of this chip's position (08 R188, R201): the stripes of the image are taken. -/
def State.headerFrame (s : State) (x : Install) (f : Frame) : Except Nat State :=
  match addPart x.header 4096 f with
  | none => .error 0x05
  | some h =>
    let put (s : State) : State := s.setFirn fun y => { y with install := some { x with header := h } }
    if h.length < 4096 then .ok (put s)
    else
      match imgHeader h with
      | none => .error rsnReserved
      | some i =>
        if i.chainTag ≠ f.tag then .error 0x0B
        else
          let n := ceilDiv (imgSegOff i.segments + leAt h 40 8) (2 ^ 27)
          let free := s.freeStripes
          if free.length < n then .error 0x02
          else .ok ((put s).modFslot x.slot fun y => { y with stripes := free.take n }).catalogue

def State.tableFrame (s : State) (x : Install) (i : ImgHeader) (f : Frame) : Except Nat State :=
  match addPart x.table (128 * i.segments) f with
  | none => .error 0x05
  | some t => .ok (s.setFirn fun y => { y with install := some { x with table := t } })

def State.signatureFrame (s : State) (x : Install) (i : ImgHeader) (f : Frame) : Except Nat State :=
  if x.table.length ≠ 128 * i.segments then .error 0x05
  else
    match addPart x.signature 29792 f with
    | none => .error 0x05
    | some g =>
      if g.length < 29792 then .ok (s.setFirn fun y => { y with install := some { x with signature := g } })
      else if s.imageSigned i x.header x.table g then
        .ok (s.setFirn fun y => { y with
          install := some { x with signature := g, verified := true, segments := List.replicate i.segments [] } })
      else .error 0x03

/-- MiB of segment data that are programmed: what has come but for what waits in the staging area. -/
def Install.progress (x : Install) : Nat := (nsum (x.segments.map (·.length)) - x.staged) / 2 ^ 20

/-- Segment data (08 R198): programmed after the signature has verified, or left in the staging area while programming has stopped (15
R413); a complete segment must match its digest. -/
def State.segmentFrame (s : State) (x : Install) (f : Frame) : Except Nat State :=
  if !x.verified then .error 0x05
  else
    match x.segments[f.segment]? with
    | none => .error 0x05
    | some b =>
      let e := (x.table.drop (128 * f.segment)).take 128
      let len := leAt e 8 8
      match addPart b len f with
      | none => .error 0x05
      | some b =>
        if b.length = len ∧ Config.shake256 b 64 ≠ (e.drop 64).take 64 then .error rsnDigest
        else
          let x := { x with
            segments := x.segments.set f.segment b
            staged := if s.firn.hotStop then x.staged + f.payload.length else x.staged }
          .ok (s.setFirn fun y => { y with progress := x.progress, install := some x })

/-- The end frame (08 R199): the frame count, and every part of this chip's image. -/
def State.endFrame (s : State) (x : Install) (f : Frame) : Except Nat State :=
  let lens := (List.range x.segments.length).map fun i => leAt x.table (128 * i + 8) 8
  if f.count ≠ f.seq + 1 ∨ !x.verified ∨ x.segments.map (·.length) ≠ lens then .error 0x05
  else .ok (s.setFirn fun y => { y with install := some { x with ended := true } })

/-- A stripe whose program fails is retired, and a free one takes its place (08 R218). -/
def State.replaceStripes (s : State) (x : Install) : List Nat → Except Nat State
  | [] => .ok s
  | n :: l =>
    if !(s.fslot x.slot.val).stripes.contains n then s.replaceStripes x l
    else
      let s := s.retireStripe x.slot.val n
      match s.freeStripes.head? with
      | none => .error 0x02
      | some k =>
        ((s.modFslot x.slot fun y => { y with
          stripes := y.stripes.map fun i => if i = n then k else i }).catalogue).replaceStripes x l

/-- What a chip keeps of a good frame of its own position. -/
def State.keepFrame (s : State) (x : Install) (f : Frame) : Except Nat State :=
  if f.kind = 5 then s.endFrame x f
  else if f.position ≠ s.lnk.position then .ok s
  else if f.kind = 1 then (if x.table.isEmpty then s.headerFrame x f else .error 0x05)
  else
    match imgHeader x.header with
    | none => .error 0x05
    | some i =>
      if f.kind = 2 then s.tableFrame x i f
      else if f.kind = 3 then s.signatureFrame x i f
      else s.segmentFrame x f

/-- A frame of the installation that runs, and what it makes of it; an error is the reason of Table 8.13. -/
def State.takeFrame (s : State) (x : Install) (b : Bytes) (bad : List Nat) : Except Nat State :=
  match frameOf b with
  | .error r => .error r
  | .ok f =>
    if f.seq ≠ x.nextSeq then .error 0x05
    else if (x.chainTag.getD f.tag) ≠ f.tag then .error 0x0B
    else
      let x := { x with nextSeq := x.nextSeq + 1, chainTag := some f.tag }
      match (s.setFirn fun y => { y with install := some x }).keepFrame x f with
      | .error r => .error r
      | .ok t => if t.firn.hotStop then .ok t else t.replaceStripes x bad

/-- A whole frame: checked, kept for this chip's position, passed on. -/
def State.wholeFrame (s : State) (x : Install) (b : Bytes) (bad : List Nat) (unread : Bool) : State :=
  let s := if s.isHead x then s.setFirn fun y => { y with cons := y.cons + 1 } else s
  if unread then (s.raise Ev.firnReadFail (firnInfo x.slot.val 0 0)).failInstall x rsnRead
  else
    match s.takeFrame x b bad with
    | .error r => s.failInstall x r
    | .ok t => t.toNext x.head fun n => .installFrame n b

/-- The data of an INSTALL message: 4,016 B that begin a frame with its seq field, or the other 80 B of the frame that came before them
(11 R292). -/
def State.framePiece (s : State) (x : Install) (l : Bytes) (bad : List Nat) (unread : Bool) : State :=
  match x.piece with
  | none => if l.length = 4016 then s.setFirn fun y => { y with install := some { x with piece := some l } } else s.failInstall x 0x05
  | some a =>
    if l.length = 80 then
      let x := { x with piece := none }
      (s.setFirn fun y => { y with install := some x }).wholeFrame x (a ++ l) bad unread
    else s.failInstall x 0x05

/-- The controller takes no frame before the thaw of a swap has ended (08 R213), nor, while programming has stopped, more than its staging
area of 2 GiB holds (R198, 15 R413). -/
def State.frameWaits (s : State) : Bool :=
  (s.firn.swap.any fun w => !w.thawed) ||
    (s.firn.hotStop && s.firn.install.any fun x => decide (2 ^ 31 < x.staged + 4032))

/-- An INSTALL message is in the staging area: its receive slots are free again (08 R198). Data of n bytes take ⌈(n + 16) / 224⌉ flits. -/
def State.stageSlots (s : State) (p : PortId) (n : Nat) : State :=
  s.modPort p.val fun x =>
    let k := min x.owed (ceilDiv (n + 16) 224)
    { x.release 1 k with owed := x.owed - k }

/-- Does a message of the stream come as it should: at the head from the port that FIRN_INSTALL named, at a member by the chain? -/
def State.streamPort (s : State) (x : Install) (p : PortId) : Bool :=
  !s.isHead x || s.firn.cmd.any fun c => c.src && c.port == p.val

/-- INSTALL_FRAME (08 R197 to R200): a frame that the head reads from the host ring, or an INSTALL message, whose frame is joined from
two (11 R292, R293). A frame that must wait stays where it is, a message with its receive slots. `bad`: stripes whose program failed;
`unread`: the store could not return a page that it needed (R217). -/
def installFrame (m : Option Msg) (b : Bytes) (bad : List Nat) (unread : Bool) (s : State) : State :=
  match m with
  | none =>
    match s.firn.install with
    | none => s
    | some x => if x.ended ∨ s.frameWaits ∨ !s.isHead x ∨ (s.firn.cmd.any (·.src)) then s else s.wholeFrame x b bad unread
  | some m =>
    if m.dst = s.lnk.node ∧ s.frameWaits then s
    else
      (if m.dst = s.lnk.node then s.stageSlots m.port b.length else s).receiveTo m [1] fun s =>
        match s.firn.install with
        | none => s
        | some x => if x.ended ∨ !s.streamPort x m.port then s else s.framePiece x b bad unread

/-- The segments of an installed image. -/
def Install.segs (x : Install) : List Segment :=
  x.segments.zipIdx.map fun e => ⟨(x.table.drop (128 * e.2)).take 128, e.1⟩

/-- The head has every member's completion (08 R199). -/
def State.installTry (s : State) (x : Install) : State :=
  if x.mineDone ∧ s.lnk.members.all fun n => n == s.lnk.node || x.done.contains n then
    ((s.setFirn fun y => { y with install := none }).firnDone).raise Ev.firnInstallDone (firnInfo x.slot.val 0 0)
  else s.setFirn fun y => { y with install := some x }

/-- This chip's programming has ended (08 R199): its slot becomes Valid; a member tells the head. -/
def State.installMine (s : State) (x : Install) : State :=
  if !x.ended ∨ x.mineDone ∨ s.firn.hotStop then s
  else
    match imgHeader x.header with
    | none => s
    | some i =>
      let s := (s.modFslot x.slot fun y => { y with
        state := .valid, position := BitVec.ofNat 16 i.position, imageVersion := i.version, chainTag := i.chainTag
        header := x.header, segments := x.segs }).catalogue
      if s.isHead x then s.installTry { x with mineDone := true }
      else (s.setFirn fun y => { y with install := none }).toPrev x.head fun n => .installDone n s.lnk.node x.head x.slot

/-- INSTALL_COMPLETE (08 R199): of this chip, or the message of a member, which goes back along the stream path to the head. -/
def installComplete (m : Option (Msg × NodeId × NodeId × NodeId × FSlotId)) (s : State) : State :=
  match m with
  | none => match s.firn.install with
    | some x => s.installMine x
    | none => s
  | some (m, dst, node, head, slot) =>
    s.receiveHop m dst (.installDone dst node head slot) fun s =>
      if head ≠ s.lnk.node then s.toPrev head fun n => .installDone n node head slot
      else
        match s.firn.install with
        | some x => if x.slot = slot then s.installTry { x with done := x.done ++ [node] } else s
        | none => s

/-! ### Laying a generation down (08 R207 to R211) -/

/-- Number of parcels of the variant cache in one cluster (07 R161). -/
def State.cacheParcels (s : State) : Nat := s.cfg.live.dev.varCache * 16

/-- Is parcel p of cluster c free? -/
def State.parcelFree (s : State) (c p : Nat) : Bool := ((s.clu c).parcel p).mode == .free

/-- The lowest run of n free parcels of a cluster below the variant cache. -/
def State.parcelRun (s : State) (c n : Nat) : Option Nat :=
  (List.range (2048 - s.cacheParcels + 1 - n)).find? fun p =>
    decide (p + n ≤ 2048 - s.cacheParcels) && (List.range n).all fun i => s.parcelFree c (p + i)

/-- Tags a run of parcels. -/
def State.tagParcels (s : State) (c first n : Nat) (y : Parcel) : State :=
  foldS s (List.range n) fun s i => s.retag c (first + i) y

/-- The lowest run of n free pages. -/
def State.pageRun (s : State) (n : Nat) : Option Nat :=
  (List.range (s.mem.usablePages + 1 - n)).find? fun p =>
    (List.range n).all fun i => (s.page (p + i)).mode == .free && !(s.page (p + i)).scrubbing

/-- The placement of one segment: its cluster and number of parcels. -/
def placement (g : Segment) : Option (CId × Nat) :=
  match segEntry g.entry with
  | some e => if e.place then some (⟨e.spdCluster % 64, Nat.mod_lt _ (by decide)⟩, ceilDiv e.workLen 65536) else none
  | none => none

/-- Takes the parcels of every placement in segment order; none when some cluster is short. -/
def State.placeAll (s : State) : List Segment → Option (State × List (CId × Nat))
  | [] => some (s, [])
  | g :: l =>
    match placement g with
    | none => s.placeAll l
    | some (c, n) =>
      match s.parcelRun c.val n with
      | none => none
      | some p =>
        match (s.tagParcels c.val p n { mode := .base }).placeAll l with
        | none => none
        | some (t, r) => some (t, (List.range n).map (fun i => (c, p + i)) ++ r)

/-- Pages and parcels of a new generation of a slot (08 R209, R211); none when pages or parcels are short. -/
def State.takeGen (s : State) (k : FSlotId) (g : W32) : Option (State × Gen) :=
  let x := s.fslot k.val
  let n := ceilDiv (leAt x.header 48 8) (2 ^ 23)
  match s.pageRun n with
  | none => none
  | some p =>
    match (s.assignPages p n .base 0).placeAll x.segments with
    | none => none
    | some (t, r) => some (t, ⟨g, k, p, n, r, [], []⟩)

/-- Gives back the pages and parcels of a generation (08 R211); entries of the stuck lists go (07 R175). -/
def State.dropGen (s : State) (g : Gen) : State :=
  let s := foldS (s.scrubPages g.first g.pages false) g.parcels fun s e => s.retag e.1.val e.2 {}
  let inRun (line : Nat) : Bool := decide (g.first ≤ pageOf line) && decide (pageOf line < g.first + g.pages)
  foldS s (List.range 20) fun s m => s.setCtl m { s.ctl m with stuck := (s.ctl m).stuck.filter fun l => !inRun l }

/-- The scratchpad address of each segment's placement, in segment order. -/
def placeAddrs : List Segment → List (CId × Nat) → List (Option Addr)
  | [], _ => []
  | g :: l, ps =>
    match placement g with
    | none => none :: placeAddrs l ps
    | some (_, n) =>
      (ps.head?.map fun e => (⟨false, e.1.val * 2 ^ 27 + e.2 * 65536⟩ : Addr)) :: placeAddrs l (ps.drop n)

/-- Null pointer or a pointer. -/
def ptrOpt (a : Option Addr) : Nat :=
  match a with
  | some a => a.ptr
  | none => 0

/-- The placed segments of a generation that starts at `base`. -/
def placesOf (base : Nat) (offs lens : List Nat) (spd : List (Option Addr)) : List Place :=
  ((offs.zip lens).zip spd).filterMap fun e => e.2.map fun a => ⟨a.a, e.1.2, base + e.1.1⟩

/-- Writes a thawed generation: directory, layouts, placements; keeps the working digests (08 R203, R209). -/
def State.writeGen (s : State) (g : Gen) (segs : List Segment) (bs : List Bytes) : State × Gen :=
  let base : Addr := ⟨true, g.first * 2 ^ 23⟩
  let offs := segOffsets (bs.map (·.length))
  let spd := placeAddrs segs g.parcels
  let dir := (offs.zip spd).flatMap fun e => leBytes 8 (base.plus e.1).ptr ++ leBytes 8 (ptrOpt e.2)
  let s := s.rewrite .thaw base dir
  let s := foldS s (offs.zip bs) fun s e => s.rewrite .thaw (base.plus e.1) e.2
  let s := foldS s (spd.zip bs) fun s e =>
    match e.1 with
    | some a => s.rewrite .thaw a e.2
    | none => s
  (s, { g with digests := bs.map fun b => Config.shake256 b 64, places := placesOf base.a offs (bs.map (·.length)) spd })

/-- Lays the placed copies of a generation down again from its working copy, in the clusters that `pick` names: their parcels
are shared base again (15 Tables 15.3, 15.8). -/
def State.layPlaces (s : State) (g : Gen) (pick : Nat → Bool) : State :=
  let segs := (s.fslot g.slot.val).segments
  let s := foldS s (g.parcels.filter fun e => pick e.1.val) fun s e => s.retag e.1.val e.2 { mode := .base }
  let lens := segs.map fun e => leAt e.entry 16 8
  let base : Addr := ⟨true, g.first * 2 ^ 23⟩
  foldS s (((segOffsets lens).zip lens).zip (placeAddrs segs g.parcels)) fun s e =>
    match e.2 with
    | some a => if pick (spdCluster a.a) then s.rewrite .thaw a (s.read .thaw (base.plus e.1.1) e.1.2) else s
    | none => s

/-- Places a generation again after its parcels were freed: new parcels, pointers and copies (07 Across a warm reset). Where they find no
room it has none, and its directory says so (DEDUCED, log 16). -/
def State.replace (s : State) (g : Gen) : State × Gen :=
  let segs := (s.fslot g.slot.val).segments
  match s.placeAll segs with
  | none =>
    let base : Addr := ⟨true, g.first * 2 ^ 23⟩
    (foldS s segs.zipIdx fun s e =>
      if (placement e.1).isSome then s.rewrite .thaw (base.plus (16 * e.2 + 8)) (leBytes 8 0) else s,
      { g with parcels := [], places := [] })
  | some (s, r) =>
    let lens := segs.map fun e => leAt e.entry 16 8
    let g := { g with parcels := r, places := placesOf (g.first * 2 ^ 23) (segOffsets lens) lens (placeAddrs segs r) }
    let base : Addr := ⟨true, g.first * 2 ^ 23⟩
    let s := foldS s (placeAddrs segs r).zipIdx fun s e =>
      match e.1 with
      | some a => s.rewrite .thaw (base.plus (16 * e.2 + 8)) (leBytes 8 a.ptr)
      | none => s
    (s.layPlaces g fun _ => true, g)

/-- The thaw of a slot (08 R203, R217): `bad` segments whose stored digest mismatches, `unread` segments that the store cannot
return; then the decoding and conversion. -/
def State.thawGen (s : State) (g : Gen) (bad unread : List Nat) : State × Except Nat Gen :=
  let segs := (s.fslot g.slot.val).segments
  match thawSegs bad unread 0 segs with
  | .error (i, r) =>
    (if r = rsnRead then s.damage g.slot Ev.firnReadFail i g.num
      else if r = rsnDigest then s.damage g.slot Ev.firnSlotDamaged i g.num else s, .error r)
  | .ok bs =>
    let r := s.writeGen g segs bs
    (r.1, .ok r.2)

/-! ### Base swaps (08 R211) -/

/-- Free parcels of a cluster below the variant cache. -/
def State.freeParcels (s : State) (c : Nat) : Nat :=
  ((List.range (2048 - s.cacheParcels)).filter fun p => s.parcelFree c p).length

/-- The checks of R211 on this member, and the pages, parcels and lock of step 2. `own`: the chain tag and version that the
coordinator named. -/
def State.prepare (s : State) (k : FSlotId) (g : W32) (own : Option (W64 × W32)) : Except Nat State :=
  let x := s.fslot k.val
  let spd := leAt x.header 56 4
  if x.state ≠ .valid then .error 0x01
  else if own.any fun o => o.1 != x.chainTag || o.2 != x.imageVersion then .error 0x0B
  else if s.firn.old.isSome then .error 0x07
  else if spd ≠ 0 ∧ !(List.range 64).all fun c => decide (spd ≤ s.freeParcels c) then .error 0x08
  else
    match s.takeGen k g with
    | none => .error 0x08
    | some (t, y) => .ok (t.setFirn fun z => { z with
        swap := some { slot := k, gen := y, ready := [], mineReady := false, thawed := false, recorded := false } })

/-- Sends down the control tree, where it has children. -/
def State.sendDown (s : State) (o : Out) : State := if s.childEdges.isEmpty then s else s.emit o

/-! ### The last steps of a start (15 Tables 15.7, 15.8)

A cold start ends with the thaw of the default slot under a number that the coordinator gives when every member has thawed (08 R214):
a swap that `Swap.start` marks. -/

/-- The last step: queues open, every channel grants credits, a trial has succeeded (13 R361), ready is set; GLB_READY and RST_START
(17 R439). -/
def State.openDevice (s : State) : State :=
  let cv := s.cfg.live.throttle
  let mv := match cv[idleStep cv]? with
    | some e => e.1
    | none => 750
  let s := if mv = s.rst.target then s.firstPace else s.firstPace.emit (.rail mv)
  let s := foldS s (List.finRange 12) fun s p =>
    s.modPort p.val fun x => if x.state = .upVc0 ∧ x.agreed then x.open' true else x
  let s := { s with
    glb := { s.glb with ready := true, readyN := true, phase := 7 }
    rst := { s.rst with readyOnce := true, startWait := false, pwr := .ready, target := mv }
    sec := if s.sec.trial then { s.sec with trial := false, activeSlot := s.sec.runningSlot, staged := .none } else s.sec }
  (s.raise Ev.glbReady).raise Ev.rstStart { arg := BitVec.ofNat 64 s.rst.cause }

/-- This node and the nodes of the topology that are not lost are members (Table 15.7 step 9), and the device opens. -/
def State.openMember (s : State) : State :=
  let ms := s.inOrder (s.lnk.node :: (topoMembers s.cfg.live.topo).filter fun n => !s.lnk.lost.contains n)
  let s := { s with lnk := { s.lnk with member := true, left := false, members := ms } }
  (if ms.length ≤ 1 then s else foldS s ms fun s n => s.raise Ev.lnkMemberJoined { aux := n }).openDevice

/-- Is this node at the start thaw, waiting for COMMIT (Table 15.7 steps 8 and 9)? -/
def State.starting (s : State) : Bool :=
  s.rst.held == .none && s.glb.phase == 5 && !s.lnk.member && !s.glb.ready && !s.glb.fatal

/-- Is it the coordinator of a chain that starts? -/
def State.coordStarts (s : State) : Bool :=
  s.starting && s.lnk.node == s.lnk.coordinator && s.firn.swap.any (·.start)

/-- The thaw of the default slot begins; false where there is none, or where it fails, which ends in BASE_SWAP_FAIL. -/
def State.prepareStart (s : State) : State × Bool :=
  let k := s.cfg.live.dev.defaultSlot
  if 8 ≤ k then (s, false)
  else
    let s := match s.firn.current with
      | some x => (s.dropGen x).setFirn fun y => { y with current := none }
      | none => s
    match s.prepare ⟨k % 8, Nat.mod_lt _ (by decide)⟩ 0 none with
    | .error r => (s.raise Ev.baseSwapFail (argReason r), false)
    | .ok t => (t.setFirn fun x => { x with swap := x.swap.map fun w => { w with start := true } }, true)

/-- The start thaw of the coordinator, or of a chain of one member; without a slot to thaw the device opens, its own only member. -/
def State.startFirst (s : State) : State :=
  match ({ s with glb := { s.glb with phase := 5 } } : State).prepareStart with
  | (s, true) => s
  | (s, false) =>
    let s := { s with lnk := { s.lnk with member := true, members := [s.lnk.node] } }
    (if s.cfg.live.topo.nodes.length ≤ 1 then s else s.raise Ev.lnkMemberJoined { aux := s.lnk.node }).openDevice

/-- The start thaw of another member, once the starting coordinator has admitted it; without a slot to thaw it is ready at once. -/
def State.startNext (s : State) : State :=
  match ({ s with glb := { s.glb with phase := 5 } } : State).prepareStart with
  | (s, true) => s
  | (s, false) =>
    if 8 ≤ s.cfg.live.dev.defaultSlot then s.emit (.thawReady s.lnk.node 0) else (s.emit (.swapAbort .up 0 none)).openMember

/-- COMMIT of a start (08 R214): what this node has thawed is the current generation, under the number that the coordinator gives. -/
def State.commitStart (s : State) (g : W32) : State :=
  let s := match s.firn.swap with
    | some w =>
      ((s.setFirn fun x => { x with
        greatest := genMax g x.greatest, current := some { w.gen with num := g }, swap := none }).catalogue).raise Ev.baseSwapDone
          (firnInfo w.slot.val 0 g)
    | none => (s.setFirn fun x => { x with greatest := genMax g x.greatest }).catalogue
  s.openMember

/-- The coordinator of a starting chain has THAW_READY of every node of the topology that is not lost: it records the number, sends COMMIT
and commits. -/
def State.startTry (s : State) (w : Swap) : State :=
  let s := s.setFirn fun x => { x with swap := some w }
  if w.mineReady ∧ (topoMembers s.cfg.live.topo).all fun n => n == s.lnk.node || s.lnk.lost.contains n || w.ready.contains n then
    let g := nextGen (genMax s.firn.greatest s.firn.seen)
    let s := (s.setFirn fun x => { x with greatest := genMax g x.greatest }).catalogue
    (s.sendDown (.swapCommit g)).commitStart g
  else s

/-- FIRN_SWAP (08 R208, R211): the coordinator, under a number one greater than the greatest that any member's catalogue records;
its own refusal reaches every member. Another node is refused with 0x06. -/
def firnSwap (v : W64) (s : State) : State :=
  s.firnOp v 3 fun c s =>
    if !s.isCoord then s.firnRefuse 0x06
    else
      let g := nextGen (genMax s.firn.greatest s.firn.seen)
      match s.prepare c.slot g none with
      | .error r => (s.firnRefuse r).sendDown (.swapAbort .down g (some r))
      | .ok t =>
        let t := t.setFirn fun x => { x with cmdState := .busy, reason := 0, progress := 0, cmd := some c }
        let x := t.fslot c.slot.val
        t.sendDown (.swapPrepare c.slot g x.chainTag x.imageVersion)

/-- SWAP_PREPARE on a member; the message goes on down the control tree. A refusal goes up to the coordinator, which sends it to
every member. -/
def swapPrepare (m : Msg) (slot : FSlotId) (g : W32) (tag : W64) (version : W32) (s : State) : State :=
  s.receive m [0] fun s =>
    if !s.lnk.member then s
    else
      let s := s.sendDown (.swapPrepare slot g tag version)
      if s.firn.swap.isSome then s.emit (.swapAbort .up g (some 0x0E))
      else
        match s.prepare slot g (some (tag, version)) with
        | .error r => s.emit (.swapAbort .up g (some r))
        | .ok t => t

/-- The command of a swap on the coordinator fails. -/
def State.swapFailed (s : State) (reason : Nat) : State :=
  if s.isCoord ∧ (s.firn.cmd.any fun c => c.op == 3) then s.firnFailed reason else s

/-- A swap ends without a commit: the new pages are scrubbed, the current generation stays. -/
def State.dropSwap (s : State) (w : Swap) : State := (s.dropGen w.gen).setFirn fun x => { x with swap := none }
def State.abortSwap (s : State) (w : Swap) (reason : Nat) : State :=
  ((s.dropSwap w).raise Ev.baseSwapFail (argReason reason)).swapFailed reason

/-- A start whose thaw has ended in an abort goes on without a generation (log 16). -/
def State.startEnds (s : State) : State := if s.starting then s.openMember else s

/-- COMMIT at one instant (08 Table 8.8 step 5). -/
def State.commitSwap (s : State) (w : Swap) : State :=
  let s := s.setFirn fun x => { x with
    greatest := genMax w.gen.num x.greatest, old := x.current, current := some w.gen, swap := none }
  let s := (s.catalogue).raise Ev.baseSwapDone (firnInfo w.slot.val 0 w.gen.num)
  if s.isCoord ∧ (s.firn.cmd.any fun c => c.op == 3) then s.firnDone else s

/-- The coordinator has THAW_READY of every member: it records g and sends COMMIT(g). One that a reset has interrupted waits to be
settled (R211). -/
def State.swapTry (s : State) (w : Swap) : State :=
  if w.mineReady ∧ !w.settle ∧ s.lnk.members.all fun n => n == s.lnk.node || w.ready.contains n then
    let s := (s.setFirn fun x => { x with greatest := genMax w.gen.num x.greatest }).catalogue
    (s.sendDown (.swapCommit w.gen.num)).commitSwap w
  else s.setFirn fun x => { x with swap := some w }

/-- A swap on this member has failed after step 2: the others hear of it through the coordinator. -/
def State.failSwap (s : State) (w : Swap) (reason : Nat) : State :=
  let s := if s.isRoot then s.sendDown (.swapAbort .down w.gen.num none) else s.emit (.swapAbort .up w.gen.num none)
  (s.abortSwap w reason).startEnds

/-- The thaw of a swap on this member has ended: THAW_READY, or the abort on every member. -/
def State.swapThawed (s : State) (w : Swap) (bad unread : List Nat) : State :=
  match s.thawGen w.gen bad unread with
  | (s, .error r) => s.failSwap w r
  | (s, .ok g) =>
    let w := { w with gen := g, thawed := true, mineReady := true }
    let s := s.setFirn fun x => { x with progress := g.pages * 8 }
    if w.start ∧ (s.coordStarts ∨ s.cfg.live.topo.nodes.length ≤ 1) then s.startTry w
    else if s.isCoord then s.swapTry w
    else (s.setFirn fun x => { x with swap := some w }).emit (.thawReady s.lnk.node g.num)

/-- THAW_DONE (08 R203 to R206, R211, R217). -/
def thawDone (bad unread : List Nat) (s : State) : State :=
  match s.firn.swap with
  | some w => if w.thawed then s else s.swapThawed w bad unread
  | none => s

/-- THAW_READY of a member goes up the control tree to the coordinator (08 Table 8.8 step 4); a coordinator that has committed g
answers with COMMIT (R211). -/
def thawReady (m : Msg) (node : NodeId) (g : W32) (s : State) : State :=
  s.receive m [0] fun s =>
    if s.coordStarts then
      match s.firn.swap with
      | some w => if g = 0 ∧ !w.ready.contains node then s.startTry { w with ready := w.ready ++ [node] } else s
      | none => s
    else if !s.isCoord then (if s.isRoot then s else s.emit (.thawReady node g))
    else
      match s.firn.swap with
      | some w => if w.gen.num = g ∧ !w.ready.contains node then s.swapTry { w with ready := w.ready ++ [node] } else s
      | none => if s.firn.current.any fun x => x.num == g then s.sendDown (.swapCommit g) else s

/-- COMMIT (08 Table 8.8 step 5); the message goes on down the control tree. -/
def commitMsg (m : Msg) (g : W32) (s : State) : State :=
  s.receive m [0] fun s =>
    let s := s.sendDown (.swapCommit g)
    match s.firn.swap with
    | some w =>
      if w.start then (if w.thawed ∧ s.starting then s.commitStart g else s)
      else if w.gen.num = g ∧ w.thawed then s.commitSwap w
      else s
    | none => if s.starting then s.commitStart g else s

/-- SWAP_ABORT (08 R211): from below it goes up to the coordinator, which ends the swap and sends the abort to every member. With a
reason it is the refusal of step 2, which every member raises; else the swap fails. -/
def swapAbort (m : Msg) (g : W32) (refused : Option Nat) (s : State) : State :=
  s.receive m [0] fun s =>
    let mine := s.firn.swap.filter fun w => w.gen.num == g
    if !s.isRoot ∧ s.isChildPort m.port then s.emit (.swapAbort .up g refused)
    else if s.isRoot ∧ mine.isNone then s
    else
      let s := s.sendDown (.swapAbort .down g refused)
      match refused, mine with
      | some r, some w => ((s.dropSwap w).raise Ev.firnCmdRefused (argReason r)).swapFailed r
      | some r, none => s.raise Ev.firnCmdRefused (argReason r)
      | none, some w => (s.abortSwap w 0x06).startEnds
      | none, none => if g = 0 then s.startEnds else s

/-- SWAP_SETTLE (08 R211): once every member has rejoined after a warm reset. `recorded`: some member's catalogue has recorded g;
`done`: the members whose thaw of g is complete. The coordinator commits when no thaw is left. -/
def swapSettle (recorded : Bool) (done : List NodeId) (s : State) : State :=
  match s.firn.swap with
  | none =>
    match s.firn.current with
    | some g => if s.isCoord ∧ recorded then s.sendDown (.swapCommit g.num) else s
    | none => s
  | some w =>
    if !recorded then (if s.isCoord then s.sendDown (.swapAbort .down w.gen.num none) else s).abortSwap w 0x06
    else
      let r := if w.thawed then (s, Except.ok w.gen) else s.thawGen w.gen [] []
      match r with
      | (s, .error n) => s.failSwap w n
      | (s, .ok g) =>
        let w := { w with gen := g, thawed := true, mineReady := true, recorded := true, settle := false, ready := w.ready ++ done }
        if s.isCoord then s.swapTry w
        else (s.setFirn fun x => { x with swap := some w }).emit (.thawReady s.lnk.node g.num)

/-- Live jobs on this node that hold a generation (08 R210, Table 8.16). -/
def State.genRefs (s : State) (g : W32) : Nat :=
  (s.jobs.list.filter fun j => j.admitted && j.phase != .ended && j.gen == g).length

/-- OLD_GEN_FREE (08 Table 8.8 step 6). -/
def oldGenFree (s : State) : State :=
  match s.firn.old with
  | none => s
  | some g =>
    if s.genRefs g.num ≠ 0 then s
    else ((s.dropGen g).setFirn fun x => { x with old := none }).raise Ev.baseGenFreed (firnInfo g.slot.val 0 g.num)

/-! ### Checking the copies (08 R215 to R217) -/

/-- Rewrites one segment of a generation from the store; none when the read fails. -/
def State.relay (s : State) (g : Gen) (seg : Nat) : Option State :=
  let segs := (s.fslot g.slot.val).segments
  match segs[seg]? with
  | none => none
  | some e =>
    match thawSegment e.entry e.stored with
    | .error _ => none
    | .ok b =>
      let offs := segOffsets (segs.map fun e => leAt e.entry 16 8)
      some (s.rewrite .thaw ⟨true, g.first * 2 ^ 23 + offs.getD seg 0⟩ b)

/-- A segment whose working digest fails is thawed again in place (08 R214, R215, R217): `firnOk` when the store can return it,
`again` when the digest then matches. False: it is past repair. -/
def State.repair (s : State) (g : Gen) (seg : Nat) (firnOk again : Bool) : State × Bool :=
  match (if firnOk then s.relay g seg else none) with
  | some t => (t, again)
  | none => (s.damage g.slot Ev.firnReadFail seg g.num, false)

/-- SWEEP_SEGMENT (08 R215, R217): `same` when the working digest matches. -/
def sweepSegment (old : Bool) (seg : Nat) (same firnOk again : Bool) (s : State) : State :=
  match (if old then s.firn.old else s.firn.current) with
  | none => s
  | some g =>
    let n := (s.fslot g.slot.val).segments.length
    if n ≤ seg ∨ s.rst.held ≠ .none ∨ s.rst.pwr = .rest ∨ s.rst.pwr = .restQuiet then s
    else
      let s := s.setFirn fun x => { x with sweepOn := decide (seg + 1 < n), sweepAt := (seg + 1) % n }
      if same then s
      else
        match s.repair g seg firnOk again with
        | (t, true) => t.raise Ev.sweepRepair (firnInfo g.slot.val seg g.num)
        | (t, false) => t.deviceFatal Ev.baseUnrepairable (firnInfo g.slot.val seg g.num)

/-- FIRN_DAILY_CHECK (08 R215): Valid slots whose digests mismatch, and those that cannot be read. -/
def firnDailyCheck (mismatch unread : List FSlotId) (s : State) : State :=
  if s.rst.held ≠ .none then s
  else
    let valid (s : State) (k : FSlotId) : Bool := (s.fslot k.val).state == .valid
    let s := foldS s mismatch fun s k => if valid s k then s.damage k Ev.firnSlotDamaged 0 0 else s
    foldS s unread fun s k => if valid s k then s.damage k Ev.firnReadFail 0 0 else s

/-- The generation that holds a page, and the segment that holds a byte of it (08 R216). -/
def State.genAt (s : State) (a : Nat) : Option (Gen × Nat) :=
  let all := s.firn.current.toList ++ s.firn.old.toList ++ (s.firn.swap.map (·.gen)).toList
  match all.find? fun g => decide (g.first ≤ pageOf a) && decide (pageOf a < g.first + g.pages) with
  | none => none
  | some g =>
    let offs := segOffsets ((s.fslot g.slot.val).segments.map fun e => leAt e.entry 16 8)
    some (g, (offs.filter fun o => decide (g.first * 2 ^ 23 + o ≤ a)).length - 1)

/-- The line delivered from the store and rewritten: the segment thawed again gives every byte of the line. -/
def State.rewriteLine (s : State) (line : Nat) : Option State :=
  match s.genAt line with
  | none => none
  | some (g, seg) => s.relay g seg

/-- LINE_REFETCH (08 R216, R217; 07 R173 step 4, R175). `readBack`: reads in a row of the read-back that fail. -/
def lineRefetch (a : BitVec 41) (tag : Tag) (firnOk : Bool) (readBack : Nat) (s : State) : State :=
  if bitOf s.rst.blockAct 18 then s else
  let line := a.toNat / 64 * 64
  if !s.mem.refetching.contains (line, tag) then s
  else
    let s := { s with mem := { s.mem with refetching := s.mem.refetching.erase (line, tag) } }
    match (if firnOk then s.rewriteLine line else none) with
    | none =>
      let s := match s.genAt line with
        | some (g, seg) => s.damage g.slot Ev.firnReadFail seg g.num
        | none => s
      if (s.job tag).isSome then s.faultJob tag Ev.firnRefetchFail (s.memInfo line tag)
      else s.raise Ev.firnRefetchFail (s.memInfo line tag)
    | some s =>
      let s := (s.countRefetch line).raise Ev.memRefetch (s.memInfo line tag)
      if (s.ctl (ctlOf line)).stuck.contains line then s
      else
        let s := foldS s (List.range (min readBack 3)) fun s _ => (s.raise Ev.memReplay (s.memInfo line tag)).countReplay line
        if readBack ≤ 3 then s
        else
          let x := s.ctl (ctlOf line)
          if 256 ≤ x.stuck.length then s.deviceFatal Ev.memDeviceParity (s.memInfo line tag)
          else (s.setCtl (ctlOf line) { x with stuck := x.stuck ++ [line] }).raise Ev.memBaseStuck (s.memInfo line tag)

/-! ### Hot dies (15 R413) -/

/-- FIRN_HOT_STOP: FIRN_HOT at each stop. -/
def firnHotStop (s : State) : State :=
  if s.firn.hotStop ∨ s.rst.held = .cold then s else (s.setFirn fun x => { x with hotStop := true }).raise Ev.firnHot

/-- FIRN_HOT_RESUME: what waits in the staging area is programmed. -/
def firnHotResume (s : State) : State :=
  let s := s.setFirn fun x => { x with hotStop := false, install := x.install.map fun i => { i with staged := 0 } }
  match s.firn.install with
  | some i => s.setFirn fun x => { x with progress := i.progress }
  | none => s

/-! ### The meanings -/

/-- LINE_REFETCH (08 R216). -/
def execLineRefetch (a : BitVec 41) (tag : Tag) (firnOk : Bool) (readBack : Nat) (s : State) : Res :=
  .next (lineRefetch a tag firnOk readBack s)
/-- FIRN_INSTALL (08 R201). -/
def execFirnInstall (v : W64) (s : State) : Res := .next (firnInstall v s)
/-- FIRN_ERASE (08 R219). -/
def execFirnErase (v : W64) (s : State) : Res := .next (firnErase v s)
/-- FIRN_SWAP (08 R211). -/
def execFirnSwap (v : W64) (s : State) : Res := .next (firnSwap v s)
/-- FIRN_ABORT_INSTALL (08 R200). -/
def execFirnAbortInstall (v : W64) (s : State) : Res := .next (firnAbortInstall v s)
/-- FIRN_RING_DOORBELL (08 R197). -/
def execFirnRingDoorbell (prod : W32) (s : State) : Res := .next (firnRingDoorbell prod s)
/-- INSTALL_FRAME (08 R198). -/
def execInstallFrame (m : Option Msg) (f : Bytes) (bad : List Nat) (unread : Bool) (s : State) : Res :=
  .next (installFrame m f bad unread s)
/-- INSTALL_OPEN (08 R201). -/
def execInstallOpen (m : Msg) (dst head : NodeId) (slot : FSlotId) (positions : W16) (s : State) : Res :=
  .next (installOpen m dst head slot positions s)
/-- INSTALL_ABORT (08 R200). -/
def execInstallAbort (m : Msg) (dst : NodeId) (onward : Bool) (slot : FSlotId) (s : State) : Res :=
  .next (installAbort m dst onward slot s)
/-- INSTALL_COMPLETE (08 R199). -/
def execInstallComplete (m : Option (Msg × NodeId × NodeId × NodeId × FSlotId)) (s : State) : Res := .next (installComplete m s)
/-- SLOT_ERASE_DONE (08 R187). -/
def execSlotEraseDone (slot : FSlotId) (bad : List Nat) (s : State) : Res := .next (slotEraseDone slot bad s)
/-- SWAP_PREPARE (08 R211). -/
def execSwapPrepare (m : Msg) (slot : FSlotId) (g : W32) (tag : W64) (version : W32) (s : State) : Res :=
  .next (swapPrepare m slot g tag version s)
/-- THAW_DONE (08 R211). -/
def execThawDone (bad unread : List Nat) (s : State) : Res := .next (thawDone bad unread s)
/-- THAW_READY (08 R211). -/
def execThawReady (m : Msg) (node : NodeId) (g : W32) (s : State) : Res := .next (thawReady m node g s)
/-- COMMIT (08 R211). -/
def execCommitMsg (m : Msg) (g : W32) (s : State) : Res := .next (commitMsg m g s)
/-- SWAP_ABORT (08 R211). -/
def execSwapAbort (m : Msg) (g : W32) (refused : Option Nat) (s : State) : Res := .next (swapAbort m g refused s)
/-- SWAP_SETTLE (08 R211). -/
def execSwapSettle (recorded : Bool) (done : List NodeId) (s : State) : Res := .next (swapSettle recorded done s)
/-- OLD_GEN_FREE (08 R211). -/
def execOldGenFree (s : State) : Res := .next (oldGenFree s)
/-- SWEEP_SEGMENT (08 R215). -/
def execSweepSegment (old : Bool) (seg : Nat) (same firnOk again : Bool) (s : State) : Res :=
  .next (sweepSegment old seg same firnOk again s)
/-- FIRN_DAILY_CHECK (08 R215). -/
def execFirnDailyCheck (mismatch unread : List FSlotId) (s : State) : Res := .next (firnDailyCheck mismatch unread s)
/-- FIRN_HOT_STOP (15 R413). -/
def execFirnHotStop (s : State) : Res := .next (firnHotStop s)
/-- FIRN_HOT_RESUME (15 R413). -/
def execFirnHotResume (s : State) : Res := .next (firnHotResume s)

end Sys2Proof.Machine
end

