-- ==== Sys2Proof/Machine/Variants.lean ====
section
/-! DEFINITION. Sys2Proof/Machine/Variants.lean: variants (09): registry, slice directories, load and unload with their sealed envelopes (13 R352, R353), serving generations and publish, the variant cache, state moves, removal. -/

namespace Sys2Proof.Machine

open Sys2Proof

def State.setVar (s : State) (f : Var → Var) : State := { s with var := f s.var }

/-- VAR_CMD_STATUS (09 Table 9.16). -/
def State.varDone (s : State) : State := s.setVar fun x => { x with cmdState := .done, reason := 0 }
def State.varRefuse (s : State) (r : Nat) : State := s.setVar fun x => { x with cmdState := .refused, reason := r }

/-- A VAR_CMD write of one op (09 R249, Table 9.14): it wakes the device (15 R419); while a command runs it is ignored with
reason 0x0C; ID 0, a reserved op or a domain where the table asks for 0 is refused with 0x0A, reserved bits are ignored (00 R8);
an op of another command is not this one. -/
def State.varOp (s : State) (v : W64) (op : Nat) (k : Nat → State → State) : State :=
  s.hostReg fun s =>
    let o := bitsOf v 63 60
    let vid := bitsOf v 59 44
    if o ≠ op ∧ 1 ≤ o ∧ o ≤ 10 then s
    else
      let s := s.wakeUp
      if s.var.cmdState = .busy then s.setVar fun x => { x with reason := 0x0C }
      else if o ≠ op ∨ vid = 0 ∨ (op ≠ 1 ∧ op ≠ 2 ∧ bitsOf v 43 32 ≠ 0) then s.varRefuse 0x0A
      else k vid s

/-- An operation on a registered variant that its state must allow. -/
def State.varOn (s : State) (v : W64) (op : Nat) (k : Nat → Variant → State → State) : State :=
  s.varOp v op fun vid s =>
    match s.variant vid with
    | none => s.varRefuse 0x01
    | some x => k vid x s

/-- An operation of the coordinator (09 R249). -/
def State.varCoord (s : State) (k : State → State) : State := if s.isCoord then k s else s.varRefuse 0x0B

def Variant.isLive (x : Variant) : Bool := x.state == .live || x.state == .hot

/-! ### References (09 R241) -/

/-- The live jobs that hold a reference on variant v. -/
def State.refsOn (s : State) (v : Nat) : List Job :=
  s.jobs.list.filter fun j => j.admitted && j.phase != .ended && j.refs v

/-- Training jobs have mode[3] = 1 (12 Table 12.5). -/
def Job.training (j : Job) : Bool := j.d.mode.testBit 3

def State.trainRefs (s : State) (v : Nat) : Bool := (s.refsOn v).any (·.training)
/-- A reference on serving generation g. -/
def State.genHeld (s : State) (v : Nat) (g : W32) : Bool :=
  (s.refsOn v).any fun j => j.bindings.any fun b => b.vid == v && b.gen == g && !b.gone
/-- A reference on the cache copy with a number. -/
def State.cacheHeld (s : State) (v n : Nat) : Bool :=
  (s.refsOn v).any fun j => j.bindings.any fun b => b.vid == v && b.spd && b.copy == n && !b.gone

/-- Does a parked update of variant v exist (10 R276)? -/
def State.parkedOn (s : State) (v : Nat) : Bool := s.upd.any fun e => e.2.parks.any fun p => p.vid == v

/-! ### Registration (09 R221, R224) -/

/-- The descriptor of Table 9.2, and whether its reserved fields are as they must be. -/
def descVariant (d : BitVec 512) : Variant where
  domain := BitVec.ofNat 12 (bitsOf d 495 484)
  trainable := bitOf d 483
  cacheable := bitOf d 482
  rule := bitsOf d 481 478
  modelId := BitVec.ofNat 64 (bitsOf d 447 384)
  baseMask := BitVec.ofNat 256 (bitsOf d 383 128)

def descOk (d : BitVec 512) : Bool :=
  bitsOf d 511 496 != 0 && bitsOf d 477 448 == 0 && bitsOf d 127 0 == 0 && decide (bitsOf d 481 478 ≤ 5) &&
    (bitOf d 483 || bitsOf d 481 478 == 0)

/-- Descriptor of a registered variant, as REGISTRY_UPDATE and ADMIT carry it. -/
def Variant.desc (v : Nat) (x : Variant) : BitVec 512 :=
  BitVec.ofNat 512 (v * 2 ^ 496 + x.domain.toNat * 2 ^ 484 + b2n x.trainable * 2 ^ 483 + b2n x.cacheable * 2 ^ 482 +
    x.rule * 2 ^ 478 + x.modelId.toNat * 2 ^ 384 + x.baseMask.toNat * 2 ^ 128)

/-- model_id of the current base generation (08 Table 8.2). -/
def State.modelId (s : State) : Option W64 :=
  s.firn.current.map fun g => BitVec.ofNat 64 (leAt (s.fslot g.slot.val).header 24 8)

/-- VAR_REGISTER (09 R224). -/
def varRegister (v : W64) (d : BitVec 512) (s : State) : State :=
  s.varOp v 1 fun vid s =>
    s.varCoord fun s =>
      let x := descVariant d
      if (s.variant vid).isSome then s.varRefuse 0x01
      else if !descOk d ∨ bitsOf d 511 496 ≠ vid ∨ x.domain.toNat ≠ bitsOf v 43 32 then s.varRefuse 0x0A
      else if !s.liveSession x.domain then s.varRefuse 0x02
      else if s.modelId ≠ some x.modelId then s.varRefuse 0x06
      else
        (s.setVariant vid x).varDone.sendDown (.registry vid (some d))

/-- REGISTRY_UPDATE on a member (09 R221); it goes on down the control tree. -/
def registryUpdate (m : Msg) (vid : Vid) (d : Option (BitVec 512)) (s : State) : State :=
  s.receive m [0] fun s =>
    let s := s.sendDown (.registry vid.toNat d)
    match d with
    | some d => if (s.variant vid.toNat).isSome then s else s.setVariant vid.toNat (descVariant d)
    | none => s.dropVariant vid.toNat

/-- VAR_UNREGISTER (09 R250). `dormant`: the variant is Dormant on every other member. -/
def varUnregister (v : W64) (dormant : Bool) (s : State) : State :=
  s.varOn v 7 fun vid x s =>
    s.varCoord fun s =>
      if x.state ≠ .dormant ∨ !dormant then s.varRefuse 0x0D
      else
        (s.dropVariant vid).varDone.sendDown (.registry vid none)

/-! ### Slice directories (09 R225, R226) -/

def dirEntry (e : Bytes) : DirEntry :=
  { offset := leAt e 0 8, stateOff := leAt e 8 8, layer := leAt e 16 2, kind := leAt e 18 1, slot := leAt e 19 1
    baseSeg := leAt e 20 2, init := leAt e 22 1, spdCluster := leAt e 23 1, rows := leAt e 24 4, cols := leAt e 28 4
    raw := e.take 32 }

/-- State offset of a tensor without state. -/
def noStateOff : Nat := 2 ^ 64 - 1

/-- Bytes of a tensor in a weight copy: rows padded to 64 B. -/
def DirEntry.rowBytes (e : DirEntry) : Nat := alignUp (2 * e.cols) 64
def DirEntry.bytes (e : DirEntry) : Nat := e.rows * e.rowBytes

/-- Bytes of a tensor's state record under a rule: the statistics block and its parts (10 R270, Table 10.8). -/
def stateBytes (rule rows cols : Nat) : Nat :=
  let m := alignUp (rows * alignUp cols 64) 64 + alignUp (4 * rows) 64
  64 + match rule with
    | 1 | 3 => m
    | 2 | 5 => 2 * m
    | 4 => alignUp (4 * rows) 64 + alignUp (4 * cols) 64
    | _ => 0

/-- No two spans of a list overlap. -/
def spansApart : List (Nat × Nat) → Bool
  | [] => true
  | a :: l => (l.all fun b => decide (a.1 + a.2 ≤ b.1) || decide (b.1 + b.2 ≤ a.1)) && spansApart l

/-- Reserved values of Table 9.4. -/
def DirEntry.ok (e : DirEntry) : Bool :=
  e.offset % 64 == 0 && decide (e.kind ≤ 5) && decide (e.slot ≤ 1) && (e.slot == 0 || (decide (1 ≤ e.kind) && decide (e.kind ≤ 4))) &&
    ((e.kind == 0) != (e.baseSeg == 0xFFFF)) && decide (e.init ≤ 2) && (e.init != 1 || e.kind == 0) &&
    decide (e.spdCluster < 64) && decide (1 ≤ e.rows) && decide (e.rows ≤ 2 ^ 20) && decide (1 ≤ e.cols) &&
    decide (e.cols ≤ 2 ^ 20) && (e.stateOff == noStateOff || e.stateOff % 64 == 0)

/-- Each private expert of a layer has exactly one entry of each of kinds 1 to 4. -/
def expertsOk (l : List DirEntry) : Bool :=
  let ex := l.filter fun e => decide (1 ≤ e.kind) && decide (e.kind ≤ 4)
  ex.all fun e => [1, 2, 3, 4].all fun k => (ex.filter fun f => f.layer == e.layer && f.slot == e.slot && f.kind == k).length == 1

/-- 09 R226 against the current generation's slot. -/
def dirOk (segs : List (Option SegEntry)) (rule weight state : Nat) (l : List DirEntry) : Bool :=
  let priv := l.filter fun e => e.kind == 0
  l.all (·.ok) && decide (priv.length ≤ 4) && decide (priv.map (·.baseSeg)).Nodup &&
    (priv.all fun e => match segs[e.baseSeg]? with
      | some (some g) => g.kind == 0 && g.rows == e.rows && g.cols == e.cols
      | _ => false) &&
    ((l.filter fun e => decide (1 ≤ e.kind) && decide (e.kind ≤ 4)).all fun e => segs.any fun g => match g with
      | some g => g.kind == 3 && g.layer == e.layer
      | none => false) &&
    expertsOk l && (l.all fun e => decide (e.offset + e.bytes ≤ weight)) &&
    spansApart (l.map fun e => (e.offset, e.bytes)) &&
    let st := l.filter fun e => e.stateOff != noStateOff
    (st.all fun e => decide (e.stateOff + stateBytes rule e.rows e.cols ≤ state)) &&
      spansApart (st.map fun e => (e.stateOff, stateBytes rule e.rows e.cols))

/-- A slice image opened: directory, weights, state when it carries one (09 R243). -/
structure SliceImage where
  dir : List DirEntry
  weightBytes : Nat
  stateBytes : Nat
  weights : Bytes
  state : Option Bytes

/-- Parses a slice image for a variant; none is a malformed directory. -/
def sliceImage (segs : List (Option SegEntry)) (vid : Nat) (x : Variant) (l : Bytes) : Option SliceImage :=
  let n := leAt l 0 2
  let wb := leAt l 4 4
  let sb := leAt l 8 4
  let dir := (List.range n).map fun i => dirEntry ((l.drop (16 + 32 * i)).take 32)
  let d0 := 16 + 32 * n
  let copies := if x.trainable then 2 else 1
  if l.length < 16 ∨ n = 0 ∨ 1024 < n ∨ leAt l 2 2 ≠ vid ∨ wb % 64 ≠ 0 ∨ leAt l 12 4 ≠ 0 ∨ (!x.trainable ∧ sb ≠ 0) ∨
      (l.length ≠ d0 + copies * wb ∧ l.length ≠ d0 + copies * wb + sb) ∨ !dirOk segs x.rule wb sb dir then none
  else
    some
      { dir := dir, weightBytes := wb, stateBytes := sb, weights := (l.drop d0).take wb
        state := if l.length = d0 + copies * wb then none else some (l.drop (d0 + copies * wb)) }

/-- The directory as an image holds it. -/
def Variant.dirBytes (vid : Nat) (x : Variant) : Bytes :=
  leBytes 2 x.dir.length ++ leBytes 2 vid ++ leBytes 4 x.weightBytes ++ leBytes 4 x.stateBytes ++ leBytes 4 0 ++
    x.dir.flatMap (·.raw)

/-! ### Where a variant lies (09 R227, R229) -/

/-- Pages of one area: a weight copy, and after it room for the working directory of its generation. -/
def areaPages (weightBytes n : Nat) : Nat := ceilDiv (weightBytes + 64 * n) (2 ^ 23)
def Variant.areaPages (x : Variant) : Nat := Machine.areaPages x.weightBytes x.dir.length

/-- Start of area 0 (serving A), 1 (serving B) or 2 (training). -/
def Variant.area (x : Variant) (i : Nat) : Addr := ⟨true, (x.first + i * x.areaPages) * 2 ^ 23⟩
/-- Working directory of the generation in area i. -/
def Variant.dirAt (x : Variant) (i : Nat) : Addr := (x.area i).plus x.weightBytes
def Variant.stateAt (x : Variant) : Addr := ⟨true, x.sfirst * 2 ^ 23⟩

/-- Addresses of the cache copies of the entries, in slice order, from the parcels taken for them. -/
def cacheAddrs : List DirEntry → List (CId × Nat) → List (Option Addr)
  | [], _ => []
  | e :: l, ps =>
    (ps.head?.map fun q => (⟨false, q.1.val * 2 ^ 27 + q.2 * 65536⟩ : Addr)) :: cacheAddrs l (ps.drop (ceilDiv e.bytes 65536))

/-- The working directory of a serving generation (09 Table 9.5). -/
def Variant.workDir (x : Variant) (g : ServGen) : Bytes :=
  let spd := if g.spd then cacheAddrs x.dir x.cacheParcels else x.dir.map fun _ => none
  (x.dir.zip spd).flatMap fun e =>
    leBytes 8 ((x.area g.area).plus e.1.offset).ptr ++ leBytes 8 (ptrOpt e.2) ++
      leBytes 8 (if x.trainable then ((x.area 2).plus e.1.offset).ptr else 0) ++
      leBytes 8 (if x.stateIn ∧ e.1.stateOff ≠ noStateOff then (x.stateAt.plus e.1.stateOff).ptr else 0) ++
      e.1.raw.drop 16 ++ List.replicate 16 0

/-- Replaces the record of a variant and writes its working directories again. -/
def State.redir (s : State) (vid : Nat) (x : Variant) : State :=
  foldS (s.setVariant vid x) (x.cur.toList ++ x.old.toList) fun s g => s.rewrite (.dom x.domain) (x.dirAt g.area) (x.workDir g)

/-- The run that VAR_PAGES or VAR_SPAGES names: private to the domain, large enough, holding nothing else: no other variant (09
R227), and no gradient of a parked update (10 R276). -/
def State.runOk (s : State) (d : Dom) (first n need : Nat) : Bool :=
  decide (need ≤ n) && decide (first + n ≤ s.mem.usablePages) &&
    ((s.pagesOf first n).all fun p => p.mode == .priv && p.domain == d) && !s.parkHolds first n &&
    s.var.reg.all fun e =>
      (decide (first + n ≤ e.2.first) || decide (e.2.first + e.2.pages ≤ first) || e.2.pages == 0) &&
      (decide (first + n ≤ e.2.sfirst) || decide (e.2.sfirst + e.2.spages ≤ first) || e.2.spages == 0)

/-! ### The variant cache (07 R161, 09 R238 to R242) -/

/-- The contract of a domain; zeros for a domain with none (14 R374). -/
def State.contract (s : State) (d : Dom) : Contract :=
  (s.cfg.live.contracts.find? fun c => c.domain == d).getD
    ⟨d, s.cfg.live.defServePct, s.cfg.live.defBulkJobs, 0, 0, 0, []⟩

def State.pinnedIn (s : State) (d : Dom) (vid : Nat) : Bool := (s.contract d).pins.contains vid
/-- Is a variant one that no eviction takes: pinned when it was loaded (09 R239), or by the contract that is live now, which governs every
fill and eviction from its commit (14 R382)? -/
def State.isPinned (s : State) (vid : Nat) (x : Variant) : Bool := x.pinned || s.pinnedIn x.domain vid

/-- Cache parcels of a domain in one cluster. -/
def State.cacheUse (s : State) (d : Dom) (c : Nat) : Nat :=
  nsum (s.var.reg.map fun e =>
    if e.2.domain = d then ((e.2.cacheParcels ++ e.2.oldCopies.flatMap (·.2)).filter fun q => q.1.val == c).length else 0)

/-- The lowest run of n free parcels of a cluster within the variant cache. -/
def State.cacheRun (s : State) (c n : Nat) : Option Nat :=
  ((List.range (s.cacheParcels + 1 - n)).map (· + (2048 - s.cacheParcels))).find? fun p =>
    (List.range n).all fun i => s.parcelFree c (p + i)

/-- Takes the parcels of a cache copy entry by entry; none when the domain's share or the cache does not hold it. -/
def State.takeCache (s : State) (d : Dom) (used : Nat → Nat) : List DirEntry → Option (State × List (CId × Nat))
  | [] => some (s, [])
  | e :: l =>
    let c : CId := ⟨e.spdCluster % 64, Nat.mod_lt _ (by decide)⟩
    let n := ceilDiv e.bytes 65536
    if (s.contract d).cacheShare < used c.val + n then none
    else
      match s.cacheRun c.val n with
      | none => none
      | some p =>
        let s := s.tagParcels c.val p n { mode := .priv, cache := true, domain := d }
        match s.takeCache d (fun k => if k = c.val then used k + n else used k) l with
        | none => none
        | some (t, r) => some (t, (List.range n).map (fun i => (c, p + i)) ++ r)

/-- Number of Hot variants, with those that a fill, a load or the refill of a pinned copy will make so (09 R223, R240). -/
def State.hotCount (s : State) : Nat :=
  (s.var.reg.filter fun e => e.2.state == .hot || e.2.filling || (e.2.state == .loading && e.2.pinned) ||
    (e.2.state == .live && e.2.evicting && s.isPinned e.1 e.2)).length

/-- Gives back the cache parcels of a variant. -/
def State.freeCache (s : State) (vid : Nat) : State :=
  match s.variant vid with
  | none => s
  | some x =>
    (foldS s (x.cacheParcels ++ x.oldCopies.flatMap (·.2)) fun s e => s.retag e.1.val e.2 {}).setVariant vid
      { x with cacheParcels := [], oldCopies := [], filling := false, evicting := false }

/-- Counts an eviction (09 R249). -/
def State.countEviction (s : State) : State :=
  let b := bump s.var.evictions
  (s.setVar fun x => { x with evictions := b.1, evictionsSat := x.evictionsSat || b.2 }).satEvent b.2 0xE 0x020_8040

/-- Nulls the spd pointers of a variant at one instant (09 R242); a Hot one becomes Live. -/
def State.nullSpd (s : State) (vid : Nat) (x : Variant) : State :=
  s.redir vid { x with
    state := if x.state = .hot then .live else x.state
    cur := x.cur.map fun g => { g with spd := false }, old := x.old.map fun g => { g with spd := false }
    evicting := true }

/-- Arguments of a VAR event (17 Table 17.3). -/
def varInfo (vid : Nat) (x : Variant) : EvInfo :=
  { aux := BitVec.ofNat 16 vid, domain := x.domain, arg := match x.cur with | some g => g.num.setWidth 64 | none => 0 }

/-- A copy has been evicted: VAR_EVICTIONS, VAR_EVICTED (09 R242, R249). -/
def State.evicted (s : State) (vid : Nat) (x : Variant) : State := s.countEviction.raise Ev.varEvicted (varInfo vid x)

/-- The parcels of the copy return to free once its references clear (09 R242, R245). -/
def State.releaseCache (s : State) (vid : Nat) (x : Variant) : State :=
  let s := s.nullSpd vid x
  let s := foldS s x.cacheParcels fun s e => s.retag e.1.val e.2 {}
  (s.modVariant vid fun y => { y with cacheParcels := [], filling := false, evicting := false }).evicted vid x

/-- The copies that a later one has displaced return to free as their references clear (09 R241). -/
def State.freeCopies (s : State) (vid : Nat) (x : Variant) : State :=
  let gone := x.oldCopies.filter fun e => !s.cacheHeld vid e.1
  let s := s.modVariant vid fun y => { y with oldCopies := y.oldCopies.filter fun e => s.cacheHeld vid e.1 }
  foldS s gone fun s e => (foldS s e.2 fun s q => s.retag q.1.val q.2 {}).evicted vid x

/-- Copies the current serving area into the cache parcels and sets the spd pointers: the variant is Hot. -/
def State.fillCache (s : State) (vid : Nat) (x : Variant) : State :=
  match x.cur with
  | none => s
  | some g =>
    let src := x.area g.area
    let s := foldS s (x.dir.zip (cacheAddrs x.dir x.cacheParcels)) fun s e =>
      match e.2 with
      | some a => s.rewrite (.dom x.domain) a (s.read (.dom x.domain) (src.plus e.1.offset) e.1.bytes)
      | none => s
    s.redir vid { x with
      state := .hot, cur := some { g with spd := true }, old := x.old.map fun g => { g with spd := false }, filling := false
      evicting := false, copyNo := x.copyNo + 1 }

/-- EVICT_RELEASE (09 R242): every copy to be evicted whose references have cleared. A pinned variant is never evicted (R239): its
parcels take the current generation again (log 17). -/
def evictRelease (vid : Vid) (s : State) : State :=
  match s.variant vid.toNat with
  | none => s
  | some x =>
    let s := s.freeCopies vid.toNat x
    match s.variant vid.toNat with
    | none => s
    | some x =>
      if !x.evicting ∨ s.cacheHeld vid.toNat x.copyNo then s
      else if s.isPinned vid.toNat x ∧ x.isLive ∧ s.hotCount ≤ 512 then s.fillCache vid.toNat x
      else s.releaseCache vid.toNat x

/-- The unpinned variant of a domain, with a copy and no reference, that was admitted least recently (09 R240). -/
def State.evictee (s : State) (d : Dom) : Option (Nat × Variant) :=
  (s.var.reg.filter fun e =>
    e.2.domain == d && e.2.state == .hot && !s.isPinned e.1 e.2 && (s.refsOn e.1).isEmpty).foldl
      (fun m e => match m with
        | none => some e
        | some b => if e.2.lastAdmit < b.2.lastAdmit then some e else m) none

/-- Evicts until the copy fits; at most `fuel` evictions. -/
def State.makeRoom (s : State) (x : Variant) : (fuel : Nat) → Option (State × List (CId × Nat))
  | 0 => s.takeCache x.domain (s.cacheUse x.domain) x.dir
  | k + 1 =>
    match s.takeCache x.domain (s.cacheUse x.domain) x.dir with
    | some r => some r
    | none =>
      match s.evictee x.domain with
      | none => none
      | some (v, y) => (s.releaseCache v y).makeRoom x k

def State.countFillFail (s : State) : State :=
  let b := bump s.var.fillFails
  (s.setVar fun x => { x with fillFails := b.1, fillFailsSat := x.fillFailsSat || b.2 }).satEvent b.2 0xE 0x020_8038

/-- Admission of a Live, cacheable variant that was not pinned at its load and whose current generation is not cached starts a fill (09
R240); an older copy that waits for its references stands aside. -/
def State.startFill (s : State) (vid : Nat) : State :=
  match s.variant vid with
  | none => s
  | some x =>
    if x.state ≠ .live ∨ !x.cacheable ∨ x.pinned ∨ x.filling then s
    else if 512 ≤ s.hotCount then s.countFillFail
    else
      match s.makeRoom x s.var.reg.length with
      | none => s.countFillFail
      | some (t, ps) => t.modVariant vid fun y => { y with
          oldCopies := if y.cacheParcels.isEmpty then y.oldCopies else y.oldCopies ++ [(y.copyNo, y.cacheParcels)]
          copyNo := y.copyNo + 1, cacheParcels := ps, filling := true, evicting := false }

/-- CACHE_FILL_DONE (09 R240). -/
def cacheFillDone (vid : Vid) (s : State) : State :=
  match s.variant vid.toNat with
  | none => s
  | some x =>
    if !x.filling ∨ x.state ≠ .live then s
    else
      let s := s.fillCache vid.toNat x
      let b := bump s.var.fills
      (s.setVar fun x => { x with fills := b.1, fillsSat := x.fillsSat || b.2 }).satEvent b.2 0xE 0x020_8030

/-- VAR_EVICT (09 R242). -/
def varEvict (v : W64) (s : State) : State :=
  s.varOn v 4 fun vid x s =>
    if s.isPinned vid x ∨ x.state ≠ .hot then s.varRefuse 0x09 else (s.nullSpd vid x).varDone

/-! ### Envelopes (13 R352, R353) -/

/-- The session's encapsulation key. -/
def Session.pk (x : Session) : Option Bytes := x.seed.map Config.kemPublic

def nonce0 : Bytes := List.replicate 12 0

/-- Opens an envelope for a variant: its serving generation and plaintext. -/
def State.unseal (s : State) (kind vid : Nat) (d : Dom) (l : Bytes) : Option (W32 × Bytes) :=
  let x := s.session d.toNat
  let h := l.take 64
  let n := leAt h 16 8
  match x.seed with
  | none => none
  | some seed =>
    if l.length ≠ 64 + 1568 + n + 16 ∨ leAt h 0 4 ≠ 0x4749_4D56 ∨ leAt h 4 2 ≠ 1 ∨ leAt h 6 1 ≠ kind ∨ leAt h 7 1 ≠ 0 ∨
        leAt h 8 2 ≠ vid ∨ leAt h 10 2 ≠ d.toNat ∨ 2 ^ 36 < n ∨ (h.drop 24).take 32 ≠ Config.shake256 (Config.kemPublic seed) 32 ∨
        leAt h 56 8 ≠ 0 then none
    else
      let ss := Config.kemDecap seed ((l.drop 64).take 1568)
      match Config.gcmOpen (Config.shake256 (ss ++ h) 32) nonce0 h (l.drop 1632) with
      | some p => some (BitVec.ofNat 32 (leAt h 12 4), p)
      | none => none

/-- Seals an image to the export key when one is set, else to the session key. -/
def State.sealImage (s : State) (kind vid : Nat) (x : Variant) (p : Bytes) : Option (Bytes × State) :=
  let y := s.session x.domain.toNat
  let gen := match x.cur with | some g => g.num.toNat | none => 0
  match y.exportKey, y.pk with
  | none, none => none
  | e, k =>
    let pk := (e.orElse fun _ => k).getD []
    let h := leBytes 4 0x4749_4D56 ++ leBytes 2 1 ++ leBytes 1 kind ++ leBytes 1 (b2n e.isSome) ++ leBytes 2 vid ++
      leBytes 2 x.domain.toNat ++ leBytes 4 gen ++ leBytes 8 p.length ++ Config.shake256 pk 32 ++ List.replicate 8 0
    let r := s.random 32
    let c := Config.kemEncap pk r.1
    some (h ++ c.1 ++ Config.gcmSeal (Config.shake256 (c.2 ++ h) 32) nonce0 h p, r.2)

/-- An envelope that does not open (13 R353). -/
def State.unsealBad (s : State) (vid : Nat) (d : Dom) : State :=
  (s.varRefuse 0x0E).raise Ev.secImageUnseal { aux := BitVec.ofNat 16 vid, domain := d }

/-! ### Load and unload (09 R227, R228, R243, R250) -/

/-- A base segment as BF16 rows padded to 64 B (09 R228), or the reason that it cannot be read. -/
def baseRows (g : Segment) : Except Nat Bytes :=
  match segEntry g.entry with
  | none => .error rsnReserved
  | some e =>
    match (if e.coded then e.codedSrc g.stored else e.plain g.stored) with
    | .error r => .error r
    | .ok src =>
      .ok (src.rows.zipIdx.flatMap fun r => pad64 (packElems .bf16 (r.1.map (sourceBF16 e.src (src.scales.getD r.2 f32One)))))

/-- The weight copy with its init rules applied; none when a base segment cannot be read. -/
def initWeights (segs : List Segment) (firnOk : Bool) : List DirEntry → Bytes → Except Nat Bytes
  | [], w => .ok w
  | e :: l, w =>
    let put (b : Bytes) : Bytes := w.take e.offset ++ b ++ w.drop (e.offset + b.length)
    if e.init = 2 then initWeights segs firnOk l (put (List.replicate e.bytes 0))
    else if e.init = 1 then
      match segs[e.baseSeg]? with
      | none => .error e.baseSeg
      | some g =>
        match (if firnOk then baseRows g else .error rsnRead) with
        | .ok b => initWeights segs firnOk l (put b)
        | .error _ => .error e.baseSeg
    else initWeights segs firnOk l w

/-- Segments of the current generation's slot. -/
def State.baseSegs (s : State) : List Segment :=
  match s.firn.current with
  | some g => (s.fslot g.slot.val).segments
  | none => []

/-- Variants of a domain whose slice is in main memory (09 R223). -/
def State.liveCount (s : State) (d : Dom) : Nat :=
  (s.var.reg.filter fun e => e.2.domain == d && e.2.pages != 0).length

/-- Variants whose slice is in main memory, at most 8,192 (09 R223). -/
def State.liveAll (s : State) : Nat := (s.var.reg.filter fun e => e.2.pages != 0).length

/-- Is the run of two disjoint? -/
def runsApart (a n b m : Nat) : Bool := decide (a + n ≤ b) || decide (b + m ≤ a)

/-- A load whose base segment cannot be read (09 R228). -/
def State.loadFail (s : State) (runs : List (Nat × Nat)) (seg : Nat) : State :=
  let s := match s.firn.current with
    | some g => s.damage g.slot Ev.firnReadFail seg g.num
    | none => s
  (foldS s runs fun s r => s.scrubPages r.1 r.2 false).varRefuse 0x0F

/-- A load after every check: the areas are written while the variant is Loading. -/
def State.layVariant (s : State) (vid : Nat) (x : Variant) (w : Bytes) (st : Option Bytes) : State :=
  let r : Req := .dom x.domain
  let s := s.rewrite r (x.area 0) w
  let s := if x.trainable then s.rewrite r (x.area 2) w else s
  let s := if x.stateIn then s.rewrite r x.stateAt (st.getD (List.replicate x.stateBytes 0)) else s
  (s.redir vid x).setVar fun y => { y with cmdState := .busy, reason := 0, loading := some vid }

/-- VAR_LOAD (09 R227, R228, R239, R250). `img`: the envelope read from host memory; `firnOk`: the base segments that the
load needs can be read. VAR_CMD.domain is 0 for a load: one that names another domain than the variant's is refused with 0x01. A pinned
variant that would be the 513th Hot one is refused as one without room (log 17). -/
def varLoad (v : W64) (img : Bytes) (firnOk : Bool) (s : State) : State :=
  s.varOn v 2 fun vid x s =>
    let noState := bitOf v 31
    let d := bitsOf v 43 32
    if d ≠ 0 then s.varRefuse (if d = x.domain.toNat then 0x0A else 0x01)
    else if x.state ≠ .dormant then s.varRefuse 0x09
    else if (s.contract x.domain).liveLimit ≤ s.liveCount x.domain ∨ 8192 ≤ s.liveAll then s.varRefuse 0x03
    else
      match s.unseal 0 vid x.domain img with
      | none => s.unsealBad vid x.domain
      | some (g, p) =>
        match sliceImage (s.baseSegs.map fun e => segEntry e.entry) vid x p with
        | none => s.varRefuse 0x05
        | some im =>
          let need := areaPages im.weightBytes im.dir.length * (if x.trainable then 3 else 1)
          let st := x.trainable && !noState
          let sneed := if st then ceilDiv im.stateBytes (2 ^ 23) else 0
          let q := s.var
          if !s.runOk x.domain q.pFirst q.pCount need ∨ (st ∧ !s.runOk x.domain q.sFirst q.sCount sneed) ∨
              (st ∧ !runsApart q.pFirst q.pCount q.sFirst q.sCount) then s.varRefuse 0x04
          else
            let pin := s.pinnedIn x.domain vid
            let x := { x with
              state := .loading, first := q.pFirst, pages := q.pCount, sfirst := if st then q.sFirst else 0
              spages := if st then q.sCount else 0, dir := im.dir, weightBytes := im.weightBytes
              stateBytes := im.stateBytes, stateIn := st, noState := noState, pinned := pin, old := none
              cur := some ⟨if g = 0 then 1 else g, 0, q.pFirst * 2 ^ 23 + im.weightBytes, false⟩ }
            let room := if pin then
                (if x.cacheable ∧ s.hotCount < 512 then s.takeCache x.domain (s.cacheUse x.domain) x.dir else none)
              else some (s, [])
            match room with
            | none => s.varRefuse 0x08
            | some (t, ps) =>
              match initWeights s.baseSegs firnOk x.dir im.weights with
              | .error seg => s.loadFail ((x.first, x.pages) :: if st then [(x.sfirst, x.spages)] else []) seg
              | .ok w => t.layVariant vid { x with cacheParcels := ps } w im.state

/-- VAR_LOAD_DONE (09 R227, R239): Live, or Hot when pinned. A load that was removed or faulted meanwhile is refused. -/
def varLoadDone (vid : Vid) (s : State) : State :=
  if s.var.loading ≠ some vid.toNat then s
  else
    let s := s.setVar fun y => { y with loading := none }
    match s.variant vid.toNat with
    | none => s.varRefuse 0x09
    | some x =>
      if x.state ≠ .loading then s.varRefuse 0x09
      else if x.pinned then (s.fillCache vid.toNat x).varDone
      else (s.setVariant vid.toNat { x with state := .live }).varDone

/-- Gives back every page and parcel of a variant (09 R243, R246). -/
def State.freeVariant (s : State) (vid : Nat) (x : Variant) : State :=
  let s := (s.scrubPages x.first x.pages false).scrubPages x.sfirst x.spages false
  let s := s.freeCache vid
  s.modVariant vid fun y => { y with
    first := 0, pages := 0, sfirst := 0, spages := 0, dir := [], weightBytes := 0, stateBytes := 0, cur := none, old := none
    stateIn := false, noState := false, pinned := false, stateOut := false, stateWait := none, copied := false }

/-- VAR_UNLOAD (09 R243, 10 R276). -/
def varUnload (v : W64) (s : State) : State :=
  s.varOn v 3 fun vid x s =>
    if !x.isLive ∨ s.parkedOn vid then s.varRefuse 0x09
    else (s.setVariant vid { x with state := .unloading, unloadTo := s.var.arg }).varDone

/-- The plaintext of a slice image (09 R243). -/
def State.sliceBytes (s : State) (vid : Nat) (x : Variant) : Bytes :=
  let r : Req := .dom x.domain
  let cur := match x.cur with
    | some g => s.read r (x.area g.area) x.weightBytes
    | none => []
  x.dirBytes vid ++ cur ++ (if x.trainable then s.read r (x.area 2) x.weightBytes else []) ++
    (if x.stateIn then s.read r x.stateAt x.stateBytes else [])

/-- VAR_IMAGE_WRITE (09 R243): once the references clear, and the device is ready (15 R397). -/
def varImageWrite (vid : Vid) (s : State) : State :=
  match s.variant vid.toNat with
  | none => s
  | some x =>
    if x.state ≠ .unloading ∨ !(s.refsOn vid.toNat).isEmpty ∨ !s.up ∨ !s.sec.entropyOk then s
    else
      match s.sealImage 0 vid.toNat x (s.sliceBytes vid.toNat x) with
      | none => s
      | some (b, s) =>
        let s := (s.emit (.hostWrite x.unloadTo b)).freeVariant vid.toNat x
        (s.modVariant vid.toNat fun y => { y with state := .dormant }).raise Ev.varUnloaded
          { aux := vid, domain := x.domain, arg := match x.cur with | some g => g.num.setWidth 64 | none => 0 }

/-! ### State on its own (09 R244) -/

/-- VAR_STATE_OUT (09 R244, R250). -/
def varStateOut (v : W64) (s : State) : State :=
  s.varOn v 8 fun vid x s =>
    if !x.trainable ∨ !x.isLive ∨ !x.stateIn ∨ x.stateOut then s.varRefuse 0x09
    else (s.setVariant vid { x with stateOut := true, unloadTo := s.var.arg }).varDone

/-- STATE_OUT_WRITE (09 R244): once the references of training jobs clear. -/
def stateOutWrite (vid : Vid) (s : State) : State :=
  match s.variant vid.toNat with
  | none => s
  | some x =>
    if !x.stateOut ∨ !x.isLive ∨ s.trainRefs vid.toNat ∨ !s.up ∨ !s.sec.entropyOk then s
    else
      match s.sealImage 1 vid.toNat x (s.read (.dom x.domain) x.stateAt x.stateBytes) with
      | none => s
      | some (b, s) =>
        let s := (s.emit (.hostWrite x.unloadTo b)).scrubPages x.sfirst x.spages false
        s.redir vid.toNat { x with stateOut := false, stateIn := false, sfirst := 0, spages := 0 }

/-- A state area that waits enters main memory once no training job references the variant. -/
def State.stateInTry (s : State) (vid : Nat) : State :=
  match s.variant vid with
  | none => s
  | some x =>
    match x.stateWait with
    | none => s
    | some b =>
      if s.trainRefs vid ∨ !x.isLive then s
      else (s.rewrite (.dom x.domain) x.stateAt b).redir vid { x with stateWait := none, stateIn := true }

/-- VAR_STATE_IN (09 R244, R250). -/
def varStateIn (v : W64) (img : Bytes) (s : State) : State :=
  s.varOn v 9 fun vid x s =>
    if !x.trainable ∨ !x.isLive ∨ x.stateIn ∨ x.stateWait.isSome then s.varRefuse 0x09
    else
      match s.unseal 1 vid x.domain img with
      | none => s.unsealBad vid x.domain
      | some (_, p) =>
        let q := s.var
        if p.length ≠ x.stateBytes then s.varRefuse 0x05
        else if !s.runOk x.domain q.sFirst q.sCount (ceilDiv x.stateBytes (2 ^ 23)) then s.varRefuse 0x04
        else
          ((s.setVariant vid { x with sfirst := q.sFirst, spages := q.sCount, stateWait := some p }).stateInTry vid).varDone

/-- VAR_QUERY (09 R249, Table 9.16). -/
def varCode : VarState → Nat
  | .unregistered => 0
  | .dormant => 1
  | .loading => 2
  | .live => 3
  | .hot => 4
  | .unloading => 5
  | .removing => 6
  | .faulted => 7

def varQuery (v : W64) (s : State) : State :=
  s.varOp v 10 fun vid s =>
    (match s.variant vid with
      | some x => s.setVar fun y => { y with
          qstate := varCode x.state, qdomain := x.domain, qgen := match x.cur with | some g => g.num | none => 0 }
      | none => s.setVar fun y => { y with qstate := 0, qdomain := 0, qgen := 0 }).varDone

/-! ### Publish (09 R230) -/

/-- An older generation that no job references is gone. -/
def State.dropOldGen (s : State) (vid : Nat) (x : Variant) : Variant :=
  match x.old with
  | some g => if s.genHeld vid g.num then x else { x with old := none }
  | none => x

/-- VAR_PUBLISH on the coordinator. -/
def varPublish (v : W64) (s : State) : State :=
  s.varOn v 5 fun vid x s =>
    s.varCoord fun s =>
      if !x.trainable ∨ !x.isLive then s.varRefuse 0x09
      else
        let x := s.dropOldGen vid x
        if x.old.isSome then s.varRefuse 0x07
        else
          let s := (s.setVariant vid x).setVar fun y => { y with cmdState := .busy, reason := 0, publish := some (vid, []) }
          s.sendDown (.publish vid)

/-- Serving area that holds no live generation. -/
def Variant.freeArea (x : Variant) : Nat := match x.cur with | some g => 1 - g.area | none => 0

/-- The new serving generation is in force on this member at one instant. The copy of the one before is to be evicted; that of a
pinned variant takes the new generation, at once when no job refers to it (log 17). -/
def State.commitGen (s : State) (vid : Nat) (g : W32) : State :=
  match s.variant vid with
  | none => s
  | some x =>
    if !x.copied then s
    else
      let x := { x with
        old := x.cur.map fun g => { g with spd := false }, cur := some ⟨g, x.freeArea, (x.dirAt x.freeArea).a, false⟩, copied := false
        state := if x.state = .hot then .live else x.state, evicting := x.evicting || !x.cacheParcels.isEmpty, filling := false }
      let x := s.dropOldGen vid x
      if s.isPinned vid x ∧ !x.cacheParcels.isEmpty ∧ !s.cacheHeld vid x.copyNo ∧ s.hotCount ≤ 512 then s.fillCache vid x
      else s.redir vid x

/-- The coordinator commits once every member, itself among them, has copied. -/
def State.publishTry (s : State) (vid : Nat) (ready : List NodeId) : State :=
  match s.variant vid with
  | none => s
  | some x =>
    if s.lnk.members.all fun n => ready.contains n then
      let g := nextGen (match x.cur with | some g => g.num | none => 0)
      (((s.sendDown (.publishCommit vid g)).commitGen vid g).setVar fun y => { y with publish := none }).varDone
    else s.setVar fun y => { y with publish := some (vid, ready) }

/-- A publish that a member refuses, or that a lost member cannot take part in, ends with reason 0x0B (09 Table 9.16). -/
def State.publishFail (s : State) (reason : Nat) : State :=
  match s.var.publish with
  | some _ => (s.setVar fun y => { y with publish := none }).varRefuse reason
  | none => s

/-- PUBLISH_COPY_DONE (09 R230): the training area is in the free serving area, and the coordinator hears of it. A member that
cannot copy, because a job still refers to the older generation or the variant's state forbids it, refuses. -/
def publishCopyDone (vid : Vid) (s : State) : State :=
  match s.variant vid.toNat with
  | none => s
  | some x =>
    let x := s.dropOldGen vid.toNat x
    let ok := x.trainable && x.isLive && x.old.isNone
    let r : Req := .dom x.domain
    let s := if ok then
        (s.rewrite r (x.area x.freeArea) (s.read r (x.area 2) x.weightBytes)).setVariant vid.toNat { x with copied := true }
      else s
    if !s.isCoord then s.emit (.publishReady s.lnk.node vid.toNat ok)
    else
      match s.var.publish with
      | some (v, l) => if v ≠ vid.toNat then s else if ok then s.publishTry v (l ++ [s.lnk.node]) else s.publishFail 0x07
      | none => s

/-- PUBLISH_READY (09 R230): it goes up the control tree to the coordinator. -/
def publishReady (m : Msg) (node : NodeId) (vid : Vid) (ok : Bool) (s : State) : State :=
  s.receive m [0] fun s =>
    if !s.isCoord then (if s.isRoot then s else s.emit (.publishReady node vid.toNat ok))
    else
      match s.var.publish with
      | some (v, l) => if v ≠ vid.toNat then s else if ok then s.publishTry v (l ++ [node]) else s.publishFail 0x0B
      | none => s

/-- PUBLISH_COMMIT (09 R230); it goes on down the control tree. -/
def publishCommit (m : Msg) (vid : Vid) (g : W32) (s : State) : State :=
  s.receive m [0] fun s => (s.sendDown (.publishCommit vid.toNat g)).commitGen vid.toNat g

/-! ### Removal (09 R246, R247) -/

/-- The park field of a variant's entry in its training variant list (10 Table 10.2). -/
def Ctx.parkAt (cx : Ctx) (vid : Nat) : Option Addr :=
  match ptrAddr cx.varList.toNat, cx.vars.findIdx? fun v => v.vid == vid with
  | some a, some i => some (a.plus (64 * i + 48))
  | _, _ => none

/-- Requester of the lanes for a context's own areas. -/
def Ctx.who (cx : Ctx) : Who := { req := .dom cx.domain, tag := cx.tag, dom := cx.domain }

/-- No update of the variant is parked any more: its park field reads all ones (10 Table 10.2). -/
def State.clearPark (s : State) (cx : Ctx) (vid : Nat) : State :=
  match cx.parkAt vid with
  | some a => s.store cx.who a (List.replicate 8 0xFF)
  | none => s

/-- A removed or fenced variant's parked updates are discarded (10 R276); a context left with none is free. -/
def State.dropParks (s : State) (vid : Nat) : State :=
  foldS s (s.upd.filter fun e => e.2.parks.any fun p => p.vid == vid) fun s e =>
    let l := e.2.parks.filter fun p => p.vid != vid
    (s.clearPark e.2 vid).setCtx e.1 (if l.isEmpty ∧ e.2.ended then e.2.freed else { e.2 with parks := l })

/-- This member marks a variant Removing and passes the removal to the roots of the jobs that reference it; a job without a
token boundary, or that trains it, ends (09 R246, R247). -/
def State.startRemoval (s : State) (vid : Nat) : State :=
  match s.variant vid with
  | none => s
  | some x =>
    if x.state = .removing then s
    else
      let s := s.setVariant vid
        { x with state := .removing, was := x.state, stateOut := false, stateWait := none, filling := false }
      let s := s.dropParks vid
      foldS s (s.refsOn vid) fun s j =>
        if j.training ∨ j.tokenBar = 0xFF then s.stopJob j.tag Stat.variantGone 0
        else if s.jobRoot j then s.modJob j.tag fun j => { j with retire := j.retire ++ [BitVec.ofNat 16 vid] }
        else s

/-- VAR_REMOVE on the coordinator (09 R246). -/
def varRemove (v : W64) (s : State) : State :=
  s.varOn v 6 fun vid x s =>
    s.varCoord fun s =>
      if x.state = .removing then s.varRefuse 0x09
      else
        let s := (s.setVar fun y => { y with removals := y.removals ++ [(vid, [])] }).varDone
        (s.sendDown (.varRemove vid)).startRemoval vid

/-- A removal that the loss of the coordinator aborts (11 R310): the variant is what it was, as far as its memory stands. -/
def State.undoRemoval (s : State) (vid : Nat) (x : Variant) : State :=
  if x.was = .loading then (s.freeVariant vid x).modVariant vid fun y => { y with state := .dormant }
  else s.setVariant vid { x with state := if x.pages = 0 then .dormant else if x.was = .dormant then .live else x.was }

/-- REMOVE on a member; it goes on down the control tree. -/
def removeMsg (m : Msg) (vid : Vid) (s : State) : State :=
  s.receive m [0] fun s =>
    (s.sendDown (.varRemove vid.toNat)).startRemoval vid.toNat

/-- The coordinator has REMOVED of every member: the ID leaves every registry (09 Table 9.12 step 6). -/
def State.removedTry (s : State) (vid : Nat) (node : NodeId) : State :=
  match s.var.removals.find? fun e => e.1 == vid with
  | none => s
  | some (_, l) =>
    let l := l ++ [node]
    if s.lnk.members.all fun n => l.contains n then
      let x := s.variant vid
      let s := (s.dropVariant vid).setVar fun y => { y with removals := y.removals.filter fun e => e.1 != vid }
      (s.sendDown (.registry vid none)).raise Ev.varRemoved { aux := BitVec.ofNat 16 vid, domain := match x with | some x => x.domain | none => 0 }
    else s.setVar fun y => { y with removals := y.removals.map fun e => if e.1 = vid then (vid, l) else e }

/-- REMOVED (09 R246, R248): of this node, once every reference has dropped, the variant's memory is scrubbed and its parcels are
freed; the message of a member goes up the control tree to the coordinator, which notes it. -/
def removed (m : Option (Msg × NodeId)) (vid : Vid) (s : State) : State :=
  match m with
  | some (m, node) =>
    s.receive m [0] fun s =>
      if s.isCoord then s.removedTry vid.toNat node
      else if s.isRoot then s else s.emit (.varRemoved node vid.toNat)
  | none =>
    match s.variant vid.toNat with
    | none => s
    | some x =>
      if x.state ≠ .removing ∨ !(s.refsOn vid.toNat).isEmpty then s
      else
        let s := s.freeVariant vid.toNat x
        if s.isCoord then s.removedTry vid.toNat s.lnk.node else s.emit (.varRemoved s.lnk.node vid.toNat)

/-! ### The meanings -/

/-- VAR_REGISTER (09 R224). -/
def execVarRegister (v : W64) (d : BitVec 512) (s : State) : Res := .next (varRegister v d s)
/-- VAR_LOAD (09 R227). -/
def execVarLoad (v : W64) (img : Bytes) (firnOk : Bool) (s : State) : Res := .next (varLoad v img firnOk s)
/-- VAR_LOAD_DONE (09 R227). -/
def execVarLoadDone (vid : Vid) (s : State) : Res := .next (varLoadDone vid s)
/-- VAR_UNLOAD (09 R243). -/
def execVarUnload (v : W64) (s : State) : Res := .next (varUnload v s)
/-- VAR_IMAGE_WRITE (09 R243). -/
def execVarImageWrite (vid : Vid) (s : State) : Res := .next (varImageWrite vid s)
/-- VAR_EVICT (09 R242). -/
def execVarEvict (v : W64) (s : State) : Res := .next (varEvict v s)
/-- EVICT_RELEASE (09 R242). -/
def execEvictRelease (vid : Vid) (s : State) : Res := .next (evictRelease vid s)
/-- VAR_PUBLISH (09 R230). -/
def execVarPublish (v : W64) (s : State) : Res := .next (varPublish v s)
/-- VAR_REMOVE (09 R246). -/
def execVarRemove (v : W64) (s : State) : Res := .next (varRemove v s)
/-- VAR_UNREGISTER (09 R250). -/
def execVarUnregister (v : W64) (dormant : Bool) (s : State) : Res := .next (varUnregister v dormant s)
/-- VAR_STATE_OUT (09 R244). -/
def execVarStateOut (v : W64) (s : State) : Res := .next (varStateOut v s)
/-- STATE_OUT_WRITE (09 R244). -/
def execStateOutWrite (vid : Vid) (s : State) : Res := .next (stateOutWrite vid s)
/-- VAR_STATE_IN (09 R244). -/
def execVarStateIn (v : W64) (img : Bytes) (s : State) : Res := .next (varStateIn v img s)
/-- VAR_QUERY (09 R249). -/
def execVarQuery (v : W64) (s : State) : Res := .next (varQuery v s)
/-- REGISTRY_UPDATE (09 R221). -/
def execRegistryUpdate (m : Msg) (vid : Vid) (d : Option (BitVec 512)) (s : State) : Res := .next (registryUpdate m vid d s)
/-- PUBLISH_COMMIT (09 R230). -/
def execPublishCommit (m : Msg) (vid : Vid) (g : W32) (s : State) : Res := .next (publishCommit m vid g s)
/-- REMOVE (09 R246). -/
def execRemoveMsg (m : Msg) (vid : Vid) (s : State) : Res := .next (removeMsg m vid s)
/-- REMOVED (09 R246). -/
def execRemoved (m : Option (Msg × NodeId)) (vid : Vid) (s : State) : Res := .next (removed m vid s)
/-- CACHE_FILL_DONE (09 R240). -/
def execCacheFillDone (vid : Vid) (s : State) : Res := .next (cacheFillDone vid s)
/-- PUBLISH_COPY_DONE (09 R230). -/
def execPublishCopyDone (vid : Vid) (s : State) : Res := .next (publishCopyDone vid s)
/-- PUBLISH_READY (09 R230). -/
def execPublishReady (m : Msg) (node : NodeId) (vid : Vid) (ok : Bool) (s : State) : Res :=
  .next (publishReady m node vid ok s)

end Sys2Proof.Machine
end

