-- ==== Sys2Proof/Machine/Flags.lean ====
section
/-! DEFINITION. Sys2Proof/Machine/Flags.lean: the sticky flags of the vector engine (04 R97), and the records that gather over data: amax (02 R40 to R42) and top-k (03 R80, R81). -/

namespace Sys2Proof.Machine

open Sys2Proof

/-- Sticky: a flag once set stays (04 R97). -/
def VFlags.or (a b : VFlags) : VFlags :=
  ⟨a.intSat || b.intSat, a.overflow || b.overflow, a.dz || b.dz, a.invalid || b.invalid, a.nanIn || b.nanIn⟩

/-- Bits [4:0] of VEC_SLOT_STATUS (04 Table 4.4). -/
def VFlags.bits (f : VFlags) : Nat :=
  b2n f.nanIn + 2 * b2n f.invalid + 4 * b2n f.dz + 8 * b2n f.overflow + 16 * b2n f.intSat

/-- Write one to clear (04 Table 4.4). -/
def VFlags.clear (f : VFlags) (v : Nat) : VFlags :=
  { intSat := f.intSat && !v.testBit 4, overflow := f.overflow && !v.testBit 3, dz := f.dz && !v.testBit 2
    invalid := f.invalid && !v.testBit 1, nanIn := f.nanIn && !v.testBit 0 }

/-- Flags of one float operation (04 Table 4.4): NaN input, NaN result from inputs that were not NaN, a finite input
with an infinite result, and a pole where `dz`; the infinity of a pole sets dz alone and not overflow (DESIGN CHOICE, log 14). -/
def fltFlags (ins : List FVal) (out : FVal) (dz : Bool) : VFlags :=
  let nan := ins.any (·.isNan)
  { nanIn := nan, invalid := out.isNan && !nan, dz := dz
    overflow := out.isInf && ins.any (·.isFinite) && ins.all (·.isFinite) && !dz }

/-- Flags of one converted element: a NaN that arises from an input that was none is invalid; a clamp to an integer sets int_sat
and not overflow (DESIGN CHOICE, log 14). -/
def convFlags (c : ConvCtl) (x : FVal) (r : ConvOut) : VFlags :=
  { nanIn := x.isNan, intSat := c.dst.isInt && r.clamp
    invalid := !x.isNan && (match c.dst.flt? with | some f => (f.decode r.bits).isNan | none => false)
    overflow := (!c.dst.isInt && (r.ovf || r.clamp))
      || (x.isFinite && (match c.dst.flt? with | some f => (f.decode r.bits).isInf | none => false)) }

/-! ### Scales -/

/-- The FP32 scale of row i; none where the factor is skipped. -/
def scaleAt (s : State) (r : Req) (p : Option Addr) (i : Nat) : Option W32 :=
  p.map fun a => BitVec.ofNat 32 (leNat (s.read r (a.plus (4 * i)) 4))

/-- A product with a factor that may be absent (02 R39). -/
def fscale (x : W32) (f : Option W32) : W32 :=
  match f with
  | none => x
  | some g => fmul x g

/-! ### Amax records -/

/-- One conversion input as amax sees it: its value and whether it counts as saturated (02 R41). -/
abbrev AmaxIn := FVal × Bool

/-- The greatest |x| among finite inputs, from a start value. An integer too wide for FP32 is rounded to nearest even: the record is
FP32 and 02 R41 names no rounding (DESIGN CHOICE, log 13). -/
def amaxOf (old : W32) (l : List AmaxIn) : W32 :=
  l.foldl (fun m x => if x.1.isFinite then toF32 ((f32 m).max x.1.abs) else m) old

/-- Saturating UINT32 addition. -/
def satAdd32 (a n : Nat) : Nat := min (a + n) 0xFFFF_FFFF

/-- Merges inputs into an amax record; `row` where the grain is per row (02 R41, Table 2.8). One merge is one whole step on the record,
atomic at the memory that holds it, and a maximum and saturating sums come out the same in every order (02 R42). -/
def State.mergeAmax (s : State) (w : Who) (a : Addr) (row : Option Nat) (l : List AmaxIn) : State :=
  if l.isEmpty then s
  else
    let r := s.load w a 16
    let b := r.1
    let m := amaxOf (BitVec.ofNat 32 (leAt b 0 4)) l
    let sat := satAdd32 (leAt b 4 4) (l.countP fun x => x.1.isFinite && x.2)
    let non := satAdd32 (leAt b 8 4) (l.countP fun x => !x.1.isFinite)
    let s := r.2.store w a (leBytes 4 m.toNat ++ leBytes 4 sat ++ leBytes 4 non ++ leBytes 4 0)
    match row with
    | none => s
    | some i =>
      let ra := a.plus (16 + 4 * i)
      let q := s.load w ra 4
      q.2.store w ra (leBytes 4 (amaxOf (BitVec.ofNat 32 (leNat q.1)) l).toNat)

/-! ### Top-k records -/

/-- An entry or candidate of a top-k row: value bits and position. -/
structure TopEntry where
  value : Nat
  pos : Nat
deriving DecidableEq, Repr

/-- Position of an empty entry (03 R80). -/
def topEmpty : Nat := 0xFFFF_FFFF

/-- Does a rank above b? Descending value, then ascending position; +0 equals −0 (03 R80). -/
def TopEntry.above (int : Bool) (a b : TopEntry) : Bool :=
  if int then
    let x := sext 32 a.value
    let y := sext 32 b.value
    decide (y < x) || (decide (x = y) && decide (a.pos < b.pos))
  else
    let x := fmtF32.decode a.value
    let y := fmtF32.decode b.value
    y.lt x == some true || (x.lt y != some true && decide (a.pos < b.pos))

/-- Inserts at its rank. -/
def topInsert (int : Bool) (x : TopEntry) : List TopEntry → List TopEntry
  | [] => [x]
  | y :: l => if x.above int y then x :: y :: l else y :: topInsert int x l

/-- Reads the k entries of a record row. -/
def topRow (l : Bytes) (k : Nat) : List TopEntry :=
  (List.range k).map fun i => ⟨leAt l (8 * i) 4, leAt l (8 * i + 4) 4⟩

/-- The k greatest of the row's entries and the candidates, in order, padded with empty entries (03 R81). -/
def topMerge (int : Bool) (k : Nat) (old cand : List TopEntry) : List TopEntry :=
  let kept := (old.filter fun e => e.pos != topEmpty) ++ cand
  let sorted := kept.foldl (fun l x => topInsert int x l) []
  let top := sorted.take k
  top ++ List.replicate (k - top.length) ⟨0, topEmpty⟩

/-- A stored output as a top-k value: FP32, or INT32 for integer outputs (03 R80). -/
def topValue (f : Fmt) (b : Nat) : Nat :=
  if f.isInt then (f.intVal b % 2 ^ 32).toNat else (f.f32 b).toNat

/-- 09 R231, Table 9.6: is router position p visible to the request of a token row? Beyond the last row none is. -/
def Job.sees (j : Job) (row p : Nat) : Bool :=
  match j.reqs.find? fun r => decide (r.rowFirst ≤ row) && decide (row < r.rowFirst + r.rows) with
  | none => false
  | some r =>
    match j.bindings.findIdx? fun b => b.vid == r.vid with
    | some v =>
      if p < 0x100 then (match j.bindings[v]? with | some b => bitOf b.mask p | none => false)
      else decide (p < 0x100 + 2 * j.bindings.length) && (p - 0x100) / 2 == v
    | none => decide (p < 0x100)

/-- 09 R232: a candidate is hidden when the record row lies in the job's router area and its request does not see the
position. -/
def State.hides (s : State) (t : Tag) (a : Addr) (p : Nat) : Bool :=
  match s.job t with
  | none => false
  | some j =>
    match ptrAddr j.area.toNat with
    | none => false
    | some b =>
      b.dev == a.dev && decide (b.a ≤ a.a) && decide (a.a < b.a + j.areaRows * j.areaPitch) &&
        !j.sees ((a.a - b.a) / j.areaPitch) p

/-- Merges candidates into row i of a record of k entries a row (03 R80, R81). NaN candidates and hidden ones (09 R232)
never enter. -/
def State.mergeTop (s : State) (w : Who) (rec : Addr) (i k : Nat) (int : Bool) (cand : List TopEntry) : State :=
  let a := rec.plus (8 * k * i)
  let r := s.load w a (8 * k)
  let c := cand.filter fun e => (int || !(fmtF32.decode e.value).isNan) && !s.hides w.tag a e.pos
  r.2.store w a ((topMerge int k (topRow r.1 k) c).flatMap fun e => leBytes 4 e.value ++ leBytes 4 e.pos)

end Sys2Proof.Machine
end

