-- ==== Sys2Proof/Machine/Move.lean ====
section
/-! DEFINITION. Sys2Proof/Machine/Move.lean: MOVE COPY, CONV and FILL (05 R111, R112). The data reach the destination when the instruction issues; it stays outstanding until INSTR_COMPLETE. -/

namespace Sys2Proof.Machine

open Sys2Proof

/-- Destination node of a MOVE; none for a local one (05 Table 5.5). -/
def Env.moveNode (e : Env) : Option NodeId :=
  if e.f 63 63 = 1 then some (BitVec.ofNat 16 (e.f 79 64)) else none

/-- The semaphore a MOVE signals at completion, on the destination node (05 Table 5.5). -/
def Env.moveSem (e : Env) (s : State) : Option SemRef :=
  if e.f 62 62 = 1 then
    some ⟨e.moveNode.getD s.lnk.node, ⟨e.f 61 56 % 64, Nat.mod_lt _ (by decide)⟩, e.f 55 46⟩
  else none

/-- Are a destination's bytes on this node? Bytes on other nodes make no hazard (05 R124). -/
def localNode (s : State) (n : Option NodeId) : Bool := n.isNone || n == some s.lnk.node

/-- The ranges of a destination. -/
def dstRng (s : State) (n : Option NodeId) (t : Tile) : List Rng := if localNode s n then [t.rng true] else []

/-- The run format is accepted nowhere (02 R32 Table 2.4). -/
def tileFmtOk (t : Tile) : Except Fail Unit := if t.fmt = .run then .error { code := Ev.seqTile } else .ok ()

/-- Row scales of a tile: the address of the FP32 scales, none where skipped (02 R38, R39; 05 R110). -/
def Env.scaleOf (e : Env) (s : State) (t : Tile) : Except Fail (Option Addr) :=
  match e.y.scale t.scl with
  | none => .ok none
  | some a =>
    if s.inSpace a (4 * t.rows) then .ok (some a) else .error { code := Ev.seqAddr, arg := Addr.ptr a }

/-- Issue of a MOVE whose operands have resolved: hazards, poison and parity of its reads, then its data and the outstanding
entry. -/
def Env.moveIssue (e : Env) (s : State) (reads : List (Addr × Nat)) (rs : List Rng) (effect : State → State) : Ans :=
  .of (semCheck s e.job (e.moveSem s)) fun _ =>
    if e.y.crowded rs.length || e.y.hazard rs none then .stall
    else
      .of (poisonAll s e.req reads) fun _ =>
        .after (spdParity (s.noteReads e.who reads) e.who reads e.readBad) fun s' =>
          .ok ((effect s').addOut e .move rs (e.moveSem s) none)

/-- 05 R112 COPY. -/
def moveCopyBody (e : Env) (s : State) : Ans :=
  .of (e.tile s (e.f 101 92)) fun src =>
  .of (e.tile s (e.f 111 102)) fun dst =>
  .of (tileFmtOk src) fun _ =>
    if src.fmt ≠ dst.fmt ∨ src.rows ≠ dst.rows ∨ src.cols ≠ dst.cols then .fail { code := Ev.seqTile }
    else
      let rs := src.rng false :: dstRng s e.moveNode dst
      e.moveIssue s src.reads rs fun t =>
        foldS t (List.range src.rows) fun t i =>
          t.put e.who e.moveNode (dst.rowAddr i) (s.read e.req (src.rowAddr i) src.rowBytes)

/-- One row of a CONV: the value that each conversion rounds, as FP32 (05 R112, 02 R41). -/
def convInputs (s : State) (e : Env) (src : Tile) (a b : Option Addr) (i : Nat) : List W32 :=
  (s.tileRow e.req src i).map fun x =>
    fscale (fscale (src.fmt.f32 x) (scaleAt s e.req a i)) (scaleAt s e.req b i)

/-- One row converted: element j of row i has the row-major index of 04 R100. -/
def convRow (c : ConvCtl) (g : GenDesc) (cols i : Nat) (l : List W32) : List ConvOut :=
  l.zipIdx.map fun x => convert c (f32 x.1) (if c.stoch then g.draw16 (i * cols + x.2) else 0) 0

/-- The channels of an outlier list, in list order. -/
def channelsOf (o : Outliers) : List Nat := (o.list.takeWhile (· != 0xFFFF)).map (·.toNat)

/-- The outlier list of a quantising conversion (02 R51): one to INT8 or UINT8. -/
def Env.quantList (e : Env) (dst : Fmt) : Option Outliers := if dst = .int8 ∨ dst = .uint8 then e.outliers else none

/-- Is column j an outlier channel? -/
def isOutlier (o : Option Outliers) (j : Nat) : Bool := o.any fun x => (channelsOf x).contains j

/-- The BF16 side tile of a conversion of n rows: 64 elements a row; none where its pointer is null or it leaves its space. -/
def State.sideTile (s : State) (n : Nat) (o : Outliers) : Option Tile :=
  match ptrAddr o.side.toNat with
  | none => none
  | some a => if s.inSpace a (128 * n) then some ⟨.bf16, a, n, 64, 128, 0⟩ else none

/-- The stored elements of row i: an outlier channel holds the row's zero point z_i (02 R51). -/
def quantRow (o : Option Outliers) (dst : Fmt) (i : Nat) (ys : List ConvOut) : List Nat :=
  ys.zipIdx.map fun y =>
    match o with
    | none => y.1.bits
    | some x => if isOutlier o y.2 then ((x.zero.getD i 0) % (2 ^ dst.width : Nat)).toNat else y.1.bits

/-- The true values of row i in the outlier channels, in list order, as BF16; unused columns hold 0 (02 R51). -/
def sideRow (s : State) (e : Env) (src : Tile) (sa : Option Addr) (o : Outliers) (i : Nat) : List Nat :=
  let xs := s.tileRow e.req src i
  (List.range 64).map fun p =>
    match (channelsOf o)[p]? with
    | none => 0
    | some j => fmtBF16.round (f32 (fscale (src.fmt.f32 (xs.getD j 0)) (scaleAt s e.req sa i)))

/-- The side tile of a conversion written, where it has one. -/
def State.putSide (t s : State) (e : Env) (src : Tile) (sa : Option Addr) (o : Option Outliers) : State :=
  match o with
  | none => t
  | some x =>
    match s.sideTile src.rows x with
    | none => t
    | some st => foldS t (List.range src.rows) fun t i => t.putRow e.who st i (sideRow s e src sa x i)

/-- 05 R112 CONV; with an outlier list, 02 R51. The outlier elements are no inputs of the conversion, so the amax record leaves
them out (DESIGN CHOICE, log 13). -/
def moveConvBody (e : Env) (s : State) : Ans :=
  match ConvCtl.decode (e.f 91 80) with
  | none => .fail { code := Ev.seqDecode }
  | some c =>
    .of (e.tile s (e.f 101 92)) fun src =>
    .of (e.tile s (e.f 111 102)) fun dst =>
    .of (tileFmtOk src) fun _ =>
      if c.dst ≠ dst.fmt ∨ src.rows ≠ dst.rows ∨ src.cols ≠ dst.cols then .fail { code := Ev.seqTile }
      else
        .of (e.scaleOf s src) fun sa =>
        .of (e.scaleOf s dst) fun sb =>
        .of (if c.amaxEn then
              (mAddr s e.c e.y (e.f 31 0) (16 + if c.amaxRow then 4 * src.rows else 0) 16).map some
             else .ok none) fun am =>
          let scl := [sa, sb].filterMap fun p => p.map fun a => (a, 4 * src.rows)
          let o := e.quantList dst.fmt
          let rs := src.rng false :: dstRng s e.moveNode dst ++ (scl.map fun x => x.1.rng x.2 false) ++
            (am.toList.map fun a => a.rng (16 + if c.amaxRow then 4 * src.rows else 0) true) ++
            ((o.bind (s.sideTile src.rows)).toList.map (Tile.rng · true))
          e.moveIssue s (src.reads ++ scl) rs fun t =>
            let g := (s.vctx e.c.val e.k.val).gen
            let t := foldS t (List.range src.rows) fun t i =>
              let xs := convInputs s e src sa sb i
              let ys := convRow c g dst.cols i xs
              let t := t.put e.who e.moveNode (dst.rowAddr i) (packElems dst.fmt (quantRow o dst.fmt i ys))
              match am with
              | none => t
              | some a =>
                t.mergeAmax e.who a (if c.amaxRow then some i else none)
                  ((((xs.map f32).zip (ys.map (·.sat))).zipIdx.filter fun x => !isOutlier o x.2).map (·.1))
            t.putSide s e src sa o

/-- 05 R112 FILL. -/
def moveFillBody (e : Env) (s : State) : Ans :=
  .of (e.tile s (e.f 111 102)) fun dst =>
  .of (tileFmtOk dst) fun _ =>
    e.moveIssue s [] (dstRng s e.moveNode dst) fun t =>
      foldS t (List.range dst.rows) fun t i =>
        t.put e.who e.moveNode (dst.rowAddr i)
          (packElems dst.fmt (List.replicate dst.cols (e.f 31 0 % 2 ^ dst.fmt.width)))

/-- MOVE_COPY (05 R112). -/
def execMoveCopy (i : Issue) (s : State) : Res := .next (s.issue i (rowCode 1 0 0) moveCopyBody)
/-- MOVE_CONV (05 R112). -/
def execMoveConv (i : Issue) (s : State) : Res := .next (s.issue i (rowCode 1 1 0) moveConvBody)
/-- MOVE_FILL (05 R112). -/
def execMoveFill (i : Issue) (s : State) : Res := .next (s.issue i (rowCode 1 2 0) moveFillBody)

end Sys2Proof.Machine
end

