-- ==== Sys2Proof/Machine/Trans.lean ====
section
/-! DEFINITION. Sys2Proof/Machine/Trans.lean: the bounds of 04 R92 Table 4.3. The exact result is approached in fixed point with 320 fraction bits, far below every bound; the value an implementation gives is free within the bound (log 9). -/

namespace Sys2Proof.Machine

open Sys2Proof

/-! ### Fixed point with 320 fraction bits -/

/-- 1. -/
def fxOne : Int := 2 ^ 320
/-- ln 2, π/2, 2/√π and 1/√2, cut after 320 fraction bits. -/
def fxLn2 : Int := 0xB17217F7D1CF79ABC9E3B39803F2F6AF40F343267298B62D8A0D175B8BAAFA2BE7B876206DEBAC98
def fxHalfPi : Int := 0x1921FB54442D18469898CC51701B839A252049C1114CF98E804177D4C76273644A29410F31C6809BB
def fxErfScale : Int := 0x120DD750429B6D11AE3A914FED7FD8688281341D7587CEA2E7342B06199CC416180EB39F0B24E1E22
def fxInvSqrt2 : Int := 0xB504F333F9DE6484597D89B3754ABE9F1D6F60BA893BA84CED17AC85833399154AFC83043AB8A2C3

def fxMul (a b : Int) : Int := a * b / 2 ^ 320
def fxDiv (a b : Int) : Int := a * 2 ^ 320 / b
/-- A finite value whose exponent is at least −320, and 0 for any other. -/
def fxOf : FVal → Int
  | .fin n m e => scaled n m e (-320)
  | _ => 0
/-- A fixed-point number times 2^k. -/
def fxVal (x : Int) (k : Int := 0) : FVal := .fin (decide (x < 0)) x.natAbs (k - 320)

/-- The sum of term × t^i × k! / (k + i)! for i up to the fuel. -/
def fxExpSum (t : Int) : (fuel : Nat) → (k : Nat) → (term : Int) → Int
  | 0, _, term => term
  | n + 1, k, term => term + fxExpSum t n (k + 1) (fxMul term t / (k + 1 : Nat))

/-- e^x as a fixed-point number in [1, 2) and the power of two it is scaled by. -/
def fxExp (x : Int) : Int × Int :=
  let n := x / fxLn2
  (fxExpSum (x - n * fxLn2) 80 0 fxOne, n)

/-- e^x for x not above 0. -/
def fxExpNeg (x : Int) : Int :=
  let r := fxExp x
  r.1 / 2 ^ (-r.2).toNat

/-- The sum of p × z2^i / (2i + 1). -/
def fxAtanhSum (z2 : Int) : (fuel : Nat) → (i : Nat) → (p : Int) → Int
  | 0, _, _ => 0
  | n + 1, i, p => p / (2 * i + 1 : Nat) + fxAtanhSum z2 n (i + 1) (fxMul p z2)

/-- ln(m × 2^e) for m above 0: the number is f × 2^k with f in [3/4, 3/2). -/
def fxLn (m : Nat) (e : Int) : Int :=
  let l := Nat.log2 m
  let f : Int := (m * 2 ^ (320 - l) : Nat)
  let half := decide (3 * fxOne ≤ 2 * f)
  let f := if half then f / 2 else f
  let k := e + l + (if half then 1 else 0)
  let z := fxDiv (f - fxOne) (f + fxOne)
  2 * fxAtanhSum (fxMul z z) 80 0 z + k * fxLn2

/-- The sum of the series z + z (2z²)/3 + z (2z²)²/(3 × 5) + …, with z2 = 2z². -/
def fxErfSum (z2 : Int) : (fuel : Nat) → (k : Nat) → (term : Int) → Int
  | 0, _, _ => 0
  | n + 1, k, term => term + fxErfSum z2 n (k + 1) (fxMul term z2 / (2 * k + 3 : Nat))

/-- erf z for z at least 0; from 12 on it is 1 within 2^-200. -/
def fxErf (z : Int) : Int :=
  if 12 * fxOne ≤ z then fxOne
  else fxMul (fxMul fxErfScale (fxExpNeg (-(fxMul z z)))) (fxErfSum (2 * fxMul z z) 600 0 z)

/-- The alternating series of sine and cosine: term − term r2/((k+1)(k+2)) + …. -/
def fxTrigSum (r2 : Int) : (fuel : Nat) → (k : Nat) → (term : Int) → Int
  | 0, _, _ => 0
  | n + 1, k, term => term - fxTrigSum r2 n (k + 2) (fxMul term r2 / ((k + 1) * (k + 2) : Nat))

/-- sin (x + q π/2). -/
def fxSin (x : Int) (q : Int) : Int :=
  let n := (2 * x + fxHalfPi) / (2 * fxHalfPi)
  let r := x - n * fxHalfPi
  let r2 := fxMul r r
  let s := fxTrigSum r2 40 1 r
  let c := fxTrigSum r2 40 0 fxOne
  match (n + q) % 4 with
  | 0 => s
  | 1 => c
  | 2 => -s
  | _ => -c

/-- 1 / (1 + e^(−x)). -/
def fxSigmoid (x : Int) : Int :=
  if 200 * fxOne ≤ x then fxOne
  else if x ≤ -200 * fxOne then 0
  else if 0 ≤ x then fxDiv fxOne (fxOne + fxExpNeg (-x))
  else
    let y := fxExpNeg x
    fxDiv y (fxOne + y)

/-- tanh x for x at least 0. -/
def fxTanh (x : Int) : Int :=
  if 100 * fxOne ≤ x then fxOne
  else
    let y := fxExpNeg (-2 * x)
    fxDiv (fxOne - y) (fxOne + y)

/-! ### The functions and their bounds -/

/-- A value at or above 2^128, beyond every finite FP32 number. -/
def beyondMax : FVal := .fin false 1 128

/-- e^x as a value: x in fixed point, times 2^k. Beyond ±200 it is beyond every bound's reach. -/
def expVal (x : Int) (k : Int) : FVal :=
  let r := fxExp x
  fxVal r.1 (r.2 + k)

/-- The result of a function of Table 4.3 at a finite input that has no special result, far closer than its bound. -/
def transApprox (func : Nat) (v : FVal) : FVal :=
  let x := fxOf v
  match v with
  | .fin n m e =>
    match func with
    | 0x12 => .fin n (2 ^ 320 / m) (-e - 320)
    | 0x13 =>
      let odd := decide (e % 2 ≠ 0)
      let m' := if odd then 2 * m else m
      let e' := if odd then e - 1 else e
      .fin false (isqrt (2 ^ 360 / m') 180 0) (-(e' / 2) - 180)
    | 0x14 =>
      if 128 * fxOne ≤ x then beyondMax
      else if x ≤ -200 * fxOne then .fin false 0 0
      else expVal (fxMul (x % fxOne) fxLn2) (x / fxOne)
    | 0x16 =>
      if 200 * fxOne ≤ x then beyondMax else if x ≤ -200 * fxOne then .fin false 0 0 else expVal x 0
    | 0x15 => fxVal (fxDiv (fxLn m e) fxLn2)
    | 0x17 => fxVal (fxLn m e)
    | 0x18 => fxVal (if n then -(fxTanh (-x)) else fxTanh x)
    | 0x19 => fxVal (fxSigmoid x)
    | 0x1A => fxVal (if n then -(fxErf (-x)) else fxErf x)
    | 0x1B =>
      if 16 * fxOne ≤ x then v
      else if x ≤ -16 * fxOne then .fin true 0 0
      else
        let y := fxErf (fxMul x.natAbs fxInvSqrt2)
        v.mul (fxVal (fxOne + if n then -y else y) (-1))
    | 0x1C => v.mul (fxVal (fxSigmoid x))
    | 0x1D => fxVal (fxSin x 0)
    | _ => fxVal (fxSin x 1)
  | _ => v

/-- k ulp of FP32 at a value (04 R92). -/
def ulps (k : Nat) (v : FVal) : FVal :=
  match v with
  | .fin _ m e => .fin false k (if m = 0 then -149 else max ((Nat.log2 m : Int) + e - 23) (-149))
  | _ => .fin false 0 0

/-- The bound of Table 4.3 on the error of a function whose exact result is v. -/
def transBound (func : Nat) (v : FVal) : FVal :=
  match func with
  | 0x12 | 0x13 | 0x14 => ulps 1 v
  | 0x15 | 0x16 | 0x17 => ulps 2 v
  | 0x18 => (ulps 2 v).max (.fin false 1 (-26))
  | 0x19 | 0x1A => .fin false 1 (-23)
  | 0x1B | 0x1C => (ulps 3 v).add (.fin false 1 (-126))
  | _ => .fin false 1 (-22)

/-- Does a result meet the bound? An infinity counts as 2^128. A 2^-40th of the bound is left for the approximation. -/
def withinBound (func : Nat) (exact : FVal) (y : FVal) : Bool :=
  let y := match y with
    | .inf n => FVal.fin n 1 128
    | y => y
  let d := (y.add exact.neg).abs
  d.lt ((transBound func exact).mul (.fin false (2 ^ 40 - 1) (-40))) == some true

/-- The result of a function: a value at or above 2^128 in magnitude overflows to an infinity; else the value that the
implementation gives, `raw`, where it meets the bound of Table 4.3; a constant that does not is read as the nearest result, so
that a claim holds for every value within the bound and rests on none (log 9). -/
def transResult (func : Nat) (v : FVal) (raw : W32) : W32 :=
  let a := transApprox func v
  if a.abs.lt beyondMax != some true then toF32 a
  else if withinBound func a (f32 raw) then raw
  else toF32 a

end Sys2Proof.Machine
end

