-- ==== Sys2Proof/Machine/Vec.lean ====
section
/-! DEFINITION. Sys2Proof/Machine/Vec.lean: the vector engine (04): lengths, masks and tails (R87 to R89), the operations of Tables 4.2, 4.3 and 5.8, flags (R97), the random operations (R102). A VEC instruction completes in the step that issues it. -/

namespace Sys2Proof.Machine

open Sys2Proof

/-! ### The context -/

/-- Element e of width w bytes of register r. -/
def VCtx.elem (x : VCtx) (r w e : Nat) : Nat := leNat (mgetBytes x.v (1024 * r + w * e) w)

/-- A register written from byte 0. -/
def VCtx.setReg (x : VCtx) (r : Nat) (l : Bytes) : VCtx := { x with v := mputBytes x.v (1024 * r) l }

/-- A mask register; m0 reads as all ones (04 Table 4.1). -/
def VCtx.mask (x : VCtx) (i : Nat) : BitVec 256 := if i = 0 then BitVec.allOnes 256 else mget 0 x.m i
/-- Writes to m0 are ignored (04 Table 4.1). -/
def VCtx.setMask (x : VCtx) (i : Nat) (v : BitVec 256) : VCtx := if i = 0 then x else { x with m := mset 0 x.m i v }

/-- 04 R87: is element e of width w active under the mask register m? -/
def VCtx.active (x : VCtx) (m w e : Nat) : Bool := decide (w * (e + 1) ≤ x.vl) && bitOf (x.mask m) (w * e / 4)

def VCtx.addFlags (x : VCtx) (f : VFlags) : VCtx := { x with flags := x.flags.or f }

/-- Fields of Table 5.7. -/
def Env.vd (e : Env) : Nat := e.f 99 95
def Env.va (e : Env) : Nat := e.f 94 90
def Env.vb (e : Env) : Nat := e.f 89 85
def Env.vc (e : Env) : Nat := e.f 84 80
def Env.vm (e : Env) : Nat := e.f 79 77
def Env.zm (e : Env) : Bool := e.f 76 76 == 1
def Env.vctx (e : Env) (s : State) : VCtx := s.vctx e.c.val e.k.val
def Env.setVctx (e : Env) (s : State) (x : VCtx) : State := s.setVctx e.c.val e.k.val x

/-- Active elements of width w, ascending. -/
def Env.actives (e : Env) (s : State) (w : Nat) : List Nat :=
  (List.range (1024 / w)).filter fun i => (e.vctx s).active e.vm w i

/-- Opens a VEC operation: a parity error in a register ends the job (04 R98); a format that Table 4.2 does not allow raises
VEC_OP_BAD (04 R90); a reserved format code has already ended the job as a reserved encoding (05 R107). -/
def Env.vec (e : Env) (ok : Fmt → Bool) (k : Fmt → Ans) : Ans :=
  if e.regBad then .fail { code := Ev.vecParity }
  else
    match Fmt.ofCode (e.f 103 100) with
    | none => .fail { code := Ev.seqDecode }
    | some f => if ok f then k f else .fail { code := Ev.vecOpBad }

/-- Formats of Table 4.2 by class. -/
def okFloat (f : Fmt) : Bool := f == .fp32 || f == .bf16
def okMove8 (f : Fmt) : Bool := f == .e4m3 || f == .e5m2
def okFloatMove (f : Fmt) : Bool := okFloat f || okMove8 f
def okFp32 (f : Fmt) : Bool := f == .fp32
def okI32 (f : Fmt) : Bool := f == .int32
def okPacked (f : Fmt) : Bool := f == .int32 || f == .int8 || f == .uint8
def okReduce (f : Fmt) : Bool := f == .fp32 || f == .bf16 || f == .int32
/-- What memory and conversion take: the pair is an input that a load brings and VEC_CVT widens to hi + lo (02 R48, Table 2.4;
log 14). -/
def okInput (f : Fmt) : Bool := f.okVector
/-- What the engine may write out: the pair is an input only (02 Table 2.4; log 14). -/
def okWritten (f : Fmt) : Bool := f.okVector && f != .pair
def okGather (f : Fmt) : Bool := f == .fp32 || f == .bf16 || f == .int32 || f == .int8

/-- Writes the active elements of a register; inactive ones keep their contents or become zero (04 R89). With no active
element nothing is written. `w` is the width of the destination, `wa` the width that judges activity. -/
def Env.writeVd (e : Env) (s : State) (w wa : Nat) (op : Nat → Nat × VFlags) : State :=
  let x := e.vctx s
  if e.actives s wa = [] then s
  else
    let r := (List.range (1024 / w)).map fun i =>
      if decide (i < 1024 / wa) && x.active e.vm wa i then op i
      else (if e.zm then 0 else x.elem e.vd w i, {})
    e.setVctx s ((x.setReg e.vd (r.flatMap fun y => leBytes w y.1)).addFlags (r.foldl (fun f y => f.or y.2) {}))

/-- Element-wise operation over va, vb and vc at one width. -/
def vecMap (e : Env) (s : State) (f : Fmt) (op : Nat → Nat → Nat → Nat × VFlags) : Ans :=
  let x := e.vctx s
  .ok (e.writeVd s f.bytes f.bytes fun i => op (x.elem e.va f.bytes i) (x.elem e.vb f.bytes i) (x.elem e.vc f.bytes i))

/-! ### Float arithmetic (04 R91) -/

/-- Result bits of a float operation by RNE in the operation's format. -/
def fltOut (f : Fmt) (v : FVal) : Nat :=
  match f.flt? with
  | some g => g.round v
  | none => 0

/-- A float operation with its flags: `ins` the inputs it reads. -/
def fltOp (f : Fmt) (ins : List Nat) (v : FVal) (dz : Bool) : Nat × VFlags :=
  let b := fltOut f v
  (b, fltFlags (ins.map f.val) (f.val b) dz)

def opAdd (f : Fmt) (a b _c : Nat) : Nat × VFlags := fltOp f [a, b] ((f.val a).add (f.val b)) false
def opSub (f : Fmt) (a b _c : Nat) : Nat × VFlags := fltOp f [a, b] ((f.val a).add (f.val b).neg) false
def opMul (f : Fmt) (a b _c : Nat) : Nat × VFlags := fltOp f [a, b] ((f.val a).mul (f.val b)) false
/-- fma rounds once. -/
def opFma (f : Fmt) (a b c : Nat) : Nat × VFlags := fltOp f [a, b, c] (((f.val a).mul (f.val b)).add (f.val c)) false
def opMin (f : Fmt) (a b _c : Nat) : Nat × VFlags := fltOp f [a, b] ((f.val a).min (f.val b)) false
def opMax (f : Fmt) (a b _c : Nat) : Nat × VFlags := fltOp f [a, b] ((f.val a).max (f.val b)) false
def opAbs (f : Fmt) (a _b _c : Nat) : Nat × VFlags := fltOp f [a] (f.val a).abs false
def opNeg (f : Fmt) (a _b _c : Nat) : Nat × VFlags := fltOp f [a] (f.val a).neg false

/-- vd = vc ≠ 0 ? va : vb; a NaN result is canonical (04 R91, 02 R30). -/
def opSel (f : Fmt) (a b c : Nat) : Nat × VFlags :=
  (fltOut f (f.val (if (f.val c).isZero then b else a)), { nanIn := [a, b, c].any fun x => (f.val x).isNan })
/-- A move leaves the bits unchanged, a NaN too (DESIGN CHOICE, log 14). -/
def opMov (f : Fmt) (a _b _c : Nat) : Nat × VFlags := (a, { nanIn := (f.val a).isNan })

/-- Division and square root, exactly rounded; x / ±0 meets a pole for every x but zero and NaN (04 Table 4.3). -/
def opDiv (f : Fmt) (a b _c : Nat) : Nat × VFlags :=
  let x := f.val a
  let y := f.val b
  fltOp f [a, b] (x.div y) (y.isZero && !x.isZero && !x.isNan)
def opSqrt (f : Fmt) (a _b _c : Nat) : Nat × VFlags := fltOp f [a] (f.val a).sqrt false

/-! ### Transcendental functions (04 R92 Table 4.3) -/

/-- The special results of Table 4.3 for an input that is not NaN: result and whether a pole is met; none where the
table gives a bound only. -/
def transSpecial (func : Nat) (v : FVal) : Option (FVal × Bool) :=
  let one (n : Bool) : FVal := .fin n 1 0
  let zero (n : Bool) : FVal := .fin n 0 0
  match func with
  | 0x12 => -- rcp
    match v with
    | .inf n => some (zero n, false)
    | .fin n m _ => if m = 0 then some (.inf n, true) else none
    | .nan => none
  | 0x13 => -- rsqrt
    match v with
    | .inf n => some (if n then (.nan, false) else (zero false, false))
    | .fin n m _ => if m = 0 then some (.inf n, true) else if n then some (.nan, false) else none
    | .nan => none
  | 0x14 | 0x16 => -- exp2, exp
    match v with
    | .inf n => some (if n then zero false else .inf false, false)
    | _ => none
  | 0x15 | 0x17 => -- log2, log
    match v with
    | .inf n => some (if n then (.nan, false) else (.inf false, false))
    | .fin n m _ => if m = 0 then some (.inf true, true) else if n then some (.nan, false) else none
    | .nan => none
  | 0x18 | 0x1A => -- tanh, erf
    match v with
    | .inf n => some (one n, false)
    | _ => none
  | 0x19 => -- sigmoid
    match v with
    | .inf n => some (if n then zero false else one false, false)
    | _ => none
  | 0x1B | 0x1C => -- gelu, silu
    match v with
    | .inf n => some (if n then zero true else .inf false, false)
    | _ => none
  | _ => -- sin, cos
    match v with
    | .inf _ => some (.nan, false)
    | _ => if v.abs.lt (.fin false 1 16) == some false && !v.abs.eqv (.fin false 1 16) then some (.nan, false) else none

/-- A function of Table 4.3: NaN stays NaN, the special results as stated, and elsewhere a value within the bound:
`Config.transcendental` fills it, a function of the input alone (04 R92, log 9). -/
def opTrans (func : Nat) (f : Fmt) (a _b _c : Nat) : Nat × VFlags :=
  let v := f.val a
  if v.isNan then (fmtF32.nanBits, { nanIn := true })
  else
    match transSpecial func v with
    | some (y, dz) => fltOp .fp32 [a] y dz
    | none => fltOp .fp32 [a] (f32 (transResult func v (Config.transcendental func (BitVec.ofNat 32 a)))) false

/-! ### Integer operations (04 R91) -/

/-- An integer result of the format's width. -/
def intOut (f : Fmt) (x : Int) : Nat := (x % (2 ^ f.width : Nat)).toNat

def opIadd (f : Fmt) (a b _c : Nat) : Nat × VFlags := (intOut f (f.intVal a + f.intVal b), {})
def opIsub (f : Fmt) (a b _c : Nat) : Nat × VFlags := (intOut f (f.intVal a - f.intVal b), {})
def opImul (f : Fmt) (a b _c : Nat) : Nat × VFlags := (intOut f (f.intVal a * f.intVal b), {})
def opAnd (_f : Fmt) (a b _c : Nat) : Nat × VFlags := (a &&& b, {})
def opOr (_f : Fmt) (a b _c : Nat) : Nat × VFlags := (a ||| b, {})
def opXor (_f : Fmt) (a b _c : Nat) : Nat × VFlags := (a ^^^ b, {})
/-- Shift counts use their low 5 bits. -/
def opShl (f : Fmt) (a b _c : Nat) : Nat × VFlags := (a * 2 ^ (b % 32) % 2 ^ f.width, {})
def opShr (_f : Fmt) (a b _c : Nat) : Nat × VFlags := (a / 2 ^ (b % 32), {})
def opSra (f : Fmt) (a b _c : Nat) : Nat × VFlags := (intOut f (f.intVal a / (2 ^ (b % 32) : Nat)), {})
def opImin (f : Fmt) (a b _c : Nat) : Nat × VFlags := (intOut f (min (f.intVal a) (f.intVal b)), {})
def opImax (f : Fmt) (a b _c : Nat) : Nat × VFlags := (intOut f (max (f.intVal a) (f.intVal b)), {})
/-- The saturating forms clamp to the range and set int_sat. -/
def intSat (f : Fmt) (x : Int) : Nat × VFlags :=
  let y := clampInt f.intRange.1 f.intRange.2 x
  (intOut f y, { intSat := decide (x ≠ y) })
def opAddsat (f : Fmt) (a b _c : Nat) : Nat × VFlags := intSat f (f.intVal a + f.intVal b)
def opSubsat (f : Fmt) (a b _c : Nat) : Nat × VFlags := intSat f (f.intVal a - f.intVal b)

/-! ### Compare to mask (04 R91, 05 R116) -/

/-- The condition codes 0 eq, 1 ne, 2 lt, 3 le, 4 gt, 5 ge, 6 unordered. -/
def cmpCond (cond : Nat) (lt eq gt : Bool) : Bool :=
  match cond with
  | 0 => eq
  | 1 => !eq
  | 2 => lt
  | 3 => lt || eq
  | 4 => gt
  | 5 => gt || eq
  | _ => !(lt || eq || gt)

/-- One comparison with its flags. -/
def cmpElem (f : Fmt) (cond a b : Nat) : Bool × VFlags :=
  if f.isInt then
    let x := f.intVal a
    let y := f.intVal b
    (cmpCond cond (decide (x < y)) (decide (x = y)) (decide (y < x)), {})
  else
    let x := f.val a
    let y := f.val b
    (cmpCond cond (x.lt y == some true) (x.eqv y) (y.lt x == some true), { nanIn := x.isNan || y.isNan })

/-- A mask of 256 lanes built from a function. -/
def maskOf (g : Nat → Bool) : BitVec 256 := BitVec.ofNat 256 (leBits ((List.range 256).map g))
where
  leBits : List Bool → Nat
    | [] => 0
    | b :: l => b2n b + 2 * leBits l

/-- Compare: the bit of a lane is the AND over its active elements; a lane with none is inactive. -/
def vecCmpBody (e : Env) (s : State) (f : Fmt) : Ans :=
  let x := e.vctx s
  let w := f.bytes
  let act := e.actives s w
  if act = [] then .ok s
  else
    let old := x.mask (e.f 97 95)
    let r (i : Nat) := cmpElem f (e.f 66 64) (x.elem e.va w i) (x.elem e.vb w i)
    let lane (l : Nat) : Bool :=
      let es := act.filter fun i => w * i / 4 == l
      if es = [] then (if e.zm then false else bitOf old l) else es.all fun i => (r i).1
    .ok (e.setVctx s ((x.setMask (e.f 97 95) (maskOf lane)).addFlags (act.foldl (fun g i => g.or (r i).2) {})))

/-! ### Conversion (04 R95) -/

/-- An address in the issuing cluster's own scratchpad, which is all that the engine reaches (04). -/
def ownSpd (c : CId) (a : Addr) (n : Nat) : Bool :=
  !a.dev && decide (c.val * 2 ^ 27 ≤ a.a) && decide (a.a + n ≤ (c.val + 1) * 2 ^ 27)

/-- An M address of a structure of the vector engine: under 05 R108, and in the cluster's own scratchpad. -/
def Env.vecAddr (e : Env) (s : State) (len align : Nat) : Except Fail Addr :=
  match mAddr s e.c e.y (e.f 63 32) 1 align with
  | .error f => .error f
  | .ok a => if ownSpd e.c a len then .ok a else .error { code := Ev.vecAddr, arg := Addr.ptr a }

/-- 04 R98: scratchpad reads of the engine and their parity failures: the first of a read repeats it, with VEC_REPLAY and a
replay counted; a second one of the same read ends the job. -/
def Env.vecParity (e : Env) (s : State) (reads : List (Addr × Nat)) : State × Option Fail :=
  parityReads
    (fun s a => (s.raise Ev.vecReplay
      { unit := BitVec.ofNat 8 e.c.val, sub := BitVec.ofNat 8 e.k.val, tag := e.job.tag, domain := e.job.d.domain
        arg := BitVec.ofNat 64 (Addr.ptr a) }).bumpLife 5)
    (fun s a => (s, some { code := Ev.vecParity, arg := Addr.ptr a })) s (failures reads e.readBad)

/-- The amax record that a conversion merges into, in bytes, and the ranges it touches there. -/
def Env.cvtAmax (e : Env) (s : State) (c : ConvCtl) : Except Fail Addr :=
  e.vecAddr s (16 + if c.amaxRow then 4 * (e.f 31 0 + 1) else 0) 16
def Env.cvtRngs (e : Env) (c : ConvCtl) (a : Addr) : List Rng :=
  [a.rng 16 true] ++ if c.amaxRow then [(a.plus (16 + 4 * e.f 31 0)).rng 4 true] else []

/-- The BF16 side tile of a quantising conversion of one register: one row of 64 (02 R51). -/
def Env.cvtSide (e : Env) (s : State) (c : ConvCtl) : Option Tile := (e.quantList c.dst).bind (s.sideTile 1)

/-- The true values of the outlier channels of a register, in list order, as BF16; unused columns and inactive channels hold 0. -/
def cvtSideRow (f : Fmt) (x : VCtx) (va : Nat) (act : List Nat) (o : Outliers) : List Nat :=
  (List.range 64).map fun p =>
    match (channelsOf o)[p]? with
    | some j => if act.contains j then fmtBF16.round (f.val (x.elem va f.bytes j)) else 0
    | none => 0

/-- VEC_CVT (04 R95). With an outlier list it writes the activation side of 02 R51: the register is row 0 of the tile and element e
its channel e; a listed channel holds z_0, sets no flag and does not enter amax (DESIGN CHOICE, log 13). -/
def vecCvtBody (e : Env) (s : State) : Ans :=
  e.vec okInput fun f =>
    match ConvCtl.decode (e.f 75 64) with
    | none => .fail { code := Ev.vecOpBad }
    | some c =>
      if c.dst = .pair then .fail { code := Ev.vecOpBad }
      else
        let x := e.vctx s
        let wa := max f.bytes c.dst.bytes
        let o := e.quantList c.dst
        let out (i : Nat) : ConvOut :=
          convert c (f.val (x.elem e.va f.bytes i)) (if c.stoch then x.gen.draw16 i else 0) 0
        let act := e.actives s wa
        let side := e.cvtSide s c
        let res (s : State) : State :=
          let t := e.writeVd s c.dst.bytes wa fun i =>
            if isOutlier o i then (((o.toList.flatMap (·.zero)).headD 0 % (2 ^ c.dst.width : Nat)).toNat, {})
            else ((out i).bits, convFlags c (f.val (x.elem e.va f.bytes i)) (out i))
          match side, o with
          | some st, some l => if act = [] then t else t.putRow e.who st 0 (cvtSideRow f x e.va act l)
          | _, _ => t
        let rs := side.toList.map (Tile.rng · true)
        if c.amaxEn then
          .of (e.cvtAmax s c) fun a =>
            let ra := e.cvtRngs c a
            if e.y.hazard (ra ++ rs) none then .stall
            else
              .after (e.vecParity s (ra.map fun r => (r.addr, r.len))) fun s =>
                .ok ((res s).mergeAmax e.who a (if c.amaxRow then some (e.f 31 0) else none)
                  ((act.filter fun i => !isOutlier o i).map fun i => (f.val (x.elem e.va f.bytes i), (out i).sat)))
        else if e.y.hazard rs none then .stall
        else .ok (res s)

/-! ### Reductions (04 R94) -/

/-- One level of the tree. -/
def pairUp {α : Type} (op : α → α → α) : List α → List α
  | a :: b :: l => op a b :: pairUp op l
  | l => l

/-- The fixed pairwise tree, at most ten levels for 1,024 elements. -/
def tree {α : Type} (op : α → α → α) : (fuel : Nat) → List α → List α
  | 0, l => l
  | n + 1, l => tree op n (pairUp op l)

/-- Writes a reduction's FP32 or INT32 result to element 0; the other elements are inactive. -/
def Env.writeRed (e : Env) (s : State) (v : Nat) (fl : VFlags) : State :=
  let x := e.vctx s
  let rest := if e.zm then List.replicate 1020 0 else mgetBytes x.v (1024 * e.vd + 4) 1020
  e.setVctx s ((x.setReg e.vd (leBytes 4 v ++ rest)).addFlags fl)

/-- A reduction: 0 sum, 1 max, 2 min. BF16 inputs are widened to FP32. The flags judge the active inputs and the result; what
an addition inside the tree meets shows only through the result (DESIGN CHOICE, log 14). -/
def vecReduce (e : Env) (s : State) (kind : Nat) : Ans :=
  e.vec okReduce fun f =>
    let x := e.vctx s
    let w := f.bytes
    let act := e.actives s w
    if f = .int32 then
      let id : Int := if kind = 0 then 0 else if kind = 1 then -2147483648 else 2147483647
      let l := (List.range 256).map fun i => if act.contains i then f.intVal (x.elem e.va w i) else id
      let op (a b : Int) : Int := if kind = 0 then sext 32 (intOut .int32 (a + b)) else if kind = 1 then max a b else min a b
      .ok (e.writeRed s (intOut .int32 ((tree op 10 l).headD id)) {})
    else
      let id : FVal := if kind = 0 then .fin false 0 0 else .inf (kind == 1)
      let l := (List.range (1024 / w)).map fun i => if act.contains i then f.val (x.elem e.va w i) else id
      let op (a b : FVal) : FVal :=
        if kind = 0 then f32 (toF32 (a.add b)) else if kind = 1 then a.max b else a.min b
      let out := (tree op 10 l).headD id
      .ok (e.writeRed s (fmtF32.round out)
        (if act = [] then {} else fltFlags (act.map fun i => f.val (x.elem e.va w i)) out false))

/-! ### Memory (04 R90, R93) -/

/-- Distinct 64 B lines of a list of addresses, each with its first address. -/
def lineFirsts : List Addr → List Addr
  | [] => []
  | a :: l => a :: (lineFirsts l).filter fun b => b.a / 64 != a.a / 64

/-- The first byte in each 64 B line that elements of `n` bytes touch: an unaligned element may touch two. -/
def lineTouches (n : Nat) (l : List Addr) : List Addr :=
  lineFirsts (l.flatMap fun a => a :: if a.a / 64 = (a.a + n - 1) / 64 then [] else [⟨a.dev, (a.a + n - 1) / 64 * 64⟩])

/-- One domain miss for each denied line of elements of `n` bytes (04 R93). -/
def State.noteLines (s : State) (w : Who) (n : Nat) (l : List Addr) (write : Bool) : State :=
  foldS s (lineTouches n l) fun s a => s.noteMiss w a 1 write

/-- Addresses of the active elements of a contiguous or indexed operation; an index is a signed INT32, element e takes
it from register vb + ⌊e / 256⌋. None of an element: outside the cluster's 128 MiB. -/
def Env.elemAddr (e : Env) (s : State) (base : Addr) (w : Nat) (idx : Bool) (i : Nat) : Option Addr :=
  let off : Int := if idx then sext 32 ((e.vctx s).elem ((e.vb + i / 256) % 32) 4 (i % 256)) else i
  let a : Int := base.a + off * w
  if 0 ≤ a ∧ ownSpd e.c ⟨false, a.toNat⟩ w then some ⟨false, a.toNat⟩ else none

/-- The active elements of a memory operation with their addresses; none where one leaves the cluster's scratchpad. -/
def Env.vecElems (e : Env) (s : State) (f : Fmt) (idx : Bool) (base : Addr) : Option (List (Nat × Addr)) :=
  let l := (e.actives s f.bytes).map fun i => (i, if base.dev then none else e.elemAddr s base f.bytes idx i)
  if l.any fun x => x.2.isNone then none else some (l.filterMap fun x => x.2.map fun a => (x.1, a))

/-- A memory operation of the engine: every active element's address is checked before anything is read or written;
hazards; parity of the lines it touches, which a store of less than a word reads too (04 R98; log 14); then the effect on the
(element, address) pairs. VEC_ADDR carries the base address: 17 Table 17.3 does not say which one (DESIGN CHOICE, log 14). -/
def Env.vecMem (e : Env) (s : State) (f : Fmt) (idx write : Bool) (effect : State → List (Nat × Addr) → State) : Ans :=
  .of (mAddr s e.c e.y (e.f 63 32) 1 1) fun base =>
    match e.vecElems s f idx base with
    | none => .fail { code := Ev.vecAddr, arg := Addr.ptr base }
    | some l =>
      if e.y.hazard (l.map fun x => x.2.rng f.bytes write) none then .stall
      else
        .after (e.vecParity s ((lineTouches f.bytes (l.map (·.2))).map fun a => (a, 64))) fun s =>
          .ok (effect (s.noteLines e.who f.bytes (l.map (·.2)) write) l)

/-- Loads into vd; gather with an index register. A NaN that is loaded sets no flag (DESIGN CHOICE, log 14). -/
def vecLoadBody (idx : Bool) (ok : Fmt → Bool) (e : Env) (s : State) : Ans :=
  e.vec ok fun f =>
    e.vecMem s f idx false fun s l =>
      e.writeVd s f.bytes f.bytes fun i =>
        (match l.find? fun x => x.1 == i with
         | some x => leNat (s.read e.req x.2 f.bytes)
         | none => 0, {})

/-- Stores from va; scatter with an index register, in ascending element order. Inactive elements touch no memory. A NaN that is
stored sets no flag (DESIGN CHOICE, log 14). -/
def vecStoreBody (idx : Bool) (ok : Fmt → Bool) (e : Env) (s : State) : Ans :=
  e.vec ok fun f =>
    e.vecMem s f idx true fun s l =>
      foldS s l fun t x => t.write e.req x.2 (leBytes f.bytes ((e.vctx s).elem e.va f.bytes x.1))

/-- Scatter-add, in ascending element order. -/
def vecScataddBody (e : Env) (s : State) : Ans :=
  e.vec okGather fun f =>
    e.vecMem s f true true fun s l =>
      let r := l.foldl (fun (t : State × VFlags) x =>
        let old := leNat (t.1.read e.req x.2 f.bytes)
        let v := (e.vctx s).elem e.va f.bytes x.1
        let y := if f.isInt then opIadd f old v 0 else opAdd f old v 0
        (t.1.write e.req x.2 (leBytes f.bytes y.1), t.2.or y.2)) (s, {})
      if l = [] then s else e.setVctx r.1 ((e.vctx r.1).addFlags r.2)

/-- The imm value in every active element; a NaN among them sets no flag (DESIGN CHOICE, log 14). -/
def vecBcastBody (e : Env) (s : State) : Ans :=
  e.vec okWritten fun f => vecMap e s f fun _ _ _ => (e.f 31 0 % 2 ^ f.width, {})

/-! ### Random operations (04 R100, R102) -/

def vecRrawBody (e : Env) (s : State) : Ans :=
  e.vec okI32 fun _ => .ok (e.writeVd s 4 4 fun i => ((e.vctx s).gen.draw32 i, {}))

/-- u = (word >> 8) × 2^-24, exactly. -/
def uniformBits (word : Nat) : Nat := fmtF32.round (.fin false (word / 256) (-24))

def vecRuniBody (e : Env) (s : State) : Ans :=
  e.vec okFp32 fun _ => .ok (e.writeVd s 4 4 fun i => (uniformBits ((e.vctx s).gen.draw32 i), {}))

/-- Bernoulli: the keep value g is the input of every active element, so a NaN sets nan_in whatever is drawn, and a finite g that
rounds to an infinity sets overflow where it is written (04 R97, R102; DEDUCED, log 14). -/
def vecRbernBody (e : Env) (s : State) : Ans :=
  e.vec okFloat fun f =>
    let x := fmtF32.decode (e.f 63 32)
    let g := fltOut f x
    .ok (e.writeVd s f.bytes f.bytes fun i =>
      if (e.vctx s).gen.draw32 i < e.f 31 0 then (g, fltFlags [x] (f.val g) false) else (0, { nanIn := x.isNan }))

/-- The generator descriptor, loaded from scratchpad; a reserved purpose or byte is a reserved encoding that the engine
decodes (04 R101). -/
def vecLdgenBody (e : Env) (s : State) : Ans :=
  if e.regBad then .fail { code := Ev.vecParity }
  else
    .of (e.vecAddr s 32 1) fun a =>
      if e.y.hazard [a.rng 32 false] none then .stall
      else
        .after (e.vecParity s [(a, 32)]) fun s =>
          let r := s.load e.who a 32
          match GenDesc.decode r.1 with
          | none => .fail { code := Ev.vecOpBad }
          | some d => .ok (e.setVctx r.2 { e.vctx r.2 with gen := d })

/-! ### Top-k (04 R96), length and masks (04 R88, 05 R115) -/

def vecTopkBody (e : Env) (s : State) : Ans :=
  e.vec okReduce fun f =>
    let k := e.f 69 64 + 1
    .of (e.vecAddr s (8 * k) 8) fun a =>
      let act := e.actives s f.bytes
      if act = [] then .ok s
      else if e.y.hazard [a.rng (8 * k) true] none then .stall
      else
        .after (e.vecParity s [(a, 8 * k)]) fun s =>
          let x := e.vctx s
          let v (i : Nat) := x.elem e.va f.bytes i
          let cand := act.map fun i => (⟨topValue f (v i), (e.f 31 0 + i) % 2 ^ 32⟩ : TopEntry)
          let nan := !f.isInt && act.any fun i => (f.val (v i)).isNan
          .ok (e.setVctx (s.mergeTop e.who a 0 k f.isInt cand) (x.addFlags { nanIn := nan }))

/-- SETVL (04 R88): n in a scalar register, the granted count in another. -/
def vecSetvlBody (e : Env) (s : State) : Ans :=
  e.vec (·.okVector) fun f =>
    let n := min (e.y.rx (e.f 93 90)) (1024 / f.bytes)
    let s := e.setVctx s { e.vctx s with vl := n * f.bytes }
    .ok (s.modSlot e.c.val e.k.val fun y => y.setX (e.f 98 95) (BitVec.ofNat 32 n))

/-- Lanes of a mask operation: inactive ones keep their bit or become 0 (04 R89). -/
def Env.writeMask (e : Env) (s : State) (v : BitVec 256) : State :=
  let x := e.vctx s
  let old := x.mask (e.f 97 95)
  if e.actives s 4 = [] then s
  else
    e.setVctx s (x.setMask (e.f 97 95) (maskOf fun l =>
      if x.active e.vm 4 l then bitOf v l else if e.zm then false else bitOf old l))

def Env.maskOp (e : Env) (k : Ans) : Ans := if e.regBad then .fail { code := Ev.vecParity } else k

def vecMldBody (e : Env) (s : State) : Ans :=
  e.maskOp <|
    .of (e.vecAddr s 32 1) fun a =>
      if e.y.hazard [a.rng 32 false] none then .stall
      else
        .after (e.vecParity s [(a, 32)]) fun s =>
          let r := s.load e.who a 32
          .ok (e.writeMask r.2 (BitVec.ofNat 256 (leNat r.1)))

/-- The mask register of [97:95] stored in 32 B; the bits of inactive lanes keep what memory holds. -/
def vecMstBody (e : Env) (s : State) : Ans :=
  e.maskOp <|
    .of (e.vecAddr s 32 1) fun a =>
      if e.y.hazard [a.rng 32 true] none then .stall
      else if e.actives s 4 = [] then .ok s
      else
        .after (e.vecParity s [(a, 32)]) fun s =>
          let x := e.vctx s
          let old : BitVec 256 := BitVec.ofNat 256 (leNat (s.read e.req a 32))
          let v := maskOf fun l => if x.active e.vm 4 l then bitOf (x.mask (e.f 97 95)) l else bitOf old l
          .ok (s.store e.who a (leBytes 32 v.toNat))

def vecMandBody (e : Env) (s : State) : Ans :=
  e.maskOp (.ok (e.writeMask s ((e.vctx s).mask (e.f 92 90) &&& (e.vctx s).mask (e.f 87 85))))
def vecMorBody (e : Env) (s : State) : Ans :=
  e.maskOp (.ok (e.writeMask s ((e.vctx s).mask (e.f 92 90) ||| (e.vctx s).mask (e.f 87 85))))
def vecMnotBody (e : Env) (s : State) : Ans :=
  e.maskOp (.ok (e.writeMask s (~~~ (e.vctx s).mask (e.f 92 90))))

/-! ### The meanings -/

/-- The bytes that a VEC instruction reads or writes (05 R124). -/
def Env.vecRngs (e : Env) (s : State) : List Rng :=
  let one (len align : Nat) (w : Bool) : List Rng :=
    match e.vecAddr s len align with
    | .ok a => [a.rng len w]
    | .error _ => []
  let elems (idx w : Bool) : List Rng :=
    match Fmt.ofCode (e.f 103 100), mAddr s e.c e.y (e.f 63 32) 1 1 with
    | some f, .ok b => ((e.vecElems s f idx b).getD []).map fun x => x.2.rng f.bytes w
    | _, _ => []
  match e.f 111 104 with
  | 0x30 =>
    match ConvCtl.decode (e.f 75 64) with
    | some c => if c.amaxEn then (match e.cvtAmax s c with | .ok a => e.cvtRngs c a | .error _ => []) else []
    | none => []
  | 0x40 => elems false false
  | 0x41 => elems false true
  | 0x42 => elems true false
  | 0x43 | 0x44 => elems true true
  | 0x4B | 0x59 => one 32 1 false
  | 0x5A => one 32 1 true
  | 0x50 => one (8 * (e.f 69 64 + 1)) 8 true
  | _ => []

/-- Has a slot whose next word is `w` a vector operation ready (05 R124, R127)? -/
def State.vecWants (s : State) (c : CId) (k : SId) (j : Job) (w : W128) : Bool :=
  let y := s.slot c.val k.val
  let e : Env := ⟨c, k, j, y, w, [], false, none⟩
  y.ready && (rowOf w).isSome && wf w 127 124 == 3 && reservedOk w && selected y w && !y.full &&
    (wf w 115 115 != 1 || y.out.isEmpty) && !y.hazard (e.vecRngs s) none

/-- The other slots of the cluster whose streams have a vector operation ready: what stands at their pc tells. -/
def State.vecRivals (s : State) (i : Issue) : List Nat :=
  (allSlots.filter fun k => k != i.slot &&
    let y := s.slot i.cluster.val k.val
    match s.job y.tag, ptrAddr y.pc.toNat with
    | some j, some a => s.inSpace a 16 && s.fetchable j a && (s.poisonIn a 16).isNone && s.vecWants i.cluster k j (s.fetchWord j a)
    | _, _ => false).map (·.val)

/-- A VEC instruction of a func code issues. Where other slots have a vector operation ready too, the arbiter chooses
(05 R127): another slot's turn makes this one wait for the unit, its own counts the grant. Grants without a rival count in no
turn (DESIGN CHOICE, log 12). -/
def vecIssue (i : Issue) (func : Nat) (body : Env → State → Ans) (s : State) : Res :=
  let c := i.cluster.val
  let rivals := s.vecRivals i
  let wants := match s.job (s.slot c i.slot.val).tag with
    | some j => s.vecWants i.cluster i.slot j i.word
    | none => false
  if rivals.isEmpty || !wants then .next (s.issue i (rowCode 3 0 func) body)
  else
    match chooseSlot (s.clu c).slot (i.slot.val :: rivals) (s.clu c).vecTurn with
    | none => .next (s.issue i (rowCode 3 0 func) body)
    | some (k, t) =>
      if k = i.slot.val then .next ((s.modClu c fun x => { x with vecTurn := t }).issue i (rowCode 3 0 func) body)
      else .next (s.modSlot c i.slot.val (·.stall))

/-- An element-wise operation with the formats Table 4.2 allows it. -/
def vecOp (ok : Fmt → Bool) (op : Fmt → Nat → Nat → Nat → Nat × VFlags) (e : Env) (s : State) : Ans :=
  e.vec ok fun f => vecMap e s f (op f)

/-- VEC_ADD: func 0x00 (05 Table 5.8). -/
def execVecAdd (i : Issue) (s : State) : Res := vecIssue i 0x00 (vecOp okFloat opAdd) s
/-- VEC_SUB: func 0x01 (05 Table 5.8). -/
def execVecSub (i : Issue) (s : State) : Res := vecIssue i 0x01 (vecOp okFloat opSub) s
/-- VEC_MUL: func 0x02 (05 Table 5.8). -/
def execVecMul (i : Issue) (s : State) : Res := vecIssue i 0x02 (vecOp okFloat opMul) s
/-- VEC_FMA: func 0x03 (05 Table 5.8). -/
def execVecFma (i : Issue) (s : State) : Res := vecIssue i 0x03 (vecOp okFloat opFma) s
/-- VEC_MIN: func 0x04 (05 Table 5.8). -/
def execVecMin (i : Issue) (s : State) : Res := vecIssue i 0x04 (vecOp okFloatMove opMin) s
/-- VEC_MAX: func 0x05 (05 Table 5.8). -/
def execVecMax (i : Issue) (s : State) : Res := vecIssue i 0x05 (vecOp okFloatMove opMax) s
/-- VEC_ABS: func 0x06 (05 Table 5.8). -/
def execVecAbs (i : Issue) (s : State) : Res := vecIssue i 0x06 (vecOp okFloatMove opAbs) s
/-- VEC_NEG: func 0x07 (05 Table 5.8). -/
def execVecNeg (i : Issue) (s : State) : Res := vecIssue i 0x07 (vecOp okFloatMove opNeg) s
/-- VEC_CMP: func 0x08 (05 Table 5.8). -/
def execVecCmp (i : Issue) (s : State) : Res := vecIssue i 0x08 (fun e s => e.vec okFloatMove fun f => vecCmpBody e s f) s
/-- VEC_SEL: func 0x09 (05 Table 5.8). -/
def execVecSel (i : Issue) (s : State) : Res := vecIssue i 0x09 (vecOp okFloatMove opSel) s
/-- VEC_MOV: func 0x0A (05 Table 5.8). -/
def execVecMov (i : Issue) (s : State) : Res := vecIssue i 0x0A (vecOp okMove8 opMov) s
/-- VEC_DIV: func 0x10 (05 Table 5.8). -/
def execVecDiv (i : Issue) (s : State) : Res := vecIssue i 0x10 (vecOp okFp32 opDiv) s
/-- VEC_SQRT: func 0x11 (05 Table 5.8). -/
def execVecSqrt (i : Issue) (s : State) : Res := vecIssue i 0x11 (vecOp okFp32 opSqrt) s
/-- VEC_RCP: func 0x12 (05 Table 5.8). -/
def execVecRcp (i : Issue) (s : State) : Res := vecIssue i 0x12 (vecOp okFp32 (opTrans 0x12)) s
/-- VEC_RSQRT: func 0x13 (05 Table 5.8). -/
def execVecRsqrt (i : Issue) (s : State) : Res := vecIssue i 0x13 (vecOp okFp32 (opTrans 0x13)) s
/-- VEC_EXP2: func 0x14 (05 Table 5.8). -/
def execVecExp2 (i : Issue) (s : State) : Res := vecIssue i 0x14 (vecOp okFp32 (opTrans 0x14)) s
/-- VEC_LOG2: func 0x15 (05 Table 5.8). -/
def execVecLog2 (i : Issue) (s : State) : Res := vecIssue i 0x15 (vecOp okFp32 (opTrans 0x15)) s
/-- VEC_EXP: func 0x16 (05 Table 5.8). -/
def execVecExp (i : Issue) (s : State) : Res := vecIssue i 0x16 (vecOp okFp32 (opTrans 0x16)) s
/-- VEC_LOG: func 0x17 (05 Table 5.8). -/
def execVecLog (i : Issue) (s : State) : Res := vecIssue i 0x17 (vecOp okFp32 (opTrans 0x17)) s
/-- VEC_TANH: func 0x18 (05 Table 5.8). -/
def execVecTanh (i : Issue) (s : State) : Res := vecIssue i 0x18 (vecOp okFp32 (opTrans 0x18)) s
/-- VEC_SIGMOID: func 0x19 (05 Table 5.8). -/
def execVecSigmoid (i : Issue) (s : State) : Res := vecIssue i 0x19 (vecOp okFp32 (opTrans 0x19)) s
/-- VEC_ERF: func 0x1A (05 Table 5.8). -/
def execVecErf (i : Issue) (s : State) : Res := vecIssue i 0x1A (vecOp okFp32 (opTrans 0x1A)) s
/-- VEC_GELU: func 0x1B (05 Table 5.8). -/
def execVecGelu (i : Issue) (s : State) : Res := vecIssue i 0x1B (vecOp okFp32 (opTrans 0x1B)) s
/-- VEC_SILU: func 0x1C (05 Table 5.8). -/
def execVecSilu (i : Issue) (s : State) : Res := vecIssue i 0x1C (vecOp okFp32 (opTrans 0x1C)) s
/-- VEC_SIN: func 0x1D (05 Table 5.8). -/
def execVecSin (i : Issue) (s : State) : Res := vecIssue i 0x1D (vecOp okFp32 (opTrans 0x1D)) s
/-- VEC_COS: func 0x1E (05 Table 5.8). -/
def execVecCos (i : Issue) (s : State) : Res := vecIssue i 0x1E (vecOp okFp32 (opTrans 0x1E)) s
/-- VEC_IADD: func 0x20 (05 Table 5.8). -/
def execVecIadd (i : Issue) (s : State) : Res := vecIssue i 0x20 (vecOp okI32 opIadd) s
/-- VEC_ISUB: func 0x21 (05 Table 5.8). -/
def execVecIsub (i : Issue) (s : State) : Res := vecIssue i 0x21 (vecOp okI32 opIsub) s
/-- VEC_IMUL: func 0x22 (05 Table 5.8). -/
def execVecImul (i : Issue) (s : State) : Res := vecIssue i 0x22 (vecOp okI32 opImul) s
/-- VEC_AND: func 0x23 (05 Table 5.8). -/
def execVecAnd (i : Issue) (s : State) : Res := vecIssue i 0x23 (vecOp okI32 opAnd) s
/-- VEC_OR: func 0x24 (05 Table 5.8). -/
def execVecOr (i : Issue) (s : State) : Res := vecIssue i 0x24 (vecOp okI32 opOr) s
/-- VEC_XOR: func 0x25 (05 Table 5.8). -/
def execVecXor (i : Issue) (s : State) : Res := vecIssue i 0x25 (vecOp okI32 opXor) s
/-- VEC_SHL: func 0x26 (05 Table 5.8). -/
def execVecShl (i : Issue) (s : State) : Res := vecIssue i 0x26 (vecOp okI32 opShl) s
/-- VEC_SHR: func 0x27 (05 Table 5.8). -/
def execVecShr (i : Issue) (s : State) : Res := vecIssue i 0x27 (vecOp okI32 opShr) s
/-- VEC_SRA: func 0x28 (05 Table 5.8). -/
def execVecSra (i : Issue) (s : State) : Res := vecIssue i 0x28 (vecOp okI32 opSra) s
/-- VEC_IMIN: func 0x29 (05 Table 5.8). -/
def execVecImin (i : Issue) (s : State) : Res := vecIssue i 0x29 (vecOp okPacked opImin) s
/-- VEC_IMAX: func 0x2A (05 Table 5.8). -/
def execVecImax (i : Issue) (s : State) : Res := vecIssue i 0x2A (vecOp okPacked opImax) s
/-- VEC_ADDSAT: func 0x2B (05 Table 5.8). -/
def execVecAddsat (i : Issue) (s : State) : Res := vecIssue i 0x2B (vecOp okPacked opAddsat) s
/-- VEC_SUBSAT: func 0x2C (05 Table 5.8). -/
def execVecSubsat (i : Issue) (s : State) : Res := vecIssue i 0x2C (vecOp okPacked opSubsat) s
/-- VEC_ICMP: func 0x2D (05 Table 5.8). -/
def execVecIcmp (i : Issue) (s : State) : Res := vecIssue i 0x2D (fun e s => e.vec okPacked fun f => vecCmpBody e s f) s
/-- VEC_CVT: func 0x30 (05 Table 5.8). -/
def execVecCvt (i : Issue) (s : State) : Res := vecIssue i 0x30 vecCvtBody s
/-- VEC_RSUM: func 0x38 (05 Table 5.8). -/
def execVecRsum (i : Issue) (s : State) : Res := vecIssue i 0x38 (fun e s => vecReduce e s 0) s
/-- VEC_RMAX: func 0x39 (05 Table 5.8). -/
def execVecRmax (i : Issue) (s : State) : Res := vecIssue i 0x39 (fun e s => vecReduce e s 1) s
/-- VEC_RMIN: func 0x3A (05 Table 5.8). -/
def execVecRmin (i : Issue) (s : State) : Res := vecIssue i 0x3A (fun e s => vecReduce e s 2) s
/-- VEC_LD: func 0x40 (05 Table 5.8). -/
def execVecLd (i : Issue) (s : State) : Res := vecIssue i 0x40 (vecLoadBody false okInput) s
/-- VEC_ST: func 0x41 (05 Table 5.8). -/
def execVecSt (i : Issue) (s : State) : Res := vecIssue i 0x41 (vecStoreBody false okWritten) s
/-- VEC_GATHER: func 0x42 (05 Table 5.8). -/
def execVecGather (i : Issue) (s : State) : Res := vecIssue i 0x42 (vecLoadBody true okGather) s
/-- VEC_SCATTER: func 0x43 (05 Table 5.8). -/
def execVecScatter (i : Issue) (s : State) : Res := vecIssue i 0x43 (vecStoreBody true okGather) s
/-- VEC_SCATADD: func 0x44 (05 Table 5.8). -/
def execVecScatadd (i : Issue) (s : State) : Res := vecIssue i 0x44 vecScataddBody s
/-- VEC_BCAST: func 0x45 (05 Table 5.8). -/
def execVecBcast (i : Issue) (s : State) : Res := vecIssue i 0x45 vecBcastBody s
/-- VEC_RRAW: func 0x48 (05 Table 5.8). -/
def execVecRraw (i : Issue) (s : State) : Res := vecIssue i 0x48 vecRrawBody s
/-- VEC_RUNI: func 0x49 (05 Table 5.8). -/
def execVecRuni (i : Issue) (s : State) : Res := vecIssue i 0x49 vecRuniBody s
/-- VEC_RBERN: func 0x4A (05 Table 5.8). -/
def execVecRbern (i : Issue) (s : State) : Res := vecIssue i 0x4A vecRbernBody s
/-- VEC_LDGEN: func 0x4B (05 Table 5.8). -/
def execVecLdgen (i : Issue) (s : State) : Res := vecIssue i 0x4B vecLdgenBody s
/-- VEC_TOPK: func 0x50 (05 Table 5.8). -/
def execVecTopk (i : Issue) (s : State) : Res := vecIssue i 0x50 vecTopkBody s
/-- VEC_SETVL: func 0x58 (05 Table 5.8). -/
def execVecSetvl (i : Issue) (s : State) : Res := vecIssue i 0x58 vecSetvlBody s
/-- VEC_MLD: func 0x59 (05 Table 5.8). -/
def execVecMld (i : Issue) (s : State) : Res := vecIssue i 0x59 vecMldBody s
/-- VEC_MST: func 0x5A (05 Table 5.8). -/
def execVecMst (i : Issue) (s : State) : Res := vecIssue i 0x5A vecMstBody s
/-- VEC_MAND: func 0x5B (05 Table 5.8). -/
def execVecMand (i : Issue) (s : State) : Res := vecIssue i 0x5B vecMandBody s
/-- VEC_MOR: func 0x5C (05 Table 5.8). -/
def execVecMor (i : Issue) (s : State) : Res := vecIssue i 0x5C vecMorBody s
/-- VEC_MNOT: func 0x5D (05 Table 5.8). -/
def execVecMnot (i : Issue) (s : State) : Res := vecIssue i 0x5D vecMnotBody s

end Sys2Proof.Machine
end

