-- ==== Sys2Proof/Machine/Train.lean ====
section
/-! DEFINITION. Sys2Proof/Machine/Train.lean: training contexts and the update lanes (10): gradient slices, the step vote and its verdict, the rules, parked updates. -/

namespace Sys2Proof.Machine

open Sys2Proof

/-! ### The gradient layout (10 R257) -/

/-- A tensor that the lanes update has a state record (10 R270). -/
def DirEntry.trained (e : DirEntry) : Bool := e.stateOff != noStateOff
def Variant.trained (x : Variant) : List DirEntry := x.dir.filter (·.trained)
/-- Bytes of an E5M2 gradient row, and of a tensor's rows and row scales. -/
def DirEntry.gradRow (e : DirEntry) : Nat := alignUp e.cols 64
def DirEntry.gradBytes (e : DirEntry) : Nat := e.rows * e.gradRow + alignUp (4 * e.rows) 64

/-- Start of each tensor, with its place in slice directory order. -/
def gradOffs : (i off : Nat) → List DirEntry → List (Nat × Nat × DirEntry)
  | _, _, [] => []
  | i, off, e :: l => (i, off, e) :: gradOffs (i + 1) (off + e.gradBytes) l

def Variant.gradBytes (x : Variant) : Nat := nsum (x.trained.map (·.gradBytes))
/-- The trained tensors of a layer with place and start. -/
def Variant.gradsOf (x : Variant) (layer : Nat) : List (Nat × Nat × DirEntry) :=
  (gradOffs 0 0 x.trained).filter fun t => t.2.2.layer == layer

/-- Start of a listed variant in the gradient area. -/
def State.gradStart (s : State) : (off vid : Nat) → List TVar → Nat
  | off, _, [] => off
  | off, vid, v :: l =>
    if v.vid = vid then off
    else s.gradStart (off + match s.variant v.vid with | some x => x.gradBytes | none => 0) vid l

/-- Byte `off` of the gradient that starts at `start` in the gradient area. -/
def Ctx.gradAt (cx : Ctx) (start off : Nat) : Option Addr := (ptrAddr cx.gradArea.toNat).map fun a => a.plus (start + off)

/-- Layers of a generation's base image (08 Table 8.2). -/
def State.genLayers (s : State) (g : Gen) : Nat := leAt (s.fslot g.slot.val).header 10 2

/-! ### Contexts -/

/-- The context of a live job that has not been stopped. -/
def State.ctxOf (s : State) (t : Tag) : Option (Job × CtxId) :=
  match s.job t with
  | some j => if j.stop.isSome then none else j.ctx.map fun x => (j, x)
  | none => none

def Ctx.var (cx : Ctx) (vid : Nat) : Option TVar := cx.vars.find? fun v => v.vid == vid
def Ctx.setVar (cx : Ctx) (vid : Nat) (f : TVar → TVar) : Ctx :=
  { cx with vars := cx.vars.map fun v => if v.vid = vid then f v else v }

/-- 10 R273: is a layer frozen for the variant in this step? -/
def TVar.frozen (v : TVar) (layer : Nat) : Bool := v.frozenAll || bitOf (v.freezeBits.getD (layer / 8) 0) (layer % 8)

/-- A step begins: the freeze bitmaps are read and the step's notes are clear (10 R273). `bad`: the parity failures of the bitmaps'
reads; one that ends the job leaves the context without a step (07 R162, R174). -/
def State.beginStep (s : State) (x : CtxId) (step : W64) (bad : List Nat) : State :=
  let cx := s.ctx x.val
  let reads := cx.vars.filterMap fun v => (ptrAddr v.freeze.toNat).map fun a => (a, ceilDiv cx.layers 8)
  (s.setCtx x.val { cx with state := .receiving }).readThen cx.who reads bad fun s =>
    let vars := cx.vars.map fun v =>
      let bits := match ptrAddr v.freeze.toNat with
        | some a => s.read cx.who.req a (ceilDiv cx.layers 8)
        | none => []
      { v with freezeBits := bits, normParts := [], got := [], skewed := [], apply := false, c := f32One, norm := 0 }
    s.setCtx x.val { cx with state := .receiving, stepNow := step, bad := false, childVotes := [], voted := false, vars := vars, stale := false, nextLayer := 0 }

/-- The base of a counter of context x (10 Table 10.9). -/
def ctxOff (x : CtxId) (off : Nat) : Nat := 0x040_0000 + 0x40 * x.val + off

def State.countFrozen (s : State) (x : CtxId) : State :=
  let b := bump (s.ctx x.val).frozen
  (s.modCtx x.val fun y => { y with frozen := b.1, frozenSat := y.frozenSat || b.2 }).satEvent b.2 9 (ctxOff x 0x28)
def State.countSkew (s : State) (x : CtxId) : State :=
  let b := bump (s.ctx x.val).skew
  (s.modCtx x.val fun y => { y with skew := b.1, skewSat := y.skewSat || b.2 }).satEvent b.2 9 (ctxOff x 0x38)
def State.countStale (s : State) (x : CtxId) : State :=
  let b := bump (s.ctx x.val).lrStale
  (s.modCtx x.val fun y => { y with lrStale := b.1, staleSat := y.staleSat || b.2 }).satEvent b.2 9 (ctxOff x 0x30)
def State.countSkipped (s : State) (x : CtxId) : State :=
  let b := bump (s.ctx x.val).skipped
  (s.modCtx x.val fun y => { y with skipped := b.1, skippedSat := y.skippedSat || b.2 }).satEvent b.2 9 (ctxOff x 0x20)

/-- Arguments of a UPD event (17 Table 17.3). -/
def updInfo (x : CtxId) (cx : Ctx) (vid layer low : Nat) : EvInfo :=
  { unit := BitVec.ofNat 8 x.val, tag := cx.tag, domain := cx.domain, aux := BitVec.ofNat 16 vid
    arg := BitVec.ofNat 64 (layer * 2 ^ 32 + low) }

/-! ### Norms (10 R260) -/

/-- FP32 sum of a list in ascending order. -/
def fsum (l : List W32) : W32 := l.foldl fadd f32Zero

/-- The sum of a row: trees of R94 over blocks of 256, the block sums ascending. -/
def rowSum (l : List W32) : W32 :=
  fsum ((List.range (ceilDiv l.length 256)).map fun b =>
    (tree fadd 8 ((List.range 256).map fun i => l.getD (256 * b + i) f32Zero)).headD f32Zero)

/-- A tensor's gradient as it was received: its values q × s row by row. -/
def DirEntry.gradVals (e : DirEntry) (l : Bytes) : List (List W32) :=
  (List.range e.rows).map fun i =>
    let sc := BitVec.ofNat 32 (leAt l (e.rows * e.gradRow + 4 * i) 4)
    ((l.drop (i * e.gradRow)).take e.cols).map fun b => fmul (Fmt.e5m2.f32 b.toNat) sc

/-- Has a received tensor an element with an infinity or NaN encoding? -/
def DirEntry.gradBad (e : DirEntry) (l : Bytes) : Bool :=
  (List.range e.rows).any fun i => ((l.drop (i * e.gradRow)).take e.cols).any fun b => !(Fmt.e5m2.val b.toNat).isFinite

/-- The tensor's norm partial. -/
def gradNorm (vals : List (List W32)) : W32 := fsum (vals.map fun r => rowSum (r.map fun x => fmul x x))

/-! ### Slices (10 R257, R273, R274) -/

/-- A slice of the current step is written once and gives its norm partials. -/
def State.takeSlice (s : State) (x : CtxId) (vid layer : Nat) (ts : List (Nat × Nat × DirEntry × Bytes)) : State :=
  let cx := s.ctx x.val
  let start := s.gradStart 0 vid cx.vars
  let s := foldS s ts fun s t =>
    match cx.gradAt start t.2.1 with
    | some a => s.store cx.who a t.2.2.2
    | none => s
  let parts := ts.map fun t => (layer, t.1, gradNorm (t.2.2.1.gradVals t.2.2.2))
  let bad := ts.any fun t => t.2.2.1.gradBad t.2.2.2
  s.modCtx x.val fun cx =>
    { cx.setVar vid fun v =>
        { v with got := layer :: v.got, normParts := (v.normParts.filter fun p => p.1 != layer) ++ parts } with
      bad := cx.bad || bad }

/-- The bytes of a tensor's slice from its rows: each row padded to 64 B, then the scales padded to 64 B (10 R257). -/
def sliceBytes (e : DirEntry) (l : List SliceRow) : Bytes :=
  (l.flatMap fun r => r.elems ++ List.replicate (e.gradRow - e.cols) 0) ++ l.flatMap (fun r => leBytes 4 r.scale.toNat) ++
    List.replicate (alignUp (4 * e.rows) 64 - 4 * e.rows) 0

/-- A layer's rows shared out over its tensors in slice directory order; none while they do not fill them exactly. -/
def shareRows : List (Nat × Nat × DirEntry) → List SliceRow → Option (List (Nat × Nat × DirEntry × Bytes))
  | [], l => if l.isEmpty then some [] else none
  | (i, o, e) :: ts, l =>
    if e.rows ≤ l.length ∧ (l.take e.rows).all fun r => r.elems.length == e.cols then
      (shareRows ts (l.drop e.rows)).map ((i, o, e, sliceBytes e (l.take e.rows)) :: ·)
    else none

/-- Rows in ascending order of descriptor and row. -/
def insertRow (r : SliceRow) : List SliceRow → List SliceRow
  | [] => [r]
  | a :: l => if r.entry < a.entry ∨ (r.entry = a.entry ∧ r.row ≤ a.row) then r :: a :: l else a :: insertRow r l

/-- GRAD_SLICE (10 R257): the rows of a slice of (vid, layer, step) that the collective engine has handed over (11 R305) are
whole. Which row of which descriptor is which tensor's, the spec leaves to the runtime: in ascending order of descriptor and row
they fill the tensors of the layer in slice directory order (DESIGN CHOICE, log 18). -/
def gradSlice (t : Tag) (vid : Vid) (layer : W16) (step : W32) (s : State) : State :=
  let l := layer.toNat
  match s.ctxOf t with
  | none => s
  | some (_, x) =>
    let cx := s.ctx x.val
    let mine (r : SliceRow) : Bool := r.vid == vid.toNat && r.layer == l && r.step == step
    match cx.var vid.toNat, s.variant vid.toNat with
    | some v, some y =>
      match shareRows (y.gradsOf l) ((cx.slice.filter mine).foldr insertRow []) with
      | none => s
      | some ts =>
        if ts.isEmpty then s
        else
          let s := s.setCtx x.val { cx with slice := cx.slice.filter fun r => !mine r }
          if v.frozen l then
            (s.countFrozen x).modCtx x.val fun cx => cx.setVar vid.toNat fun v => { v with got := l :: v.got }
          else if step ≠ cx.stepNow.truncate 32 then
            let sign := if serialAhead 32 step.toNat (cx.stepNow.toNat % 2 ^ 32) then 1 else 2 ^ 32 - 1
            let s := s.modCtx x.val fun cx => cx.setVar vid.toNat fun v =>
              { v with got := l :: v.got, skewed := if v.skewed.contains l then v.skewed else l :: v.skewed }
            (s.countSkew x).raise Ev.stepSkew (updInfo x cx vid.toNat l sign)
          else s.takeSlice x vid.toNat l ts
    | _, _ => s

/-! ### The rules (10 R265 to R269) -/

/-- β^t by binary exponentiation from the highest bit; 0 for t ≥ 2^16. -/
def betaPow (b : W32) (t : Nat) : W32 :=
  if 2 ^ 16 ≤ t then f32Zero
  else
    ((List.range (Nat.log2 t)).reverse).foldl (fun r i => let q := fmul r r; if t.testBit i then fmul q b else q) b

/-- What one application of a tensor's update is made with. -/
structure UpdArgs where
  vid : Nat
  rule : Nat
  v : TVar
  invL : W32
  c : W32
  eta : W32
  step : W64
  seed : W64
  t : Nat
  wsq : W32
  usq : W32
  rsum : W32
  n : Nat
  k : Nat

def UpdArgs.b1 (a : UpdArgs) : W32 := fsub f32One (betaPow a.v.beta1 a.t)
def UpdArgs.b2 (a : UpdArgs) : W32 := fsub f32One (betaPow a.v.beta2 a.t)

/-- What one element becomes: w′, the new state values, and what the row gathers: u or r, and g² + ε. -/
structure UpdElem where
  w : W32
  m : W32
  sv : W32
  u : W32
  ge : W32

/-- sign(x) with sign(±0) = 0; a NaN stays. -/
def fsign (x : W32) : W32 :=
  if (f32 x).isNan then x else if (f32 x).isZero then f32Zero else if (f32 x).sign then 0xBF80_0000 else f32One

def fofNat (n : Nat) : W32 := toF32 (FVal.ofInt n)

/-- m′ and √v′ of AdamW and LAMB. -/
def UpdArgs.moments (a : UpdArgs) (g m sv : W32) : W32 × W32 :=
  (fadd (fmul a.v.beta1 m) (fmul (fsub f32One a.v.beta1) g),
   fsqrt (fadd (fmul a.v.beta2 (fmul sv sv)) (fmul (fmul (fsub f32One a.v.beta2) g) g)))

/-- (m′ / b1) / (√v′ / sqrt(b2) + ε) + λ × w. -/
def UpdArgs.adam (a : UpdArgs) (w m sv : W32) : W32 :=
  fadd (fdiv (fdiv m a.b1) (fadd (fdiv sv (fsqrt a.b2)) a.v.eps)) (fmul a.v.wd w)

/-- One element (10 R265); `r` and `cj` the statistics R_i and C_j of Adafactor. -/
def UpdArgs.elem (a : UpdArgs) (w g m sv r cj : W32) : UpdElem :=
  let v := a.v
  let ge := fadd (fmul g g) v.eps
  match a.rule with
  | 1 =>
    let m' := fadd (fmul v.beta1 m) (fadd g (fmul v.wd w))
    ⟨fsub w (fmul a.eta m'), m', f32Zero, f32Zero, ge⟩
  | 2 =>
    let x := a.moments g m sv
    ⟨fsub w (fmul a.eta (a.adam w x.1 x.2)), x.1, x.2, f32Zero, ge⟩
  | 3 =>
    let u := fsign (fadd (fmul v.beta1 m) (fmul (fsub f32One v.beta1) g))
    let m' := fadd (fmul v.beta2 m) (fmul (fsub f32One v.beta2) g)
    ⟨fsub w (fmul a.eta (fadd u (fmul v.wd w))), m', f32Zero, u, ge⟩
  | 4 =>
    let vh := if a.t = 1 then f32One else fdiv (fmul (fmul r cj) (fofNat a.n)) a.rsum
    let u := fdiv g (fsqrt (fadd vh v.eps))
    let u := if a.t = 1 then u
      else fdiv u (fmax f32One (fdiv (fsqrt (fdiv a.usq (fofNat (a.n * a.k)))) v.rmsClip))
    ⟨fsub w (fmul a.eta (fadd u (fmul v.wd w))), f32Zero, f32Zero, u, ge⟩
  | _ =>
    let x := a.moments g m sv
    let q := a.adam w x.1 x.2
    let tau := if 1 < a.t ∧ !(f32 a.wsq).isZero ∧ !(f32 a.usq).isZero then fdiv (fsqrt a.wsq) (fsqrt a.usq) else f32One
    ⟨fsub w (fmul (fmul a.eta tau) q), x.1, x.2, q, ge⟩

/-- Rules with a first moment part, and with a second. -/
def hasM (rule : Nat) : Bool := rule != 4
def hasV (rule : Nat) : Bool := rule == 2 || rule == 5

/-- Where the parts of a tensor's state record lie (10 Table 10.8). -/
structure StateRec where
  blk : Addr
  m : Addr
  ms : Addr
  v : Addr
  vs : Addr

def DirEntry.stateRec (e : DirEntry) (base : Addr) (rule : Nat) : StateRec :=
  let b := base.plus e.stateOff
  let rows := e.rows * alignUp e.cols 64
  let scl := alignUp (4 * e.rows) 64
  let m := b.plus 64
  if rule = 4 then ⟨b, m, m, m.plus scl, m.plus scl⟩
  else ⟨b, m, m.plus rows, m.plus (rows + scl), m.plus (rows + scl + rows)⟩

/-- What the rows of a tensor gather (10 R266): row sums of w² and u², R′, column sums, and the state. -/
structure UpdAcc where
  s : State
  wsq : List W32
  usq : List W32
  rows : List W32
  cols : List W32

/-- The stored bits of w′ (10 R267). -/
def UpdArgs.weightBits (a : UpdArgs) (e : DirEntry) (i j : Nat) (w : W32) : Nat :=
  let gd : GenDesc := ⟨a.seed, BitVec.ofNat 32 a.vid, a.step.truncate 32, BitVec.ofNat 16 e.layer, 3, 0⟩
  (convert ⟨.bf16, true, false, false, false, false⟩ (f32 w) (gd.draw16 ((e.offset + i * e.rowBytes) / 2 + j)) 0).bits

/-- A state row written with its new scale (10 R262, 08 R205). -/
def putStateRow (s : State) (r : Req) (rows scl : Addr) (e : DirEntry) (i : Nat) (l : List W32) : State :=
  let x := scaleRow .fp32 .e4m3 448 [] (l.map (·.toNat))
  (s.rewrite r (rows.plus (i * alignUp e.cols 64)) (packElems .e4m3 x.elems)).rewrite r (scl.plus (4 * i)) (leBytes 4 x.scale.toNat)

/-- A state row read: values times the row scale; a second moment by its magnitude (02 R54). -/
def stateRow (s : State) (r : Req) (rows scl : Addr) (e : DirEntry) (i : Nat) (mag : Bool) : List W32 :=
  let sc := BitVec.ofNat 32 (leNat (s.read r (scl.plus (4 * i)) 4))
  (s.read r (rows.plus (i * alignUp e.cols 64)) e.cols).map fun b =>
    fmul (Fmt.e4m3.f32 (if mag then b.toNat % 128 else b.toNat)) sc

/-- One row of a tensor is computed whole, then written; a row with a non-finite result stays as it was (10 R262, R269). -/
def UpdArgs.row (a : UpdArgs) (x : CtxId) (cx : Ctx) (e : DirEntry) (wAt grad : Addr) (sr : StateRec) (cs : List W32)
    (acc : UpdAcc) (i : Nat) : UpdAcc :=
  let s := acc.s
  let r := cx.who.req
  let ws := (elemsOf .bf16 e.cols (s.read r (wAt.plus (i * e.rowBytes)) (2 * e.cols))).map Fmt.bf16.f32
  let sg := BitVec.ofNat 32 (leNat (s.read r (grad.plus (e.rows * e.gradRow + 4 * i)) 4))
  let gs := (s.read r (grad.plus (i * e.gradRow)) e.cols).map fun b =>
    fmul (fmul (fmul (Fmt.e5m2.f32 b.toNat) sg) a.invL) a.c
  let ms := if hasM a.rule then stateRow s r sr.m sr.ms e i false else []
  let vs := if hasV a.rule then stateRow s r sr.v sr.vs e i true else []
  let ri := if a.rule = 4 then BitVec.ofNat 32 (leNat (s.read r (sr.m.plus (4 * i)) 4)) else f32Zero
  let out := (List.range e.cols).map fun j =>
    a.elem (ws.getD j f32Zero) (gs.getD j f32Zero) (ms.getD j f32Zero) (vs.getD j f32Zero) ri (cs.getD j f32Zero)
  let bad := out.any fun o => !(f32 o.w).isFinite || !(f32 o.m).isFinite || !(f32 o.sv).isFinite
  let ri' := fadd (fmul a.v.beta2 ri) (fmul (fsub f32One a.v.beta2) (fdiv (rowSum (out.map (·.ge))) (fofNat e.cols)))
  let s :=
    if bad then s.raise Ev.updNonfinite (updInfo x cx a.vid e.layer i)
    else
      let s := s.rewrite r (wAt.plus (i * e.rowBytes))
        (packElems .bf16 (out.zipIdx.map fun o => a.weightBits e i o.2 o.1.w))
      let s := if hasM a.rule then putStateRow s r sr.m sr.ms e i (out.map (·.m)) else s
      let s := if hasV a.rule then putStateRow s r sr.v sr.vs e i (out.map (·.sv)) else s
      if a.rule = 4 then s.rewrite r (sr.m.plus (4 * i)) (leBytes 4 ri'.toNat) else s
  { s := s
    wsq := acc.wsq ++ [rowSum (ws.map fun w => fmul w w)]
    usq := acc.usq ++ [rowSum (out.map fun o => fmul o.u o.u)]
    rows := acc.rows ++ [if bad then ri else ri']
    cols := if a.rule = 4 then (out.zipIdx.map fun o => fadd (acc.cols.getD o.2 f32Zero) o.1.ge) else [] }

/-- The statistics block after an applied update (10 R266, Table 10.7). -/
def UpdArgs.block (a : UpdArgs) (old : Bytes) (acc : UpdAcc) : Bytes :=
  leBytes 8 a.t ++ leBytes 4 (if a.rule = 5 then (fsum acc.wsq).toNat else leAt old 8 4) ++
    leBytes 4 (if a.rule = 4 ∨ a.rule = 5 then (fsum acc.usq).toNat else leAt old 12 4) ++
    leBytes 4 (if a.rule = 4 then (fsum acc.rows).toNat else leAt old 16 4) ++ List.replicate 44 0

/-- What a step applies to one variant: the loss scale of the gradients, clip factor, step size, step, and where its gradient
starts in the gradient area. -/
structure Applied where
  scale : W32
  c : W32
  eta : W32
  step : W64
  grad : Nat

/-- One tensor's update (10 R261). -/
def State.updTensor (s : State) (x : CtxId) (cx : Ctx) (v : TVar) (y : Variant) (p : Applied) (off : Nat) (e : DirEntry) :
    State :=
  match cx.gradAt p.grad off with
  | none => s
  | some grad =>
    let r := cx.who.req
    let sr := e.stateRec y.stateAt y.rule
    let blk := s.read r sr.blk 64
    let a : UpdArgs :=
      { vid := v.vid, rule := y.rule, v := v, invL := fdiv f32One p.scale, c := p.c, eta := fmul p.eta v.lrMul
        step := p.step, seed := cx.seed, t := leAt blk 0 8 + 1, wsq := BitVec.ofNat 32 (leAt blk 8 4)
        usq := BitVec.ofNat 32 (leAt blk 12 4), rsum := BitVec.ofNat 32 (leAt blk 16 4), n := e.rows, k := e.cols }
    let cs := if y.rule = 4 then elemsOf .fp32 e.cols (s.read r sr.v (4 * e.cols)) |>.map (BitVec.ofNat 32) else []
    let acc := (List.range e.rows).foldl (a.row x cx e ((y.area 2).plus e.offset) grad sr cs)
      ⟨s, [], [], [], List.replicate e.cols f32Zero⟩
    let s := if y.rule = 4 then
        acc.s.rewrite r sr.v ((cs.zip acc.cols).flatMap fun q =>
          leBytes 4 (fadd (fmul v.beta2 q.1) (fmul (fsub f32One v.beta2) (fdiv q.2 (fofNat e.rows)))).toNat)
      else acc.s
    s.rewrite r sr.blk (a.block blk acc)

/-- A read of poisoned memory on behalf of a job ends it (07 Table 7.7 step 5). -/
def State.poisonStop (s : State) (t : Tag) (r : Req) (l : List (Addr × Nat)) : State :=
  match poisonAll s r l with
  | .ok _ => s
  | .error f =>
    s.faultJob t f.code { unit := BitVec.ofNat 8 (f.unit.getD 0), arg := BitVec.ofNat 64 f.arg }

/-- The tensors of one layer of one variant. -/
def State.updLayer (s : State) (x : CtxId) (v : TVar) (p : Applied) (layer : Nat) : State :=
  match s.variant v.vid with
  | none => s
  | some y =>
    foldS s (y.gradsOf layer) fun s t =>
      let cx := s.ctx x.val
      let e := t.2.2
      let rd := (((y.area 2).plus e.offset, e.bytes)) :: ((e.stateRec y.stateAt y.rule).blk, stateBytes y.rule e.rows e.cols) ::
        (match cx.gradAt p.grad t.2.1 with | some a => [(a, e.gradBytes)] | none => [])
      ((s.updTensor x cx v y p t.2.1 e).noteReads cx.who rd).poisonStop cx.tag cx.who.req rd

/-! ### The verdict (10 R258, R259) -/

/-- A signal of the lanes to an index on every cluster of the context. -/
def State.signalAll (s : State) (cx : Ctx) (i : Nat) : State :=
  foldS s (clustersOf cx.clusters) fun s c => s.signalSem cx.tag c.val i 1

/-- Layers that hold a tensor of a listed variant. -/
def State.tensorLayers (s : State) (cx : Ctx) : List Nat :=
  (List.range cx.layers).filter fun l => cx.vars.any fun v =>
    match s.variant v.vid with
    | some y => !(y.gradsOf l).isEmpty
    | none => false

/-- The step after this one begins once no layer is left. -/
def State.layersTry (s : State) (x : CtxId) (bad : List Nat) : State :=
  let cx := s.ctx x.val
  if (s.tensorLayers cx).any fun l => decide (cx.nextLayer ≤ l) then s else s.beginStep x (cx.stepNow + 1) bad

/-- Writes the park field or the outcome of a variant entry (10 Table 10.2). -/
def State.putEntry (s : State) (cx : Ctx) (i off : Nat) (l : Bytes) : State :=
  match ptrAddr cx.varList.toNat with
  | some a => s.store cx.who (a.plus (64 * i + off)) l
  | none => s

/-- What a verdict does to one variant on this member. -/
inductive Outcome where
  | applied | skipped | withheld | deferred | skewed
deriving DecidableEq, Repr

/-- Codes of Table 10.6. -/
def Outcome.code : Outcome → Nat
  | .applied => 0 | .skipped => 1 | .withheld => 2 | .deferred => 3 | .skewed => 4

/-- 10 R275: is the update of a variant parked? -/
def State.parks (s : State) (v : TVar) : Bool :=
  !v.frozenAll && match s.variant v.vid with
    | some y => !y.stateIn
    | none => false

def State.outcomeOf (s : State) (skip : Bool) (v : TVar) (p : VerdictPart) : Outcome :=
  if skip then .skipped
  else if !p.apply then .withheld
  else if s.parks v then .deferred
  else if !v.skewed.isEmpty then .skewed
  else .applied

/-- The outcome of the step's record: the first of the codes that some variant has. -/
def stepOutcome (l : List Outcome) : Nat :=
  match [Outcome.skipped, .withheld, .deferred, .skewed].find? l.contains with
  | some o => o.code
  | none => 0

/-- Step size in force for the step (10 R272): its own value when the tag is the step's, else the last one used. -/
def State.readLr (s : State) (x : CtxId) : State :=
  let cx := s.ctx x.val
  if cx.lrTag = cx.stepNow.truncate 32 then s.setCtx x.val { cx with lrLast := cx.lr }
  else
    let s := s.setCtx x.val { cx with stale := true }
    (s.countStale x).raise Ev.lrStale (updInfo x cx 0 0 0)

/-- Control block, step log and variant entries (10 Tables 10.2, 10.4, 10.6). -/
def State.writeLog (s : State) (x : CtxId) (v : VerdictMsg) (outs : List (TVar × VerdictPart × Outcome)) : State :=
  let cx := s.ctx x.val
  let w := cx.who
  let os := outs.map fun e => e.2.2
  let code := if v.skip then 1 else if os.any fun o => o != .applied then 2 else 0
  let s := match ptrAddr cx.ctrl.toNat with
    | some a =>
      (s.store w a (leBytes 8 v.step.toNat ++ leBytes 4 v.scale.toNat ++ leBytes 1 code ++ leBytes 3 0)).store w
        (a.plus 32) (List.replicate 32 0)
    | none => s
  let s := match ptrAddr cx.stepLog.toNat with
    | some a =>
      s.store w (a.plus (32 * ((v.step - cx.firstStep).toNat % max 1 cx.logLen)))
        (leBytes 8 v.step.toNat ++ leBytes 4 cx.scaleUsed.toNat ++ leBytes 4 cx.lrLast.toNat ++ leBytes 1 (stepOutcome os) ++
          leBytes 1 (b2n cx.stale) ++ leBytes 2 (os.countP (· == .withheld)) ++ leBytes 2 (os.countP (· == .deferred)) ++
          leBytes 2 (nsum (cx.vars.map fun t => t.skewed.length)) ++ List.replicate 8 0)
    | none => s
  foldS s outs.zipIdx fun s e =>
    (s.putEntry cx e.2 3 (leBytes 1 e.1.2.2.code)).putEntry cx e.2 36 (leBytes 4 e.1.2.1.norm.toNat)

/-- 10 R275: the park records of the deferred variants. -/
def State.parkAll (s : State) (x : CtxId) (outs : List (TVar × VerdictPart × Outcome)) : State :=
  foldS s outs.zipIdx fun s e =>
    if e.1.2.2 ≠ .deferred then s
    else
      let cx := s.ctx x.val
      let v := e.1.1
      let p : Park := ⟨v.vid, cx.stepNow, cx.scaleUsed, e.1.2.1.c, cx.lrLast, e.1.2.1.norm,
        (List.range cx.layers).filter fun l => v.frozen l || v.skewed.contains l, s.gradStart 0 v.vid cx.vars⟩
      let s := s.putEntry cx e.2 48 (leBytes 8 cx.stepNow.toNat)
      s.modCtx x.val fun cx => { cx.setVar v.vid fun v => { v with frozenAll := true } with parks := cx.parks ++ [p] }

/-- The verdict of a step takes effect on this member (10 R259, R261, R263, R277). -/
def State.applyVerdict (s : State) (x : CtxId) (v : VerdictMsg) (bad : List Nat) : State :=
  let cx := s.ctx x.val
  let growth := if cx.growth = 0 then 2000 else cx.growth
  let clean := if v.skip ∨ cx.clean + 1 = growth then 0 else cx.clean + 1
  let s := s.setCtx x.val { cx with scaleUsed := cx.scale, scale := v.scale, clean := clean }
  let s := if v.skip then s else s.readLr x
  let outs := (cx.vars.zip v.parts).map fun e => (e.1, e.2, s.outcomeOf v.skip e.1 e.2)
  let s := s.writeLog x v outs
  let s := s.parkAll x outs
  let s := s.signalAll cx (cx.voteSem + 1)
  if v.skip then
    let s := (s.countSkipped x).modCtx x.val fun cx => { cx with skippedAny := true }
    let s := s.raise Ev.updStepSkipped { tag := cx.tag, domain := cx.domain }
    let s := foldS s (List.range cx.layers) fun s l => s.signalAll cx (cx.updSem + l)
    s.beginStep x (cx.stepNow + 1) bad
  else
    let s := foldS s outs fun s e =>
      if e.2.2 = .withheld then s.raise Ev.updWithheld (updInfo x cx e.1.vid 0 0) else s
    let s := s.modCtx x.val fun y =>
      { y with
        state := .updating, upStep := cx.stepNow, nextLayer := 0
        vars := y.vars.zip v.parts |>.map fun e =>
          { e.1 with apply := e.2.apply && !e.1.frozenAll, c := e.2.c, norm := e.2.norm } }
    let has := s.tensorLayers cx
    let s := foldS s ((List.range cx.layers).filter fun l => !has.contains l) fun s l => s.signalAll cx (cx.updSem + l)
    s.layersTry x bad

/-- The verdict goes down the tree and takes effect here. -/
def State.giveVerdict (s : State) (j : Job) (x : CtxId) (v : VerdictMsg) (bad : List Nat) : State :=
  (if s.jobChildren j = 0 then s else s.emit (.verdict (s.jobDown j) j.tag v)).applyVerdict x v bad

/-- The variant's norm partial: tensor sums in slice directory order (10 R260). -/
def TVar.normOwn (v : TVar) : W32 :=
  let l := v.normParts
  fsum ((List.range (nmax (l.map fun p => p.2.1 + 1))).filterMap fun i => (l.find? fun p => p.2.1 == i).map fun p => p.2.2)

/-- 2^24 and 2^-24. -/
def scaleMax : W32 := 0x4B80_0000
def scaleMin : W32 := 0x3380_0000

/-- The root's decision for one variant (10 R258). -/
def decidePart (l : W32) (v : TVar) (norm2 : W32) : VerdictPart :=
  let nv := fsqrt (fdiv norm2 (fmul l l))
  if flt v.normLimit nv then ⟨false, f32One, nv⟩
  else ⟨true, if v.clipEn && flt v.clip nv then fdiv v.clip nv else f32One, nv⟩

/-- The root's decision (10 R258). -/
def Ctx.decide (cx : Ctx) (bad : Bool) (norms : List W32) : VerdictMsg :=
  let growth := if cx.growth = 0 then 2000 else cx.growth
  if bad || norms.any fun n => !(f32 n).isFinite then
    ⟨cx.stepNow, true, norms.map fun _ => ⟨false, f32One, 0⟩, fmax (fmul cx.scale 0x3F00_0000) scaleMin⟩
  else
    ⟨cx.stepNow, false, (cx.vars.zip norms).map fun e => decidePart cx.scale e.1 e.2,
      if cx.clean + 1 = growth then toF32 ((f32 (fmul cx.scale 0x4000_0000)).min (f32 scaleMax)) else cx.scale⟩

/-- A child's vote in its place: ascending by the lowest port of its gang. -/
def insertVote (v : PortId × Bool × List W32) : List (PortId × Bool × List W32) → List (PortId × Bool × List W32)
  | [] => [v]
  | a :: l => if v.1 < a.1 then v :: a :: l else a :: insertVote v l

/-- The lowest port of the gang that a control-tree port belongs to. -/
def State.gangPort (s : State) (p : PortId) : PortId :=
  match s.childEdges.find? fun g => bitOf g p.val with
  | some g => (portsOf g).headD p
  | none => p

/-- Own vote and every child's are in: they combine, and go up or are decided (10 R258). `bad`: the parity failures of the next step's
bitmaps. -/
def State.voteTry (s : State) (j : Job) (x : CtxId) (rd : List Nat) : State :=
  let cx := s.ctx x.val
  if !cx.voted ∨ cx.state ≠ .voting ∨ cx.childVotes.length < s.jobChildren j then s
  else
    let bad := cx.childVotes.foldl (fun b v => b || v.2.1) cx.bad
    let norms := cx.childVotes.foldl (fun l v => (l.zip v.2.2).map fun e => fadd e.1 e.2) (cx.vars.map (·.normOwn))
    if s.jobRoot j then s.giveVerdict j x (cx.decide bad norms) rd
    else s.emit (.vote .up j.tag (cx.stepNow.truncate 32) bad norms)

/-- Every trained layer of every variant has been received. -/
def State.allGot (s : State) (cx : Ctx) : Bool :=
  cx.vars.all fun v =>
    match s.variant v.vid with
    | some y => y.trained.all fun e => v.got.contains e.layer
    | none => true

/-- Does the context still have a step to run (10 R252, R278)? -/
def Ctx.stepLeft (cx : Ctx) : Bool := Nat.blt (cx.stepNow - cx.firstStep).toNat cx.steps

/-- The lanes take the streams of a step as finished: vote_sem + 0 holds vote_count on every cluster (10 R258). -/
def State.streamsPassed (s : State) (cx : Ctx) : Bool :=
  (clustersOf cx.clusters).all fun c => decide (cx.voteCount ≤ ((s.clu c.val).sem cx.voteSem).toNat)

/-- Is a step of the context under way that its streams have passed: it votes, is updated, or waits for its slices (10 R278)? -/
def State.lanesBusy (s : State) (cx : Ctx) : Bool :=
  match cx.state with
  | .voting | .updating => true
  | .receiving => cx.stepLeft && s.streamsPassed cx
  | .free => false

/-- STEP_VOTE (10 R258): once every slice of a step of the job is in and its streams have passed. `bad`: the parity failures of the
control block's read, then those of the next step's bitmaps. -/
def stepVote (x : CtxId) (bad : List Nat) (s : State) : State :=
  let cx := s.ctx x.val
  let cs := clustersOf cx.clusters
  match s.ctxOf cx.tag with
  | none => s
  | some (j, y) =>
    if y ≠ x ∨ cx.state ≠ .receiving ∨ !cx.stepLeft ∨ !s.allGot cx ∨ !s.streamsPassed cx then s
    else
      let s := foldS s cs fun s c =>
        s.modClu c.val fun k => k.setSem cx.voteSem (k.sem cx.voteSem - BitVec.ofNat 32 cx.voteCount)
      let reads := match ptrAddr cx.ctrl.toNat with | some a => [(a.plus 16, 16)] | none => []
      s.readThen cx.who reads (bad.take reads.length) fun s =>
        let r := match ptrAddr cx.ctrl.toNat with
          | some a =>
            let h := s.read cx.who.req (a.plus 16) 16
            (leAt h 4 4 != 0 || leAt h 8 4 != 0, s.store cx.who (a.plus 16) (List.replicate 16 0))
          | none => (false, s)
        (r.2.modCtx x.val fun cx => { cx with state := .voting, voted := true, bad := cx.bad || r.1 }).voteTry j x
          (bad.drop reads.length)

/-- VOTE of a child (10 R258). It may come before this member's own vote. `rd`: the parity failures of the next step's bitmaps. -/
def vote (m : Msg) (step : W32) (bad : Bool) (norms : List W32) (rd : List Nat) (s : State) : State :=
  s.receiveJob m [0] (fun e => .vote e m.tag step bad norms) fun _ s =>
    match s.ctxOf m.tag with
    | none => s
    | some (j, x) =>
      let cx := s.ctx x.val
      if !s.fromChild j m.port ∨ step ≠ cx.stepNow.truncate 32 ∨ norms.length ≠ cx.vars.length then s
      else
        (s.setCtx x.val { cx with childVotes := insertVote (s.gangPort m.port, bad, norms) cx.childVotes }).voteTry j x rd

/-- VERDICT of the parent (10 R259). `rd`: the parity failures of the next step's bitmaps. -/
def verdict (m : Msg) (v : VerdictMsg) (rd : List Nat) (s : State) : State :=
  s.receiveJob m [0] (fun e => .verdict e m.tag v) fun _ s =>
    match s.ctxOf m.tag with
    | none => s
    | some (j, x) =>
      let cx := s.ctx x.val
      if !s.fromParent m.port ∨ cx.state ≠ .voting ∨ v.step ≠ cx.stepNow ∨ v.parts.length ≠ cx.vars.length then s
      else s.giveVerdict j x v rd

/-! ### Layers (10 R261, R263) -/

/-- The layer that the lanes are in. -/
def State.layerNow (s : State) (cx : Ctx) : Option Nat := (s.tensorLayers cx).find? fun l => decide (cx.nextLayer ≤ l)

/-- A member whose job was stopped ends with the layer it was in. -/
def State.layerEnd (s : State) (x : CtxId) (bad : List Nat) : State :=
  let cx := s.ctx x.val
  if (s.ctxOf cx.tag).isSome then s.layersTry x bad else s.setCtx x.val { cx with state := .receiving }

/-- LAYER_UPDATE_DONE (10 R261, R263): a layer of every variant has been written, and its semaphore is signalled. `bad`: the parity
failures of the next step's bitmaps. -/
def layerUpdateDone (x : CtxId) (layer : Nat) (bad : List Nat) (s : State) : State :=
  let cx := s.ctx x.val
  if cx.state ≠ .updating ∨ s.layerNow cx ≠ some layer then s
  else
    let s := foldS s cx.vars fun s v =>
      if v.apply ∧ !v.frozen layer ∧ !v.skewed.contains layer then
        s.updLayer x v ⟨cx.scaleUsed, v.c, cx.lrLast, cx.stepNow, s.gradStart 0 v.vid cx.vars⟩ layer
      else s
    let s := s.signalAll cx (cx.updSem + layer)
    (s.modCtx x.val fun y => { y with nextLayer := layer + 1 }).layerEnd x bad

/-! ### Parked updates (10 R276) -/

/-- One parked update is applied with its recorded values. -/
def State.applyPark (s : State) (x : CtxId) (p : Park) : State :=
  let cx := s.ctx x.val
  match cx.var p.vid with
  | some v =>
    let s := foldS s (List.range cx.layers) fun s l =>
      if p.left.contains l then s else s.updLayer x v ⟨p.scale, p.c, p.eta, p.step, p.grad⟩ l
    (s.clearPark cx p.vid).raise Ev.updParkApplied { tag := cx.tag, domain := cx.domain }
  | none => s

/-- PARKED_APPLY: state_in of the variant has completed. -/
def parkedApply (vid : Vid) (s : State) : State :=
  match s.variant vid.toNat with
  | none => s
  | some y =>
    if !y.stateIn then s
    else
      foldS s (List.finRange 64) fun s x =>
        let mine := (s.ctx x.val).parks.filter fun p => p.vid == vid.toNat
        if mine.isEmpty then s
        else
          let s := foldS s mine fun s p => s.applyPark x p
          let cx := s.ctx x.val
          let l := cx.parks.filter fun p => p.vid != vid.toNat
          s.setCtx x.val (if l.isEmpty ∧ cx.ended then cx.freed else { cx with parks := l })

/-- WQ_STEP_LR (12 R333): the alias of UPD_STEP_LR of the queue's live training job. -/
def wqStepLr (f : FnId) (q : QId) (v : W64) (s : State) : State :=
  s.fnReg f fun s =>
    let j := s.jobs.list.find? fun j => j.admitted && j.phase != .ended && j.fn == f && j.q == q && j.ctx.isSome
    match j.bind (·.ctx) with
    | some x => s.modCtx x.val fun cx => { cx with lrTag := v.extractLsb' 32 32, lr := v.truncate 32 }
    | none => s.raise Ev.hifLrNoJob

/-! ### The meanings -/

/-- GRAD_SLICE (10 R257). -/
def execGradSlice (t : Tag) (vid : Vid) (layer : W16) (step : W32) (s : State) : Res :=
  .next (gradSlice t vid layer step s)
/-- STEP_VOTE (10 R258). -/
def execStepVote (x : CtxId) (bad : List Nat) (s : State) : Res := .next (stepVote x bad s)
/-- VOTE (10 R258). -/
def execVote (m : Msg) (step : W32) (bad : Bool) (norms : List W32) (rd : List Nat) (s : State) : Res :=
  .next (vote m step bad norms rd s)
/-- VERDICT (10 R259). -/
def execVerdict (m : Msg) (v : VerdictMsg) (rd : List Nat) (s : State) : Res := .next (verdict m v rd s)
/-- LAYER_UPDATE_DONE (10 R263). -/
def execLayerUpdateDone (x : CtxId) (layer : Nat) (bad : List Nat) (s : State) : Res := .next (layerUpdateDone x layer bad s)
/-- PARKED_APPLY (10 R276). -/
def execParkedApply (vid : Vid) (s : State) : Res := .next (parkedApply vid s)
/-- WQ_STEP_LR (12 R333). -/
def execWqStepLr (f : FnId) (q : QId) (v : W64) (s : State) : Res := .next (wqStepLr f q v s)

end Sys2Proof.Machine
end

