-- ==== Sys2Proof/Machine/Coll.lean ====
section
/-! DEFINITION. Sys2Proof/Machine/Coll.lean: the collective engine (11 R300 to R305): ring reduce-scatter, all-gather and all-reduce, tree reduce and broadcast. -/

namespace Sys2Proof.Machine

open Sys2Proof

/-- A row as it lies in memory or travels: its FP32 scale (1.0 for BF16) and its elements. -/
structure CollRow where
  scale : W32
  elems : List Nat

def Coll.pitch (cv : Coll) : Nat := alignUp (cv.cols * cv.fmt.bytes) 64
def Coll.scaled (cv : Coll) : Bool := cv.fmt == .e5m2

/-- Low 32 bits of the step of the run that is on or comes next (11 R301). -/
def Coll.step (cv : Coll) : W32 := (cv.baseStep + BitVec.ofNat 64 cv.run).truncate 32

def State.collOf (s : State) (t : Tag) (entry : Nat) : Option Coll := s.coll.find? fun x => x.tag == t && x.entry == entry
def State.setColl (s : State) (cv : Coll) : State :=
  { s with coll := s.coll.map fun x => if x.tag == cv.tag && x.entry == cv.entry then cv else x }

/-! ### Rows -/

def Coll.rowAt (cv : Coll) (r : Nat) : Option Addr := (ptrAddr cv.buf.toNat).map fun a => a.plus (r * cv.pitch)
def Coll.scaleAt (cv : Coll) (r : Nat) : Option Addr := (ptrAddr cv.scales.toNat).map fun a => a.plus (4 * r)

/-- This node's contribution. -/
def State.ownRow (s : State) (w : Who) (cv : Coll) (r : Nat) : CollRow where
  scale := if cv.scaled then (match cv.scaleAt r with | some a => BitVec.ofNat 32 (leNat (s.read w.req a 4)) | none => 0)
    else f32One
  elems := match cv.rowAt r with
    | some a => elemsOf cv.fmt cv.cols (s.read w.req a (cv.cols * cv.fmt.bytes))
    | none => List.replicate cv.cols 0

/-- Elements widened to FP32 (11 R303). -/
def Coll.widen (cv : Coll) (x : CollRow) : List W32 :=
  x.elems.map fun e => if cv.scaled then fmul (cv.fmt.f32 e) x.scale else cv.fmt.f32 e

/-- A row of sums encoded again (11 R303), with what the conversion gives its health record. -/
def Coll.encode (cv : Coll) (l : List W32) : CollRow × List AmaxIn :=
  if cv.scaled then
    let amax := l.foldl (fun m x => if (f32 x).isFinite then fmax m (toF32 (f32 x).abs) else m) f32Zero
    let target := fofNat 32768
    let pos := !(f32 amax).isZero
    let inv := if pos then fdiv target amax else f32Zero
    let ys := l.map fun x => f32 (fmul x inv)
    let out := ys.map fun y => convert ⟨.e5m2, false, false, false, false, false⟩ y 0 0
    (⟨if pos then fdiv amax target else f32One, out.map (·.bits)⟩, (ys.zip out).map fun e => (e.1, e.2.sat))
  else (⟨f32One, l.map fun x => fmtBF16.round (f32 x)⟩, [])

/-- Adds a received partial to an accumulated row (11 R303). -/
def State.combine (s : State) (w : Who) (cv : Coll) (a b : CollRow) : CollRow × State :=
  let r := cv.encode ((cv.widen a).zip (cv.widen b) |>.map fun e => fadd e.1 e.2)
  match ptrAddr cv.health.toNat with
  | some h => (r.1, s.mergeAmax w h none r.2)
  | none => (r.1, s)

/-! ### Messages of the engine (11 R302, R304) -/

/-- The gang that leads on round the ring in a direction. -/
def State.ringGang (s : State) (cw : Bool) : BitVec 12 :=
  match topoNode s.cfg.live.topo s.lnk.node with
  | some n => if cw then n.cw else n.ccw
  | none => 0

/-- A message that travels clockwise comes by the counter-clockwise gang. -/
def State.cameClockwise (s : State) (p : PortId) : Bool := bitOf (s.ringGang false) p.val

/-- Bytes of a message (11 Table 11.9). -/
def collBytes (x : CollMsg) : Bytes :=
  leBytes 4 x.step.toNat ++ leBytes 2 x.entry ++ leBytes 1 x.kind ++ leBytes 1 x.hops ++ leBytes 4 x.firstRow ++
    leBytes 2 x.nrows ++ leBytes 4 x.firstCol ++ leBytes 4 x.count ++ List.replicate 10 0 ++ x.data

/-- A message from its bytes; none where the header is short or a reserved byte is not zero. -/
def collMsg (l : Bytes) : Option CollMsg :=
  if l.length < 32 ∨ leAt l 22 10 ≠ 0 then none
  else
    some
      { step := BitVec.ofNat 32 (leAt l 0 4), entry := leAt l 4 2, kind := leAt l 6 1, hops := leAt l 7 1
        firstRow := leAt l 8 4, nrows := leAt l 12 2, firstCol := leAt l 14 4, count := leAt l 18 4, data := l.drop 32 }

/-- A message of a run goes by a gang: it takes the next number of its run there (R302; numbered by gang: DESIGN CHOICE,
log 18). -/
def State.sendColl (s : State) (t : Tag) (gang : BitVec 12) (x : CollMsg) : State :=
  match s.collOf t x.entry with
  | none => s
  | some cv =>
    let n := match cv.sent.find? fun e => e.1 == gang with
      | some e => e.2
      | none => 0
    (s.setColl { cv with sent := (gang, n + 1) :: cv.sent.filter fun e => e.1 != gang }).emit (.collective gang n t (collBytes x))

/-- Bytes of a row as a message carries it. -/
def Coll.pack (cv : Coll) (x : CollRow) : Bytes :=
  (if cv.scaled then leBytes 4 x.scale.toNat else []) ++ packElems cv.fmt x.elems

/-- A row sent in messages of at most 4,016 B (11 R292, R304): one row a message, cut where it is longer. -/
def State.sendRow (s : State) (cv : Coll) (gangs : List (BitVec 12)) (hops r : Nat) (x : CollRow) : State :=
  let per := if cv.scaled then 3980 else 1992
  foldS s gangs fun s g =>
    foldS s (List.range (ceilDiv cv.cols per)) fun s i =>
      let l := (x.elems.drop (i * per)).take per
      s.sendColl cv.tag g
        { step := cv.step, entry := cv.entry, kind := cv.kind, hops := hops, firstRow := r, nrows := 1, firstCol := i * per
          count := l.length, data := cv.pack { x with elems := l } }

/-- A result is in place: in buf, or handed to the update lanes of this node as a row of its reduced slice (11 R305, 10 R257). -/
def State.placeRow (s : State) (w : Who) (cv : Coll) (r : Nat) (x : CollRow) : State :=
  if cv.deliver then
    match s.ctxOf cv.tag with
    | some (_, i) =>
      s.modCtx i.val fun cx =>
        { cx with
          slice := cx.slice ++ [⟨cv.vid, cv.layer, cv.step, cv.entry, r, x.elems.map fun e => BitVec.ofNat 8 e, x.scale⟩] }
    | none => s
  else
    let s := match cv.rowAt r with
      | some a => s.store w a (packElems cv.fmt x.elems)
      | none => s
    match cv.scaled, cv.scaleAt r with
    | true, some a => s.store w a (leBytes 4 x.scale.toNat)
    | _, _ => s

/-! ### Messages -/

/-- Does a message carry results, that pass round unchanged? In an all-reduce those have every contribution summed. -/
def gathers (x : CollMsg) (ring : Nat) : Bool := x.kind == 2 || x.kind == 5 || (x.kind == 3 && x.hops == ring)

/-- Row r of a message, if it holds one. -/
def Coll.rowIn (cv : Coll) (x : CollMsg) (r : Nat) : Option CollRow :=
  if x.firstRow ≤ r ∧ r < x.firstRow + x.nrows then
    let i := r - x.firstRow
    let sb := if cv.scaled then 4 * x.nrows else 0
    some
      { scale := if cv.scaled then BitVec.ofNat 32 (leAt x.data (4 * i) 4) else f32One
        elems := elemsOf cv.fmt x.count (x.data.drop (sb + i * x.count * cv.fmt.bytes)) }
  else none

/-- A whole row from the pieces that start at column `col`. -/
def joinPieces (cols : Nat) (l : List (Nat × CollRow)) : (fuel col : Nat) → Option (List Nat)
  | 0, _ => none
  | k + 1, col =>
    if col = cols then some []
    else
      match l.find? fun p => p.1 == col && !p.2.elems.isEmpty with
      | some p => (joinPieces cols l k (col + p.2.elems.length)).map (p.2.elems ++ ·)
      | none => none

/-- The row that has come whole over the messages that `pick` takes. -/
def Coll.whole (cv : Coll) (pick : PortId × CollMsg → Bool) (r : Nat) : Option (CollRow × Nat) :=
  let l := (cv.held.filter pick).filterMap fun x => (cv.rowIn x.2 r).map fun y => (x.2, y)
  match l with
  | [] => none
  | x :: _ =>
    (joinPieces cv.cols (l.map fun y => (y.1.firstCol, y.2)) (l.length + 1) 0).map fun e => (⟨x.2.scale, e⟩, x.1.hops)

/-- A message's fields fit its descriptor (11 Table 11.9). -/
def Coll.fits (cv : Coll) (x : CollMsg) : Bool :=
  x.kind == cv.kind && decide (1 ≤ x.nrows) && decide (x.nrows ≤ 255) && decide (x.firstRow + x.nrows ≤ cv.rows) &&
    decide (1 ≤ x.count) && decide (x.firstCol + x.count ≤ cv.cols) &&
    x.data.length == (if cv.scaled then 4 * x.nrows else 0) + x.nrows * x.count * cv.fmt.bytes

/-! ### Chunks (11 R302) -/

/-- Rows of position o's chunk that run in one direction. -/
def Coll.chunk (cv : Coll) (ring o : Nat) (cw : Bool) : List Nat :=
  let per := ceilDiv cv.rows ring
  let lo := min (o * per) cv.rows
  let n := min (o * per + per) cv.rows - lo
  let k := if cv.bothDirs then ceilDiv n 2 else n
  if cw then (List.range k).map (· + lo) else (List.range (n - k)).map (· + (lo + k))

/-- Owner of a row. -/
def Coll.owner (cv : Coll) (ring r : Nat) : Nat := r / max 1 (ceilDiv cv.rows ring)

/-- The next position in a direction. -/
def ringNext (ring p : Nat) (cw : Bool) : Nat := if cw then (p + 1) % ring else (p + ring - 1) % ring

/-! ### Runs -/

/-- done is signalled once every result of this member is in place; the run ends when it owes no row (11 R301). -/
def State.collEnd (s : State) (t : Tag) (entry : Nat) : State :=
  match s.collOf t entry with
  | none => s
  | some cv =>
    if !cv.busy then s
    else
      let tell := cv.place = 0 ∧ !cv.told
      let s := if tell then (s.setColl { cv with told := true }).signalTo t cv.done 1 else s
      match s.collOf t entry with
      | some cv =>
        if cv.place = 0 ∧ cv.due = [] then
          s.setColl { cv with busy := false, run := cv.run + 1, told := false, sent := [], held := cv.held.filter fun x => x.2.step != cv.step }
        else s
      | none => s

/-- What has come whole for a row owed: each child's partial, in order, or the one from round the ring or from above, with the
contributions summed in it; none while it is not whole. -/
def State.collParts (s : State) (j : Job) (cv : Coll) (k : Bool × Bool × Nat) : Option (List (CollRow × Nat)) :=
  if cv.kind = 4 then (s.jobEdges j).mapM fun e => cv.whole (fun x => bitOf e x.1.val) k.2.2
  else
    (cv.whole (fun x => (cv.kind == 5 || s.cameClockwise x.1 == k.1) && gathers x.2 j.members.length == k.2.1) k.2.2).map
      fun x => [x]

/-- One row that has come is handled: combined, placed, passed on. -/
def State.collRow (s : State) (j : Job) (entry : Nat) (k : Bool × Bool × Nat) : State :=
  match s.collOf j.tag entry with
  | none => s
  | some cv =>
    let cw := k.1
    let r := k.2.2
    let p := s.lnk.position
    let ring := j.members.length
    let w := j.who
    let fin (s : State) (n : Nat) : State :=
      match s.collOf j.tag entry with
      | some cv => s.setColl { cv with due := cv.due.erase k, place := cv.place - n }
      | none => s
    match s.collParts j cv k with
    | none => s
    | some parts =>
      if k.2.1 then
        match parts with
        | (x, hops) :: _ =>
          let s := s.placeRow w { cv with deliver := false } r x
          let on := if cv.kind = 5 then s.jobEdges j
            else if ringNext ring p cw == cv.owner ring r then [] else [s.ringGang cw]
          fin (s.sendRow cv on hops r x) 1
        | [] => s
      else
        let sum := parts.foldl (fun a q => a.2.combine w cv a.1 q.1) (s.ownRow w cv r, s)
        let hops := 1 + nsum (parts.map (·.2))
        if cv.kind = 4 then
          fin (if s.jobRoot j then sum.2.placeRow w cv r sum.1
            else sum.2.sendRow cv s.parentEdge.toList hops r sum.1) 1
        else if cv.owner ring r = p then
          let s := sum.2.placeRow w cv r sum.1
          fin (if cv.kind = 3 then s.sendRow cv [s.ringGang cw] ring r sum.1 else s) 1
        else fin (sum.2.sendRow cv [s.ringGang cw] hops r sum.1) 0

/-- Every row that has come whole is handled. -/
def State.collTry (s : State) (j : Job) (entry : Nat) : State :=
  match s.collOf j.tag entry with
  | none => s
  | some cv => if cv.busy then (foldS s cv.due fun s k => s.collRow j entry k).collEnd j.tag entry else s

/-- The rows of this member's own contribution that it sends at the start of a run, with their direction (11 R302). -/
def State.firstRows (s : State) (j : Job) (cv : Coll) : List (Bool × Nat) :=
  let ring := j.members.length
  let p := s.lnk.position
  let dirs (o : Bool → Nat) : List (Bool × Nat) := [true, false].flatMap fun cw => (cv.chunk ring (o cw) cw).map fun r => (cw, r)
  if ring ≤ 1 then []
  else
    match cv.kind with
    | 4 => if (s.jobEdges j).isEmpty then (List.range cv.rows).map fun r => (false, r) else []
    | 5 => if s.jobRoot j then (List.range cv.rows).map fun r => (false, r) else []
    | 2 => dirs fun _ => p
    | _ => dirs fun cw => ringNext ring p (!cw)

/-- What a run owes at its start on this member: rows to come, and how many results to place. -/
def State.collOwes (s : State) (j : Job) (cv : Coll) : List (Bool × Bool × Nat) × Nat :=
  let ring := j.members.length
  let p := s.lnk.position
  let rows := List.range cv.rows
  let chunks (g : Bool) (skip : Bool → Nat) : List (Bool × Bool × Nat) :=
    [true, false].flatMap fun cw =>
      ((List.range ring).filter (· != skip cw)).flatMap fun o => (cv.chunk ring o cw).map fun r => (cw, g, r)
  let mine := (cv.chunk ring p true).length + (cv.chunk ring p false).length
  let due := chunks false fun cw => ringNext ring p (!cw)
  if ring ≤ 1 then ([], 0)
  else
    match cv.kind with
    | 4 => if (s.jobEdges j).isEmpty then ([], 0) else (rows.map fun r => (false, false, r), cv.rows)
    | 5 => if s.jobRoot j then ([], 0) else (rows.map fun r => (false, true, r), cv.rows)
    | 2 => (chunks true fun _ => p, cv.rows - mine)
    | 3 => (due ++ chunks true fun _ => p, cv.rows)
    | _ => (due, mine)

/-- Where this member's own rows go first. -/
def State.firstGangs (s : State) (j : Job) (cv : Coll) (cw : Bool) : List (BitVec 12) :=
  if cv.kind = 4 then s.parentEdge.toList else if cv.kind = 5 then s.jobEdges j else [s.ringGang cw]

/-- A run starts: what it owes is noted, and its own first rows are sent. A member alone on its chain has its result in place
already; one for the lanes is handed to them. -/
def State.collBegin (s : State) (j : Job) (cv : Coll) : State :=
  let w := j.who
  let o := s.collOwes j cv
  let t := s.setColl { cv with busy := true, due := o.1, place := o.2, told := false }
  let t := foldS t (s.firstRows j cv) fun t e => t.sendRow cv (s.firstGangs j cv e.1) 1 e.2 (s.ownRow w cv e.2)
  if j.members.length ≤ 1 ∧ cv.deliver then
    foldS t (List.range cv.rows) fun t r => t.placeRow w cv r (s.ownRow w cv r)
  else t

/-- The reads of this member's own rows. -/
def Coll.reads (cv : Coll) (rows : List Nat) : List (Addr × Nat) :=
  rows.flatMap fun r =>
    ((cv.rowAt r).map fun a => (a, cv.cols * cv.fmt.bytes)).toList ++
      (if cv.scaled then ((cv.scaleAt r).map fun a => (a, 4)).toList else [])

/-- COLLECTIVE_RUN (11 R301): the engine takes 1 from the start semaphore and starts the next run; `bad`: parity failures of the
reads of its own rows, each row's elements before its scale (07 R162). -/
def collectiveRun (t : Tag) (entry : Nat) (bad : List Nat) (s : State) : State :=
  match s.job t, s.collOf t entry with
  | some j, some cv =>
    let x := s.clu cv.start.cluster.val
    if j.stop.isSome ∨ cv.busy ∨ x.sem cv.start.index = 0 then s
    else
      let s := s.setClu cv.start.cluster.val (x.setSem cv.start.index (x.sem cv.start.index - 1))
      let rows := if j.members.length ≤ 1 ∧ cv.deliver then List.range cv.rows else (s.firstRows j cv).map (·.2)
      s.readThen j.who (cv.reads rows) bad fun s => (s.collBegin j cv).collTry j entry
  | _, _ => s

/-- The rows of a message that become whole with it and take this member's own contribution. -/
def State.combinesNow (s : State) (j : Job) (cv : Coll) (x : CollMsg) : List Nat :=
  (cv.due.filter fun k => cv.busy && !k.2.1 && decide (x.firstRow ≤ k.2.2) && decide (k.2.2 < x.firstRow + x.nrows) &&
    (s.collParts j cv k).isSome).map (·.2.2)

/-- COLLECTIVE (11 R302 to R305): a message of another step than the run expected ends the job. -/
def collective (m : Msg) (data : Bytes) (bad : List Nat) (s : State) : State :=
  s.receive m [2] fun s =>
    match collMsg data with
    | none => s.badMsg m.port m.vc.toNat
    | some x =>
      match s.job m.tag, s.collOf m.tag x.entry with
      | some j, some cv =>
        if j.stop.isSome then s
        else if !cv.fits x then s.badMsg m.port m.vc.toNat
        else if x.step ≠ cv.step then
          (s.countBadMsg m.port).faultJob m.tag Ev.collStep (lnkInfo s m.port m.vc.toNat)
        else
          let cv := { cv with held := cv.held ++ [(m.port, x)] }
          let s := s.setColl cv
          s.readThen j.who (cv.reads (s.combinesNow j cv x)) bad fun s => s.collTry j x.entry
      | _, _ => s

/-- COLLECTIVE_RUN (11 R301). -/
def execCollectiveRun (tag : Tag) (entry : Nat) (bad : List Nat) (s : State) : Res := .next (collectiveRun tag entry bad s)
/-- COLLECTIVE (11 R302). -/
def execCollective (m : Msg) (data : Bytes) (bad : List Nat) (s : State) : Res := .next (collective m data bad s)

end Sys2Proof.Machine
end

