-- ==== Sys2Proof/Machine/Admit.lean ====
section
/-! DEFINITION. Sys2Proof/Machine/Admit.lean: the job descriptor (12 R323) and admission (12 R324, R325): what each check reads, its outcome, and what a job takes when every check passes. -/

namespace Sys2Proof.Machine

open Sys2Proof

/-- A job turned away at admission: status, event and its arguments; `said`: the event was raised before and is only named. -/
structure Turned where
  status : Nat
  event : W16 := 0
  info : EvInfo := {}
  said : Bool := false

abbrev Adm (α : Type) := Except Turned α

/-- Goes on when the condition holds. -/
def need (c : Bool) (t : Turned) : Adm Unit := if c then .ok () else .error t

/-! ### The descriptor -/

/-- Table 12.5. -/
def jobDesc (l : Bytes) : JobDesc where
  jobId := BitVec.ofNat 64 (leAt l 0 8)
  domain := BitVec.ofNat 12 (leAt l 8 2)
  mode := leAt l 10 1
  semFirst := leAt l 12 2
  semCount := leAt l 14 2
  barriers := BitVec.ofNat 16 (leAt l 16 2)
  origin := BitVec.ofNat 16 (leAt l 18 2)
  memberCount := leAt l 20 2
  vid := leAt l 22 2
  est := leAt l 24 4
  collCount := leAt l 28 2
  evidCount := leAt l 30 2
  clusters := BitVec.ofNat 64 (leAt l 32 8)
  streams := BitVec.ofNat 64 (leAt l 40 8)
  members := BitVec.ofNat 64 (leAt l 48 8)
  barDesc := BitVec.ofNat 64 (leAt l 56 8)
  admRecord := BitVec.ofNat 64 (leAt l 64 8)
  requestTable := BitVec.ofNat 64 (leAt l 72 8)
  training := BitVec.ofNat 64 (leAt l 80 8)
  collTable := BitVec.ofNat 64 (leAt l 88 8)
  evidList := BitVec.ofNat 64 (leAt l 96 8)
  inList := BitVec.ofNat 64 (leAt l 104 8)
  outList := BitVec.ofNat 64 (leAt l 112 8)

/-- A pointer field of the job: zeros above bit 47, well formed, aligned. -/
def ptrForm (p : W64) (align : Nat) : Bool :=
  decide (p.toNat < 2 ^ 48) && match ptrDecode p.toNat with
    | none => false
    | some none => true
    | some (some a) => a.a % align == 0

def ptrSet (p : W64) : Bool := (ptrAddr p.toNat).isSome

/-- Job kinds of Table 12.5. -/
def JobDesc.serving (d : JobDesc) : Bool := d.mode.testBit 2
def JobDesc.training? (d : JobDesc) : Bool := d.mode.testBit 3
def JobDesc.evidence (d : JobDesc) : Bool := d.mode.testBit 4
def JobDesc.serial (d : JobDesc) : Bool := d.mode.testBit 5
/-- The slots a job occupies (05 R103). -/
def JobDesc.slots (d : JobDesc) : List SId :=
  if d.clusters = 0 then [] else if d.training? then [0, 1, 2] else [⟨d.mode % 4, Nat.mod_lt _ (by decide)⟩]

/-- 12 R324 check 1 without the queue's domain. -/
def descGood (l : Bytes) (d : JobDesc) : Bool :=
  decide (leAt l 8 2 < 4096) && decide (d.mode < 64) && leAt l 11 1 == 0 && leAt l 120 8 == 0 &&
    decide (d.semFirst + d.semCount ≤ 1024) && decide (1 ≤ d.memberCount) && decide (d.memberCount ≤ 256) &&
    decide (d.collCount ≤ 1024) && decide (d.evidCount ≤ 2048) &&
    (!d.serving || d.mode % 4 == 3) && (!d.training? || d.mode % 4 == 0) && (!d.evidence || d.serving) &&
    !(d.serving && d.training?) &&
    ptrForm d.streams 8 && ptrForm d.members 2 && ptrForm d.barDesc 16 && ptrForm d.admRecord 16 &&
    ptrForm d.requestTable 16 && ptrForm d.training 64 && ptrForm d.collTable 64 && ptrForm d.evidList 16 &&
    (ptrSet d.training == d.training?) && (ptrSet d.members == decide (1 < d.memberCount)) &&
    (d.clusters == 0 || ptrSet d.streams) && (d.barriers == 0 || ptrSet d.barDesc) &&
    (d.collCount == 0 || ptrSet d.collTable) && (!d.evidence || ptrSet d.evidList)

def turnDesc : Turned := { status := Stat.fault, event := Ev.hifDescBad }

/-- What a job's own structures hold, as its domain reads them. -/
def State.jobRead (s : State) (d : JobDesc) (p : W64) (n : Nat) : Bytes :=
  match ptrAddr p.toNat with
  | some a => s.read (.dom d.domain) a n
  | none => List.replicate n 0

/-- The members of a job (12 Table 12.5). -/
def State.membersOf (s : State) (d : JobDesc) : List NodeId :=
  if d.memberCount ≤ 1 then [s.lnk.node]
  else
    let l := s.jobRead d d.members (2 * d.memberCount)
    (List.range d.memberCount).map fun i => BitVec.ofNat 16 (leAt l (2 * i) 2)

/-! ### Variants (09 R233 to R235) -/

/-- A request table (09 Table 9.7). -/
structure ReqTable where
  reqs : List ReqEntry
  tokenBar : Nat
  area : W64
  areaRows : Nat
  areaPitch : Nat
  bind : W64

/-- Entries in order, their rows contiguous from row `row`; the rows beyond the last. -/
def reqRows (vid row : Nat) : List ReqEntry → Option Nat
  | [] => some row
  | r :: l => if r.vid < vid ∨ r.rowFirst ≠ row ∨ r.rows = 0 then none else reqRows r.vid (row + r.rows) l

/-- The request table, when it follows 09 R234. -/
def State.reqTable (s : State) (d : JobDesc) : Option ReqTable :=
  let h := s.jobRead d d.requestTable 64
  let n := leAt h 0 2
  let l := (s.jobRead d d.requestTable (64 + 16 * n)).drop 64
  let es := (List.range n).map fun i =>
    ({ vid := leAt l (16 * i) 2, rows := leAt l (16 * i + 2) 2, rowFirst := leAt l (16 * i + 4) 4, status := 0, lastToken := 0 } : ReqEntry)
  let t : ReqTable :=
    { reqs := es, tokenBar := leAt h 2 1, area := BitVec.ofNat 64 (leAt h 8 8), areaRows := leAt h 4 4
      areaPitch := leAt h 16 2, bind := BitVec.ofNat 64 (leAt h 24 8) }
  let zeros := leAt h 3 1 == 0 && leAt h 18 6 == 0 && leAt h 32 32 == 0 &&
    (List.range n).all fun i => leAt l (16 * i + 9) 3 == 0
  if 1 ≤ n ∧ n ≤ 4096 ∧ zeros ∧ (t.tokenBar < 16 ∨ t.tokenBar = 0xFF) ∧ ptrForm t.area 8 ∧ ptrForm t.bind 32 ∧
      t.areaPitch % 8 = 0 ∧ (8 ≤ t.areaPitch ∨ !ptrSet t.area) ∧ t.areaPitch ≤ 512 then
    match reqRows 0 0 es with
    | some rows => if rows ≤ t.areaRows then some t else none
    | none => none
  else none

/-- model_id of a generation (08 Table 8.2). -/
def State.modelOf (s : State) (g : Gen) : W64 := BitVec.ofNat 64 (leAt (s.fslot g.slot.val).header 24 8)

/-- Table 9.9. A Faulted variant's job names VAR_FAULTED, which was raised when the variant became Faulted (09 R245): 17 R444 lets the
event field of a FAULT hold a job-fault code, and Table 9.9 names no event of its own there (DESIGN CHOICE, log 17). -/
def State.varCheck (s : State) (d : Dom) (g : Gen) (vids : List Nat) : Adm Unit :=
  let xs := vids.map fun v => (v, s.variant v)
  let ok (x : Option Variant) (f : Variant → Bool) : Bool := match x with | some y => f y | none => true
  if xs.any fun e => !e.2.isSome || !ok e.2 fun x => x.domain == d && x.state != .removing then
    .error { status := Stat.variantGone }
  else if xs.any fun e => !ok e.2 fun x => x.state != .faulted then .error { status := Stat.fault, event := Ev.varFaulted, said := true }
  else
    match xs.find? fun e => !ok e.2 fun x => x.modelId == s.modelOf g with
    | some (v, some x) => .error { status := Stat.fault, event := Ev.varBaseMismatch, info := varInfo v x }
    | _ => need (xs.all fun e => ok e.2 fun x => x.isLive) { status := Stat.notReady }

/-- The binding of a variant at admission (09 R236, R241). -/
def State.bindingOf (s : State) (reqs : List ReqEntry) (vid : Nat) : Binding :=
  let mine := reqs.zipIdx.filter fun e => e.1.vid == vid
  let first := match mine with | e :: _ => e.2 | [] => 0
  match s.variant vid with
  | some x =>
    match x.cur with
    | some g => { vid := vid, first := first, count := mine.length, gen := g.num, dir := Addr.ptr ⟨true, g.dir⟩, spd := g.spd, copy := x.copyNo, mask := x.baseMask }
    | none => { vid := vid, first := first, count := mine.length, gen := 0, dir := 0, spd := false, mask := x.baseMask }
  | none => { vid := vid, first := first, count := mine.length, gen := 0, dir := 0, spd := false, mask := 0 }

/-- The binding table of 09 R236. -/
def bindBytes (l : List Binding) : Bytes :=
  l.flatMap fun b => leBytes 2 b.vid ++ leBytes 2 b.first ++ leBytes 2 b.count ++ leBytes 2 0 ++ leBytes 4 b.gen.toNat ++
    leBytes 4 0 ++ leBytes 8 b.dir ++ leBytes 8 0

/-! ### Training (10 R252 to R254) -/

/-- One training variant entry (10 Table 10.2). -/
def trainVar (l : Bytes) : TVar where
  vid := leAt l 0 2
  clipEn := leAt l 2 1 % 2 == 1
  lrMul := BitVec.ofNat 32 (leAt l 4 4)
  beta1 := BitVec.ofNat 32 (leAt l 8 4)
  beta2 := BitVec.ofNat 32 (leAt l 12 4)
  eps := BitVec.ofNat 32 (leAt l 16 4)
  wd := BitVec.ofNat 32 (leAt l 20 4)
  clip := BitVec.ofNat 32 (leAt l 24 4)
  normLimit := BitVec.ofNat 32 (leAt l 28 4)
  rmsClip := BitVec.ofNat 32 (leAt l 32 4)
  freeze := BitVec.ofNat 64 (leAt l 40 8)

/-- Reserved fields of an entry. -/
def trainVarOk (l : Bytes) : Bool :=
  decide (leAt l 2 1 < 2) && leAt l 56 8 == 0 && ptrForm (BitVec.ofNat 64 (leAt l 40 8)) 1

/-- The training descriptor and its variant list (10 Tables 10.1, 10.2) as a context. -/
def State.trainCtx (s : State) (d : JobDesc) : Bytes × List Bytes × Ctx :=
  let l := s.jobRead d d.training 128
  let n := leAt l 22 2
  let vl := s.jobRead d (BitVec.ofNat 64 (leAt l 32 8)) (64 * n)
  let es := (List.range n).map fun i => (vl.drop (64 * i)).take 64
  let p48 (i : Nat) : W48 := BitVec.ofNat 48 (leAt l i 8)
  (l, es,
    { domain := d.domain, firstStep := BitVec.ofNat 64 (leAt l 0 8), steps := leAt l 8 4, growth := leAt l 20 2
      seed := BitVec.ofNat 64 (leAt l 24 8), varList := p48 32, gradArea := p48 40, stepLog := p48 48, logLen := leAt l 56 4
      updSem := leAt l 60 2, voteSem := leAt l 62 2, clusters := BitVec.ofNat 64 (leAt l 64 8), ctrl := p48 72
      voteCount := leAt l 80 2, vars := es.map trainVar, scale := BitVec.ofNat 32 (leAt l 12 4)
      lrLast := BitVec.ofNat 32 (leAt l 16 4) })

/-- A power of two from 2^-24 to 2^24. -/
def scaleOk (x : W32) : Bool := x.toNat % 2 ^ 23 == 0 && decide (scaleMin.toNat ≤ x.toNat) && decide (x.toNat ≤ scaleMax.toNat)

def strictRising : List Nat → Bool
  | a :: b :: l => decide (a < b) && strictRising (b :: l)
  | _ => true

def isPow2 (n : Nat) : Bool := n != 0 && 2 ^ Nat.log2 n == n

/-- The fields of the descriptor are as Table 10.1 lays them out. -/
def trainDescOk (l : Bytes) (cx : Ctx) : Bool :=
  let p (i align : Nat) : Bool := ptrForm (BitVec.ofNat 64 (leAt l i 8)) align && ptrSet (BitVec.ofNat 64 (leAt l i 8))
  decide (1 ≤ cx.steps) && decide (1 ≤ leAt l 22 2) && decide (leAt l 22 2 ≤ 64) && isPow2 cx.logLen && scaleOk cx.scale &&
    decide (leAt l 60 2 < 1024) && decide (leAt l 62 2 < 1024) && leAt l 82 46 == 0 && p 32 64 && p 40 64 && p 48 32 && p 72 64

/-- 10 R254 but for the free context. -/
def State.trainCheck (s : State) (j : Job) (g : Gen) : Adm Ctx :=
  let d := j.d
  let layers := s.genLayers g
  let t := s.trainCtx d
  let cx := t.2.2
  let vids := cx.vars.map (·.vid)
  let bad : Turned := { status := Stat.fault, event := Ev.updDescBad }
  let inWin (i : Nat) : Bool := decide (d.semFirst ≤ i) && decide (i < d.semFirst + d.semCount)
  match s.varCheck d.domain g vids with
  | .error e => .error e
  | .ok _ =>
    if (vids.any fun v => match s.variant v with | some x => !x.trainable || x.rule == 0 | none => true) ∨ !strictRising vids then
      .error bad
    else if !inWin cx.updSem ∨ !inWin (cx.updSem + (layers - 1)) ∨ !inWin cx.voteSem ∨ !inWin (cx.voteSem + 1) ∨
        cx.clusters &&& ~~~d.clusters ≠ 0 ∨ cx.voteCount = 0 ∨ 1024 < cx.voteCount then .error bad
    else if !trainDescOk t.1 cx ∨ !t.2.1.all trainVarOk then .error bad
    else if vids.any fun v => s.parkedOn v then .error { status := Stat.notReady }
    else
      .ok { cx with layers := layers, gradLen := nsum (vids.map fun v => match s.variant v with | some x => x.gradBytes | none => 0) }

/-! ### Collectives (11 R300, R301) -/

/-- One collective descriptor (11 Table 11.8) of a job, or none when it is refused. -/
def State.collDesc (s : State) (j : Job) (i : Nat) (l : Bytes) : Option Coll :=
  let kind := leAt l 0 1
  let fmt := leAt l 1 1
  let fl := leAt l 2 1
  let start := semRef (BitVec.ofNat 32 (leAt l 4 4))
  let done := semRef (BitVec.ofNat 32 (leAt l 8 4))
  let p (k : Nat) : W64 := BitVec.ofNat 64 (leAt l k 8)
  let deliver := fl.testBit 1
  let mine (r : SemRef) : Bool := r.node == s.lnk.node && j.holdsSem r.cluster.val r.index
  let chain := topoMembers s.cfg.live.topo
  let ring := if j.members.length ≤ 1 then decide (chain.length ≤ 1) else s.cfg.live.topo.shape == 1 && j.members == chain
  if 1 ≤ kind ∧ kind ≤ 5 ∧ (fmt = 4 ∨ fmt = 1) ∧ fl < 4 ∧ leAt l 3 1 = 0 ∧ leAt l 56 8 = 0 ∧ 1 ≤ leAt l 36 4 ∧
      1 ≤ leAt l 40 4 ∧ leAt l 40 4 ≤ 2 ^ 20 ∧ ptrForm (p 12) 1 ∧ ptrForm (p 20) 1 ∧ ptrForm (p 28) 1 ∧
      (ptrSet (p 20) == (fmt == 4)) ∧ (3 < kind ∨ ring) ∧ (!deliver ∨ (kind = 1 ∧ fmt = 4)) ∧
      (deliver ∨ leAt l 44 2 = 0) ∧ mine start ∧ mine done then
    some
      { tag := j.tag, entry := i, kind := kind, fmt := if fmt = 4 then .e5m2 else .bf16, bothDirs := fl.testBit 0
        deliver := deliver, start := start, done := done, buf := BitVec.ofNat 48 (leAt l 12 8)
        scales := BitVec.ofNat 48 (leAt l 20 8), health := BitVec.ofNat 48 (leAt l 28 8), rows := leAt l 36 4
        cols := leAt l 40 4, vid := leAt l 44 2, layer := leAt l 46 2, baseStep := BitVec.ofNat 64 (leAt l 48 8) }
  else none

def State.collCheck (s : State) (j : Job) : Adm (List Coll) :=
  let l := s.jobRead j.d j.d.collTable (64 * j.d.collCount)
  let cs := (List.range j.d.collCount).map fun i => s.collDesc j i ((l.drop (64 * i)).take 64)
  if cs.all (·.isSome) then .ok (cs.filterMap id)
  else .error { status := Stat.fault, event := if j.training then Ev.updDescBad else Ev.collDescBad }

/-! ### Windows and barriers (06 R132, R144) -/

/-- Does the job's window overlap one that is still held on a cluster both use? -/
def State.windowTaken (s : State) (d : JobDesc) : Bool :=
  d.semCount != 0 && s.jobs.list.any fun o =>
    o.admitted && o.d.clusters &&& d.clusters != 0 && o.d.semCount != 0 &&
      decide (o.d.semFirst < d.semFirst + d.semCount) && decide (d.semFirst < o.d.semFirst + o.d.semCount)

/-- One barrier object from its descriptor (06 Table 6.8), armed. -/
def State.barDescOf (s : State) (j : Job) (l : Bytes) : Adm Bar :=
  let lp : W64 := BitVec.ofNat 64 (leAt l 8 8)
  let n := leAt l 4 2
  if !(1 ≤ leAt l 0 2 ∧ leAt l 0 2 ≤ 256 ∧ leAt l 2 1 ≤ 16 ∧ leAt l 3 1 ≤ 1 ∧ n ≤ 256 ∧ leAt l 6 2 = 0 ∧ leAt l 16 16 = 0 ∧
      ptrForm lp 8 ∧ (n = 0 ∨ ptrSet lp)) then .error turnDesc
  else
    let e := s.jobRead j.d lp (8 * n)
    let es := (List.range n).map fun i => (semRef (BitVec.ofNat 32 (leAt e (8 * i) 4)), BitVec.ofNat 32 (leAt e (8 * i + 4) 4))
    match es.find? fun x => x.1.node != s.lnk.node || !j.holdsSem x.1.cluster.val x.1.index with
    | some (r, _) =>
      if r.node ≠ s.lnk.node then .error { status := Stat.fault, event := Ev.semAddr }
      else
        let f := semFail s r
        .error { status := Stat.fault, event := f.code, info := { unit := BitVec.ofNat 8 r.cluster.val, aux := BitVec.ofNat 16 f.aux, arg := BitVec.ofNat 64 f.arg } }
    | none =>
      .ok { state := .armed, tag := j.tag, localArrivals := leAt l 0 2, periodLog2 := leAt l 2 1, realignEn := leAt l 3 1 == 1, list := es }

/-- Every barrier object that the job names; GLB_BAR_STEP keeps the step of the last episode (06 R149). -/
def State.barCheck (s : State) (j : Job) : (l : List (BarId × Nat)) → Adm (List (BarId × Bar))
  | [] => .ok []
  | (b, i) :: l =>
    if (s.bar b.val).state ≠ .free then .error { status := Stat.fault, event := Ev.barBusy }
    else
      match s.barDescOf j (((s.jobRead j.d j.d.barDesc (32 * (i + 1))).drop (32 * i))) with
      | .error e => .error e
      | .ok x =>
        match s.barCheck j l with
        | .error e => .error e
        | .ok r => .ok ((b, { x with epStep := (s.bar b.val).epStep }) :: r)

/-! ### Credits (12 R325) -/

/-- Serving capacity. -/
def State.cap (s : State) : Nat := s.cfg.live.dev.horizonUs * s.glb.minMsps.toNat / 1024

/-- Jobs that are admitted and have not ended on this node. -/
def State.liveJobs (s : State) : List Job := s.jobs.list.filter fun j => j.admitted && j.phase != .ended

/-- 12 R325. -/
def State.creditOk (s : State) (d : JobDesc) : Bool :=
  let ct := s.contract d.domain
  if d.serving then
    let mine := nsum ((s.liveJobs.filter fun j => j.serving && j.d.domain == d.domain).map (·.d.est))
    decide (s.hif.committed + d.est ≤ s.cap) && decide (mine + d.est ≤ s.cap * ct.servePct / 100)
  else
    let slot (e : JobDesc) : Nat := if e.training? then 0 else e.mode % 4
    decide ((s.liveJobs.filter fun j => !j.serving && j.d.domain == d.domain).length < ct.bulkJobs) &&
      decide ((s.liveJobs.filter fun j => slot j.d == slot d).length < 64)

/-- The lowest free training context. -/
def State.freeCtx (s : State) : Option CtxId :=
  (List.finRange 64).find? fun x => (s.ctx x.val).vars.isEmpty

/-- A queue holds at most one live training job (12 R333). -/
def State.queueTrains (s : State) (j : Job) : Bool := s.liveJobs.any fun o => o.training && o.fn == j.fn && o.q == j.q

/-! ### Admission (12 R324) -/

/-- What admission reads for a job whose descriptor is well formed: member list, request table, training descriptor with its variant
list and freeze bitmaps, collective descriptors, barrier descriptors with their lists. -/
def State.admList (s : State) (j : Job) : List (Addr × Nat) :=
  let d := j.d
  let at' (p : W64) (n : Nat) : List (Addr × Nat) := match ptrAddr p.toNat with | some a => if n = 0 then [] else [(a, n)] | none => []
  let reqs := leAt (s.jobRead d d.requestTable 64) 0 2
  let bars := (List.finRange 16).filter fun b => bitOf d.barriers b.val
  let bd := s.jobRead d d.barDesc (32 * bars.length)
  let t := s.trainCtx d
  (if d.memberCount ≤ 1 then [] else at' d.members (2 * d.memberCount)) ++
    at' d.requestTable (if reqs ≤ 4096 then 64 + 16 * reqs else 64) ++
    (if d.training? then at' d.training 128 ++ (if t.2.1.length ≤ 64 then at' (t.2.2.varList.setWidth 64) (64 * t.2.1.length) else []) else []) ++
    at' d.collTable (64 * d.collCount) ++ at' d.barDesc (32 * bars.length) ++
    (List.range bars.length).flatMap fun i =>
      let n := leAt bd (32 * i + 4) 2
      if n ≤ 256 then at' (BitVec.ofNat 64 (leAt bd (32 * i + 8) 8)) (8 * n) else []

/-- The reads of admission: their misses count (07 R159); poison, or a second parity failure of a private line, ends the job with
FAULT (R162, R174), in place of the checks that come after the descriptor's own (log 17). `bad`: how often each read failed. -/
def State.admReads (s : State) (j : Job) (bad : List Nat) : State × Option Turned :=
  let w : Who := { req := .dom j.d.domain, tag := 0, dom := j.d.domain }
  let l := s.admList j
  let s := s.noteReads w l
  let turned (f : Fail) : Turned :=
    { status := Stat.fault, event := f.code
      info := { unit := BitVec.ofNat 8 (f.unit.getD 0), sub := BitVec.ofNat 8 (f.sub.getD 0xFF), arg := BitVec.ofNat 64 f.arg } }
  match poisonAll s w.req l with
  | .error f => (s, some (turned f))
  | .ok _ =>
    let r := spdParity s w l bad
    (r.1, r.2.map turned)

/-- What a job that passes every check takes. -/
structure Plan where
  gen : Gen
  table : Option ReqTable
  reqs : List ReqEntry
  vids : List Nat
  bars : List (BarId × Bar)
  colls : List Coll
  ctx : Option (CtxId × Ctx)

/-- The generation that the job latches (08 R210): the current one, or the one its SETUP names. -/
def State.latch (s : State) (named : Option W32) : Adm Gen :=
  match named with
  | none => match s.firn.current with
    | some g => .ok g
    | none => .error { status := Stat.notReady }
  | some n =>
    if s.firn.current.isNone then .error { status := Stat.notReady }
    else
    match (s.firn.current.toList ++ s.firn.old.toList).find? fun g => g.num == n with
    | some g => .ok g
    | none => .error { status := Stat.busy }

/-- Distinct non-zero variant IDs in order. -/
def distinctVids : List Nat → List Nat
  | a :: b :: l => if a = b ∨ a = 0 then distinctVids (b :: l) else a :: distinctVids (b :: l)
  | [a] => if a = 0 then [] else [a]
  | [] => []

/-- Check 2: members and evidence. -/
def State.readyCheck (s : State) (j : Job) : Adm Unit :=
  need ((j.members.all fun n => s.lnk.members.contains n) && (1 < j.members.length || j.d.origin == s.lnk.node) &&
    !(s.lnk.leaving && 1 < j.members.length) && (!j.d.evidence || s.hif.evidEn)) { status := Stat.notReady }

/-- Check 4: variants, training, collectives. -/
def State.varsOf (s : State) (j : Job) (g : Gen) : Adm (Option ReqTable × List ReqEntry × List Nat × Option Ctx) :=
  let t := if ptrSet j.d.requestTable then s.reqTable j.d else none
  if ptrSet j.d.requestTable ∧ t.isNone then .error { status := Stat.fault, event := Ev.varTableBad }
  else
    let reqs : List ReqEntry := match t with
      | some t => t.reqs
      | none => [⟨j.d.vid, 1, 0, 0, 0⟩]
    let vids := distinctVids (reqs.map (·.vid))
    match s.varCheck j.d.domain g vids with
    | .error e => .error e
    | .ok _ =>
      if j.training then
        match s.trainCheck j g with
        | .error e => .error e
        | .ok cx => .ok (t, reqs, cx.vars.map (·.vid), some cx)
      else .ok (t, reqs, vids, none)

/-- Check 6. -/
def State.creditCheck (s : State) (j : Job) (cx : Option Ctx) : Adm (Option (CtxId × Ctx)) :=
  let busy : Turned := { status := Stat.busy }
  if !s.creditOk j.d ∨ (j.d.evidence ∧ 2048 < s.hif.evidReserved + s.hif.evidBuf.length + j.d.evidCount) ∨
      (j.training ∧ s.queueTrains j) then .error busy
  else
    match cx with
    | none => .ok none
    | some c =>
      match s.freeCtx with
      | some x => .ok (some (x, c))
      | none => .error busy

/-- The checks of 12 R324 in order; `raw`: the descriptor, `named`: the generation of a SETUP, `unread`: what a read that failed does. -/
def State.planJob (s : State) (j : Job) (raw : Bytes) (named : Option W32) (unread : Option Turned) : Adm Plan := do
  let q := s.queue j.fn j.q
  need (!s.glb.fatal) { status := Stat.fault, event := s.evt.fatalCode }
  need (descGood raw j.d && q.bindValid && q.bindDomain == j.d.domain) turnDesc
  match unread with
  | some t => .error t
  | none => .ok ()
  let g ← s.latch named
  s.readyCheck j
  need ((s.session j.d.domain.toNat).state != .removing) { status := Stat.domainRevoked }
  let v ← s.varsOf j g
  let cs ← s.collCheck j
  need (!s.windowTaken j.d) { status := Stat.fault, event := Ev.semWindowBusy }
  let bars ← s.barCheck j (((List.finRange 16).filter fun b => bitOf j.d.barriers b.val).zipIdx)
  let ctx ← s.creditCheck j v.2.2.2
  .ok { gen := g, table := v.1, reqs := v.2.1, vids := v.2.2.1, bars := bars, colls := cs, ctx := ctx }

/-- Every semaphore of the window is zero (06 R132). -/
def State.zeroWindow (s : State) (d : JobDesc) : State :=
  let inWin (i : Nat) : Bool := decide (d.semFirst ≤ i) && decide (i < d.semFirst + d.semCount)
  foldS s (clustersOf d.clusters) fun s c =>
    s.modClu c.val fun x =>
      { x with sems := x.sems.filter fun e => !inWin e.1, stuck := x.stuck.filter fun i => !inWin i }

/-- The training context of an admitted job (10 R251): its first step begins. -/
def State.loadCtx (s : State) (t : Tag) (p : Option (CtxId × Ctx)) (bad : List Nat) : State :=
  match p with
  | none => s
  | some (x, cx) =>
    let old := s.ctx x.val
    (s.setCtx x.val
      { cx with
        tag := t, upStep := old.upStep, lrTag := old.lrTag, lr := old.lr, skipped := old.skipped, frozen := old.frozen
        lrStale := old.lrStale, skew := old.skew, skippedSat := old.skippedSat, frozenSat := old.frozenSat
        staleSat := old.staleSat, skewSat := old.skewSat }).beginStep x cx.firstStep bad

/-- No update of a variant of the list is parked when a training job begins: the park fields read all ones (10 Table 10.2). -/
def State.clearParks (s : State) (p : Option (CtxId × Ctx)) : State :=
  match p with
  | none => s
  | some (_, cx) => foldS s cx.vars fun s v => s.clearPark cx v.vid

/-- The admission record (08 R210), the status of each request (09 Table 9.8) and the binding table (09 R236) are written. -/
def State.admRecords (s : State) (j : Job) (p : Plan) (bs : List Binding) : State :=
  let s := match ptrAddr j.d.admRecord.toNat with
    | some a => s.store j.who a (leBytes 4 p.gen.num.toNat ++ leBytes 4 s.cfg.gen.toNat ++ leBytes 8 (Addr.ptr ⟨true, p.gen.first * 2 ^ 23⟩))
    | none => s
  let s := match p.table, ptrAddr j.d.requestTable.toNat with
    | some t, some a => foldS s (List.range t.reqs.length) fun s i => s.store j.who (a.plus (64 + 16 * i + 8)) (leBytes 1 0)
    | _, _ => s
  match p.table.bind fun t => ptrAddr t.bind.toNat with
  | some a => s.store j.who a (bindBytes bs)
  | none => s

/-- Replaces a job by queue and index, or appends it: the list is in admission order. -/
def State.putJob (s : State) (j : Job) : State :=
  { s with jobs := { s.jobs with
      list := (s.jobs.list.filter fun o => !(o.fn == j.fn && o.q == j.q && o.sqIndex == j.sqIndex && o.phase != .ended)) ++ [j] } }

/-- A job takes what its plan names (12 R324, after the checks). -/
def State.takeJob (s : State) (j : Job) (p : Plan) (bad : List Nat) : State :=
  let bs := p.vids.map (s.bindingOf p.reqs)
  let j := { j with
    admitted := true, gen := p.gen.num, cfgGen := s.cfg.gen, bindings := bs, reqs := p.reqs, ctx := p.ctx.map (·.1)
    tokenBar := match p.table with | some t => t.tokenBar | none => 0xFF
    area := match p.table with | some t => t.area.truncate 48 | none => 0
    areaRows := match p.table with | some t => t.areaRows | none => 0
    areaPitch := match p.table with | some t => t.areaPitch | none => 0
    reqBase := j.d.requestTable.truncate 48 }
  let s := s.wakeUp.putJob j
  let s := s.zeroWindow j.d
  let s := foldS s p.bars fun s b => s.setBar b.1.val b.2
  let s := { s with coll := s.coll ++ p.colls }
  let s := (s.loadCtx j.tag p.ctx bad).clearParks p.ctx
  let s := s.admRecords j p bs
  let s := if j.d.serving then { s with hif := { s.hif with committed := s.hif.committed + j.d.est } } else s
  let s := if j.d.evidence then { s with hif := { s.hif with evidReserved := s.hif.evidReserved + j.d.evidCount } } else s
  foldS s p.vids fun s v =>
    let n := s.var.clock + 1
    ((s.setVar fun y => { y with clock := n }).modVariant v fun x => { x with lastAdmit := n }).startFill v

end Sys2Proof.Machine
end

