-- ==== Sys2Proof/Machine/Sync.lean ====
section
/-! DEFINITION. Sys2Proof/Machine/Sync.lean: semaphores and barriers (06): the SYNC instructions (05 R117), signals between chips, setting a semaphore by hand, barrier episodes with their realign and the removals of a token boundary (09 R246). -/

namespace Sys2Proof.Machine

open Sys2Proof

/-! ### SYNC instructions -/

/-- The semaphore address of a SYNC instruction (05 R117). -/
def Env.semRef (e : Env) : SemRef := Machine.semRef (BitVec.ofNat 32 (e.f 111 80))
/-- The count n of a SYNC instruction. -/
def Env.count (e : Env) : W32 := BitVec.ofNat 32 (e.f 79 48)

/-- A remote signal on behalf of a job is kept until the destination acknowledges it (06 R132, R137); one that no route takes has
been dropped. -/
def State.noteRemote (s : State) (c : CId) (k : SId) (t : Tag) (r : SemRef) (id : Nat) : State :=
  if r.node = s.lnk.node ∨ (s.route r.node).isNone then s else s.modJob t fun j => { j with remote := j.remote ++ [(c, k, r, id)] }

/-- SIGNAL n (06 R134, R137): after every earlier instruction of the slot that writes memory; a remote one stays
outstanding until its acknowledgement, unless no route takes it: then it has been dropped at once. -/
def signalBody (e : Env) (s : State) : Ans :=
  let r := e.semRef
  .of (semCheck s e.job (some r)) fun _ =>
    if e.y.out.any (fun o => o.kind != .remoteSignal) then .stall
    else if r.node = s.lnk.node then .ok (s.signalTo e.job.tag r e.count (BitVec.ofNat 8 e.k.val))
    else
      let t := (s.signalTo e.job.tag r e.count).noteRemote e.c e.k e.job.tag r e.y.nextId
      .ok (if (s.route r.node).isNone then t else t.addOut e .remoteSignal [] (some r) none)

/-- WAIT_TAKE and WAIT_OBS (06 R133, R135). A WAIT that is blocked has issued: SEQ_SLOT_PC shows the address after it (05 Table 5.13;
DEDUCED, log 12). -/
def waitBody (take : Bool) (e : Env) (s : State) : Ans :=
  let r := e.semRef
  if r.node ≠ s.lnk.node ∨ r.cluster ≠ e.c then
    .fail { code := Ev.semAddr }
  else
    .of (semCheck s e.job (some r)) fun _ =>
      let x := s.clu e.c.val
      let n := e.count
      let queued := take && x.waiters.any fun w => w.take && w.sem == r.index
      if n = 0 then .ok s
      else if n.toNat ≤ (x.sem r.index).toNat ∧ !queued then
        .ok (if take ∧ !x.stuck.contains r.index then s.setClu e.c.val (x.setSem r.index (x.sem r.index - n)) else s)
      else
        let y := { x.slot e.k.val with state := .waiting, wait := .semaphore, waitIndex := r.index }
        let w : Waiter := ⟨e.k, r.index, take, n⟩
        .ok (s.setClu e.c.val (({ x with waiters := x.waiters ++ [w] } : Cluster).setSlot e.k.val y))

/-! ### Barrier episodes (06 R144 to R147) -/

/-- Frees the slots that wait in a barrier. -/
def State.wakeAll (s : State) (l : List (CId × SId)) : State :=
  foldS s l fun s x => s.modClu x.1.val fun y => y.wake x.2.val

/-- The realign entries of object b in list order (06 R146); an underflow ends the job, and that entry and later ones change
nothing. The flag tells whether all were applied. -/
def realign (t : Tag) (b : BarId) : List (SemRef × W32) → State → State × Bool
  | [], s => (s, true)
  | (r, d) :: l, s =>
    let x := s.clu r.cluster.val
    let n := x.sem r.index
    if n.toNat < d.toNat then
      (s.faultBar t b Ev.realignUnder
        { unit := BitVec.ofNat 8 r.cluster.val }, false)
    else
      realign t b l (s.setClu r.cluster.val ({ x with stuck := x.stuck.filter (· != r.index) }.setSem r.index (n - d)))

/-- The requests of removed variants end (09 R246): status and last token into the request table, the references
dropped; a job whose every request has gone ends with VARIANT_GONE. -/
def State.retireIds (s : State) (t : Tag) (ids : List Vid) (step : W32) : State :=
  match s.job t with
  | none => s
  | some j =>
    let gone (v : Nat) : Bool := ids.any fun i => i.toNat == v
    let hit := (j.reqs.zipIdx).filter fun e => gone e.1.vid && e.1.status == 0
    if hit.isEmpty then s
    else
      let base := ptrAddr j.reqBase.toNat
      let s := match base with
        | none => s
        | some a => foldS s hit fun s e =>
            (s.store j.who (a.plus (64 + 16 * e.2 + 8)) (leBytes 1 Stat.variantGone)).store j.who
              (a.plus (64 + 16 * e.2 + 12)) (leBytes 4 step.toNat)
      let reqs := j.reqs.map fun r =>
        if gone r.vid && r.status == 0 then { r with status := Stat.variantGone, lastToken := step } else r
      let s := s.modJob t fun j =>
        { j with reqs := reqs, bindings := j.bindings.map fun b => if gone b.vid then { b with gone := true } else b }
      if reqs.all fun r => r.status != 0 then s.stopJob t Stat.variantGone 0 else s

/-- The end of an episode on this node: RELEASE to the children, realign, removals, release of the slots. -/
def State.barRelease (s : State) (j : Job) (b : BarId) (removed : List Vid) : State :=
  let x := s.bar b.val
  let s := if s.jobChildren j = 0 then s else s.emit (.release (s.jobDown j) j.tag b x.epStep removed)
  let r := if x.realignEn ∧ x.epStep.toNat % 2 ^ x.periodLog2 = 0 then realign j.tag b x.list s else (s, true)
  if !r.2 then r.1
  else
    let s := if j.tokenBar = b.val then r.1.retireIds j.tag removed x.epStep else r.1
    let y := s.bar b.val
    if y.tag ≠ j.tag ∨ y.state = .free ∨ y.state = .aborting then s
    else (s.setBar b.val { y with state := .armed, arrived := 0, children := 0, blocked := [] }).wakeAll x.blocked

/-- Has the episode gathered every local arrival and every child? Then ARRIVE goes up, or the root releases. -/
def State.barTry (s : State) (j : Job) (b : BarId) : State :=
  let x := s.bar b.val
  if x.state = .collecting ∧ x.arrived = x.localArrivals ∧ x.children = s.jobChildren j then
    if s.jobRoot j then
      let ids := if j.tokenBar = b.val then j.retire.take 64 else []
      let s := s.modJob j.tag fun j => { j with retire := j.retire.drop ids.length }
      s.barRelease j b ids
    else (s.setBar b.val { x with state := .waitRelease }).emit (.arrive .up j.tag b x.epStep)
  else s

/-- A slot's arrival or a child's ARRIVE: the first sets the step, a different step ends the job with BAR_SKEW. -/
def State.barArrive (s : State) (j : Job) (b : BarId) (step : W32) (slot : Option (CId × SId)) : State :=
  let x := s.bar b.val
  if x.state ≠ .armed ∧ step ≠ x.epStep then s.faultBar j.tag b Ev.barSkew
  else
    let x := match slot with
      | some k => { x with arrived := x.arrived + 1, blocked := x.blocked ++ [k] }
      | none => { x with children := x.children + 1 }
    (s.setBar b.val { x with state := if x.state = .armed then .collecting else x.state, epStep := step }).barTry j b

/-- Does the job hold barrier object b? -/
def State.holdsBar (s : State) (t : Tag) (b : BarId) : Bool :=
  (s.bar b.val).tag == t && (s.bar b.val).state != .free && (s.bar b.val).state != .aborting

/-- Is a remote signal of the slot not acknowledged? A MOVE or DISPATCH that has completed may still have one (06 R139). -/
def Job.remoteOf (j : Job) (c : CId) (k : SId) : Bool := j.remote.any fun x => x.1 == c && x.2.1 == k

/-- BARRIER (06 R139, R145): after every earlier instruction of the slot has completed and every remote signal of it has been
acknowledged. -/
def barrierBody (e : Env) (s : State) : Ans :=
  let b : BarId := ⟨e.f 47 44 % 16, Nat.mod_lt _ (by decide)⟩
  if !s.holdsBar e.job.tag b then .fail { code := Ev.semRange }
  else if e.y.out ≠ [] ∨ e.job.remoteOf e.c e.k then .stall
  else
    let s := s.advance e.c e.k e.y.pc.toNat
    let s := s.modSlot e.c.val e.k.val fun y => { y with state := .waiting, wait := .barrier, waitIndex := b.val }
    .jump (s.barArrive e.job b (BitVec.ofNat 32 (e.f 43 12)) (some (e.c, e.k)))

/-- SET in a stream (05 R117). -/
def syncSetBody (_e : Env) (_s : State) : Ans := .fail { code := Ev.seqPriv }

/-! ### By hand and between chips -/

/-- SEM_SET (06 R143): by the control processor, or a BAR0 access while a debug session holds the debug privilege; a write of the host
before ready does nothing (15 R409). -/
def semSet (c : CId) (v : W64) (control : Bool) (s : State) : State :=
  let i := bitsOf v 41 32
  let new := BitVec.ofNat 32 (bitsOf v 31 0)
  if !control && !s.up then s
  else if control || decide (2 ≤ s.sec.debugLevel) then
    let x := s.clu c.val
    let old := x.sem i
    (s.setClu c.val ({ x with stuck := x.stuck.filter (· != i) }.setSem i new)).raise Ev.semManualSet
      { unit := BitVec.ofNat 8 c.val, aux := BitVec.ofNat 16 i, arg := BitVec.ofNat 64 (old.toNat * 2 ^ 32 + new.toNat) }
  else s.raise Ev.semSetDenied { unit := BitVec.ofNat 8 c.val }

/-- Does the node apply a signal of a job (06 R141)? -/
def State.takesSignal (s : State) (t : Tag) (r : SemRef) : Bool :=
  r.node == s.lnk.node && match s.job t with
    | some j => j.holdsSem r.cluster.val r.index
    | none => false

/-- SIGNAL_MSG (06 R140, R141): applied or dropped, and acknowledged to the sender. -/
def signalMsg (m : Msg) (sem n : W32) (s : State) : State :=
  s.receiveTo m [1, 3] fun s =>
    let r := semRef sem
    let ok := s.takesSignal m.tag r
    let s := if ok then s.signalSem m.tag r.cluster.val r.index n else s.dropSignal m.tag r.cluster.val r.index
    s.sendTo m.src m.tag (.signalAck m.src m.tag sem ok)

/-- Removes the first remote signal of a job to a semaphore. -/
def dropRemote (r : SemRef) : List (CId × SId × SemRef × Nat) → List (CId × SId × SemRef × Nat)
  | [] => []
  | x :: l => if x.2.2.1 = r then l else x :: dropRemote r l

/-- Removes the outstanding remote SIGNAL of an id. -/
def Slot.dropSignal (y : Slot) (id : Nat) : Slot :=
  { y with out := y.out.filter fun o => !(o.kind == .remoteSignal && o.id == id) }

/-- A job that has ended keeps its window until every signal it issued has taken effect or was dropped (06 R132). -/
def State.dropEnded (s : State) : State :=
  { s with jobs := { s.jobs with list := s.jobs.list.filter fun j => !(j.phase == .ended && j.remote.isEmpty) } }

/-- SIGNAL_ACK (06 R137): the remote signal has taken effect or was dropped, and its SIGNAL completes. -/
def signalAck (m : Msg) (sem : W32) (_applied : Bool) (s : State) : State :=
  s.receiveTo m [0] fun s =>
    match s.jobs.list.find? fun j => j.admitted && j.tag == m.tag with
    | none => s
    | some j =>
      match j.remote.find? fun x => x.2.2.1 == semRef sem with
      | none => s
      | some x =>
        let s := s.modJobs fun j =>
          if j.admitted && j.tag == m.tag then { j with remote := dropRemote (semRef sem) j.remote } else j
        let s := s.dropEnded
        if (s.slot x.1.val x.2.1.val).tag = m.tag then s.modSlot x.1.val x.2.1.val (·.dropSignal x.2.2.2) else s

/-- ARRIVE from a child of the job's tree (06 R146). -/
def arrive (m : Msg) (b : BarId) (step : W32) (s : State) : State :=
  s.receiveJob m [0] (fun e => .arrive e m.tag b step) fun j s =>
    if s.fromChild j m.port ∧ s.holdsBar m.tag b then s.barArrive j b step none else s

/-- RELEASE from the parent (06 R146): it ends the episode that waits for this step. -/
def release (m : Msg) (b : BarId) (step : W32) (removed : List Vid) (s : State) : State :=
  s.receiveJob m [0] (fun e => .release e m.tag b step removed) fun j s =>
    if s.fromParent m.port ∧ s.holdsBar m.tag b ∧ (s.bar b.val).state = .waitRelease ∧ (s.bar b.val).epStep = step
    then s.barRelease j b removed
    else s

/-- An abort of a barrier episode (06 R147): it goes on along the tree; the job ends with FAULT here too, its slots are stopped
and the object is freed. -/
def barrierAbort (m : Msg) (b : BarId) (skew : Bool) (s : State) : State :=
  let on : Out := .barAbort (.but m.port) m.tag b skew
  s.receiveJob m [0] (fun _ => on) fun _ s =>
    s.haltJob m.tag Stat.fault (if skew then Ev.barSkew else Ev.realignUnder) on

/-! ### The meanings -/

/-- SIGNAL (06 R134). -/
def execSignalOp (i : Issue) (s : State) : Res := .next (s.issue i (rowCode 4 0 0) signalBody)
/-- WAIT_TAKE (06 R135). -/
def execWaitTake (i : Issue) (s : State) : Res := .next (s.issue i (rowCode 4 1 0) (waitBody true))
/-- WAIT_OBS (06 R135). -/
def execWaitObs (i : Issue) (s : State) : Res := .next (s.issue i (rowCode 4 2 0) (waitBody false))
/-- BARRIER (06 R145). -/
def execBarrier (i : Issue) (s : State) : Res := .next (s.issue i (rowCode 4 4 0) barrierBody)
/-- SYNC_SET (05 R117). -/
def execSyncSet (i : Issue) (s : State) : Res := .next (s.issue i (rowCode 4 3 0) syncSetBody)
/-- SEM_SET (06 R143). -/
def execSemSet (c : CId) (v : W64) (control : Bool) (s : State) : Res := .next (semSet c v control s)
/-- SIGNAL_MSG (06 R141). -/
def execSignalMsg (m : Msg) (sem n : W32) (s : State) : Res := .next (signalMsg m sem n s)
/-- SIGNAL_ACK (06 R137). -/
def execSignalAck (m : Msg) (sem : W32) (applied : Bool) (s : State) : Res := .next (signalAck m sem applied s)
/-- ARRIVE (06 R146). -/
def execArrive (m : Msg) (b : BarId) (step : W32) (s : State) : Res := .next (arrive m b step s)
/-- RELEASE (06 R146). -/
def execRelease (m : Msg) (b : BarId) (step : W32) (removed : List Vid) (s : State) : Res :=
  .next (release m b step removed s)
/-- BARRIER_ABORT (06 R147). -/
def execBarrierAbort (m : Msg) (b : BarId) (skew : Bool) (s : State) : Res := .next (barrierAbort m b skew s)

end Sys2Proof.Machine
end

