-- ==== Sys2Proof/Machine/Jobs.lean ====
section
/-! DEFINITION. Sys2Proof/Machine/Jobs.lean: work queues (12 R319 to R322), setup of a job on several members (R328), DMA lists (R330), start, output and completion of a job (05 R103, R105; 12 R331), fences (R334). -/

namespace Sys2Proof.Machine

open Sys2Proof

/-! ### Completions (12 R331, R448) -/

/-- Signals an interrupt vector of a function, coalesced as the queue's WQ_CFG says (12 R448). -/
def State.signalQueue (s : State) (f : FnId) (q : QId) : State :=
  let x := s.queue f q
  if !x.msixEn then s
  else if x.coalCount ≤ x.gathered + 1 then (s.setQueue f q { x with gathered := 0 }).signalVector f q.val
  else s.setQueue f q { x with gathered := x.gathered + 1 }

/-- µs from the first instruction to the end of the last stream, saturating (12 R331); 0 where none was issued. -/
def Job.runUs (j : Job) : Nat := match j.firstUs with | some n => min (j.endUs - n).toNat 0xFFFF_FFFF | none => 0

/-- Is the job admitted in its record? One whose setup was refused is not (12 R332). -/
def Job.shown (j : Job) : Bool := j.admitted && !j.turned

/-- Table 12.7. -/
def Job.record (j : Job) (status : Nat) (event : W16) (phase : Bool) : Bytes :=
  leBytes 8 j.d.jobId.toNat ++ leBytes 1 status ++ leBytes 1 (b2n phase + 2 * b2n j.evidFirst.isSome + 4 * b2n j.shown) ++
    leBytes 2 event.toNat ++ leBytes 2 j.sqIndex.toNat ++ leBytes 2 0 ++ leBytes 4 (if j.shown then j.tag.toNat else 0) ++
    leBytes 4 j.runUs ++ leBytes 8 (match j.evidFirst with | some n => n.toNat | none => 2 ^ 64 - 1)

/-- Removes a job that has ended on this node; its window stays while a signal it issued is under way (06 R132). -/
def State.removeJob (s : State) (j : Job) : State :=
  let same (o : Job) : Bool := o.fn == j.fn && o.q == j.q && o.sqIndex == j.sqIndex && o.phase != .ended
  ({ s with jobs := { s.jobs with list := s.jobs.list.map fun o => if same o then { o with phase := .ended } else o } }).dropEnded

/-- Writes the completion record of a job into the slot reserved for it, and removes the job; those of a fenced queue are
discarded (12 R322, R331, R334). -/
def State.complete (s : State) (j : Job) (status : Nat) (event : W16) : State :=
  let s := s.removeJob j
  if j.cfgFence then s
  else
    let x := s.queue j.fn j.q
    let phase := x.cqTail.toNat / 2 ^ x.cqLog2 % 2 == 0
    let s := s.setQueue j.fn j.q { x with cqTail := x.cqTail + 1, cqReserved := x.cqReserved - 1 }
    (s.emit (.completion j.fn j.q x.cqTail (j.record status event phase))).signalQueue j.fn j.q

/-- The event of a refusal is raised, unless it was before. -/
def State.sayTurned (s : State) (d : Dom) (t : Turned) : State :=
  if t.event = 0 ∨ t.said ∨ s.glb.fatal then s else s.raise t.event { t.info with domain := d }

/-- A job turned away: its event is raised, it takes nothing, it completes at once (12 R324). -/
def State.turnAway (s : State) (j : Job) (t : Turned) : State := (s.sayTurned j.d.domain t).complete j t.status t.event

/-! ### Setup on several members (12 R328) -/

/-- The next job tag (12 R329). -/
def State.nextTag (s : State) : Tag × State :=
  let used (n : Nat) : Bool := s.jobs.list.any fun j => (j.admitted || j.phase == .setup) && j.phase != .ended && j.tag.toNat % 4096 == n
  let n := (((List.range 4095).map fun i => (s.jobs.tagCount.toNat + i) % 4095 + 1).find? fun n => !used n).getD 1
  (BitVec.ofNat 24 (s.lnk.position % 4096 * 4096 + n), { s with jobs := { s.jobs with tagCount := BitVec.ofNat 12 n } })

/-- A posted descriptor with its bytes. -/
def jobOf (f : FnId) (q : QId) (i : W32) (raw : Bytes) : Job :=
  { tag := 0, fn := f, q := q, sqIndex := i, d := jobDesc raw, raw := raw, phase := .held }

/-- The key under which the job key is sealed to a member: ss_m of the encapsulation and the job tag in 3 B (13 R356). -/
def jobSealKey (ss : Bytes) (t : Tag) : Bytes := kdf (ss ++ leBytes 3 t.toNat) 32

/-- A job of 2 to 32 members has a job key (11 R312). -/
def keyedJob (members : List NodeId) : Bool := decide (2 ≤ members.length) && decide (members.length ≤ 32)

/-- The origin makes the job key and seals it to each other member: the encapsulation to the member's exchange key, then the sealed
key, with an all-zero nonce and no additional data, for each such key is used once (13 R356; DESIGN CHOICE, log 21). -/
def State.makeJobKey (s : State) (j : Job) : List (NodeId × Bytes) × State :=
  if !keyedJob j.members then ([], s)
  else
    let r := s.random 32
    let s := { r.2 with sec := { r.2.sec with jobKeys := r.2.sec.jobKeys ++ [(j.tag, r.1)] } }
    (j.members.filter (· != s.lnk.node)).foldl (fun (a : List (NodeId × Bytes) × State) n =>
      match s.lnk.memberKeys.find? (·.1 == n) with
      | none => a
      | some k =>
        let x := a.2.random 32
        let c := Config.kemEncap k.2 x.1
        (a.1 ++ [(n, c.1 ++ Config.gcmSeal (jobSealKey c.2 j.tag) (List.replicate 12 0) [] r.1)], x.2)) ([], s)

/-- A member opens the job key that is sealed to it and keeps it until the job ends here; what does not open gives none. -/
def State.openJobKey (s : State) (t : Tag) (keys : List (NodeId × Bytes)) : State :=
  match keys.find? (·.1 == s.lnk.node), s.sec.exchangeSeed with
  | some (_, b), some seed =>
    match Config.gcmOpen (jobSealKey (Config.kemDecap seed (b.take 1568)) t) (List.replicate 12 0) [] (b.drop 1568) with
    | some k => { s with sec := { s.sec with jobKeys := s.sec.jobKeys ++ [(t, k)] } }
    | none => s
  | _, _ => s

/-- The place of a refusal in Table 9.9; none for one that no variant caused (09 R235). -/
def varRank (r : Nat) : Option Nat :=
  if r % 256 = Stat.variantGone then some 0
  else if r = Stat.fault + 256 * Ev.varFaulted.toNat then some 1
  else if r = Stat.fault + 256 * Ev.varBaseMismatch.toNat then some 2
  else if r = Stat.notReady then some 3
  else none

/-- A refusal in one number: status and event. -/
def Turned.code (t : Turned) : Nat := t.status + 256 * t.event.toNat

/-- The origin, or the only member, admits its own descriptor. Where the origin of a job of several members refuses it for a variant,
the SETUP goes out all the same, for the first status of Table 9.9 on any member decides (09 R235): the origin's own refusal waits for
the answers, and takes nothing. The generation that its SETUP names is the one it would latch. -/
def State.admitOwn (s : State) (j : Job) (raw : Bytes) (bad : List Nat) : State :=
  let j := { j with members := s.membersOf j.d }
  let t := s.nextTag
  let j := { j with tag := t.1 }
  let multi := decide (1 < j.members.length)
  let r := if s.glb.fatal || !descGood raw j.d then (s, none) else s.admReads j bad
  let s := r.1
  let open' (s : State) (gen : W32) : State :=
    let k := s.makeJobKey j
    (k.2.notePassing j.tag j.d.domain (decide (j.members.length ≤ 32))).emit (.setup .all j.tag j.d.jobId gen j.d.domain k.1)
  match s.planJob j raw none r.2 with
  | .error e =>
    match varRank e.code, s.latch none with
    | some _, .ok g =>
      if multi ∧ (s.readyCheck j).toOption.isSome then
        let s := { s with jobs := { s.jobs with tagCount := t.2.jobs.tagCount } }
        open' ((s.sayTurned j.d.domain e).putJob { j with phase := .setup, stop := some (e.status, e.event) }) g.num
      else s.turnAway j e
    | _, _ => s.turnAway j e
  | .ok p =>
    let s := { s with jobs := { s.jobs with tagCount := t.2.jobs.tagCount } }
    let s := s.takeJob { j with phase := if multi then .setup else .input } p (bad.drop (s.admList j).length)
    if multi then open' s p.gen.num else s

/-- The answer of a member that SETUP and descriptor both reached. With a device fatal event the job completes here at once (17
R439). -/
def State.setupJoin (s : State) (u : Setup) (j : Job) (bad : List Nat) : State :=
  let s := { s with jobs := { s.jobs with setups := s.jobs.setups.filter fun x => x.tag != u.tag } }
  let j := { j with members := s.membersOf j.d, tag := u.tag, phase := .accepted }
  let refuse (s : State) (t : Turned) : State :=
    ((s.sayTurned j.d.domain t).putJob { j with stop := some (t.status, t.event) }).sendTo u.origin u.tag (.refuse u.origin u.tag s.lnk.node t.code)
  if s.glb.fatal then
    let t : Turned := { status := Stat.fault, event := s.evt.fatalCode }
    (s.turnAway j t).sendTo u.origin u.tag (.refuse u.origin u.tag s.lnk.node t.code)
  else if j.d.origin ≠ u.origin ∨ j.members ≠ u.members ∨ j.d.est ≠ u.est.toNat then
    refuse s { status := Stat.fault, event := Ev.hifSetupBad }
  else
    let r := if descGood j.raw j.d then s.admReads j bad else (s, none)
    match r.1.planJob j j.raw (some u.gen) r.2 with
    | .error t => refuse r.1 t
    | .ok p =>
      ((r.1.takeJob j p (bad.drop (s.admList j).length)).openJobKey j.tag u.keys).sendTo u.origin u.tag (.accept u.origin u.tag s.lnk.node)

/-- DESCRIPTOR_CONSUME (12 R322): the descriptor at the head of a queue that runs, when the completion ring has a free
slot; a serial job waits for every earlier job of its queue (R323); a job of several members needs randomness for its key
(13 R342), but for a device fatal event, which turns it away at once (17 R439). One whose job_id a held SETUP names is matched with it,
whatever origin it names (R328). -/
def descriptorConsume (f : FnId) (q : QId) (d : BitVec 1024) (bad : List Nat) (s : State) : State :=
  let x := s.queue f q
  let raw := leBytes 128 d.toNat
  let j := jobOf f q x.sqHead raw
  if !s.up ∨ x.state ≠ .running ∨ x.fencing ∨ x.sqTail = x.sqHead ∨
      2 ^ x.cqLog2 ≤ (x.cqTail + BitVec.ofNat 32 x.cqReserved - x.cqHead).toNat ∨
      (j.d.serial ∧ s.jobs.list.any fun o => o.fn == f && o.q == q && o.phase != .ended) ∨
      (1 < j.d.memberCount ∧ !s.sec.entropyOk ∧ !s.glb.fatal) then s
  else
    let s := s.setQueue f q { x with sqHead := x.sqHead + 1, cqReserved := x.cqReserved + 1 }
    if s.glb.fatal then s.admitOwn j raw bad
    else
      match s.jobs.setups.find? fun u => u.jobId == j.d.jobId with
      | some u => (s.putJob j).setupJoin u j bad
      | none => if 1 < j.d.memberCount ∧ j.d.origin ≠ s.lnk.node then s.putJob j else s.admitOwn j raw bad

/-- A SETUP whose job_id is that of a descriptor that names this node its origin (12 R328): it is refused, and that job ends. -/
def State.setupClash (s : State) (u : Setup) (j : Job) : State :=
  let s := s.raise Ev.hifSetupBad { tag := j.tag, domain := j.d.domain }
  let s := s.sendTo u.origin u.tag (.refuse u.origin u.tag s.lnk.node (Stat.fault + 256 * Ev.hifSetupBad.toNat))
  (s.modJob j.tag fun j => { j with turned := true }).stopJob j.tag Stat.fault Ev.hifSetupBad

/-- SETUP of the origin (12 R328 step 2): it goes on along the control tree; a member waits for its own descriptor, another node
notes how the job's messages are protected (11 R312). -/
def setup (m : Msg) (jobId : W64) (members : List NodeId) (est g : W32) (dom : Dom) (keys : List (NodeId × Bytes)) (bad : List Nat)
    (s : State) : State :=
  s.receive m [0] fun s =>
    let s := if s.leadsOn m.port then s.emit (.setup (.but m.port) m.tag jobId g dom keys) else s
    let s := s.notePassing m.tag dom (decide (members.length ≤ 32))
    if !members.contains s.lnk.node then s
    else
      let u : Setup := ⟨m.tag, jobId, m.src, members, est, g, keys⟩
      match s.jobs.list.find? fun j => j.phase == .held && j.d.jobId == jobId with
      | some j => s.setupJoin u j bad
      | none =>
        match s.jobs.list.find? fun j => j.phase == .setup && j.stop.isNone && j.d.jobId == jobId with
        | some j => s.setupClash u j
        | none => { s with jobs := { s.jobs with setups := s.jobs.setups ++ [u] } }

/-- The refusal that decides a setup: that of the refusing member of lowest position (12 Table 12.6 step 4); where a variant
caused it, the first of Table 9.9 on any member (09 R235). -/
def decideRefusal (l : List Nat) : Option Nat :=
  l.head?.map fun a =>
    if (varRank a).isNone then a
    else l.foldl (fun a b => match varRank a, varRank b with
      | some x, some y => if y < x then b else a
      | _, _ => a) a

/-- The job of this origin that waits for the answers to its SETUP: admitted and not stopped, or refused here for a variant. -/
def Job.asks (j : Job) (t : Tag) : Bool := j.tag == t && j.phase == .setup && (j.stop.isNone || !j.admitted)

/-- The origin has a member's answer: on the last it sends GO, or ABORT with the status of the refusing member of lowest
position (12 Table 12.6 step 4), its own refusal among them (09 R235). HIF_SETUP_BAD is raised on every member (R328). -/
def State.setupReply (s : State) (t : Tag) (n : NodeId) (status : Nat) : State :=
  match s.jobs.list.find? (·.asks t) with
  | none => s
  | some j =>
    if !j.members.contains n ∨ n = s.lnk.node ∨ j.replies.any (fun r => r.1 == n) then s
    else
      let l := j.replies ++ [(n, status)]
      if l.length + 1 < j.members.length then s.modJobs fun o => if o.asks t then { o with replies := l } else o
      else
        let own := if j.admitted then 0 else match j.stop with | some x => x.1 + 256 * x.2.toNat | none => 0
        match decideRefusal (j.members.filterMap fun n => (((s.lnk.node, own) :: l).find? fun r => r.1 == n && r.2 != 0).map (·.2)) with
        | none => (s.modJob t fun j => { j with replies := l, phase := .input }).emit (.go .all t)
        | some r =>
          let event := BitVec.ofNat 16 (r / 256)
          let s := if event = Ev.hifSetupBad then s.raise event { tag := t, domain := j.d.domain } else s
          if j.admitted then (s.modJob t fun j => { j with turned := true }).stopJob t (r % 256) event
          else (s.complete j (r % 256) event).emit (.abort .all t (r % 256) event)

/-- ACCEPT of a member to the origin (12 R328), one hop at a time (11 R298). -/
def accept (m : Msg) (node origin : NodeId) (s : State) : State :=
  s.receiveHop m origin (.accept origin m.tag node) fun s => s.setupReply m.tag node 0

/-- REFUSE of a member to the origin, with a status and its event (12 R328), one hop at a time (11 R298). -/
def refuse (m : Msg) (node origin : NodeId) (status : Nat) (s : State) : State :=
  s.receiveHop m origin (.refuse origin m.tag node status) fun s => if status = 0 then s else s.setupReply m.tag node status

/-- GO (12 R328 step 4): the member's input DMA starts. -/
def go (m : Msg) (s : State) : State :=
  s.receive m [0] fun s =>
    let s := if s.leadsOn m.port then s.emit (.go (.but m.port) m.tag) else s
    s.modJob m.tag fun j => if j.phase = .accepted ∧ j.stop.isNone then { j with phase := .input } else j

/-- JOB_ABORT (12 R329): the job stops here too; a member that refused its setup completes (Table 12.6 step 4). -/
def jobAbort (m : Msg) (status : Nat) (event : W16) (s : State) : State :=
  s.receive m [0] fun s =>
    let s := { s with jobs := { s.jobs with setups := s.jobs.setups.filter fun u => u.tag != m.tag } }
    let note (s : State) (d : Dom) : State :=
      if event = Ev.hifSetupBad then s.raise event { tag := m.tag, domain := d } else s
    match s.job m.tag with
    | some j =>
      if j.stop.isSome then s
      else
        let s := s.modJob m.tag fun j =>
          { j with turned := j.phase == .accepted && status != Stat.aborted && status != Stat.memberLost }
        (note s j.d.domain).haltJob m.tag status event (.abort (.but m.port) m.tag status event)
    | none =>
      let s := if s.leadsOn m.port then s.emit (.abort (.but m.port) m.tag status event) else s
      match s.jobs.list.find? fun j => !j.admitted && j.phase == .accepted && j.tag == m.tag with
      | some j => s.complete j status event
      | none => s

/-- SETUP_HOLD_TIMEOUT (12 R328): a descriptor without its SETUP completes with NOT_READY, or with FAULT after a device fatal event (17
R439); a SETUP without its descriptor is refused. -/
def setupHoldTimeout (jobId : W64) (s : State) : State :=
  let s := match s.jobs.setups.find? fun u => u.jobId == jobId with
    | some u =>
      ({ s with jobs := { s.jobs with setups := s.jobs.setups.filter fun x => x.tag != u.tag } } : State).sendTo u.origin u.tag
        (.refuse u.origin u.tag s.lnk.node Stat.notReady)
    | none => s
  match s.jobs.list.find? fun j => j.phase == .held && j.d.jobId == jobId with
  | some j => if s.glb.fatal then s.complete j Stat.fault s.evt.fatalCode else s.complete j Stat.notReady 0
  | none => s

/-! ### DMA lists (12 R330, 13 R350, R351) -/

/-- An entry of a DMA list. -/
structure DmaEntry where
  host : W64
  ptr : W64
  len : Nat
  sealed' : Bool
deriving DecidableEq, Repr

/-- An entry's form. -/
def dmaEntry (l : Bytes) : Option DmaEntry :=
  let p : W64 := BitVec.ofNat 64 (leAt l 8 8)
  let n := leAt l 16 4
  if 1 ≤ n ∧ n ≤ 2 ^ 28 ∧ leAt l 20 1 < 2 ∧ leAt l 21 11 = 0 ∧ ptrForm p 1 ∧ ptrSet p then
    some ⟨BitVec.ofNat 64 (leAt l 0 8), p, n, leAt l 20 1 == 1⟩
  else none

/-- The entries of a list: a header of 16 B with the count, then 32 B an entry; none where a field is not as R330 lays it
out. -/
def dmaEntries (l : Bytes) : Option (List DmaEntry) :=
  let n := leAt l 0 2
  if n = 0 ∨ 1024 < n ∨ leAt l 2 14 ≠ 0 ∨ l.length < 16 + 32 * n then none
  else (List.range n).mapM fun i => dmaEntry ((l.drop (16 + 32 * i)).take 32)

/-- Additional data of a sealed entry. -/
def sealAad (header : Bytes) (d : Dom) : Bytes := header ++ leBytes 2 d.toNat

/-- Opens a sealed input; none when a length, the nonce space or the tag is wrong, or the domain has no data key. -/
def State.openEntry (s : State) (d : Dom) (e : DmaEntry) (data : Bytes) : Option Bytes :=
  let h := data.take 16
  match (s.session d.toNat).dataKey with
  | none => none
  | some key =>
    if e.len < 32 ∨ leAt h 12 4 + 32 ≠ e.len ∨ leAt h 0 4 < 2 ^ 31 then none
    else Config.gcmOpen key (h.take 12) (sealAad h d) (data.drop 16)

/-- Seals an output under the data key with the next nonce of the session. -/
def State.sealEntry (s : State) (d : Dom) (p : Bytes) : Option (Bytes × State) :=
  let x := s.session d.toNat
  match x.dataKey with
  | none => none
  | some key =>
    let h := leBytes 4 (2 ^ 16 + s.lnk.node.toNat) ++ leBytes 8 x.outCtr.toNat ++ leBytes 4 p.length
    some (h ++ Config.gcmSeal key (h.take 12) (sealAad h d) p, s.setSession d.toNat { x with outCtr := x.outCtr + 1 })

/-- The entries of an input list in order, each with the bytes that its host address holds; false when one fails to open (nothing
of it is written). -/
def dmaIn (w : Who) : List (DmaEntry × Bytes) → State → State × Bool
  | [], s => (s, true)
  | (e, data) :: l, s =>
    match ptrAddr e.ptr.toNat with
    | none => (s, false)
    | some a =>
      match (if e.sealed' then s.openEntry w.dom e data else some data) with
      | some b => dmaIn w l (s.store w a b)
      | none => (s, false)

/-- Has the job of a tag stopped? -/
def State.halted (s : State) (t : Tag) : Bool := (s.job t).all fun j => j.stop.isSome

/-- The entries of an output list in order; `bad`: the parity failures of their reads. -/
def dmaOut (w : Who) : List DmaEntry → List Nat → State → State × Bool
  | [], _, s => (s, true)
  | e :: l, bad, s =>
    match ptrAddr e.ptr.toNat with
    | none => (s, false)
    | some a =>
      let n := if e.sealed' then e.len - 32 else e.len
      let s := s.readThen w [(a, n)] (bad.take 1) id
      if s.halted w.tag then (s, true)
      else
        let b := s.read w.req a n
        if e.sealed' then
          match (if e.len < 32 then none else s.sealEntry w.dom b) with
          | some (b, s) => dmaOut w l (bad.drop 1) (s.emit (.hostWrite e.host b))
          | none => (s, false)
        else dmaOut w l (bad.drop 1) (s.emit (.hostWrite e.host b))

/-- INPUT_DMA_DONE (12 R330): the input list has run; a job that was stopped drops it (R334). -/
def inputDmaDone (t : Tag) (l : DmaList) (s : State) : State :=
  match s.job t with
  | none => s
  | some j =>
    if j.phase ≠ .input ∨ j.stop.isSome then s
    else if j.d.inList = 0 then s.modJob t fun j => { j with phase := .waiting }
    else
      match dmaEntries l.bytes with
      | none => s.faultJob t Ev.hifDescBad
      | some es =>
        let r := dmaIn j.who (es.zipIdx.map fun e => (e.1, fitBytes e.1.len (l.data.getD e.2 []))) s
        if r.2 then r.1.modJob t fun j => { j with phase := .waiting } else r.1.faultJob t Ev.hifUnseal

/-! ### Streams (05 R103, R105) -/

/-- Does an earlier job hold or wait for a slot number of job j? -/
def slotTaken (j : Job) : List Job → Bool
  | [] => false
  | o :: l =>
    if o.admitted && o.tag == j.tag && o.phase != .ended then
      -- later jobs in admission order only matter while they run
      l.any fun o => o.phase == .running && !o.live.isEmpty && o.d.slots.any fun k => j.d.slots.contains k
    else
      (o.admitted && (o.d.slots.any fun k => j.d.slots.contains k) &&
        ((o.stop.isNone && (o.phase == .setup || o.phase == .accepted || o.phase == .input || o.phase == .waiting)) ||
          (o.phase == .running && !o.live.isEmpty))) || slotTaken j l

/-- The stream pointers of a job in the descriptor's order, with cluster and slot (05 R103). -/
def State.streams (s : State) (j : Job) : List (CId × SId × W64) :=
  let ks := (clustersOf j.d.clusters).flatMap fun c => j.d.slots.map fun k => (c, k)
  let l := s.jobRead j.d j.d.streams (8 * ks.length)
  ks.zipIdx.map fun e => (e.1.1, e.1.2, BitVec.ofNat 64 (leAt l (8 * e.2) 8))

/-- Is a stream pointer one that can start? A null one of a training job only holds its slot. -/
def State.streamOk (s : State) (j : Job) (p : W64) : Bool :=
  decide (p.toNat < 2 ^ 48) && match ptrDecode p.toNat with
    | some (some a) => a.a % 16 == 0 && s.inSpace a 16
    | some none => j.training
    | none => false

/-- A stream starts in a slot with the state of Table 5.1 and Table 4.1. -/
def State.startSlot (s : State) (t : Tag) (c : CId) (k : SId) (pc : W64) : State :=
  let y := s.slot c.val k.val
  let z : Slot := { strict := y.strict, weight := y.weight, state := .running, tag := t, pc := pc.truncate 48 }
  (s.setSlot c.val k.val z).setVctx c.val k.val {}

/-- JOB_START (05 R103, R105): the job's slots are free and its turn has come. Every slot that the job holds takes the state of
Tables 5.1 and 4.1; one with a null pointer runs nothing. -/
def jobStart (t : Tag) (bad : List Nat) (s : State) : State :=
  match s.job t with
  | none => s
  | some j =>
    if j.phase ≠ .waiting ∨ j.stop.isSome ∨ slotTaken j s.jobs.list then s
    else
      let ps := s.streams j
      s.readThen j.who (match ptrAddr j.d.streams.toNat with | some a => [(a, 8 * ps.length)] | none => []) bad fun s =>
      let ps := s.streams j
      let run := (ps.filter fun p => ptrSet p.2.2).map fun p => (p.1, p.2.1)
      match ps.find? fun p => !s.streamOk j p.2.2 with
      | some p =>
        (s.modJob t fun j => { j with phase := .running }).faultJob t Ev.seqAddr
          { unit := BitVec.ofNat 8 p.1.val, sub := BitVec.ofNat 8 p.2.1.val, arg := p.2.2 }
      | none =>
        let s := foldS s ps fun s p =>
          let s := s.startSlot t p.1 p.2.1 p.2.2
          if ptrSet p.2.2 then s else s.slotIdle p.1 p.2.1
        s.modJob t fun j => { j with
          phase := .running, live := run, slots := (ps.map fun p => (p.1, p.2.1, p.2.2.truncate 48)), firstUs := none
          lastUs := s.life.clock, endUs := s.life.clock }

/-! ### Evidence (12 R335 to R339) -/

/-- Host time of a record: all ones when the host has set none. -/
def State.hostTime (s : State) : Nat := if s.life.timeSet then (s.life.offset + s.life.clock).toNat else 2 ^ 64 - 1

/-- The body of a record: layer indices, routing rows, attribution entries, zeros. -/
def evidBody (e stage : Bytes) : Bytes :=
  let k := leAt e 2 1
  let n := leAt e 3 1
  (e.drop 8).take 16 ++ stage.take (64 * n) ++ List.replicate (1024 - 64 * n) 0 ++ (stage.drop 1024).take (8 * k) ++
    List.replicate (512 - 8 * k) 0 ++ List.replicate 2336 0

/-- Builds the record of one entry (12 R336, R337). -/
def State.evidRecord (s : State) (j : Job) (key : Bytes) (e stage : Bytes) : State :=
  let req := leAt e 0 2
  let r := (j.reqs[req]?).getD ⟨0, 0, 0, 0, 0⟩
  let vg := match j.bindings.find? fun b => b.vid == r.vid with | some b => b.gen.toNat | none => 0
  let h := leBytes 4 0x4556_4B59 ++ leBytes 2 1 ++ leBytes 2 s.lnk.node.toNat ++ leBytes 8 s.hif.evidSeq.toNat ++
    leBytes 6 (s.life.counters.getD 1 0).toNat ++ leBytes 2 0 ++ leBytes 2 j.d.domain.toNat ++ leBytes 2 r.vid ++ leBytes 4 vg ++
    leBytes 4 j.gen.toNat ++ leBytes 4 j.cfgGen.toNat ++ leBytes 4 j.tag.toNat ++ leBytes 2 req ++ leBytes 1 (leAt e 3 1) ++
    leBytes 1 (leAt e 2 1) ++ leBytes 8 s.life.clock.toNat ++ leBytes 8 s.hostTime ++ leBytes 8 j.d.jobId.toNat ++
    leBytes 4 (leAt e 4 4) ++ List.replicate 52 0
  let nonce := leBytes 4 s.lnk.node.toNat ++ leBytes 8 s.hif.evidSeq.toNat
  let b := h ++ Config.gcmSeal key nonce h (evidBody e stage)
  let link := Config.shake256 (s.hif.evidLink ++ b) 64
  let s := { s with hif := { s.hif with evidBuf := s.hif.evidBuf ++ [b ++ link], evidSeq := s.hif.evidSeq + 1, evidLink := link } }
  s.modJob j.tag fun j => { j with evidFirst := j.evidFirst.orElse fun _ => some (s.hif.evidSeq - 1) }

/-- The shape of an evidence entry (12 R335). -/
def evidOk (j : Job) (e : Bytes) : Bool :=
  decide (leAt e 0 2 < j.reqs.length) && decide (1 ≤ leAt e 2 1) && decide (leAt e 2 1 ≤ 64) && decide (leAt e 3 1 ≤ 16) &&
    leAt e 24 8 == 0

/-- The evidence list of a job: its staging pointer and its entries (12 R335); none where its shape is wrong. -/
def State.evidList (s : State) (j : Job) : Option (Addr × List Bytes) :=
  let n := j.d.evidCount
  let l := s.jobRead j.d j.d.evidList (16 + 32 * n)
  let es := (List.range n).map fun i => (l.drop (16 + 32 * i)).take 32
  let sp : W64 := BitVec.ofNat 64 (leAt l 0 8)
  if leAt l 8 8 ≠ 0 ∨ !ptrForm sp 64 ∨ !es.all (evidOk j) then none else (ptrAddr sp.toNat).map fun a => (a, es)

/-- The entries whose request is OK, each with its staging (12 R335, R336). -/
def evidWanted (j : Job) (a : Addr) (es : List Bytes) : List (Bytes × Addr) :=
  (es.zipIdx.filter fun e => ((j.reqs[leAt e.1 0 2]?).map (·.status)) == some 0).map fun e => (e.1, a.plus (2048 * e.2))

/-- What the assembly of a job's evidence reads: the list, then the staging of each record. -/
def State.evidReads (s : State) (j : Job) : List (Addr × Nat) :=
  match j.d.evidence, ptrAddr j.d.evidList.toNat with
  | true, some a =>
    (a, 16 + 32 * j.d.evidCount) :: (match s.evidList j with
      | some (b, es) => (evidWanted j b es).map fun e => (e.2, 2048)
      | none => [])
  | _, _ => []

/-- Every record of the job, after its streams have ended; a wrong shape or a domain with no data key ends the job. -/
def State.assemble (s : State) (j : Job) : State :=
  if !j.d.evidence then s
  else
    match (s.session j.d.domain.toNat).dataKey, s.evidList j with
    | none, _ => s.faultJob j.tag Ev.hifUnseal
    | _, none => s.faultJob j.tag Ev.hifDescBad
    | some key, some (a, es) =>
      let s := { s with hif := { s.hif with evidReserved := s.hif.evidReserved - j.d.evidCount } }
      foldS s (evidWanted j a es) fun s e => s.evidRecord j key e.1 (s.read (.dom j.d.domain) e.2 2048)

/-- JOB_OUTPUT (12 R330): every stream on this node has ended; the evidence records are assembled, then the output list
runs. `bad`: parity failures of its reads, those of the evidence first (07 R162). -/
def jobOutput (t : Tag) (l : DmaList) (bad : List Nat) (s : State) : State :=
  match s.job t with
  | none => s
  | some j =>
    if j.phase ≠ .running ∨ !j.live.isEmpty ∨ j.stop.isSome then s
    else
      let reads := s.evidReads j
      let s := s.readThen j.who reads (bad.take reads.length) fun s => s.assemble j
      if s.halted t then s
      else
        let s := s.modJob t fun j => { j with phase := .output }
        if j.d.outList = 0 then s
        else
          match dmaEntries l.bytes with
          | none => s.faultJob t Ev.hifDescBad
          | some es =>
            let r := dmaOut j.who es (bad.drop reads.length) s
            if r.2 then r.1 else r.1.faultJob t Ev.hifUnseal

/-- EVIDENCE_WRITE (12 R338): the oldest record, as the host ring has space. -/
def evidenceWrite (s : State) : State :=
  match s.hif.evidBuf with
  | [] => s
  | b :: l =>
    let h := s.hif
    if !s.up ∨ !h.evidEn ∨ 2 ^ h.evidLog2 ≤ (h.evidTail - h.evidHead).toNat then s
    else
      let at' := h.evidBase + BitVec.ofNat 64 (4096 * (h.evidTail.toNat % 2 ^ h.evidLog2))
      ({ s with hif := { h with evidBuf := l, evidTail := h.evidTail + 1 } }).emit (.hostWrite at' b)

/-- What a checkpoint holds beside its magic (12 R339). -/
def State.checkFields (s : State) (key : Bytes) : Bytes :=
  leBytes 2 s.lnk.node.toNat ++ leBytes 6 (s.life.counters.getD 1 0).toNat ++ leBytes 8 (s.hif.evidSeq - 1).toNat ++
    s.hif.evidLink ++ leBytes 8 s.life.clock.toNat ++ leBytes 8 s.hostTime ++ leBytes 4 s.cfg.gen.toNat ++
    leBytes 4 (match s.firn.current with | some g => g.num.toNat | none => 0) ++ Config.shake256 (Config.slhPublic key) 32

/-- CHECKPOINT (12 R339). Its fields take 136 B and do not fit the 124 B after the magic, so how they lie there is open: an
uninterpreted function of them (log 3). It waits for the attestation key (13 R346). -/
def checkpoint (s : State) : State :=
  let h := s.hif
  match s.sec.attKey with
  | none => s
  | some k =>
    if !s.up ∨ !h.evidEn ∨ !s.sec.attReady ∨ !s.sec.entropyOk then s
    else if 2 ^ h.ckptLog2 ≤ (h.ckptTail - h.ckptHead).toNat then s.raise Ev.hifCkptMissed
    else
      let c := leBytes 4 0x4556_434B ++ fitBytes 124 (Config.checkpoint (s.checkFields k))
      let at' := h.ckptBase + BitVec.ofNat 64 (65536 * (h.ckptTail.toNat % 2 ^ h.ckptLog2))
      let r := ({ s with hif := { h with ckptTail := h.ckptTail + 1 } } : State).random 32
      r.2.emit (.hostWrite at' (c ++ slhSign k r.1 c ++ List.replicate 15552 0))

/-! ### The end of a job (12 R331, R332) -/

/-- Status and event of a job that completes (10 R278). -/
def State.outcome (s : State) (j : Job) : Nat × W16 :=
  match j.stop with
  | some x => x
  | none =>
    match j.ctx with
    | some x =>
      let cx := s.ctx x.val
      if !cx.parks.isEmpty then (Stat.deferred, 0) else if cx.skippedAny then (Stat.stepSkipped, 0) else (Stat.ok, 0)
    | none => (Stat.ok, 0)

/-- Is work of the job still under way in a cluster? -/
def State.groupsBusy (s : State) (t : Tag) : Bool :=
  s.cl.any fun e => e.2.groups.any fun g => g.2.tag == t && (g.2.dying || g.2.state == .closing)

/-- What a job holds returns: its groups, context, barriers, collectives, credits, evidence slots, its key (03 R68, 10 R251,
12 R325, R338). -/
def State.release (s : State) (j : Job) : State :=
  let s := match j.ctx with
    | some x =>
      let cx := s.ctx x.val
      s.setCtx x.val (if cx.parks.isEmpty then cx.freed else { cx with ended := true, state := .receiving })
    | none => s
  let s := (s.freeGroups j.tag).freeBars j.tag
  let keep := j.phase = .output
  { s with
    coll := s.coll.filter fun x => x.tag != j.tag
    hif := { s.hif with
      committed := if j.d.serving then s.hif.committed - j.d.est else s.hif.committed
      evidReserved := if j.d.evidence ∧ !keep then s.hif.evidReserved - j.d.evidCount else s.hif.evidReserved }
    sec := { s.sec with
      jobKeys := s.sec.jobKeys.filter fun e => e.1 != j.tag, jobCounts := s.sec.jobCounts.filter fun e => e.1 != j.tag
      jobRx := s.sec.jobRx.filter fun e => e.1 != j.tag } }

/-- Are the update lanes still at work for the job: in a step that its streams have passed, or, for a job that was stopped, in
a layer (10 R261, R278)? -/
def State.jobLanes (s : State) (j : Job) : Bool :=
  j.ctx.any fun x =>
    let cx := s.ctx x.val
    if j.stop.isSome then cx.state == .updating else s.lanesBusy cx

/-- The completion status is written to every request that has none of its own (09 Table 9.8). -/
def State.markRequests (s : State) (j : Job) (status : Nat) : State :=
  match j.admitted, ptrAddr j.reqBase.toNat with
  | true, some a =>
    foldS s (j.reqs.zipIdx.filter fun e => e.1.status == 0) fun s e =>
      s.store j.who (a.plus (64 + 16 * e.2 + 8)) (leBytes 1 status)
  | _, _ => s

/-- JOB_COMPLETE (12 R331): a job that has run its output list, or was stopped and whose slots are empty, ends once the lanes
are done with it. -/
def jobComplete (t : Tag) (s : State) : State :=
  match s.job t with
  | none => s
  | some j =>
    if !j.live.isEmpty ∨ s.groupsBusy t ∨ s.jobLanes j ∨ !(j.phase == .output || j.stop.isSome) then s
    else
      let o := s.outcome j
      let s := ((s.markRequests j o.1).release j).complete j o.1 o.2
      if j.training then foldS s (j.bindings.map (·.vid)) fun s v => s.stateInTry v else s

/-! ### Queues (12 R319 to R322) -/

/-- The tail is more than one ring ahead of the head (12 R322). -/
def Queue.tailCheck (x : Queue) : Queue :=
  if x.state = .running ∧ 2 ^ x.sqLog2 < (x.sqTail - x.sqHead).toNat then { x with state := .error, error := 3 } else x

/-- WQ_DOORBELL (12 R321, R322): dropped and counted before ready; ignored while its function is fenced. -/
def wqDoorbell (f : FnId) (q : QId) (tail : W32) (s : State) : State :=
  if s.rst.held ≠ .none ∨ !s.fnOn f then s
  else if !s.glb.ready then
    let b := bump s.hif.dbDrop
    ({ s with hif := { s.hif with dbDrop := b.1, dbDropSat := s.hif.dbDropSat || b.2 } }).satEvent b.2 5 0x008_0008
  else
    let x := s.queue f q
    if x.fencing then s else s.setQueue f q { x with sqTail := tail }.tailCheck

/-- WQ_CQ_HEAD (12 R319, R322). While the queue is being fenced the write is ignored, for the queue's registers are about to return to
their reset values: Table 12.9 says so of doorbells alone (DESIGN CHOICE, log 19). -/
def wqCqHead (f : FnId) (q : QId) (v : W32) (s : State) : State :=
  s.fnReg f fun s => s.modQueue f q fun x => if x.fencing then x else { x with cqHead := v }

/-- A fence starts for the queues that `pick` selects (12 Table 12.9 steps 1 and 2): they stop, held jobs are dropped,
admitted jobs are aborted; `alone`: a fence of one queue. -/
def State.fence (s : State) (pick : FnId → QId → Bool) (alone : Bool) (status : Nat) (event : W16) : State :=
  let s := foldS s ((List.finRange 64).flatMap fun f => (List.finRange 16).map fun q => (f, q)) fun s e =>
    if pick e.1 e.2 then s.modQueue e.1 e.2 fun x => { x with fencing := true, alone := alone && (!x.fencing || x.alone), state := .fenced }
    else s
  let s := foldS s (s.jobs.list.filter fun j => pick j.fn j.q && !j.admitted && j.phase == .setup) fun s j =>
    s.emit (.abort .all j.tag status event)
  let s := { s with jobs := { s.jobs with
    list := (s.jobs.list.filter fun j => !(pick j.fn j.q && !j.admitted)).map fun j =>
      if pick j.fn j.q then { j with cfgFence := true } else j } }
  foldS s (s.jobs.list.filter fun j => pick j.fn j.q && j.admitted && j.phase != .ended) fun s j => s.stopJob j.tag status event

/-- The fence of a function; the physical function's reset fences every function. -/
def State.fenceFn (s : State) (pick : FnId → Bool) : State := s.fence (fun f _ => pick f) false Stat.aborted Ev.hifFence

/-- FUNCTION_LEVEL_RESET (12 R334): the function's vectors take their reset values with it (R318). -/
def functionLevelReset (f : FnId) (s : State) : State :=
  let hit (g : FnId) : Bool := f.val == 0 || g == f
  if !s.fnOn f then s
  else
    let t := s.fenceFn hit
    { t with hif := { t.hif with vectors := t.hif.vectors.filter fun e => !(f.val == 0 || e.1 / 32 == f.val) } }
/-- VF_ENABLE_CLEAR (12 R334): every virtual function. -/
def vfEnableClear (s : State) : State :=
  let t := s.fenceFn fun g => g.val != 0
  { t with hif := { t.hif with vfs := 0, vectors := t.hif.vectors.filter fun e => e.1 / 32 == 0 } }
/-- D3HOT_ENTRY (12 R334). -/
def d3hotEntry (f : FnId) (s : State) : State := if s.fnOn f then s.fenceFn fun g => g == f else s
/-- BUS_MASTER_CLEAR (12 R334). -/
def busMasterClear (f : FnId) (s : State) : State := if s.fnOn f then s.fenceFn fun g => g == f else s

/-- One fence of function f over some of its queues is released, once every job of them has ended: they return to their reset values;
vector 16 of a virtual function signals its fence (R318). -/
def State.releaseQueues (s : State) (f : FnId) (qs : List QId) : State :=
  if qs.isEmpty ∨ s.jobs.list.any fun j => j.fn == f && qs.contains j.q && j.phase != .ended then s
  else
    let s := foldS s qs fun s q => s.modQueue f q fun x => { bindValid := x.bindValid, bindDomain := x.bindDomain }
    let s := s.raise Ev.hifFence
    if f.val = 0 then s else s.signalVector f 16

/-- FENCE_RELEASE (12 Table 12.9 step 4): the queues of a fence of the whole function are released together, a queue fenced alone by
itself (R334). -/
def fenceRelease (f : FnId) (s : State) : State :=
  let qs := (List.finRange 16).filter fun q => (s.queue f q).fencing
  foldS (s.releaseQueues f (qs.filter fun q => !(s.queue f q).alone)) (qs.filter fun q => (s.queue f q).alone) fun s q =>
    s.releaseQueues f [q]

/-- Fields of WQ_CFG (12 Table 12.3). -/
def Queue.config (x : Queue) (v : W32) : Queue :=
  { x with
    enable := bitOf v 31, msixEn := bitOf v 30, sqLog2 := bitsOf v 29 26, cqLog2 := bitsOf v 25 22
    coalCount := bitsOf v 21 14, coalUs := bitsOf v 13 4 }

/-- WQ_CFG (12 R320, R334): a reserved ring size is ignored as a whole; enabling checks the binding and the rings; clearing
enable fences the queue, and what was written stands until the release. While the queue is being fenced a write is ignored whole: Table
12.9 says so of doorbells alone (DESIGN CHOICE, log 19). -/
def wqCfg (f : FnId) (q : QId) (v : W32) (s : State) : State :=
  s.fnReg f fun s =>
    let x := s.queue f q
    let ok (n : Nat) : Bool := decide (4 ≤ n) && decide (n ≤ 12)
    let y := x.config v
    if x.fencing then s
    else if !ok y.sqLog2 ∨ !ok y.cqLog2 then s.setQueue f q { x with error := 4 }
    else if !y.enable then
      if x.state = .disabled then s.setQueue f q y
      else (s.setQueue f q y).fence (fun g p => g == f && p == q) true Stat.aborted Ev.hifFence
    else if !x.bindValid then s.setQueue f q (if x.state = .disabled then { y with enable := false, error := 1 } else { x with error := 1 })
    else if y.cqLog2 < y.sqLog2 then
      s.setQueue f q (if x.state = .disabled then { y with enable := false, error := 2 } else { x with error := 2 })
    else if x.state = .disabled then s.setQueue f q { y with state := .running, error := 0 }.tailCheck
    else (s.setQueue f q y).queueDue f q

/-- HIF_WQ_BIND (12 R320, Table 12.14): ignored for a queue that is not disabled. -/
def hifWqBind (f : FnId) (q : QId) (v : W32) (s : State) : State :=
  s.hostReg fun s =>
    let x := s.queue f q
    if x.state ≠ .disabled then s
    else s.setQueue f q { x with bindValid := bitOf v 31, bindDomain := BitVec.ofNat 12 (bitsOf v 11 0) }

/-- INTERRUPT_COALESCE_TIMEOUT (12 R448): a pending signal has been held for coal_us. -/
def interruptCoalesceTimeout (f : FnId) (q : QId) (mirror : Bool) (s : State) : State :=
  if mirror then
    if s.evt.gathered = 0 ∨ s.evt.coalUs = 0 ∨ s.evt.coalCount = 0 then s
    else ({ s with evt := { s.evt with gathered := 0 } }).signalVector 0 16
  else
    let x := s.queue f q
    if x.gathered = 0 ∨ x.coalUs = 0 ∨ x.coalCount = 0 ∨ !x.msixEn then s
    else (s.setQueue f q { x with gathered := 0 }).signalVector f q.val

/-! ### The meanings -/

/-- WQ_DOORBELL (12 R321). -/
def execWqDoorbell (f : FnId) (q : QId) (tail : W32) (s : State) : Res := .next (wqDoorbell f q tail s)
/-- DESCRIPTOR_CONSUME (12 R322). -/
def execDescriptorConsume (f : FnId) (q : QId) (d : BitVec 1024) (bad : List Nat) (s : State) : Res :=
  .next (descriptorConsume f q d bad s)
/-- WQ_CQ_HEAD (12 R322). -/
def execWqCqHead (f : FnId) (q : QId) (v : W32) (s : State) : Res := .next (wqCqHead f q v s)
/-- WQ_CFG (12 R320). -/
def execWqCfg (f : FnId) (q : QId) (v : W32) (s : State) : Res := .next (wqCfg f q v s)
/-- HIF_WQ_BIND (12 R320). -/
def execHifWqBind (f : FnId) (q : QId) (v : W32) (s : State) : Res := .next (hifWqBind f q v s)
/-- SETUP (12 R328). -/
def execSetup (m : Msg) (jobId : W64) (members : List NodeId) (est g : W32) (dom : Dom) (keys : List (NodeId × Bytes))
    (bad : List Nat) (s : State) : Res := .next (setup m jobId members est g dom keys bad s)
/-- ACCEPT (12 R328). -/
def execAccept (m : Msg) (node origin : NodeId) (s : State) : Res := .next (accept m node origin s)
/-- REFUSE (12 R328). -/
def execRefuse (m : Msg) (node origin : NodeId) (status : Nat) (s : State) : Res := .next (refuse m node origin status s)
/-- GO (12 R328). -/
def execGo (m : Msg) (s : State) : Res := .next (go m s)
/-- JOB_ABORT (12 R329). -/
def execJobAbort (m : Msg) (status : Nat) (event : W16) (s : State) : Res := .next (jobAbort m status event s)
/-- SETUP_HOLD_TIMEOUT (12 R328). -/
def execSetupHoldTimeout (jobId : W64) (s : State) : Res := .next (setupHoldTimeout jobId s)
/-- INPUT_DMA_DONE (12 R330). -/
def execInputDmaDone (tag : Tag) (l : DmaList) (s : State) : Res := .next (inputDmaDone tag l s)
/-- JOB_START (05 R105). -/
def execJobStart (tag : Tag) (bad : List Nat) (s : State) : Res := .next (jobStart tag bad s)
/-- JOB_OUTPUT (12 R330). -/
def execJobOutput (tag : Tag) (l : DmaList) (bad : List Nat) (s : State) : Res := .next (jobOutput tag l bad s)
/-- JOB_COMPLETE (12 R331). -/
def execJobComplete (tag : Tag) (s : State) : Res := .next (jobComplete tag s)
/-- FUNCTION_LEVEL_RESET (12 R334). -/
def execFunctionLevelReset (f : FnId) (s : State) : Res := .next (functionLevelReset f s)
/-- VF_ENABLE_CLEAR (12 R334). -/
def execVfEnableClear (s : State) : Res := .next (vfEnableClear s)
/-- D3HOT_ENTRY (12 R334). -/
def execD3hotEntry (f : FnId) (s : State) : Res := .next (d3hotEntry f s)
/-- BUS_MASTER_CLEAR (12 R334). -/
def execBusMasterClear (f : FnId) (s : State) : Res := .next (busMasterClear f s)
/-- FENCE_RELEASE (12 R334). -/
def execFenceRelease (f : FnId) (s : State) : Res := .next (fenceRelease f s)
/-- EVIDENCE_WRITE (12 R338). -/
def execEvidenceWrite (s : State) : Res := .next (evidenceWrite s)
/-- CHECKPOINT (12 R339). -/
def execCheckpoint (s : State) : Res := .next (checkpoint s)
/-- INTERRUPT_COALESCE_TIMEOUT (12 R448). -/
def execInterruptCoalesceTimeout (f : FnId) (q : QId) (mirror : Bool) (s : State) : Res :=
  .next (interruptCoalesceTimeout f q mirror s)

end Sys2Proof.Machine
end

