-- ==== Sys2Proof/Machine/Security.lean ====
section
/-! DEFINITION. Sys2Proof/Machine/Security.lean: the key store's entropy, sessions, tenant removal, staged images, attestation reports and the debug port (13 R342 to R368). -/

namespace Sys2Proof.Machine

open Sys2Proof

/-! ### SEC_CMD (13 R368, Table 13.10) -/

def State.setSec (s : State) (f : Sec → Sec) : State := { s with sec := f s.sec }
def State.secDone (s : State) : State := s.setSec fun x => { x with cmdState := .done, reason := 0, written := 0 }
def State.secRefuse (s : State) (r : Nat) : State :=
  s.setSec fun x => { x with cmdState := .refused, reason := r, written := 0 }

/-- A SEC_CMD write of one op: while a command runs it is ignored with reason 0x04; a reserved op is refused with 0x05, and
reserved bits are ignored (00 R8); an op of another command is not this one. -/
def State.secOp (s : State) (v : W64) (op : Nat) (k : Dom → State → State) : State :=
  let o := bitsOf v 63 60
  if o ≠ op ∧ 1 ≤ o ∧ o ≤ 9 then s
  else if s.sec.cmdState = .busy then s.setSec fun x => { x with reason := 0x04 }
  else if o ≠ op then s.secRefuse 0x05
  else k (BitVec.ofNat 12 (bitsOf v 59 48)) s

/-! ### Sessions (13 R348, R349, R353) -/

/-- A session opens with a new pair and memory key. -/
def State.openSession (s : State) (d : Dom) : State :=
  let a := s.random 64
  let b := a.2.random 32
  let x := b.2.session d.toNat
  let s := b.2.setSession d.toNat
    { x with
      state := .opened, sess := x.sess + 1, seed := some a.1, memKey := some b.1, dataKey := none, outCtr := 0
      exportKey := none }
  (s.setSec fun x => { x with sessionSinceCold := true, openWait := none }).secDone.raise Ev.secSessionOpen { domain := d }

/-- An open is looked at: its slot must be free and the debug level below 3 (13 R348, R367); it waits for randomness (R342). -/
def State.openTry (s : State) (d : Dom) : State :=
  if (s.session d.toNat).state ≠ .free then (s.setSec fun x => { x with openWait := none }).secRefuse 0x01
  else if s.sec.debugLevel = 3 then (s.setSec fun x => { x with openWait := none }).secRefuse 0x0A
  else if s.sec.entropyOk then s.openSession d
  else s.setSec fun x => { x with cmdState := .busy, reason := 0, openWait := some d }

/-- SEC_OPEN (13 R348). -/
def secOpen (v : W64) (s : State) : State := s.hostReg fun s => s.secOp v 1 fun d s => s.openTry d

/-- SEC_PROVISION (13 R349): `arg` is ct ‖ confirm. -/
def secProvision (v : W64) (arg : Bytes) (s : State) : State :=
  s.hostReg fun s => s.secOp v 2 fun d s =>
    let x := s.session d.toNat
    if x.state ≠ .opened then s.secRefuse 0x01
    else if arg.length ≠ 1600 then s.secRefuse 0x03
    else
      match x.seed with
      | none => s.secRefuse 0x01
      | some seed =>
        let ss := Config.kemDecap seed (arg.take 1568)
        let ctx := s.idd ++ leBytes 2 d.toNat ++ leBytes 4 x.sess.toNat
        if Config.shake256 (ss ++ ctx ++ [2]) 32 ≠ arg.drop 1568 then s.secRefuse 0x02
        else
          let s := s.setSession d.toNat
            { x with state := .provisioned, dataKey := some (Config.shake256 (ss ++ ctx ++ [1]) 32), outCtr := 0 }
          s.secDone.raise Ev.secProvisioned { domain := d }

/-- Are the 12-bit coefficients of whole groups of three bytes below 3,329? -/
def kemCoeffsOk : Bytes → Bool
  | a :: b :: c :: r =>
    let t := a.toNat + 256 * b.toNat + 65536 * c.toNat
    decide (t % 4096 < 3329) && decide (t / 4096 < 3329) && kemCoeffsOk r
  | _ => true

/-- The check of an ML-KEM-1024 encapsulation key (FIPS 203): every 12-bit coefficient is below 3,329. -/
def kemKeyOk (k : Bytes) : Bool := k.length == 1568 && kemCoeffsOk (k.take 1536)

/-- SEC_EXPORT (13 R353). -/
def secExport (v : W64) (key : Bytes) (s : State) : State :=
  s.hostReg fun s => s.secOp v 3 fun d s =>
    if !s.liveSession d then s.secRefuse 0x01
    else if !kemKeyOk key then s.secRefuse 0x03
    else (s.setSession d.toNat { s.session d.toNat with exportKey := some key }).secDone

/-- SEC_CLEAR_EXPORT (13 R353). -/
def secClearExport (v : W64) (s : State) : State :=
  s.hostReg fun s => s.secOp v 4 fun d s =>
    if !s.liveSession d then s.secRefuse 0x01
    else (s.setSession d.toNat { s.session d.toNat with exportKey := none }).secDone

/-! ### Tenant removal (13 R357, R358, Table 13.5) -/

def State.removal (s : State) (d : Dom) : Option Removal := s.sec.removals.find? fun r => r.domain == d
def State.setRemoval (s : State) (y : Removal) : State :=
  s.setSec fun x => { x with removals := x.removals.map fun r => if r.domain = y.domain then y else r }

/-- Live jobs of a domain on this node. -/
def State.jobsOf (s : State) (d : Dom) : List Job :=
  s.jobs.list.filter fun j => j.admitted && j.phase != .ended && j.d.domain == d

/-- The variants of a domain, by ID. -/
def State.variantsOf (s : State) (d : Dom) : List Nat := (s.var.reg.filter fun e => e.2.domain == d).map (·.1)

/-- Steps 1 and 2 on this member: the slot is Removing; the queues bound to d and its jobs are fenced; its variants are
Removing and their parked updates discarded. -/
def State.revokeDom (s : State) (d : Dom) : State :=
  let tags := (s.jobsOf d).map (·.tag)
  let s := s.setSession d.toNat { s.session d.toNat with state := .removing }
  let s := s.setSec fun x => { x with removals := x.removals ++ [⟨d, 1, tags, []⟩] }
  let s := s.fence (fun f q => (s.queue f q).bindValid && (s.queue f q).bindDomain == d) false Stat.domainRevoked 0
  let s := foldS s (s.jobsOf d) fun s j => s.stopJob j.tag Stat.domainRevoked 0
  foldS s (s.variantsOf d) fun s v => s.startRemoval v

/-- SEC_REMOVE on the coordinator (13 R357), whose own slot need not hold a session when the chain has other members (log 20). -/
def secRemove (v : W64) (s : State) : State :=
  s.hostReg fun s => s.secOp v 5 fun d s =>
    if !s.isCoord ∨ !s.lnk.lost.isEmpty then s.secRefuse 0x06
    else if (s.session d.toNat).state = .removing ∨ (!s.liveSession d ∧ s.lnk.members.length ≤ 1) then s.secRefuse 0x01
    else
      let s := s.secDone
      (if 1 < s.lnk.members.length then s.emit (.revoke d) else s).revokeDom d

/-- REVOKE on a member; it goes on down the control tree. Every member's slot becomes Removing (Table 13.5 step 1). -/
def revoke (m : Msg) (d : Dom) (s : State) : State :=
  s.receive m [0] fun s =>
    let s := if s.childEdges.isEmpty then s else s.emit (.revoke d)
    if (s.session d.toNat).state = .removing then s else s.revokeDom d

/-- Runs of successive pages in a rising list. -/
def pageRuns : List Nat → List (Nat × Nat)
  | [] => []
  | p :: l =>
    match pageRuns l with
    | (q, n) :: r => if q = p + 1 then (p, n + 1) :: r else (p, 1) :: (q, n) :: r
    | [] => [(p, 1)]

/-- The pages private to a domain, in runs. -/
def State.runsOf (s : State) (d : Dom) : List (Nat × Nat) :=
  pageRuns ((s.mem.pages.filter fun e => e.2.mode == .priv && e.2.domain == d).map (·.1))

/-- The parcels private to a domain, cache parcels included. -/
def State.parcelsOf (s : State) (d : Dom) : List (Nat × Nat) :=
  s.cl.flatMap fun c => (c.2.parcels.filter fun e => e.2.mode == .priv && e.2.domain == d).map fun e => (c.1, e.1)

/-- Step 5: pages scrubbed, parcels free, registry entries cleared; a load or publish of such a variant is refused. -/
def State.scrubDom (s : State) (r : Removal) : State :=
  let d := r.domain
  let vids := s.variantsOf d
  let runs := s.runsOf d
  let s := foldS s runs fun s e => s.scrubPages e.1 e.2 false
  let s := foldS s (s.parcelsOf d) fun s e => s.retag e.1 e.2 {}
  let s := foldS s vids fun s v => s.dropVariant v
  let hit := (s.var.loading.any fun v => vids.contains v) || (s.var.publish.any fun p => vids.contains p.1)
  let s := if hit then (s.setVar fun y => { y with loading := none, publish := none }).varRefuse 0x09 else s
  let s := s.setVar fun y => { y with removals := y.removals.filter fun e => !vids.contains e.1 }
  if runs.isEmpty then
    let s := s.setRemoval { r with step := 5 }
    if s.isCoord then s else s.emit (.removalDone d)
  else s.setRemoval { r with step := 4, scrubbing := runs }

/-- TENANT_RETIRE: steps 3 and 4 and the start of step 5, once the fence has ended: no job of d is left and no queue bound to
d is being fenced. The tags of d's jobs that have come by this node are retired with those of its own jobs (R358). -/
def tenantRetire (d : Dom) (s : State) : State :=
  match s.removal d with
  | none => s
  | some r =>
    let fencing := s.hif.queues.any fun e => e.2.fencing && e.2.bindValid && e.2.bindDomain == d
    if r.step ≠ 1 ∨ fencing ∨ !(s.jobsOf d).isEmpty then s
    else
      let r := { r with tags := r.tags ++ (s.jobs.passing.filter fun e => e.2.1 == d && !r.tags.contains e.1).map (·.1) }
      let s := (s.setRemoval r).setSec fun x => { x with
        retiredDoms := x.retiredDoms ++ [d], retiredTags := x.retiredTags ++ r.tags
        jobKeys := x.jobKeys.filter fun e => !r.tags.contains e.1, jobCounts := x.jobCounts.filter fun e => !r.tags.contains e.1
        jobRx := x.jobRx.filter fun e => !r.tags.contains e.1 }
      let s := foldS s (List.range 12) fun s p => s.dropLink p (1 + d.toNat)
      let s := s.setSession d.toNat
        { s.session d.toNat with seed := none, memKey := none, dataKey := none, outCtr := 0, exportKey := none }
      s.scrubDom r

/-- REMOVAL_RELEASE: step 6, after the last member's step 5; the coordinator sends it to the members. -/
def removalRelease (d : Dom) (s : State) : State :=
  match s.removal d with
  | none => s
  | some r =>
    if r.step ≠ 5 then s
    else
      let s := if s.childEdges.isEmpty then s else s.emit (.released d)
      let x := s.session d.toNat
      let s := s.setSession d.toNat { x with state := .free, epoch := x.epoch + 1 }
      let s := s.setSec fun x => { x with
        retiredDoms := x.retiredDoms.filter (· != d), retiredTags := x.retiredTags.filter fun t => !r.tags.contains t
        removals := x.removals.filter fun r => r.domain != d }
      s.raise Ev.secRemoved { domain := d }

/-! ### Attestation (13 R346, R364, R365) -/

/-- RST_CAUSE (15 Table 15.16). -/
def Rst.causeWord (r : Rst) : Nat := r.causeNode.toNat * 256 + r.cause

/-- FIRN_WEAR.max_pe (08): the highest cycle count of a stripe in service, in its 12-bit field. -/
def State.maxPe (s : State) : Nat :=
  min 0xFFF (nmax ((s.life.pe.filter fun e => !s.firn.retired.contains e.1).map fun e => e.2.toNat))

/-- staged_state of Table 13.7; a set in trial is the running one, so none is staged (log 20). -/
def stagedCode : StagedState → Nat
  | .none => 0
  | .writing => 1
  | .verified => 2
  | .failed => 3
  | .trial => 0
  | .rejected => 4

/-- The report over a request (13 R364, Table 13.7), signed. The node ID is 0xFFFF before the node has joined. -/
def State.report (s : State) (req pk key rnd : Bytes) : Bytes :=
  let d := leAt req 44 2
  let idc := pad64 s.firn.idCert
  let ac := pad64 s.sec.attCert
  let p := pad64 pk
  let len := 512 + idc.length + ac.length + p.length + 49856
  let sess := if d = 0xFFFF then 0 else (s.session d).sess.toNat
  let head := leBytes 4 0x5453_5441 ++ leBytes 2 1 ++ leBytes 2 (if s.lnk.member ∨ s.lnk.left then s.lnk.node.toNat else 0xFFFF) ++
    leBytes 4 len ++ leBytes 4 s.firn.idCert.length ++ leBytes 2 29984 ++ leBytes 2 pk.length ++ leBytes 2 d ++ leBytes 2 0 ++
    leBytes 4 sess ++ leBytes 1 s.sec.fuseSvn ++ leBytes 1 s.sec.debugLevel ++ leBytes 1 (stagedCode s.sec.staged) ++
    leBytes 1 0 ++ req.take 32 ++ fitBytes 32 Config.romMeas ++ fitBytes 32 s.sec.runningImg ++
    (if s.sec.staged = .verified then fitBytes 32 s.sec.stagedImg else List.replicate 32 0) ++
    leBytes 4 s.rst.causeWord ++ leBytes 8 s.rst.block.toNat ++ leBytes 8 s.rst.blockAct.toNat ++
    s.life.counters.flatMap (fun c => leBytes 8 c.toNat) ++ leBytes 4 s.maxPe ++ leBytes 8 s.life.clock.toNat ++
    leBytes 8 s.hostTime ++ leBytes 4 s.cfg.gen.toNat ++
    leBytes 4 (match s.firn.current with | some g => g.num.toNat | none => 0) ++ List.replicate 256 0
  let body := head ++ idc ++ ac ++ p
  body ++ slhSign key rnd body

/-- A request is served once the attestation key is certified and the DRBG gives output; the DMA waits while the host port is
in reset. -/
def State.attest (s : State) (req : Bytes) : State :=
  match s.sec.attKey with
  | none => s.setSec fun x => { x with cmdState := .busy, reason := 0, attestWait := some req }
  | some k =>
    if !s.sec.attReady ∨ !s.sec.entropyOk ∨ bitOf s.rst.blockAct 16 then
      s.setSec fun x => { x with cmdState := .busy, reason := 0, attestWait := some req }
    else
      let d := leAt req 44 2
      let pk := if d ≠ 0xFFFF ∧ s.liveSession (BitVec.ofNat 12 d) then ((s.session d).pk.getD []) else []
      let r := s.random 32
      let b := s.report req pk k r.1
      let s := s.setSec fun x => { x with attestWait := none }
      if leAt req 40 4 < b.length then s.secRefuse 0x09
      else
        let s := { s with sec := { s.sec with drbgRequests := r.2.sec.drbgRequests }, free := r.2.free }
        (s.secDone.setSec fun x => { x with written := b.length }).emit (.hostWrite (BitVec.ofNat 64 (leAt req 32 8)) b)

/-- A request that waits is looked at again. -/
def State.attestTry (s : State) : State :=
  match s.sec.attestWait with
  | some r => s.attest r
  | none => s

/-- SEC_ATTEST (13 R364); it acts before ready too (15 Table 15.9), but not in the ROM's modes, which take SEC_CMD stage alone (R403).
`req`: the 64 B at SEC_ARG. -/
def secAttest (v : W64) (req : Bytes) (s : State) : State :=
  s.hostEarly fun s => if 8 ≤ s.glb.phase then s else s.secOp v 6 fun _ s =>
    let d := leAt req 44 2
    if req.length ≠ 64 ∨ (req.drop 46).any (· != 0) ∨ (d ≠ 0xFFFF ∧ 0xFFF < d) then s.secRefuse 0x03
    else s.attest req

/-- The attestation key and its certificate (13 R346, Table 13.3): three seeds of the DRBG; the identity key signs, and the new key signs
the node exchange key (R354). -/
def State.makeAttKey (s : State) : State :=
  let a := s.random 96
  let r := a.2.random 32
  let q := r.2.random 32
  let body := leBytes 4 0x5452_4341 ++ leBytes 2 1 ++ leBytes 2 0 ++ fitBytes 32 s.idd ++
    leBytes 8 (s.life.counters.getD 1 0).toNat ++ Config.slhPublic a.1 ++ fitBytes 32 Config.romMeas ++
    fitBytes 32 s.sec.runningImg ++ List.replicate 16 0
  q.2.setSec fun x => { x with
    attKey := some a.1, attReady := true
    attCert := body ++ Config.slhMake Config.slhS (Config.slhPublic (x.idSeed.getD x.fuseSeed)) body r.1
    exchangeSig := match x.exchangeSeed with | some e => slhSign a.1 q.1 (Config.kemPublic e) | none => [] }

/-- ATT_KEY_READY (13 R346): a request that waited is served. -/
def attKeyReady (s : State) : State :=
  if s.rst.held ≠ .none ∨ s.sec.attReady ∨ !s.sec.entropyOk ∨ s.glb.phase = 0 ∨ 8 ≤ s.glb.phase then s
  else s.makeAttKey.attestTry

/-! ### Images and their update (13 R359 to R363) -/

/-- The image set of a slot of the flash: A is false (13 R359). -/
def Sec.flash (x : Sec) (k : Bool) : Option ImageSet := if k then x.flashB else x.flashA
def Sec.setFlash (x : Sec) (k : Bool) (y : Option ImageSet) : Sec := if k then { x with flashB := y } else { x with flashA := y }

/-- SEC_STAGE (13 R362): a set of the length given, from the host address in SEC_ARG, into the idle slot, which holds no whole set from
then on until it is written; in the ROM modes too (15 R403): the idle slot, or slot A when neither slot verifies. -/
def secStage (v : W64) (s : State) : State :=
  let go (s : State) : State := s.secOp v 7 fun _ s =>
    if s.sec.staged = .writing ∨ s.sec.staged = .trial then s.secRefuse 0x07
    else
      let s := s.setSec fun x => { x with stageAt := x.arg, stageLen := bitsOf v 31 0 }
      if s.glb.phase = 8 then (s.setSec fun x => { x with download := true }).secDone
      else
        let k := if 9 ≤ s.glb.phase then !s.sec.noImage && !s.sec.activeSlot else !s.sec.runningSlot
        (s.setSec fun x => { x.setFlash k none with staged := .writing, stagedSlot := k }).secDone
  if s.up then go s else if s.rst.held = .none ∧ 8 ≤ s.glb.phase then go s else s

/-- STAGE_VERIFY_DONE (13 R360, R362): `x` is the image set that the host address held, as it was written and read back. -/
def stageVerifyDone (x : ImageSet) (s : State) : State :=
  if s.sec.staged ≠ .writing then s
  else
    let s := s.setSec fun y => y.setFlash y.stagedSlot (some x)
    if setOk s.sec.fuseSvn x ∧ setSize x = s.sec.stageLen then
      s.setSec fun y => { y with staged := .verified, stagedSvn := setSvn x, stagedImg := setHash x }
    else (s.setSec fun x => { x with staged := .failed }).raise Ev.secStageFail

/-- SEC_CANCEL (13 R362): while a staging or a trial is under way it is refused as Stage is (DESIGN CHOICE, log 20). -/
def secCancel (v : W64) (s : State) : State :=
  s.hostReg fun s => s.secOp v 8 fun _ s =>
    if s.sec.staged = .writing ∨ s.sec.staged = .trial then s.secRefuse 0x07
    else (s.setSec fun x => { x with staged := .none }).secDone

/-- SEC_COMMIT_SVN (13 R363). -/
def secCommitSvn (v : W64) (s : State) : State :=
  s.hostReg fun s => s.secOp v 9 fun _ s =>
    if s.sec.trial then s.secRefuse 0x07
    else if 64 < s.sec.runningSvn then s.secRefuse 0x08
    else (s.setSec fun x => { x with fuseSvn := max x.fuseSvn x.runningSvn }).secDone

/-! ### Entropy (13 R342) -/

/-- DRBG_RESEED. -/
def drbgReseed (s : State) : State := if s.sec.entropyOk then s.setSec fun x => { x with drbgRequests := 0 } else s

/-- TRNG_HEALTH_FAIL. -/
def trngHealthFail (s : State) : State :=
  if s.rst.held = .cold then s else s.setSec fun x => { x with entropyOk := false, healthFail := true }

/-- TRNG_FAIL_TIMEOUT. -/
def trngFailTimeout (s : State) : State := if s.sec.healthFail then s.deviceFatal Ev.secTrngFail else s

/-! ### Debug (13 R366, R367) -/

/-- JTAG_IDCODE. -/
def jtagIdcode (s : State) : State :=
  let b := leBytes 4 Config.idcode.toNat
  (s.setSec fun x => { x with jtag := 1, jtagOut := b }).emit (.jtag b)

/-- JTAG_BYPASS: one register bit, which reads 0 when captured. -/
def jtagBypass (s : State) : State := s.setSec fun x => { x with jtag := 0, jtagOut := [] }

/-- A challenge is read: 32 B from the DRBG. -/
def State.giveChallenge (s : State) : State :=
  let r := s.random 32
  (r.2.setSec fun x => { x with jtag := 2, jtagOut := r.1, challenge := some r.1, challengeWait := false }).emit (.jtag r.1)

/-- JTAG_CHALLENGE: 32 B from the DRBG, valid until the next read or a reset; it waits while the DRBG gives no output
(13 R342). -/
def jtagChallenge (s : State) : State :=
  if s.rst.held ≠ .none then s
  else if s.sec.entropyOk then s.giveChallenge
  else s.setSec fun x => { x with jtag := 2, jtagOut := [], challenge := none, challengeWait := true }

/-- JTAG_TOKEN (R366): its signer parts permit debug, and its signature over the level, the challenge and idd verifies. -/
def jtagToken (level : Byte) (challenge idd : Bytes) (signer : Signer) (s : State) : State :=
  if s.rst.held ≠ .none then s
  else
    let s := s.setSec fun x => { x with jtag := 3 }
    if 1 ≤ level.toNat ∧ level.toNat ≤ 3 ∧ s.sec.challenge = some challenge ∧ idd = s.idd ∧ signerOk 2 0 (level :: challenge ++ idd) signer ∧
        ¬ (level.toNat = 3 ∧ s.sec.sessionSinceCold) then
      (s.setSec fun x => { x with debugLevel := level.toNat }).raise Ev.secDebugUnlock
    else s.raise Ev.secDebugDenied

/-- JTAG_LEVEL_CLEAR. -/
def jtagLevelClear (s : State) : State := s.setSec fun x => { x with debugLevel := 0 }

/-! ### The meanings -/

/-- SEC_OPEN (13 R348). -/
def execSecOpen (v : W64) (s : State) : Res := .next (secOpen v s)
/-- SEC_PROVISION (13 R349). -/
def execSecProvision (v : W64) (arg : Bytes) (s : State) : Res := .next (secProvision v arg s)
/-- SEC_EXPORT (13 R353). -/
def execSecExport (v : W64) (key : Bytes) (s : State) : Res := .next (secExport v key s)
/-- SEC_CLEAR_EXPORT (13 R353). -/
def execSecClearExport (v : W64) (s : State) : Res := .next (secClearExport v s)
/-- SEC_REMOVE (13 R357). -/
def execSecRemove (v : W64) (s : State) : Res := .next (secRemove v s)
/-- TENANT_RETIRE (13 R357). -/
def execTenantRetire (d : Dom) (s : State) : Res := .next (tenantRetire d s)
/-- REMOVAL_RELEASE (13 R357). -/
def execRemovalRelease (d : Dom) (s : State) : Res := .next (removalRelease d s)
/-- SEC_ATTEST (13 R364). -/
def execSecAttest (v : W64) (req : Bytes) (s : State) : Res := .next (secAttest v req s)
/-- SEC_STAGE (13 R362). -/
def execSecStage (v : W64) (s : State) : Res := .next (secStage v s)
/-- STAGE_VERIFY_DONE (13 R362). -/
def execStageVerifyDone (x : ImageSet) (s : State) : Res := .next (stageVerifyDone x s)
/-- SEC_CANCEL (13 R362). -/
def execSecCancel (v : W64) (s : State) : Res := .next (secCancel v s)
/-- SEC_COMMIT_SVN (13 R363). -/
def execSecCommitSvn (v : W64) (s : State) : Res := .next (secCommitSvn v s)
/-- ATT_KEY_READY (13 R346). -/
def execAttKeyReady (s : State) : Res := .next (attKeyReady s)
/-- DRBG_RESEED (13 R342). -/
def execDrbgReseed (s : State) : Res := .next (drbgReseed s)
/-- TRNG_HEALTH_FAIL (13 R342). -/
def execTrngHealthFail (s : State) : Res := .next (trngHealthFail s)
/-- TRNG_FAIL_TIMEOUT (13 R342). -/
def execTrngFailTimeout (s : State) : Res := .next (trngFailTimeout s)
/-- JTAG_IDCODE (13 R366). -/
def execJtagIdcode (s : State) : Res := .next (jtagIdcode s)
/-- JTAG_BYPASS (13 R366). -/
def execJtagBypass (s : State) : Res := .next (jtagBypass s)
/-- JTAG_CHALLENGE (13 R366). -/
def execJtagChallenge (s : State) : Res := .next (jtagChallenge s)
/-- JTAG_TOKEN (13 R366). -/
def execJtagToken (level : Byte) (challenge idd : Bytes) (signer : Signer) (s : State) : Res :=
  .next (jtagToken level challenge idd signer s)
/-- JTAG_LEVEL_CLEAR (13 R366). -/
def execJtagLevelClear (s : State) : Res := .next (jtagLevelClear s)
/-- REVOKE (13 R357). -/
def execRevoke (m : Msg) (d : Dom) (s : State) : Res := .next (revoke m d s)

end Sys2Proof.Machine
end

