-- ==== Sys2Proof/Machine/Link.lean ====
section
/-! DEFINITION. Sys2Proof/Machine/Link.lean: the chain ports (11 R283 to R297): flits, replay, forwarding with stomps, retrains; link key agreement (13 R354); membership (11 R306 to R311). -/

namespace Sys2Proof.Machine

open Sys2Proof

def State.setLnk (s : State) (f : Lnk → Lnk) : State := { s with lnk := f s.lnk }

/-! ### Flits (11 R286, R292, R297) -/

/-- The virtual channels of a message type (Table 11.6). -/
def typeVcs : Nat → List Nat
  | 1 => [1, 3]
  | 2 => [1, 3]
  | 3 => [0]
  | 4 => [2]
  | 5 => [0]
  | 6 => [1]
  | 7 => [0]
  | 8 => [0]
  | _ => []

/-- Does a message of this type with this destination travel to the node it names, past others? COLLECTIVE and CONTROL go one hop at a
time (R297, R298), and what names no node goes to the neighbour. -/
def addressed (t : Nat) (dst : NodeId) : Bool := t != 4 && t != 5 && dst != 0xFFFF

/-- The key of a message by its key_id, the length of its data and its address field are as Tables 11.5 and 13 R355 give them. -/
def headerOk (f : BitVec 2048) : Bool :=
  hdrKey f == (if hdrTag f = 0 then 0 else 0xFFF) && decide (1 ≤ hdrLen f) &&
    decide (hdrLen f ≤ if hdrLast f then 208 else 224) &&
    (if hdrType f = 1 then bitsOf f 42 41 == 0 else if hdrType f = 2 then bitsOf f 43 32 == 0 else hdrAddr f == 0)

/-- The header of a flit in bytes, its data, and the tag that ends a last flit (Tables 11.3, 11.5, R292). -/
def headerBytes (f : BitVec 2048) : Bytes := leBytes 16 (bitsOf f 127 0)
def flitText (f : BitVec 2048) : Bytes := leBytes (hdrLen f) (bitsOf f 2047 256)
def flitTag (f : BitVec 2048) : Bytes := leBytes 16 (bitsOf f 2047 1920)
def putText (f : BitVec 2048) (l : Bytes) : BitVec 2048 := BitVec.ofNat 2048 (setFld f.toNat 256 (8 * l.length) (leNat l))
def putTag (f : BitVec 2048) (l : Bytes) : BitVec 2048 := BitVec.ofNat 2048 (setFld f.toNat 1920 128 (leNat l))

/-! ### Per-link protection (R312, R313; 13 R355) -/

/-- Does this end of a port have the lower idd? What the lower end sends goes in direction 0. -/
def State.lower (s : State) (x : Port) : Bool := decide (leNat s.idd < leNat x.peerIdd)
def State.dirOut (s : State) (x : Port) : Nat := if s.lower x then 0 else 1
def State.dirIn (s : State) (x : Port) : Nat := if s.lower x then 1 else 0

/-- Per-link key number k of a direction under a link secret: the link key, or that of a domain under its epoch. -/
def State.perKey (s : State) (z : Bytes) (dir k : Nat) : Bytes :=
  if k = 0 then kdf (z ++ leBytes 1 dir ++ leBytes 4 0xFFFF_FFFF) 32
  else kdf (z ++ leBytes 1 dir ++ leBytes 2 (k - 1) ++ leBytes 2 (s.session (k - 1)).epoch.toNat) 32

/-- The nonce of a per-link message: link epoch and count. -/
def linkNonce (e : W32) (n : W64) : Bytes := leBytes 4 e.toNat ++ leBytes 8 n.toNat

/-- One flit more of a message: its header and its ciphertext have gone by. -/
def Crypt.add (c : Crypt) (f : BitVec 2048) (l : Bytes) : Crypt := { c with aad := c.aad ++ headerBytes f, text := c.text ++ l }
def Crypt.tag (c : Crypt) : Bytes := Config.gcmTagBytes c.key c.nonce c.aad c.text

/-- A flit is encrypted; the last one takes the tag, or one that cannot verify where the message failed upstream (R312). -/
def Crypt.seal (c : Crypt) (bad : Bool) (f : BitVec 2048) : BitVec 2048 × Crypt :=
  let t := Config.gcmXorAt c.key c.nonce c.text.length (flitText f)
  let c := c.add f t
  let g := putText f t
  (if hdrLast f then putTag g (if bad then c.tag.map (· ^^^ 0xFF) else c.tag) else g, c)

/-- A flit is decrypted; false: it is the last and the tag fails. -/
def Crypt.opened (c : Crypt) (f : BitVec 2048) : BitVec 2048 × Bool × Crypt :=
  let t := flitText f
  let d := c.add f t
  (putText f (Config.gcmXorAt c.key c.nonce c.text.length t), !hdrLast f || flitTag f == d.tag, d)

/-- Nothing more comes under the old secret once a message under the new one has begun and none under the old is under way: the sender
changes at a message boundary, and what came in order has been acknowledged (R313: DEDUCED, log 21). -/
def Port.dropHeld (x : Port) : Port :=
  if x.heldEnds ∧ !x.opening.any (fun c => c.any (·.old)) then { x with heldKey := none, heldCount := [], heldEnds := false } else x

/-- A per-link message begins to arrive: its key, under the secret of the epoch before where `old`, and its nonce; its counter
advances. None while the port has agreed no secret. -/
def State.beginOpen (s : State) (p : PortId) (k : Nat) (old : Bool) : Option Crypt × State :=
  let x := s.port p.val
  match (if old then x.heldKey else none), x.secret with
  | some z, _ =>
    let n := mget 0 x.heldCount k
    (some { no := k, key := s.perKey z (s.dirIn x) k, nonce := linkNonce (x.epoch - 1) n, old := true },
      s.setPort p.val { x with heldCount := mset 0 x.heldCount k (n + 1) })
  | none, some z =>
    let n := mget 0 x.rxCount k
    (some { no := k, key := s.perKey z (s.dirIn x) k, nonce := linkNonce x.epoch n },
      s.setPort p.val { x with rxCount := mset 0 x.rxCount k (n + 1), heldEnds := x.heldKey.isSome })
  | none, none => (none, s)

/-- A flit as it has been decrypted: the number of its per-link key (none: it is not protected per link), whether its tag holds where it
ends its message, and the state with the counters and what is under way brought up. -/
structure Opened where
  link : Option Nat
  flit : BitVec 2048
  ok : Bool
  st : State

/-- Decrypts a flit that has come by port p (R312). KEY messages go in plain (13 R354). -/
def State.openAt (s : State) (p : PortId) (f : BitVec 2048) (old : Bool) : Opened :=
  let vc := hdrVc f
  let r : Option Crypt × State :=
    if !hdrFirst f then ((s.port p.val).opening.getD vc none, s)
    else if hdrType f = 8 then (none, s)
    else
      match s.linkNo (hdrTag f) with
      | some k => s.beginOpen p k old
      | none => (none, s)
  match r.1 with
  | none => ⟨none, f, true, r.2⟩
  | some c =>
    let g := c.opened f
    ⟨some c.no, g.1, g.2.1, r.2.modPort p.val fun x =>
      { x with opening := x.opening.set vc (if hdrLast f then none else some g.2.2) }.dropHeld⟩

/-- A per-link message begins to leave by port p: its key and nonce; its counter advances (R313). -/
def State.beginSeal (s : State) (p : PortId) (k : Nat) : Option Crypt × State :=
  let x := s.port p.val
  match x.secret with
  | none => (none, s)
  | some z =>
    let n := mget 0 x.txCount k
    (some { no := k, key := s.perKey z (s.dirOut x) k, nonce := linkNonce x.epoch n },
      s.setPort p.val { x with txCount := mset 0 x.txCount k (n + 1) })

/-- What a flit that leaves is encrypted with; none for one that goes as it is. -/
def State.sealing (s : State) (p : PortId) (e : TxFlit) : Option Crypt × State :=
  match e.link with
  | none => (none, s)
  | some k => if hdrFirst e.flit then s.beginSeal p k else ((s.port p.val).sealing.getD (hdrVc e.flit) none, s)

/-- The message that a channel of a port is sending, after one of its flits. -/
def Port.sealed (x : Port) (f : BitVec 2048) (c : Option Crypt) : Port :=
  { x with sealing := x.sealing.set (hdrVc f) (if hdrLast f then none else c) }

/-- A flit is encrypted as it leaves. -/
def State.sealAt (s : State) (p : PortId) (e : TxFlit) : BitVec 2048 × State :=
  match s.sealing p e with
  | (none, s) => (e.flit, s)
  | (some c, s) =>
    let g := c.seal e.bad e.flit
    (g.1, s.modPort p.val fun x => x.sealed e.flit (some g.2))

/-! ### The egress of a port (R283, R289, R290, R294) -/

/-- Is sequence number a ahead of b (17 R447)? -/
def seqAhead (a b : BitVec 12) : Bool := serialAhead 12 a.toNat b.toNat

/-- Has a port's link come up: it carries VC0 at least? -/
def State.portRuns (s : State) (p : PortId) : Bool := (s.port p.val).state == .up || (s.port p.val).state == .upVc0

/-- Does a port exchange flits: its link is up, or its lanes are trained and the keys not agreed yet (log 21)? -/
def State.portLives (s : State) (p : PortId) : Bool :=
  s.portRuns p || ((s.port p.val).state == .training && (s.port p.val).trained)

/-- The link word of Table 11.4 as port x sends it; a port that restarts sends rst with every count at zero (15 R396). -/
def Port.linkWord (x : Port) (idle : Bool) : Nat :=
  let fr := fun i => (x.freed.getD i 0).toNat
  if x.restart then 2 ^ 37 + 2 ^ 36
  else x.txSeq.toNat * 2 ^ 52 + x.ack.toNat * 2 ^ 40 + b2n x.nakNext * 2 ^ 39 + b2n idle * 2 ^ 37 +
    fr 3 * 2 ^ 27 + fr 2 * 2 ^ 18 + fr 1 * 2 ^ 9 + fr 0

/-- A flit with a link word and the parity of all its words. -/
def withLink (f : BitVec 2048) (link : Nat) : BitVec 2048 :=
  let n := setFld (setFld f.toNat 128 64 link) 192 64 0
  BitVec.ofNat 2048 (setFld n 192 64 (parityField (BitVec.ofNat 2048 n)))

/-- A flit as it leaves port p: its own link word and parity. -/
def Port.dress (x : Port) (f : BitVec 2048) : BitVec 2048 := withLink f (x.linkWord false)

/-- The idle flit of a port (R283, R288): no header, no payload, the next unused number. -/
def Port.idleFlit (x : Port) : BitVec 2048 := withLink 0 (x.linkWord true)

/-- A flit held for replay leaves again under its own number, with the ack, credits and NAK of now (R288, R289). -/
def State.sendAgain (s : State) (p : PortId) (g : BitVec 2048) : State :=
  let x := s.port p.val
  (s.setPort p.val { x with nakNext := false, said := true }).emit (.flit p (({ x with txSeq := linkSeq g } : Port).dress g))

/-- Sends again, in order, what no ack covers; it waits for the good copy of a stomped flit (R290). -/
def State.resend (s : State) (p : PortId) : State :=
  let x := s.port p.val
  if !x.missing.isEmpty then s.setPort p.val { x with wantReplay := true }
  else foldS (s.setPort p.val { x with wantReplay := false }) x.replayBuf fun s g => s.sendAgain p g

/-- May a flit on this channel leave the port now: the port runs, or exchanges its keys, the peer's slots leave a credit, fewer than 512
flits are unacknowledged? -/
def State.mayLeave (s : State) (p : PortId) (vc : Nat) : Bool :=
  let x := s.port p.val
  (s.portCarries p vc || (s.rst.held == .none && s.portLives p && vc == 0)) && !x.idleOnly &&
    decide (x.replayBuf.length + x.missing.length < 512) && x.credit.getD vc 0 != x.sent.getD vc 0

/-- May the message of a flit begin to leave: before the keys are agreed only what needs none, while the link layer restarts only HELLO
(15 R396), under a per-link key only one that is there and not used up (R313)? -/
def Port.mayBegin (x : Port) (e : TxFlit) : Bool :=
  (x.state != .training || e.link.isNone) && (!x.restart || hdrType e.flit == 7) &&
    match e.link with
    | some k => x.secret.isSome && !x.stopped.contains k
    | none => true

/-- A flit takes the port's next sequence number and one credit. -/
def Port.take (x : Port) (vc : Nat) : Port :=
  { x with txSeq := x.txSeq + 1, nakNext := false, said := true, sent := x.sent.set vc (x.sent.getD vc 0 + 1) }

/-- Who goes next after a flit of source `src`: a message is not interleaved with another of its channel, forwarded and own
messages alternate, VC1 and VC2 take turns of `n` (R292, R294). -/
def Port.took (x : Port) (n : Nat) (src : Option PortId) (f : BitVec 2048) : Port :=
  let vc := hdrVc f
  { x with
    mid := x.mid.set vc (if hdrLast f then none else some src)
    localNext := if hdrLast f then x.localNext.set vc src.isSome else x.localNext
    vc3Sent := if vc = 3 then x.vc3Sent + 1 else x.vc3Sent
    turn12 := if vc = 1 ∨ vc = 2 then (x.turn12 + 1) % max 1 n else x.turn12 }

/-- Sends a flit: encrypted, numbered, held for replay. The port is quiet no longer (15 R419), and one that restarted has sent its HELLO
(15 R396). -/
def State.leave (s : State) (p : PortId) (e : TxFlit) : State :=
  let r := (s.modPort p.val fun x => { x with restart := false, quiet := false, peerQuiet := false }).sealAt p e
  let x := r.2.port p.val
  let g := x.dress r.1
  let y := (x.take (hdrVc e.flit)).took (s.cfg.live.vc1Weight + s.cfg.live.vc2Weight) e.src e.flit
  (r.2.setPort p.val { y with replayBuf := y.replayBuf ++ [g] }).emit (.flit p g)

/-- The flit of a channel that goes next: of the message under way, else of forwarded and own messages in turn, where they may begin
(R292, R294). -/
def Port.nextOn (x : Port) (vc : Nat) : Option TxFlit :=
  let q := x.txQ.filter fun e => hdrVc e.flit == vc
  match x.mid.getD vc none with
  | some src => q.find? fun e => e.src == src
  | none =>
    let own := (q.find? fun e => e.src.isNone).filter x.mayBegin
    let pass := (q.find? fun e => e.src.isSome).filter x.mayBegin
    if x.localNext.getD vc false then own.orElse fun _ => pass else pass.orElse fun _ => own

/-- Flits of a port in one microsecond that the ceiling of VC3 allows: a flit takes 2.41 ns (R293, R294). -/
def State.vc3Limit (s : State) : Nat := 414 * s.cfg.live.vc3Ceiling / 100

/-- The next flit that may leave: VC0, then VC3 below its ceiling, then VC1 and VC2 in turn by their weights; a turn whose channel
has nothing goes to the other (R294). -/
def State.pickFlit (s : State) (p : PortId) : Option TxFlit :=
  if s.rst.pwr = .waking then none else
  let x := s.port p.val
  let c (vc : Nat) : Option TxFlit := if s.mayLeave p vc then x.nextOn vc else none
  (c 0).orElse fun _ => (if x.vc3Sent < s.vc3Limit then c 3 else none).orElse fun _ =>
    if x.turn12 < s.cfg.live.vc1Weight then (c 1).orElse fun _ => c 2 else (c 2).orElse fun _ => c 1

/-- A flit that came by a port frees its receive slot. -/
def State.freeSrc (s : State) (e : TxFlit) : State :=
  match e.src with
  | some q => s.modPort q.val fun x => x.release (hdrVc e.flit) 1
  | none => s

/-- Lets waiting flits leave while they may; a forwarded one frees its receive slot. -/
def State.drain (s : State) (p : PortId) : (fuel : Nat) → State
  | 0 => s
  | n + 1 =>
    match s.pickFlit p with
    | none => s
    | some e => (((s.modPort p.val fun x => { x with txQ := x.txQ.erase e }).freeSrc e).leave p e).drain p n

def State.drainAll (s : State) (p : PortId) : State := s.drain p (s.port p.val).txQ.length

/-! ### Retrains (R284) -/

/-- A port stops and retrains; buffers, credits and numbers survive. -/
def State.retrain (s : State) (p : PortId) : State :=
  let x := s.port p.val
  if x.state ≠ .up ∧ x.state ≠ .upVc0 then s
  else
    let s := s.setPort p.val { x with
      state := .retraining, naks := 0, retrains := if x.retrains = 0xFF then 0xFF else x.retrains + 1 }
    (s.bumpLife 4).raise Ev.lnkRetrain (lnkInfo s p 0xFF)

/-- A port goes down. -/
def State.portDown (s : State) (p : PortId) (code : W16) : State :=
  (s.modPort p.val fun x => { x with state := .down, trained := false }).raise code (lnkInfo s p 0xFF)

/-- RX_SILENCE_TIMEOUT; a quiet port is exempt (15 R419). -/
def rxSilenceTimeout (p : PortId) (s : State) : State := if (s.port p.val).quiet then s else s.retrain p

/-- LANE_LOCK_LOSS. -/
def laneLockLoss (p : PortId) (s : State) : State := s.retrain p

/-! ### The chain steps of a cold start (15 Table 15.7 steps 6 and 7) -/

/-- This node's HELLO goes out on a port (R306). -/
def State.sayHello (s : State) (p : PortId) : State := s.emit (.hello p s.lnk.node glbId)
def State.helloAll (s : State) : State :=
  foldS s (List.finRange 12) fun s p => if (s.port p.val).agreed ∧ s.portRuns p then s.sayHello p else s

/-- The public part of this node's exchange key (13 R354, R356). -/
def State.myExchange (s : State) : Bytes :=
  match s.sec.exchangeSeed with
  | some e => Config.kemPublic e
  | none => []

/-- JOIN goes up the control tree (R306 step 2). -/
def State.sendJoin (s : State) : State := s.emit (.join s.lnk.node s.firn.greatest s.myExchange)

/-- Every port of the topology has agreed its key or stays down: HELLO goes out, then the coordinator, or a node alone, begins its thaw,
and another node sends JOIN. -/
def State.joinCold (s : State) : State :=
  let s := (s.inPhase 4).helloAll
  if s.cfg.live.topo.nodes.length ≤ 1 ∨ s.lnk.node = s.lnk.coordinator then s.startFirst else s.sendJoin

/-- Step 6 is looked at again. -/
def State.portsTry (s : State) : State :=
  let done (p : Nat) : Bool := let x := s.port p; !x.enabled || x.agreed || x.state == .down
  if s.rst.held == .none && s.glb.phase == 3 && !s.glb.ready && !s.glb.fatal && (List.range 12).all done then s.joinCold else s

/-- RETRAIN_DONE: every unacknowledged flit is sent again, or the port is down. -/
def retrainDone (p : PortId) (ok : Bool) (s : State) : State :=
  let x := s.port p.val
  if x.state ≠ .retraining then s
  else if ok then
    let s := s.setPort p.val (if x.agreed then x.open' s.glb.ready else { x with state := .training })
    (s.resend p).drainAll p
  else (s.portDown p Ev.lnkDown).portsTry

/-! ### Receiving a flit (R288 to R292) -/

/-- What waits at a port of the messages under way, and the rest. -/
def splitUnder : (on : List (Option PortId × Nat)) → List TxFlit → List TxFlit × List TxFlit
  | _, [] => ([], [])
  | on, e :: l =>
    let key := (e.src, hdrVc e.flit)
    if on.contains key then
      let r := splitUnder (if hdrLast e.flit then on.filter (· != key) else on) l
      (e :: r.1, r.2)
    else
      let r := splitUnder on l
      (r.1, e :: r.2)

/-- The numbers, the replay buffer and the credits of a port's link layer start again. -/
def Port.restarted (x : Port) : Port :=
  { x with
    replayBuf := [], missing := [], wantReplay := false, cut := none, partialMsg := [], txSeq := 0, rxSeq := 0, ack := 0
    discarding := false, nakNext := false, naks := 0, freed := [0, 0, 0, 0], credit := [0, 0, 0, 0], sent := [0, 0, 0, 0]
    granted := [false, false, false, false], mid := [none, none, none, none], owed := 0
    opening := [none, none, none, none], sealing := [none, none, none, none] }

/-- The link layer of a port starts again (15 R396): only idle flits go out until the HELLO, for which VC0 is granted anew (DEDUCED,
log 21). What is left of a message that had begun to leave goes with the flits held for replay. -/
def State.restartPort (s : State) (p : PortId) : State :=
  let x := s.port p.val
  let r := splitUnder x.under x.txQ
  let s := foldS s r.1 fun s e => s.freeSrc e
  s.modPort p.val fun x => { { x with txQ := r.2 }.restarted.grant 0 with idleOnly := true }

/-- RST_FLIT (15 R396). -/
def rstFlit (p : PortId) (s : State) : State := s.restartPort p

/-- A NAK (R289): counted, in the life counter of parity replays too; the eighth in a row makes the port retrain. -/
def State.nakFlit (s : State) (p : PortId) : State :=
  let x := s.port p.val
  let b := bump x.replays
  let n := x.naks + 1
  let s := s.setPort p.val { x with
    discarding := true, nakNext := true, naks := n, replays := b.1, replaySat := x.replaySat || b.2 }
  let s := (s.satEvent b.2 6 (portOff p.val 0x10)).bumpLife 5
  if n = 8 then s.retrain p else s

/-- The acknowledgement, credits and NAK that every flit carries (R288, R289). -/
def State.takeLink (s : State) (p : PortId) (f : BitVec 2048) : State :=
  let x := s.port p.val
  let a := linkAck f
  let s := s.setPort p.val { x with
    credit := (List.range 4).map fun i => linkCredit f i
    replayBuf := x.replayBuf.filter fun g => seqAhead (linkSeq g) a
    missing := x.missing.filter fun n => seqAhead n a }
  if linkNak f then s.resend p else s

/-- The egress of a passing flit (R297); none when it is not passing through. -/
def State.egress (s : State) (f : BitVec 2048) : Option (Option PortId) :=
  if addressed (hdrType f) (hdrDst f) ∧ s.lnk.node ≠ 0xFFFF ∧ hdrDst f ≠ s.lnk.node then
    some ((s.route (hdrDst f)).bind fun r => r.port (hdrTag f) (hdrSrc f) (hdrDst f))
  else none

/-- A good copy takes its place in the replay buffer by its number (R290). -/
def placeFlit (n : BitVec 12) (g : BitVec 2048) : List (BitVec 2048) → List (BitVec 2048)
  | [] => [g]
  | h :: l => if seqAhead (linkSeq h) n then g :: h :: l else h :: placeFlit n g l

/-- The header of a flit as that of a message whose tag has failed. -/
def failedMsg (p : PortId) (f : BitVec 2048) : Msg where
  port := p
  src := hdrSrc f
  dst := hdrDst f
  tag := hdrTag f
  keyId := BitVec.ofNat 12 (hdrKey f)
  vc := BitVec.ofNat 2 (hdrVc f)
  verifies := false

/-- A passing flit is decrypted; a tag that fails is counted here and goes on as one that cannot verify (R312, R314). -/
def State.openPassing (s : State) (p : PortId) (f : BitVec 2048) (old : Bool) : Opened :=
  let r := s.openAt p f old
  if r.ok then r else { r with st := r.st.authFail (failedMsg p f) }

/-- The replay delivered the good copy of a stomped flit: it is encrypted as the stomped one was begun. -/
def State.placeCopy (s : State) (p q : PortId) (n : BitVec 12) (c : Option Crypt) (f : BitVec 2048) (old : Bool) : State :=
  let r := s.openPassing p f old
  let s := r.st.modPort p.val fun x => { x with cut := none }.release (hdrVc f) 1
  let x := s.port q.val
  if !x.missing.contains n then s
  else
    let g := match c with
      | some c => let t := c.seal (!r.ok) r.flit; (t.1, some t.2)
      | none => (r.flit, none)
    let y := if hdrLast f then x else x.sealed f g.2
    let h := ({ y with txSeq := n, nakNext := false } : Port).dress g.1
    let s := s.setPort q.val { y with missing := y.missing.filter (· != n), replayBuf := placeFlit n h y.replayBuf }
    if x.wantReplay then s.resend q else s

/-- Does the message of source p on a channel go on at egress x: its flits so far wait there, or have left, without the last? -/
def Port.follows (x : Port) (p : PortId) (vc : Nat) : Bool :=
  match (x.txQ.filter fun e => e.src == some p && hdrVc e.flit == vc).getLast? with
  | some e => !hdrLast e.flit
  | none => x.mid.getD vc none == some (some p)

/-- A flit that passes through to port q waits there (R297, R312). A message whose per-link key tenant removal has retired goes no
further (R314), and a node that has left forwards nothing (R309); what is left of a message that was dropped is dropped too. -/
def State.passFlit (s : State) (p q : PortId) (f : BitVec 2048) (old : Bool) : State :=
  let vc := hdrVc f
  let free (s : State) : State := s.modPort p.val fun x => x.release vc 1
  if s.lnk.left ∨ (!hdrFirst f ∧ !(s.port q.val).follows p vc) then free s
  else if hdrFirst f ∧ s.perLink (hdrTag f) ∧ s.retiredKey (hdrTag f) then free (s.countAuthDrop p)
  else
    let r := s.openPassing p f old
    (r.st.wakeUp.modPort q.val fun x => { x with txQ := x.txQ ++ [⟨some p, r.flit, r.link, !r.ok⟩] }).drainAll q

/-- The count after one more message under a job key: at 2^39 the next epoch begins (R313). -/
def nextCount (c : Nat × Nat) : Nat × Nat := if c.2 + 1 = 2 ^ 39 then (c.1 + 1, 0) else (c.1, c.2 + 1)

/-- The epoch and count of a job key to or from a node. -/
def countIn (l : List (Tag × NodeId × Nat × Nat)) (t : Tag) (n : NodeId) : Nat × Nat :=
  match l.find? fun e => e.1 == t && e.2.1 == n with
  | some e => e.2.2
  | none => (0, 0)
def countOn (l : List (Tag × NodeId × Nat × Nat)) (t : Tag) (n : NodeId) : List (Tag × NodeId × Nat × Nat) :=
  (t, n, nextCount (countIn l t n)) :: l.filter fun e => !(e.1 == t && e.2.1 == n)

/-- A job key goes on to its next epoch (R313). -/
def State.jobEpoch (s : State) (l : List (Tag × NodeId × Nat × Nat)) (t : Tag) (n : NodeId) : State :=
  if (countIn l t n).2 + 1 = 2 ^ 39 then s.raise Ev.lnkRekey { tag := t, aux := n } else s

/-- A message under a job key begins to arrive: the receiver counts it as its sender does (13 R356). -/
def State.countJobRx (s : State) (f : BitVec 2048) : State :=
  let t := hdrTag f
  if !hdrFirst f ∨ !s.sec.jobKeys.any (fun e => e.1 == t) then s
  else
    let l := s.sec.jobRx
    ({ s with sec := { s.sec with jobRx := countOn l t (hdrSrc f) } } : State).jobEpoch l t (hdrSrc f)

/-- A flit for this node is kept until the last one of its message is in; the slots of an INSTALL message stay taken until it is staged
(08 R198). A message of more than 18 flits is malformed (R292). -/
def State.keepFlit (s : State) (p : PortId) (f : BitVec 2048) : State :=
  let vc := hdrVc f
  let n := ((s.port p.val).partialMsg.filter fun g => hdrVc g == vc).length
  let drop (s : State) : State := s.modPort p.val fun x => { x with partialMsg := x.partialMsg.filter fun g => hdrVc g != vc }
  if 18 ≤ n then (drop (s.badMsg p vc)).modPort p.val fun x => x.release vc (n + 1)
  else if hdrLast f then
    (drop s).modPort p.val fun x => if hdrType f = 6 then { x with owed := x.owed + n + 1 } else x.release vc (n + 1)
  else s.modPort p.val fun x => { x with partialMsg := x.partialMsg ++ [f] }

/-- A flit that came in order and is not idle: refused when its type and channel do not go together, when its channel is not open,
when its header is malformed or its message longer than 18 flits; forwarded when it is for another node, else kept until the
last flit of its message is in. -/
def State.acceptFlit (s : State) (p : PortId) (f : BitVec 2048) (old : Bool) : State :=
  let vc := hdrVc f
  let free (s : State) : State := s.modPort p.val fun x => x.release vc 1
  if !(typeVcs (hdrType f)).contains vc ∨ !(s.port p.val).granted.getD vc false ∨ !headerOk f then free (s.badMsg p vc)
  else
    match s.egress f with
    | some none => free (if hdrFirst f then (s.countNoRoute p).raise Ev.lnkNoRoute (lnkInfo s p vc) else s)
    | some (some q) => s.passFlit p q f old
    | none => ((s.openAt p f old).st.countJobRx f).keepFlit p f

/-- A flit that is stomped (R290): the link word and the parity of its first words are the port's own, the parity of the rest is
what the flit itself said, and every word of the later groups fails its check. -/
def Port.stompFlit (x : Port) (f : BitVec 2048) : BitVec 2048 :=
  let n := setFld f.toNat 128 64 (x.linkWord false)
  let g := BitVec.ofNat 2048 (setFld n 192 8 0)
  let own := nsum ((List.range 6).map fun w => b2n (oddOnes (flitWord g w)) * 2 ^ w) + b2n (oddOnes (flitWord g 7)) * 2 ^ 7
  let g := BitVec.ofNat 2048 (setFld n 192 8 own)
  let g := BitVec.ofNat 2048 (setFld n 192 8 (own + b2n (oddOnes (flitWord g 6)) * 2 ^ 6))
  (List.range 48).foldl (fun g i =>
    let w := 16 + i
    if wordOk g w then g ^^^ BitVec.ofNat 2048 (2 ^ (32 * w)) else g) g

/-- A passing flit whose head has gone on and whose later group fails: stomped downstream (R290). Under a per-link key the stomped flit is
decrypted and encrypted as it came; the counters of this side wait for the good copy. -/
def State.stompTry (s : State) (p : PortId) (f : BitVec 2048) (old : Bool) : State :=
  let x := s.port p.val
  let vc := hdrVc f
  if !groupOk f 0 ∨ linkIdle f ∨ linkRst f ∨ x.discarding ∨ linkSeq f ≠ x.rxSeq ∨ !(typeVcs (hdrType f)).contains vc ∨ s.lnk.left ∨
      (hdrFirst f ∧ s.perLink (hdrTag f) ∧ s.retiredKey (hdrTag f)) then s
  else
    match x.cut, s.egress f with
    | none, some (some q) =>
      let y := s.port q.val
      let r := s.openAt p f old
      let e : TxFlit := ⟨some p, r.flit, r.link, false⟩
      let goes := match y.mid.getD vc none with
        | none => hdrFirst f && y.mayBegin e
        | some src => src == some p
      if !y.txQ.isEmpty ∨ !goes ∨ !s.mayLeave q vc then s
      else
        let c := s.sealing q e
        let s := c.2
        let y := (s.port q.val).sealed f c.1
        let b := bump y.stomped
        let n := y.txSeq
        let z := (y.take vc).took (s.cfg.live.vc1Weight + s.cfg.live.vc2Weight) (some p) f
        let s := s.setPort q.val { z with
          missing := z.missing ++ [n], stomped := b.1, stompSat := z.stompSat || b.2 }
        let g := match c.1 with
          | some c => (c.seal false r.flit).1
          | none => f
        let s := (s.satEvent b.2 6 (portOff q.val 0x18)).emit (.flit q (y.stompFlit g))
        s.modPort p.val fun x => { x with cut := some (q, n, c.1) }
    | _, _ => s

/-- FLIT_RECEIVE (R286 to R290). A flit other than an idle one shows that the peer is quiet no longer (15 R419). -/
def flitReceive (p : PortId) (f : BitVec 2048) (old : Bool) (s : State) : State :=
  if !s.portLives p ∨ s.rst.held ≠ .none then s
  else if !(List.range 4).all fun i => groupOk f i then (s.stompTry p f old).nakFlit p
  else if linkRst f then rstFlit p s
  else
    let s := s.takeLink p f
    let x := s.port p.val
    if linkSeq f ≠ x.rxSeq then (if x.discarding then s else s.nakFlit p)
    else
      let x := { x with discarding := false }
      if linkIdle f then (s.setPort p.val x).drainAll p
      else
        let s := s.setPort p.val { x with rxSeq := x.rxSeq + 1, ack := linkSeq f, naks := 0, quiet := false, peerQuiet := false }
        let s := match x.cut with
          | some (q, n, c) => s.placeCopy p q n c f old
          | none => s.acceptFlit p f old
        s.drainAll p

/-! ### Link keys (13 R354, R355; 11 R313) -/

/-- A link secret is agreed: the port opens, its counters restart, the old secret is held with its own. -/
def State.agree (s : State) (p : PortId) (ss : Bytes) : State :=
  let x := s.port p.val
  let lo := if s.lower x then s.idd else x.peerIdd
  let hi := if s.lower x then x.peerIdd else s.idd
  let e : W32 := if x.agreed then x.epoch + 1 else 0
  let key := kdf (ss ++ lo ++ hi ++ leBytes 4 e.toNat) 64
  let y := { x with
    secret := some key, heldKey := x.secret, heldCount := x.rxCount, heldEnds := false, epoch := e, agreed := true
    opening := x.opening.map fun c => c.map fun c => { c with old := true }
    txCount := [], rxCount := [], stopped := [], rekeying := false }
  if x.agreed then
    let s := (s.setPort p.val y).raise Ev.lnkRekey (lnkInfo s p 0xFF)
    if s.lnk.rekeyPort = some p then
      s.setLnk fun l => { l with cmdState := .done, reason := 0, rekeyPort := none }
    else s
  else
    let s := s.setPort p.val (y.open' s.glb.ready)
    if s.glb.phase = 3 then s.portsTry else s.sayHello p

/-- The lower end encapsulates to the peer's exchange key and sends the ciphertext, once the DRBG gives output. -/
def State.encapsulate (s : State) (p : PortId) : State :=
  let x := s.port p.val
  if !s.lower x ∨ !s.sec.entropyOk then s
  else
    let r := s.random 32
    let c := Config.kemEncap x.peerExchange r.1
    (r.2.emit (.keyCiphertext p c.1)).agree p c.2

/-- This end's KEY offer (13 R354 step 1). -/
def State.offer (s : State) : KeyOffer where
  root := Config.rootKey
  idCert := s.firn.idCert
  attCert := s.sec.attCert
  exchange := s.myExchange
  sig := s.sec.exchangeSig

/-- The lanes of a port have trained: idle flits and VC0's credits go out for the key agreement, which begins with this end's offer
(DEDUCED, log 21). -/
def State.beginKeys (s : State) (p : PortId) : State :=
  ((s.restartPort p).modPort p.val fun x => { x with
    state := .training, trained := true, agreed := false, secret := none, heldKey := none, heldCount := [], epoch := 0
    peerIdd := [], peerExchange := [], txCount := [], rxCount := [], stopped := [], rekeying := false, restart := false
    idleOnly := false }).emit (.keyOffer p s.offer)

/-- PORT_TRAINED (11 R283): the agreement starts, or the port stays down. -/
def portTrained (p : PortId) (ok : Bool) (s : State) : State :=
  let x := s.port p.val
  if !x.enabled ∨ (x.state ≠ .untrained ∧ x.state ≠ .training) ∨ s.rst.held ≠ .none then s
  else if ok then s.beginKeys p
  else (s.portDown p Ev.lnkTrainFail).portsTry

/-- The first DER item of a string, by its length octets of X.690: the whole item, its content, and what follows; none where it is not
whole (log 11). -/
def derItem : Bytes → Option (Bytes × Bytes × Bytes)
  | t :: n :: l =>
    let cut (h : Bytes) (c : Nat) (l : Bytes) : Option (Bytes × Bytes × Bytes) :=
      if c ≤ l.length then some (h ++ l.take c, l.take c, l.drop c) else none
    if n.toNat < 128 then cut [t, n] n.toNat l
    else
      match n.toNat, l with
      | 0x81, a :: l => cut [t, n, a] a.toNat l
      | 0x82, a :: b :: l => cut [t, n, a, b] (256 * a.toNat + b.toNat) l
      | _, _ => none
  | _ => none

/-- What follows `k` items. -/
def derSkip : (k : Nat) → Bytes → Option Bytes
  | 0, l => some l
  | k + 1, l => (derItem l).bind fun x => derSkip k x.2.2

/-- The content of a BIT STRING of whole bytes. -/
def derBits (l : Bytes) : Option Bytes := (derItem l).map fun x => x.2.1.drop 1

/-- An X.509 v3 certificate as RFC 5280 lays it out (13 R345; log 11): what is signed, the public key, which is the seventh item of that
after version, serial number, algorithm, issuer, validity and subject, and the signature. -/
def certParts (c : Bytes) : Option (Bytes × Bytes × Bytes) :=
  if 32768 < c.length then none
  else
    (derItem c).bind fun x => (derItem x.2.1).bind fun body =>
      ((derSkip 1 body.2.2).bind derBits).bind fun sig =>
        ((derSkip 6 body.2.1).bind derItem).bind fun info => ((derSkip 1 info.2.1).bind derBits).map fun key => (body.1, key, sig)

/-- The public key that a certificate certifies. -/
def certKey (c : Bytes) : Bytes := match certParts c with | some x => x.2.1 | none => []

/-- The checks of a peer's offer (13 R354 step 2): the identity certificate is signed by the root whose digest is in the fuses (R345), the
attestation certificate by the identity key and for its digest (R346, Table 13.3), the exchange key by the attestation key. -/
def offerOk (x : KeyOffer) : Bool :=
  let id := certKey x.idCert
  Config.shake256 x.root 32 == Config.rootDigest &&
    (certParts x.idCert).any (fun c => Config.slhVerify Config.slhS x.root c.1 c.2.2) &&
    x.attCert.length == 192 + Config.slhS && leAt x.attCert 0 4 == 0x5452_4341 && leAt x.attCert 4 2 == 1 &&
    (x.attCert.drop 8).take 32 == Config.shake256 id 32 &&
    Config.slhVerify Config.slhS id (x.attCert.take 192) (x.attCert.drop 192) &&
    x.exchange.length == 1568 && Config.slhVerify Config.slhF ((x.attCert.drop 48).take 64) x.exchange x.sig

/-- KEY_OFFER (13 R354). -/
def keyOffer (p : PortId) (x : KeyOffer) (s : State) : State :=
  let y := s.port p.val
  if y.state ≠ .training ∨ !y.trained ∨ y.agreed ∨ s.rst.held ≠ .none then s
  else
    let s := s.wakeUp
    if !offerOk x then (s.portDown p Ev.secPeerBad).portsTry
    else (s.modPort p.val fun y => { y with
      peerIdd := Config.shake256 (certKey x.idCert) 32, peerExchange := x.exchange }).encapsulate p

/-- KEY_CIPHERTEXT (13 R354): the higher end decapsulates. -/
def keyCiphertext (p : PortId) (ct : Bytes) (s : State) : State :=
  let x := s.port p.val
  let open' := x.state == .up || x.state == .upVc0 || x.state == .retraining
  if x.peerExchange = [] ∨ s.lower x ∨ s.rst.held ≠ .none ∨ !((x.state == .training && !x.agreed) || (open' && x.agreed)) then s
  else
    match s.sec.exchangeSeed with
    | none => s
    | some seed => s.wakeUp.agree p (Config.kemDecap seed ct)

/-- A rekey starts: the next secret is agreed under epoch + 1. -/
def State.rekey (s : State) (p : PortId) : State :=
  (s.modPort p.val fun x => { x with rekeying := true }).encapsulate p

/-- A key of a port: the link key, or the key of a domain. -/
def linkKeyNo (d : Option Dom) : Nat := match d with | none => 0 | some d => 1 + d.toNat

/-- REKEY_THRESHOLD (11 R313): a counter has reached 2^39. -/
def rekeyThreshold (p : PortId) (d : Option Dom) (s : State) : State :=
  if !s.portRuns p ∨ !(s.port p.val).agreed then s
  else (s.modPort p.val fun x => { x with txCount := mset 0 x.txCount (linkKeyNo d) (BitVec.ofNat 64 (2 ^ 39)) }).rekey p

/-- KEY_EXHAUSTED (11 R313): a counter has reached 2^40; nothing more is sent under that key, and the link retrains when no
new key is ready. -/
def keyExhausted (p : PortId) (d : Option Dom) (s : State) : State :=
  let x := s.port p.val
  if !s.portRuns p ∨ !x.agreed ∨ x.stopped.contains (linkKeyNo d) then s
  else
    (s.setPort p.val { x with
      txCount := mset 0 x.txCount (linkKeyNo d) (BitVec.ofNat 64 (2 ^ 40)), stopped := linkKeyNo d :: x.stopped }).retrain p

/-- HEALTH_TEST_RECOVERY (13 R342): the DRBG gives output again, and what waited for randomness goes on; an open is looked at again (R348,
R367). -/
def healthTestRecovery (s : State) : State :=
  if !s.sec.healthFail then s
  else
    let s := s.setSec fun x => { x with entropyOk := true, healthFail := false }
    let s := match s.sec.openWait with
      | some d => s.openTry d
      | none => s
    let s := if s.sec.challengeWait then s.giveChallenge else s
    foldS s.attestTry (List.finRange 12) fun s p =>
      let x := s.port p.val
      if x.peerExchange ≠ [] ∧ (x.rekeying ∨ (x.state = .training ∧ !x.agreed)) then s.encapsulate p else s

/-! ### Writes (11 R293) -/

/-- WRITE (11 R293): the data of a remote MOVE or DISPATCH. -/
def writeMsg (m : Msg) (a : BitVec 44) (data : Bytes) (s : State) : State :=
  s.receiveTo m [1, 3] fun s =>
    if bitsOf a 42 41 ≠ 0 ∨ (!bitOf a 43 ∧ 2 ^ 33 ≤ bitsOf a 40 0) ∨ data = [] ∨ 4016 < data.length then s.badMsg m.port m.vc.toNat
    else
      let w : Who := match s.job m.tag with
        | some j => j.who
        | none => { req := .none, tag := m.tag, dom := 0 }
      s.store w ⟨bitOf a 43, bitsOf a 40 0⟩ data

/-! ### Membership (11 R306 to R311) -/

/-- Positions of a ring reached from `i` in one direction before a lost node. -/
def ringReach (ms lost : List NodeId) (up : Bool) : (fuel i : Nat) → List NodeId
  | 0, _ => []
  | n + 1, i =>
    let j := if up then (i + 1) % ms.length else (i + ms.length - 1) % ms.length
    match ms[j]? with
    | none => []
    | some x => if lost.contains x then [] else x :: ringReach ms lost up n j

/-- Of the nodes `ms` the lost ones and those that can be reached only through one, or through one that was lost before (R308): in a
ring when both ways are cut, else when the one way is. -/
def State.lostAmong (s : State) (ms l : List NodeId) : List NodeId :=
  let t := s.cfg.live.topo
  let gone := l ++ s.lnk.lost
  let beyond (n : NodeId) : Bool :=
    if t.shape = 1 then
      match topoPos t s.lnk.node with
      | some i =>
        !(ringReach (topoMembers t) gone true t.nodes.length i).contains n &&
          !(ringReach (topoMembers t) gone false t.nodes.length i).contains n
      | none => false
    else (between t n t.nodes.length s.lnk.node).any gone.contains
  ms.filter fun n => n != s.lnk.node && (l.contains n || beyond n)
def State.lostWith (s : State) (l : List NodeId) : List NodeId := s.lostAmong s.lnk.members l

/-- Frees the context of a stopped job whose lanes do not run, unless updates are parked in it (R308). -/
def State.freeJobCtx (s : State) (t : Tag) : State :=
  match (s.job t).bind (·.ctx) with
  | none => s
  | some x =>
    let cx := s.ctx x.val
    if cx.state = .updating ∨ !cx.parks.isEmpty then s
    else (s.setCtx x.val cx.freed).modJob t fun j => { j with ctx := none }

/-- A removal of a variant that is no part of a domain's removal is aborted (R310): its jobs drop it from what they retire. -/
def State.abortRemoval (s : State) (e : Nat × Variant) : State :=
  if e.2.state ≠ .removing ∨ (s.session e.2.domain.toNat).state = .removing then s
  else (s.undoRemoval e.1 e.2).modJobs fun j => { j with retire := j.retire.filter fun v => v.toNat != e.1 }

/-- The coordinator is lost: the deputy takes its place, and the control tree has its root there (R299, R310); publishes and
removals in progress end. The new coordinator takes the greatest generation number that any member's catalogue recorded, as the
members told it when they joined (R310; log 21). -/
def State.depute (s : State) : State :=
  let s := s.setLnk fun l => { l with
    coordinator := l.deputy, routes := l.routes.map (markRoute s.cfg.live.topo l.deputy l.node) }
  let s := foldS s s.var.reg fun s e => s.abortRemoval e
  let s := { s with var := { s.var with removals := [], publish := none } }
  if s.lnk.node = s.lnk.coordinator then
    (s.setFirn fun x => { x with greatest := genMax x.seen x.greatest }).catalogue
  else s

/-- A publish that some member can no longer take part in ends (09 Table 9.16 reason 0x0B); copies made for it are void. -/
def State.losePublish (s : State) : State :=
  let s := s.setVar fun y => { y with reg := y.reg.map fun e => (e.1, { e.2 with copied := false }) }
  if s.isCoord then s.publishFail 0x0B else s

/-- A swap when a member is lost (08 R211). A reset leaves it to be settled; else the coordinator aborts it on every member, as a member
does whose own thaw runs, and R310 ends it with the coordinator. -/
def State.loseSwap (s : State) (w : Swap) (l : List NodeId) (reset : Bool) : State :=
  if reset then s.setFirn fun x => { x with swap := some { w with settle := true } }
  else if s.isCoord then (s.sendDown (.swapAbort .down w.gen.num none)).abortSwap w 0x06
  else if w.thawed ∧ !l.contains s.lnk.coordinator then s
  else s.abortSwap w 0x06

/-- Nodes that are lost while the chain starts are not waited for (15 Table 15.7 step 9; log 16). -/
def State.loseStarting (s : State) (l : List NodeId) (reset : Bool) : State :=
  let l := l.filter fun n => n != s.lnk.node && !s.lnk.lost.contains n && (topoMembers s.cfg.live.topo).contains n
  if l.isEmpty then s
  else
    let s := (s.emit (.lost l reset)).setLnk fun k => { k with lost := k.lost ++ l }
    match s.firn.swap with
    | some w => if s.coordStarts then s.startTry w else s
    | none => s

/-- Every member acts on lost nodes (R308, R310); `reset`: a reset of theirs is the cause. -/
def State.loseNodes (s : State) (l : List NodeId) (reset : Bool) : State :=
  if s.starting then s.loseStarting l reset else
  let l := s.lnk.members.filter fun n => n != s.lnk.node && l.contains n
  if l.isEmpty then s
  else
    let s := s.emit (.lost l reset)
    let hit (j : Job) : Bool := j.members.any fun n => l.contains n
    let s := { s with jobs := { s.jobs with setups := s.jobs.setups.filter fun u => !u.members.any fun n => l.contains n } }
    let s := foldS s (s.jobs.list.filter fun j => j.admitted && j.phase != .ended && hit j) fun s j =>
      (s.stopJob j.tag Stat.memberLost Ev.lnkMemberLost).freeJobCtx j.tag
    let s := foldS s (s.jobs.list.filter fun j => !j.admitted && (j.phase == .accepted || j.phase == .setup) && hit j) fun s j =>
      s.complete j Stat.memberLost Ev.lnkMemberLost
    let s := (s.modJobs fun j => { j with remote := j.remote.filter fun r => !l.contains r.2.2.1.node }).dropEnded
    let s := match s.firn.swap with
      | some w => s.loseSwap w l reset
      | none => s
    let s := s.setLnk fun k => { k with
      members := k.members.filter fun n => !l.contains n, lost := k.lost ++ l.filter fun n => !k.lost.contains n }
    let s := foldS s l fun s n => s.raise Ev.lnkMemberLost { aux := n }
    let s := match s.firn.install with
      | some x => s.failInstall x 0x06
      | none => s
    let s := s.losePublish
    if l.contains s.lnk.coordinator then s.depute
    else if s.isCoord then
      foldS s s.var.removals fun s e => s.removedTry e.1 (l.headD 0)
    else s

/-- The neighbour that the topology table places on a port (R306). -/
def State.placedOn (s : State) (p : PortId) (n : NodeId) : Bool :=
  (topoNode s.cfg.live.topo s.lnk.node).any fun x => x.gangs.any fun g => bitOf g.ports p.val && g.peer == n

/-- Does this node still have to join: it is in step 7 of a start, or ready and no member? -/
def State.joins (s : State) : Bool := !s.lnk.member && (s.glb.phase == 4 || s.glb.ready)

/-- HELLO (R306, R308) of node m.src, with its GLB_ID (15 R422). `sameHash`: the topology hash that it carries is this node's; another
one, or a node that the table does not place on the port, takes the port down. A second HELLO on a port follows a reset of the peer and
counts it as lost; the exchange is completed by this node's own, and traffic on the port goes on (15 R396). -/
def hello (m : Msg) (peerPort : PortId) (sameHash : Bool) (glb : W64) (s : State) : State :=
  s.receive m [0] fun s =>
    let p := m.port
    let x := s.port p.val
    let node := m.src
    if !sameHash ∨ !s.placedOn p node then (s.portDown p Ev.lnkPeerBad).portsTry
    else
      let s := s.setPort p.val
        { x.open' s.glb.ready with peer := node, peerPort := peerPort.val, peerGlb := glb, idleOnly := false }
      let s := if x.idleOnly then s.sayHello p else s
      let s := if (x.peer = node ∨ x.idleOnly) ∧ s.lnk.members.contains node then s.loseNodes (s.lostWith [node]) x.idleOnly else s
      let s := s.drainAll p
      if s.joins ∧ s.isParentPort p then s.sendJoin else s

/-- Every registered variant's descriptor (09 Table 9.2). -/
def State.registryList (s : State) : List (BitVec 512) := s.var.reg.map fun e => Variant.desc e.1 e.2

/-- A node's exchange key in the member list (13 R356). -/
def State.noteKey (s : State) (n : NodeId) (k : Bytes) : State :=
  s.setLnk fun l => { l with memberKeys := (n, k) :: l.memberKeys.filter fun e => e.1 != n }

/-- The member list's keys with this node's own. -/
def State.keyList (s : State) : List (NodeId × Bytes) :=
  (s.lnk.node, s.myExchange) :: s.lnk.memberKeys.filter fun e => e.1 != s.lnk.node

/-- JOIN (R306 steps 2 and 3): it goes up the control tree with the greatest generation number that the node recorded (08 R208) and its
exchange key; the coordinator answers a node of the topology that is no member and whose place changes no route between members with
ADMIT: the member list, the current generation and its slot, the registry. In a chain that starts there are no members yet, and ADMIT
lets the node thaw its default slot. -/
def join (m : Msg) (node : NodeId) (seen : W32) (key : Bytes) (s : State) : State :=
  s.receive m [0] fun s =>
    if s.coordStarts then
      if !(topoMembers s.cfg.live.topo).contains node then s
      else
        let s := (s.setFirn fun x => { x with seen := genMax seen x.seen }).noteKey node key
        s.sendTo node 0 (.admitOk node [] s.keyList 0 0 s.registryList (genMax s.firn.seen s.firn.greatest))
    else if !s.isCoord then (if s.isRoot then s else s.emit (.join node seen key))
    else if !(topoMembers s.cfg.live.topo).contains node ∨ s.lnk.members.contains node ∨
        !joinPlace s.cfg.live.topo s.lnk.members node then s
    else
      let s := (s.setFirn fun x => { x with seen := genMax seen x.seen }).noteKey node key
      let g := s.firn.current
      s.sendTo node 0 (.admitOk node s.lnk.members s.keyList (match g with | some x => x.num | none => 0)
        (match g with | some x => x.slot | none => 0) s.registryList (genMax s.firn.seen s.firn.greatest))

/-- A node is a member from now on. -/
def State.addMember (s : State) (node : NodeId) : State :=
  (s.setLnk fun l => { l with members := s.inOrder (node :: l.members), lost := l.lost.filter (· != node) }).raise
    Ev.lnkMemberJoined { aux := node }

/-- MEMBER_ANNOUNCE (R306 step 4): a node that has thawed tells the coordinator, up the control tree, and the coordinator announces
it down the tree to every member (log 21). -/
def memberAnnounce (m : Msg) (node : NodeId) (seen : W32) (key : Bytes) (s : State) : State :=
  s.receive m [0] fun s =>
    let down (s : State) : State := if s.childEdges.isEmpty then s else s.emit (.announce .down node seen key)
    if s.isChildPort m.port ∧ !s.isCoord then (if s.isRoot then s else s.emit (.announce .up node seen key))
    else
      let s := down s
      if !s.lnk.member ∨ s.lnk.members.contains node then s
      else ((s.setFirn fun x => { x with seen := genMax seen x.seen }).noteKey node key).addMember node

/-- The registry that ADMIT carries replaces this node's own (R306, 09 R221). -/
def State.adoptRegistry (s : State) (l : List (BitVec 512)) : State :=
  let vid (d : BitVec 512) : Nat := bitsOf d 511 496
  let s := foldS s (s.var.reg.filter fun e => !l.any fun d => vid d == e.1) fun s e => (s.freeVariant e.1 e.2).dropVariant e.1
  foldS s l fun s d => if (s.variant (vid d)).isSome then s else s.setVariant (vid d) (descVariant d)

/-- A generation is taken under its number and thawed (08 R214); the one this node already holds stays. An error is the reason
of Table 8.13. -/
def State.adoptGen (s : State) (k : FSlotId) (g : W32) (bad unread : List Nat) : State × Except Nat Unit :=
  if g = 0 ∨ (s.firn.current.any fun x => x.num == g) ∨ (s.firn.swap.any fun w => w.gen.num == g) then (s, .ok ())
  else if (s.fslot k.val).state ≠ .valid then (s, .error 0x01)
  else
    let s := match s.firn.current with
      | some x => (s.dropGen x).setFirn fun y => { y with current := none }
      | none => s
    match s.takeGen k g with
    | none => (s, .error 0x08)
    | some (t, x) =>
      match t.thawGen x bad unread with
      | (t, .error r) => (t.dropGen x, .error r)
      | (t, .ok x) =>
        ((t.setFirn fun y => { y with current := some x, greatest := genMax g y.greatest }).catalogue, .ok ())

/-- This node has joined a running chain (R306 step 4): it tells the coordinator; a start that waited for it goes on to ready (15 Table
15.8). -/
def State.joined (s : State) (members : List NodeId) : State :=
  let s := s.setLnk fun l => { l with
    member := true, left := false, members := s.inOrder (l.node :: members), lost := []
    cmdState := if l.cmdState = .busy ∧ l.rekeyPort.isNone then .done else l.cmdState }
  let s := (s.raise Ev.lnkMemberJoined { aux := s.lnk.node }).emit (.announce .up s.lnk.node s.firn.greatest s.myExchange)
  if s.glb.phase = 4 ∧ !s.glb.ready ∧ !s.glb.fatal then s.openDevice else s

/-- ADMIT (R306 steps 3 and 4): members with their exchange keys, generation, slot, registry and the greatest generation number that a
member recorded; the node thaws and becomes a member. With no member listed the chain itself starts: the node thaws its default slot
and waits for COMMIT (15 Table 15.7 steps 8 and 9). -/
def admitMsg (m : Msg) (members : List NodeId) (keys : List (NodeId × Bytes)) (g : W32) (slot : FSlotId)
    (registry : List (BitVec 512)) (seen : W32) (bad unread : List Nat) (s : State) : State :=
  s.receiveTo m [0] fun s =>
    if !s.joins then s
    else
      let s := (s.adoptRegistry registry).setFirn fun x => { x with seen := genMax seen x.seen }
      let s := s.setLnk fun l => { l with memberKeys := keys }
      if g = 0 ∧ members = [] then (if s.glb.ready then s else s.startNext)
      else
        match s.adoptGen slot g bad unread with
        | (s, .error r) => s.raise Ev.baseSwapFail (argReason r)
        | (s, .ok _) => s.joined members

/-- LEAVE (R308). -/
def leave (m : Msg) (s : State) : State := s.receive m [0] fun s => s.loseNodes (s.lostWith [m.src]) false

/-- LOST (R308). -/
def lost (m : Msg) (nodes : List NodeId) (reset : Bool) (s : State) : State := s.receive m [0] fun s => s.loseNodes nodes reset

/-- NEIGHBOUR_LOSS_TIMEOUT (R308): every port to the neighbour has been down or retraining; a quiet port is exempt. -/
def neighbourLossTimeout (node : NodeId) (s : State) : State :=
  let ps := (List.finRange 12).filter fun p => (s.port p.val).enabled && ((s.port p.val).peer == node || s.placedOn p node)
  if ps.isEmpty ∨ !ps.all (fun p => ((s.port p.val).state == .down || (s.port p.val).state == .retraining) && !(s.port p.val).quiet) then s
  else s.loseNodes (s.lostAmong (if s.starting then topoMembers s.cfg.live.topo else s.lnk.members) [node]) false

/-! ### LNK_CMD (11 Tables 11.19, 11.20) -/

def State.lnkRefuse (s : State) (r : Nat) : State := s.setLnk fun l => { l with cmdState := .refused, reason := r }

/-- A LNK_CMD write of one op: while a command runs it is ignored with reason 0x05; a reserved op is refused with
0x04; an op of another command is not this one. -/
def State.lnkOp (s : State) (v : W64) (op : Nat) (k : State → State) : State :=
  s.hostReg fun s =>
    let o := bitsOf v 63 60
    if o ≠ op ∧ 1 ≤ o ∧ o ≤ 3 then s
    else if s.lnk.cmdState = .busy then s.setLnk fun l => { l with reason := 0x05 }
    else if o ≠ op then s.lnkRefuse 0x04
    else k s

/-- LNK_LEAVE (R309): no new setup; LEAVE goes out once the jobs have ended. -/
def lnkLeave (v : W64) (s : State) : State :=
  s.lnkOp v 1 fun s =>
    if !s.lnk.member then s.lnkRefuse 0x01
    else s.setLnk fun l => { l with leaving := true, cmdState := .busy, reason := 0 }

/-- LEAVE_SEND (R309). -/
def leaveSend (s : State) : State :=
  if !s.lnk.leaving ∨ s.anyLive then s
  else
    (s.setLnk fun l => { l with
      leaving := false, left := true, member := false, members := [], cmdState := .done, reason := 0 }).emit .leave

/-- LNK_REJOIN (R306): JOIN goes up again. -/
def lnkRejoin (v : W64) (s : State) : State :=
  s.lnkOp v 2 fun s =>
    if s.lnk.member then s.lnkRefuse 0x02
    else (s.setLnk fun l => { l with cmdState := .busy, reason := 0 }).sendJoin

/-- LNK_REKEY (R313): every key of a port, now. -/
def lnkRekey (v : W64) (s : State) : State :=
  s.lnkOp v 3 fun s =>
    let n := bitsOf v 59 56
    if h : n < 12 then
      let p : PortId := ⟨n, h⟩
      if !s.portRuns p ∨ !(s.port n).agreed then s.lnkRefuse 0x03
      else (s.setLnk fun l => { l with cmdState := .busy, reason := 0, rekeyPort := some p }).rekey p
    else s.lnkRefuse 0x04

/-! ### Quiet links and boot images -/

/-- QUIET (15 R419): the port goes quiet once both ends have sent it. It does not wake the device. -/
def quiet (m : Msg) (s : State) : State :=
  if !s.portCarries m.port m.vc.toNat ∨ (s.port m.port.val).state ≠ .up then s
  else s.checked m [0] fun s => s.modPort m.port.val fun x => { x with peerQuiet := true, quiet := x.quiet || s.rst.pwr == .restQuiet }

/-- BOOT_IMAGE_REQUEST (15 R403): a booting neighbour, which has no key yet, gets the running image set, on VC0. -/
def bootImageRequest (p : PortId) (s : State) : State :=
  if s.rst.held = .none ∧ s.portLives p ∧ s.sec.runningSet.isSome then s.wakeUp.emit (.image p) else s

/-! ### The meanings -/

/-- PORT_TRAINED (11 R283). -/
def execPortTrained (p : PortId) (ok : Bool) (s : State) : Res := .next (portTrained p ok s)
/-- KEY_OFFER (13 R354). -/
def execKeyOffer (p : PortId) (x : KeyOffer) (s : State) : Res := .next (keyOffer p x s)
/-- KEY_CIPHERTEXT (13 R354). -/
def execKeyCiphertext (p : PortId) (ct : Bytes) (s : State) : Res := .next (keyCiphertext p ct s)
/-- FLIT_RECEIVE (11 R289). -/
def execFlitReceive (p : PortId) (f : BitVec 2048) (old : Bool) (s : State) : Res := .next (flitReceive p f old s)
/-- RX_SILENCE_TIMEOUT (11 R284). -/
def execRxSilenceTimeout (p : PortId) (s : State) : Res := .next (rxSilenceTimeout p s)
/-- LANE_LOCK_LOSS (11 R284). -/
def execLaneLockLoss (p : PortId) (s : State) : Res := .next (laneLockLoss p s)
/-- RETRAIN_DONE (11 R284). -/
def execRetrainDone (p : PortId) (ok : Bool) (s : State) : Res := .next (retrainDone p ok s)
/-- RST_FLIT (15 R396). -/
def execRstFlit (p : PortId) (s : State) : Res := .next (rstFlit p s)
/-- WRITE (11 R293). -/
def execWriteMsg (m : Msg) (a : BitVec 44) (data : Bytes) (s : State) : Res := .next (writeMsg m a data s)
/-- HELLO (11 R306). -/
def execHello (m : Msg) (peerPort : PortId) (sameHash : Bool) (glb : W64) (s : State) : Res :=
  .next (hello m peerPort sameHash glb s)
/-- JOIN (11 R306). -/
def execJoin (m : Msg) (node : NodeId) (seen : W32) (key : Bytes) (s : State) : Res := .next (join m node seen key s)
/-- ADMIT (11 R306). -/
def execAdmitMsg (m : Msg) (members : List NodeId) (keys : List (NodeId × Bytes)) (g : W32) (slot : FSlotId)
    (registry : List (BitVec 512)) (seen : W32) (bad unread : List Nat) (s : State) : Res :=
  .next (admitMsg m members keys g slot registry seen bad unread s)
/-- LEAVE (11 R308). -/
def execLeave (m : Msg) (s : State) : Res := .next (leave m s)
/-- LOST (11 R308). -/
def execLost (m : Msg) (nodes : List NodeId) (reset : Bool) (s : State) : Res := .next (lost m nodes reset s)
/-- NEIGHBOUR_LOSS_TIMEOUT (11 R308). -/
def execNeighbourLossTimeout (node : NodeId) (s : State) : Res := .next (neighbourLossTimeout node s)
/-- REKEY_THRESHOLD (11 R313). -/
def execRekeyThreshold (p : PortId) (d : Option Dom) (s : State) : Res := .next (rekeyThreshold p d s)
/-- KEY_EXHAUSTED (11 R313). -/
def execKeyExhausted (p : PortId) (d : Option Dom) (s : State) : Res := .next (keyExhausted p d s)
/-- LNK_LEAVE (11 R309). -/
def execLnkLeave (v : W64) (s : State) : Res := .next (lnkLeave v s)
/-- LEAVE_SEND (11 R309). -/
def execLeaveSend (s : State) : Res := .next (leaveSend s)
/-- LNK_REJOIN (11 R306). -/
def execLnkRejoin (v : W64) (s : State) : Res := .next (lnkRejoin v s)
/-- LNK_REKEY (11 R313). -/
def execLnkRekey (v : W64) (s : State) : Res := .next (lnkRekey v s)
/-- QUIET (15 R419). -/
def execQuiet (m : Msg) (s : State) : Res := .next (quiet m s)
/-- BOOT_IMAGE_REQUEST (15 R403). -/
def execBootImageRequest (p : PortId) (s : State) : Res := .next (bootImageRequest p s)
/-- MEMBER_ANNOUNCE (11 R306). -/
def execMemberAnnounce (m : Msg) (node : NodeId) (seen : W32) (key : Bytes) (s : State) : Res :=
  .next (memberAnnounce m node seen key s)
/-- HEALTH_TEST_RECOVERY (13 R342). -/
def execHealthTestRecovery (s : State) : Res := .next (healthTestRecovery s)

end Sys2Proof.Machine
end

