-- ==== Sys2Proof/Machine/Send.lean ====
section
/-! DEFINITION. Sys2Proof/Machine/Send.lean: this node's own messages as flits (11 R285, R291, R292, R297, R302, R312, R313; 13 R355, R356): what the outbox hands to the ports, cut, protected and queued; idle flits (R283, R288). -/

namespace Sys2Proof.Machine

open Sys2Proof

/-! ### Messages -/

/-- A message of this node: its egress port, the header fields of Table 11.5, and its data; none where the spec gives its type no
layout; `plain`: the transfer of an image set to a booting neighbour, which has an all-zero tag (15 R403). -/
structure Packet where
  port : PortId
  dst : NodeId
  tag : Tag
  vc : Nat
  type : Nat
  addr : Nat
  data : Option Bytes
  plain : Bool := false

/-- The gangs that an edge names (11 R299). -/
def State.edgeGangs (s : State) (e : Edge) : List (BitVec 12) :=
  match e with
  | .up => s.parentEdge.toList
  | .down => s.childEdges
  | .all => s.parentEdge.toList ++ s.childEdges
  | .but p => (s.parentEdge.toList ++ s.childEdges).filter fun g => !bitOf g p.val

/-- The port of a gang by an index (11 R302). -/
def portOfGang (g : BitVec 12) (i : Nat) : Option PortId := let l := portsOf g; l[i % l.length]?

/-- A message to the neighbour on a port. -/
def State.toPort (s : State) (p : PortId) (t : Tag) (vc type : Nat) (data : Option Bytes) : Packet :=
  ⟨p, (s.port p.val).peer, t, vc, type, 0, data, false⟩

/-- A CONTROL message along edges of the control tree, one hop, by the lowest port of each gang (log 21). -/
def State.alongEdge (s : State) (e : Edge) (t : Tag) (type : Nat) : List Packet :=
  (s.edgeGangs e).filterMap fun g => (portOfGang g 0).map fun p => s.toPort p t 0 type none

/-- An addressed message by the port of R297. -/
def State.byRoute (s : State) (dst : NodeId) (t : Tag) (vc type addr : Nat) (data : Option Bytes) : List Packet :=
  (((s.route dst).bind fun r => r.port t s.lnk.node dst).map fun p => ⟨p, dst, t, vc, type, addr, data, false⟩).toList

/-- A CONTROL message toward a node: to the neighbour on the port of R297, which takes it and sends its own (R298). -/
def State.byHop (s : State) (dst : NodeId) (t : Tag) : List Packet :=
  (((s.route dst).bind fun r => r.port t s.lnk.node dst).map fun p => s.toPort p t 0 5 none).toList

/-- Data longer than one message carries, in messages one after another (11 R292; DESIGN CHOICE, log 21). -/
def chunks (n : Nat) : (fuel : Nat) → Bytes → List Bytes
  | 0, _ => []
  | k + 1, l => if l.length ≤ n then [l] else l.take n :: chunks n k (l.drop n)
def State.inChunks (s : State) (p : PortId) (type : Nat) (data : Bytes) : List Packet :=
  (chunks 4016 data.length data).map fun l => s.toPort p 0 0 type (some l)

/-- The bytes of a KEY offer, its parts in order, and of an image set (13 R354, 15 R403; DESIGN CHOICE, log 21). -/
def offerBytes (x : KeyOffer) : Bytes := x.root ++ x.idCert ++ x.attCert ++ x.exchange ++ x.sig
def setBytes (x : Option ImageSet) : Bytes :=
  match x with
  | some x => imageBytes x.fw ++ imageBytes x.cfg
  | none => []

/-- The messages that an entry of the outbox stands for; what is not for a chain port stands for none. -/
def State.packets (s : State) (o : Out) : List Packet :=
  match o with
  | .arrive e t _ _ | .release e t _ _ _ | .barAbort e t _ _ | .setup e t _ _ _ _ | .go e t | .abort e t _ _ | .vote e t _ _ _
  | .verdict e t _ => s.alongEdge e t 5
  | .swapPrepare .. | .swapCommit .. | .registry .. | .publish .. | .publishCommit .. | .varRemove .. | .revoke ..
  | .released .. => s.alongEdge .down 0 5
  | .swapAbort e _ _ => s.alongEdge e 0 5
  | .thawReady .. | .publishReady .. | .varRemoved .. | .removalDone .. => s.alongEdge .up 0 5
  | .join .. => s.alongEdge .up 0 7
  | .announce e _ _ _ => s.alongEdge e 0 7
  | .lost .. => s.alongEdge .all 0 7
  | .leave => (List.finRange 12).filterMap fun p =>
      if (s.port p.val).state = .up then some (s.toPort p 0 0 7 none) else none
  | .accept n t _ | .refuse n t _ _ => s.byHop n t
  | .installOpen n _ _ _ | .installAbort n _ _ | .installDone n _ _ _ => s.byHop n 0
  | .admitOk n _ _ _ _ _ _ => s.byRoute n 0 0 7 0 none
  | .jobRekey n _ _ => s.byRoute n 0 0 8 0 none
  | .installFrame n data => s.byRoute n 0 1 6 0 (some (data.take 4016)) ++ s.byRoute n 0 1 6 0 (some (data.drop 4016))
  | .signal n t vc sem c => s.byRoute n t vc 2 sem.toNat (some (leBytes 4 c.toNat))
  | .signalAck n t _ _ => s.byRoute n t 0 3 0 none
  | .write n t vc a data => s.byRoute n t vc 1 a.toNat (some data)
  | .collective g n t data => ((portOfGang g n).map fun p => s.toPort p t 2 4 (some data)).toList
  | .hello p _ _ => [s.toPort p 0 0 7 none]
  | .keyOffer p x => s.inChunks p 8 (offerBytes x)
  | .keyCiphertext p ct => [s.toPort p 0 0 8 (some ct)]
  | .image p => (s.inChunks p 5 (setBytes s.sec.runningSet)).map fun x => { x with plain := true }
  | .imageRequest p => [{ s.toPort p 0 0 5 none with plain := true }]
  | .quiet p => [s.toPort p 0 0 5 none]
  | .hostWrite .. | .completion .. | .msix .. | .answer .. | .unavailable | .rail .. | .jtag .. | .flit .. | .forward .. => []

/-! ### Cutting a message into flits (11 R285, R291, R292) -/

/-- Data of each flit: 224 B, and in the last at most 208 B beside the tag; every flit carries some. -/
def flitData : (fuel : Nat) → Bytes → List Bytes
  | 0, _ => []
  | k + 1, l =>
    if l.length ≤ 208 then [l]
    else
      let n := min 224 (l.length - 1)
      l.take n :: flitData k (l.drop n)

/-- The header of a flit (11 Table 11.5): `i` the data that went before it. -/
def Packet.header (p : Packet) (src : NodeId) (first last : Bool) (len i : Nat) : Nat :=
  p.dst.toNat * 2 ^ 112 + src.toNat * 2 ^ 96 + p.tag.toNat * 2 ^ 72 + (if p.tag = 0 then 0 else 0xFFF) * 2 ^ 60 + p.vc * 2 ^ 58 +
    p.type * 2 ^ 54 + b2n first * 2 ^ 53 + b2n last * 2 ^ 52 + len * 2 ^ 44 + (if p.type = 1 then p.addr + i else p.addr)

/-- Headers of a message whose data is cut as `l`. -/
def Packet.headers (p : Packet) (src : NodeId) : (first : Bool) → (i : Nat) → List Bytes → List Nat
  | _, _, [] => []
  | first, i, d :: l => p.header src first l.isEmpty d.length i :: p.headers src false (i + d.length) l

/-! ### Keys (11 R312, R313; 13 R355, R356) -/

/-- The number of the per-link key under which a message leaves its port; none for one that goes as it is: in plain (13 R354, 15 R403), or
under a job key. -/
def State.packetLink (s : State) (p : Packet) : Option Nat := if p.type = 8 ∨ p.plain then none else s.linkNo p.tag

/-- The job key of a tag, for a message of no per-link key. -/
def State.jobKeyFor (s : State) (p : Packet) : Option Bytes :=
  if p.tag = 0 then none else (s.sec.jobKeys.find? fun e => e.1 == p.tag).map (·.2)

/-- What protects a message under a job key: key and nonce, and the state after its counter has advanced. The two ends go on to the next
epoch together, by a KEY message (11 R313). -/
def State.useKey (s : State) (p : Packet) (key : Bytes) : Bytes × Bytes × State :=
  let l := s.sec.jobCounts
  let c := countIn l p.tag p.dst
  let s := ({ s with sec := { s.sec with jobCounts := countOn l p.tag p.dst } } : State).jobEpoch l p.tag p.dst
  (kdf (key ++ leBytes 2 s.lnk.node.toNat ++ leBytes 2 p.dst.toNat ++ leBytes 2 c.1) 32,
    leBytes 2 s.lnk.node.toNat ++ leBytes 2 c.1 ++ leBytes 8 c.2,
    if c.2 + 1 = 2 ^ 39 then s.emit (.jobRekey p.dst p.tag (c.1 + 1)) else s)

/-- 1,792 bits of payload that the spec does not give: free values (log 3). -/
def State.freshPayload (s : State) : Nat × State :=
  (List.range 4).foldl (fun (a : Nat × State) i =>
    let v := a.2.fresh
    (a.1 + v.1.toNat % 2 ^ 448 * 2 ^ (448 * i), v.2)) (0, s)

/-- Data whose layout the spec does not give: a free length and free bytes (log 3). -/
def State.freeData (s : State) : Bytes × State :=
  let n := s.fresh
  let r := n.2.freshPayload
  (fitBytes (n.1.toNat % 208 + 1) (leBytes 208 r.1), r.2)

/-- One flit: header, payload, and in the last flit the tag; what lies between data and tag is free. -/
def packFlit (h : Nat) (data tag : Bytes) (pad : Nat) : BitVec 2048 :=
  let n := setFld pad 0 (8 * data.length) (leNat data)
  let n := if tag.isEmpty then n else setFld n (8 * 208) 128 (leNat tag)
  BitVec.ofNat 2048 (n % 2 ^ 1792 * 2 ^ 256 + h)

/-- The flits of a message with ciphertext and tag. -/
def packFlits (hs : List Nat) (ds : List Bytes) (tag : Bytes) (pad : Nat) : List (BitVec 2048) :=
  (hs.zip ds).zipIdx.map fun e => packFlit e.1.1 e.1.2 (if e.2 + 1 = hs.length then tag else []) pad

/-- Cuts text as the data was cut. -/
def cutLike : List Bytes → Bytes → List Bytes
  | [], _ => []
  | d :: l, t => t.take d.length :: cutLike l (t.drop d.length)

/-- The data of a message, free where the spec gives its type no layout. -/
def State.dataOf (s : State) (p : Packet) : Bytes × State :=
  match p.data with
  | some l => (l, s)
  | none => s.freeData

/-- The data of a message as they wait at the port, and their tag: encrypted under its job key with its headers as additional data (11
R312), free where this node holds no key for it; plain, with a zero tag, where a per-link key is applied as the flits leave, and where
the message goes in plain (13 R354, 15 R403). -/
def State.protect (s : State) (p : Packet) (hs : List Nat) (l : Bytes) : Bytes × Bytes × State :=
  if p.type = 8 ∨ p.plain ∨ (s.linkNo p.tag).isSome then (l, List.replicate 16 0, s)
  else
    match s.jobKeyFor p with
    | none =>
      let f := s.freshPayload
      (fitBytes l.length (leBytes 208 f.1), fitBytes 16 (leBytes 224 f.1 |>.drop 208), f.2)
    | some key =>
      let k := s.useKey p key
      let c := fitBytes (l.length + 16) (Config.gcmSeal k.1 k.2.1 (hs.flatMap (leBytes 16)) l)
      (c.take l.length, c.drop l.length, k.2.2)

/-- Flits of a message that needs no key go ahead of those of this node's messages on VC0 that wait for one and have not begun: `on`, one
is under way. -/
def putPlain (fs : List TxFlit) : (on : Bool) → List TxFlit → List TxFlit
  | _, [] => fs
  | on, e :: l =>
    if e.src.isSome ∨ hdrVc e.flit ≠ 0 then e :: putPlain fs on l
    else if on ∨ e.link.isNone then e :: putPlain fs (!hdrLast e.flit) l
    else fs ++ e :: l

/-- Flits join those that wait at a port. -/
def Port.enqueue (x : Port) (plain : Bool) (fs : List TxFlit) : Port :=
  if plain then { x with txQ := putPlain fs (x.mid.getD 0 none == some none) x.txQ } else { x with txQ := x.txQ ++ fs }

/-- A message becomes flits that wait at its port: its data protected, the tag at the end of the last flit (11 R292, R312). -/
def State.sendPacket (s : State) (p : Packet) : State :=
  let d := s.dataOf p
  let ds := flitData 18 d.1
  let hs := p.headers d.2.lnk.node true 0 ds
  let r := d.2.protect p hs d.1
  let pad := r.2.2.freshPayload
  let fs := (packFlits hs (cutLike ds r.1) r.2.1 pad.1).map fun f => (⟨none, f, s.packetLink p, false⟩ : TxFlit)
  pad.2.modPort p.port.val fun x => x.enqueue (p.type == 8 || p.plain) fs

/-! ### The tick -/

/-- Entries of the outbox become flits in order. -/
def State.cutOut (s : State) : (l : List Out) → State
  | [] => s
  | o :: l => ((foldS s (s.packets o) fun s p => s.sendPacket p).setLnk fun x => { x with cut := x.cut + 1 }).cutOut l

/-- A port sends an idle flit when no flit has left it: with what it has to acknowledge and grant (11 R283, R288, R289). -/
def State.idlePort (s : State) (p : PortId) : State :=
  let x := s.port p.val
  let s := if s.portLives p ∧ !x.quiet ∧ !x.said then (s.setPort p.val { x with nakNext := false }).emit (.flit p x.idleFlit) else s
  s.modPort p.val fun x => { x with said := false, vc3Sent := 0 }

/-- The chain ports in one microsecond: own messages are cut into flits, what may leave leaves, idle ports send idle flits. -/
def State.sendTick (s : State) : State :=
  let s := s.cutOut (s.out.drop s.lnk.cut)
  let s := foldS s (List.finRange 12) fun s p => s.drainAll p
  foldS s (List.finRange 12) fun s p => s.idlePort p

end Sys2Proof.Machine
end

