-- ==== Sys2Proof/Machine/Clock.lean ====
section
/-! DEFINITION. Sys2Proof/Machine/Clock.lean: what passes while no command waits. -/

namespace Sys2Proof.Machine

open Sys2Proof

/-- One microsecond of the life clock (14 R387): it counts µs since the last cold start, so it stands still while a cold
reset is held (log 8). The chain ports send what waits, and idle flits (11 R283, R294). -/
def State.tick (s : State) : State :=
  if s.rst.held = .cold then s
  else ({ s with life := { s.life with clock := s.life.clock + 1 } } : State).sendTick

end Sys2Proof.Machine
end

