-- ==== Sys2Proof/Machine/Cfg.lean ====
section
/-! DEFINITION. Sys2Proof/Machine/Cfg.lean: configuration tables (14 R370 to R377), their consistency checks (Table 14.6) and staged commit (R378 to R384). -/

namespace Sys2Proof.Machine

open Sys2Proof

/-! ### Tables (14 Tables 14.3 to 14.5) -/

/-- The kinds that staged commit may replace. -/
def committable (k : Nat) : Bool := [0x1, 0x8, 0x9, 0xA, 0xB, 0xC, 0xD, 0x10].contains k

/-- The entries of a table, `n` bytes each. -/
def entries (n : Nat) : (count : Nat) → Bytes → List Bytes
  | 0, _ => []
  | c + 1, l => l.take n :: entries n c (l.drop n)

/-- A table as entries of `n` bytes. -/
def tableOf (n : Nat) (l : Bytes) : List Bytes := entries n (l.length / n) l

/-- A two's complement temperature. -/
def temp16 (e : Bytes) : Int := (BitVec.ofNat 16 (leAt e 0 2)).toInt

/-- The exact FP32 values of a format's 256 encodings (R376), NaN as the canonical NaN. -/
def convTable (f : Fmt) : Bytes :=
  (List.range 256).flatMap fun b => leBytes 4 (if f.isNanBits b then 0x7FC0_0000 else (f.f32 b).toNat)

/-- A contract entry (Table 14.5). -/
def contractOf (e : Bytes) : Contract where
  domain := BitVec.ofNat 12 (leAt e 0 2)
  servePct := leAt e 2 1
  bulkJobs := leAt e 3 1
  cacheShare := leAt e 4 2
  liveLimit := leAt e 6 2
  pinCount := leAt e 8 1
  pins := (((List.range 16).map fun i => leAt e (32 + 2 * i) 2).take (leAt e 8 1)).filter (· != 0)

/-- The bytes of a range that must be zero are zero. -/
def zeros (l : Bytes) (i n : Nat) : Bool := ((l.drop i).take n).all (· == 0)

/-- Do the entries of a state-machine table define every pair of state and event of a catalogue exactly once, each timer within the
catalogue's bounds (R375)? -/
def catalogued (cat : List (Nat × Nat × Nat × Nat)) (l : List Bytes) : Bool :=
  let pair (e : Bytes) : Nat × Nat := (leAt e 0 1, leAt e 1 1)
  decide (l.map pair).Nodup && (cat.all fun c => l.any fun e => pair e == (c.1, c.2.1)) &&
    l.all fun e => cat.any fun c => pair e == (c.1, c.2.1) && decide (c.2.2.1 ≤ leAt e 8 4) && decide (leAt e 8 4 ≤ c.2.2.2)

/-- The length its kind needs and zero in every reserved byte (check 0x01); the conversion and state-machine tables hold what
R375 and R376 ask. -/
def tableOk (kind inst : Nat) (l : Bytes) : Bool :=
  let whole (n most : Nat) : Bool := l.length % n == 0 && decide (0 < l.length) && decide (l.length ≤ n * most)
  let plain := inst == 0
  match kind with
  | 0x1 => plain && l.length == 64 && zeros l 19 45 && decide (leAt l 18 1 ≤ 1)
  | 0x2 => plain
  | 0x3 => plain && l.length % 8 == 0 && decide (l.length ≤ 512) && (tableOf 8 l).all fun e => leAt e 0 8 % 2 ^ 17 == 0
  | 0x4 => plain && l.length == 48 && (tableOf 4 l).all fun e =>
      leAt e 0 4 % 2 ^ 26 == 0 && decide (leAt e 0 4 / 2 ^ 26 % 16 ≤ 11)
  | 0x5 | 0x6 => plain && whole 16 65536 && catalogued (Config.smCatalogue kind) (tableOf 16 l) &&
      (tableOf 16 l).all fun e => zeros e 3 1 && zeros e 6 2 && zeros e 12 4
  | 0x7 => (inst == 3 && l == convTable .e4m3) || (inst == 4 && l == convTable .e5m2)
  | 0x8 | 0x9 | 0x10 => plain && whole 4 32 && (tableOf 4 l).all fun e => zeros e 3 1
  | 0xA => plain && l.length == 16 && (tableOf 4 l).all fun e => leAt e 0 4 / 2 ^ 28 % 8 == 0
  | 0xB => plain && l.length == 16 && (tableOf 4 l).all fun e => leAt e 0 4 / 2 ^ 28 % 8 == 0 && leAt e 0 4 % 2 ^ 24 == 0
  | 0xC => plain && l.length == 4 && zeros l 3 1
  | 0xD => plain && decide (leAt l 0 2 ≤ 4096) && l.length == 16 + 64 * leAt l 0 2 && zeros l 4 12 &&
      (tableOf 64 (l.drop 16)).all fun e => zeros e 9 23 && decide (leAt e 0 2 ≤ 0xFFF)
  | 0xE => plain && l.length == 512
  | 0xF => decide (1 ≤ inst) && decide (inst ≤ 5) && decide (0 < l.length) && decide (l.length ≤ 65536)
  | _ => false

/-- The codes of the device parameters that no commit changes are those of Table 14.4 (R163 to R167, at a start; R377). -/
def DevParams.codesOk (d : DevParams) : Bool :=
  decide (d.rate ≤ 3) && decide (d.density ≤ 2) && decide (d.ranks ≤ 1) && (decide (d.defaultSlot ≤ 7) || d.defaultSlot == 0xFF)

/-- A class of Table 7.18. -/
def prioOf (e : Bytes) : Prio := ⟨leAt e 3 1 / 128 == 1, leAt e 3 1 % 16, leAt e 2 1, leAt e 0 1, leAt e 1 1⟩

/-- The live tables with one table replaced. -/
def Tables.apply (t : Tables) (kind inst : Nat) (l : Bytes) : Tables :=
  match kind with
  | 0x1 => { t with dev :=
      { rate := leAt l 0 1, density := leAt l 1 1, ranks := leAt l 2 1, defaultSlot := leAt l 3 1, position := leAt l 4 2
        varCache := leAt l 6 2, horizonUs := leAt l 8 4, sweepS := leAt l 12 4, lossMs := leAt l 16 2
        chainReset := leAt l 18 1 % 2 == 1 } }
  | 0x8 => { t with throttle := (tableOf 4 l).map fun e => (leAt e 0 2, leAt e 2 1) }
  | 0x9 => { t with thermal := (tableOf 4 l).map fun e => (temp16 e, leAt e 2 1) }
  | 0xA => { t with prio := (tableOf 4 l).map prioOf }
  | 0xB => { t with slotArb := (tableOf 4 l).map fun e => (leAt e 3 1 / 128 == 1, leAt e 3 1 % 16) }
  | 0xC => { t with vc3Ceiling := leAt l 0 1, vc1Weight := leAt l 1 1, vc2Weight := leAt l 2 1 }
  | 0xD => { t with
      defServePct := leAt l 2 1, defBulkJobs := leAt l 3 1, contracts := (tableOf 64 (l.drop 16)).map contractOf }
  | 0xE => { t with installerKeys := tableOf 64 l }
  | 0xF => { t with ruleCode := t.ruleCode ++ [inst] }
  | 0x10 => { t with fan := (tableOf 4 l).map fun e => (temp16 e, leAt e 2 1) }
  | _ => t

/-! ### Consistency checks (Table 14.6) -/

/-- What is left of the delivered bandwidth once the strict classes have taken their ceilings, and the ceilings, in GB/s
(07 R176, R177). -/
def classCap (p : Prio) : Rat := (1536 * p.ceiling : Nat) / 100

/-- Shares of classes that take turns by their weights, each up to its ceiling, all saturated (07 R176). -/
def shareOut : (fuel : Nat) → (left : Rat) → List (Nat × Prio) → List (Nat × Rat)
  | 0, _, _ => []
  | n + 1, left, l =>
    let w : Rat := (nsum (l.map fun e => e.2.weight) : Nat)
    let part (e : Nat × Prio) : Rat := if w = 0 then 0 else left * (e.2.weight : Nat) / w
    let full := l.filter fun e => decide (classCap e.2 < part e)
    if full.isEmpty then l.map fun e => (e.1, part e)
    else
      full.map (fun e => (e.1, classCap e.2)) ++
        shareOut n (left - (full.map fun e => classCap e.2).sum) (l.filter fun e => !full.contains e)

/-- Bandwidth of P2 under saturation (07 R178). -/
def p2Share (l : List Prio) : Rat :=
  let l := l.zipIdx.map fun e => (e.2, e.1)
  let strict := l.foldl (fun (a : Rat × List (Nat × Rat)) e =>
    if e.2.strict then (a.1 - min a.1 (classCap e.2), (e.1, min a.1 (classCap e.2)) :: a.2) else a) (1340, [])
  let turns := shareOut 4 strict.1 (l.filter fun e => !e.2.strict && e.2.weight != 0)
  let rest := strict.1 - (turns.map (·.2)).sum
  match (strict.2 ++ turns).find? fun e => e.1 == 2 with
  | some e => e.2
  | none => min rest (classCap (l.getD 2 (2, ⟨false, 0, 0, 0, 0⟩)).2)

/-- Check 0x02 (07 R178). -/
def prioOk (l : List Prio) : Bool :=
  let p2 := p2Share l
  let q := l.getD 2 ⟨false, 0, 0, 0, 0⟩
  l.all (fun p => decide (1 ≤ p.ceiling) && decide (p.ceiling ≤ 100)) && decide ((l.headD q).ceiling ≤ 50) &&
    decide ((18 : Rat) * 1340 / 100 ≤ p2) && decide (0 < q.subA) &&
    decide (270 * ((q.subA + q.subB : Nat) : Rat) ≤ p2 * (q.subA : Nat))

/-- Check 0x03 (09 R238, 14 Table 14.5). -/
def State.contractsOk (s : State) (t : Tables) : Bool :=
  let l := t.contracts
  decide (t.defServePct ≤ 100) && decide (t.defBulkJobs ≤ 64) && strictRising (l.map fun e => e.domain.toNat) &&
    (l.all fun e => decide (e.servePct ≤ 100) && decide (e.bulkJobs ≤ 64) && decide (e.cacheShare ≤ 1024) &&
      decide (e.liveLimit ≤ 8192) && decide (e.pinCount ≤ 16) &&
      e.pins.all fun v => (s.var.reg.find? fun r => r.1 == v).all fun r => r.2.domain == e.domain) &&
    decide (nsum (l.map (·.cacheShare)) ≤ t.dev.varCache * 16) && decide (nsum (l.map (·.liveLimit)) ≤ 8192) &&
    decide (nsum (l.map (·.pinCount)) ≤ 512)

/-- Check 0x04 (07 R161). -/
def State.cacheOk (s : State) (t : Tables) : Bool :=
  let new := t.dev.varCache * 16
  let old := s.cfg.live.dev.varCache * 16
  let pinned (c : Nat) : Nat :=
    nsum (s.var.reg.map fun e => if s.isPinned e.1 e.2 then (e.2.cacheParcels.filter fun x => x.1.val == c).length else 0)
  decide (8 ≤ t.dev.varCache) && decide (t.dev.varCache ≤ 64) && decide (nsum (t.contracts.map (·.cacheShare)) ≤ new) &&
    (List.range 64).all fun c =>
      decide (pinned c ≤ new) && (List.range (new - old)).all fun i => s.parcelFree c (2048 - new + i)

/-- Does a relation hold between all neighbours? -/
def stepwise {α : Type} (r : α → α → Bool) : List α → Bool
  | a :: b :: l => r a b && stepwise r (b :: l)
  | _ => true

/-- Check 0x05. -/
def curvesOk (t : Tables) : Bool :=
  let temps (l : List (Int × Nat)) : Bool :=
    stepwise (fun a b => decide (a.1 < b.1) && decide (a.2 ≤ b.2)) l && l.all fun e => decide (e.1 < 1760)
  stepwise (fun a b => decide (b.1 ≤ a.1) && decide (b.2 ≤ a.2)) t.throttle &&
    (t.throttle.all fun e => decide (600 ≤ e.1) && decide (e.1 ≤ 900)) && temps t.thermal && temps t.fan &&
    (t.thermal.all fun e => decide (e.2 < t.throttle.length)) && t.fan.all fun e => decide (e.2 ≤ 100)

/-- Checks 0x02 to 0x07, the first that fails; 0 for none. -/
def State.tablesReason (s : State) (t : Tables) : Nat :=
  let d := t.dev
  if !prioOk t.prio then 0x02
  else if !s.contractsOk t then 0x03
  else if !s.cacheOk t then 0x04
  else if !curvesOk t then 0x05
  else if t.vc3Ceiling < 10 ∨ 90 < t.vc3Ceiling ∨ t.vc1Weight < 1 ∨ 15 < t.vc1Weight ∨ t.vc2Weight < 1 ∨ 15 < t.vc2Weight then
    0x06
  else if d.horizonUs < 100 ∨ 100000 < d.horizonUs ∨ d.sweepS < 60 ∨ 86400 < d.sweepS ∨ d.lossMs < 10 ∨ 1000 < d.lossMs then
    0x07
  else 0

/-- Is a job admitted under an earlier configuration still live (check 0x08)? -/
def State.oldCfgLive (s : State) : Bool := s.liveJobs.any fun j => j.cfgGen != s.cfg.gen

/-- The fields of Table 14.4 that a commit may not change. -/
def DevParams.fixed (d e : DevParams) : Bool :=
  d.rate == e.rate && d.density == e.density && d.ranks == e.ranks && d.defaultSlot == e.defaultSlot && d.position == e.position

/-- The live tables with the staged ones in place. -/
def State.stagedTables (s : State) : Tables := s.cfg.staged.foldl (fun t e => t.apply e.1 0 e.2) s.cfg.live

/-- The checks of Table 14.6 in order, the first that fails; 0 for none. -/
def State.checkReason (s : State) : Nat :=
  if !s.cfg.staged.all fun e => tableOk e.1 0 e.2 then 0x01
  else
    let t := s.stagedTables
    let r := s.tablesReason t
    if r ≠ 0 then r
    else if s.oldCfgLive then 0x08
    else if !s.cfg.staged.all (fun e => committable e.1) ∨ !t.dev.fixed s.cfg.live.dev then 0x09
    else if s.cfg.staged.isEmpty then 0x0A
    else 0

/-! ### Staged commit (R378 to R383) -/

def State.setCfg (s : State) (f : Cfg → Cfg) : State := { s with cfg := f s.cfg }

/-- A refusal: state, reason and CFG_REFUSED. -/
def State.cfgRefuse (s : State) (r : Nat) : State :=
  (s.setCfg fun x => { x with state := if x.state = .committing then .committing else .refused, reason := r }).raise Ev.cfgRefused
    (argReason r)

/-- A staging write voids a check: the state says what is staged. -/
def Cfg.void (x : Cfg) : Cfg :=
  if x.state = .committing then x else { x with state := if x.staged.isEmpty then .none else .staged, reason := 0 }

/-- CFG_STAGE_LOAD (R378, R379): a reserved op, or a length above 1 MiB, is refused with 0x01, a kind that no commit may replace with
0x09; while a load or a commit is under way the write is ignored. -/
def cfgStageLoad (v : W64) (s : State) : State :=
  s.hostReg fun s =>
    let o := bitsOf v 63 60
    let kind := bitsOf v 47 32
    let n := bitsOf v 31 0
    if o = 2 ∨ s.cfg.state = .loading ∨ s.cfg.state = .committing then s
    else if o ≠ 1 ∨ 2 ^ 20 < n then s.cfgRefuse 0x01
    else if !committable kind then s.cfgRefuse 0x09
    else s.setCfg fun x => { x with state := .loading, reason := 0, loading := some (kind, n) }

/-- CFG_STAGE_DMA_DONE (R378): the table replaces an earlier staged copy of its kind; `none`: the DMA failed. -/
def cfgStageDmaDone (data : Option Bytes) (s : State) : State :=
  match s.cfg.loading with
  | none => s
  | some (k, n) =>
    let s := s.setCfg fun x => { x with loading := none }
    match data with
    | some b =>
      if b.length ≠ n then s.cfgRefuse 0x0D
      else s.setCfg fun x => { x with state := .staged, reason := 0, staged := minsert k b (merase k x.staged) }
    | none => s.cfgRefuse 0x0D

/-- CFG_STAGE_DISCARD (R378): every staged table is dropped, a load under way too. -/
def cfgStageDiscard (v : W64) (s : State) : State :=
  s.hostReg fun s =>
    if bitsOf v 63 60 ≠ 2 ∨ s.cfg.state = .committing then s
    else s.setCfg fun x => { x with staged := [], loading := none }.void

/-- CFG_CHECK (R380). -/
def cfgCheck (v : W32) (s : State) : State :=
  s.hostReg fun s =>
    if !bitOf v 0 ∨ s.cfg.state = .loading ∨ s.cfg.state = .committing then s
    else
      let r := s.checkReason
      if r = 0 then s.setCfg fun x => { x with state := .checked, reason := 0 } else s.cfgRefuse r

/-- CFG_COMMIT (R381): the life record, which a ready device has restored, is written with the new generation. -/
def cfgCommit (v : W32) (s : State) : State :=
  s.hostReg fun s =>
    if v ≠ s.cfg.gen then s.cfgRefuse 0x0B
    else if s.cfg.state ≠ .checked then s.cfgRefuse 0x0C
    else if s.oldCfgLive then s.cfgRefuse 0x08
    else (s.setCfg fun x => { x with state := .committing, reason := 0 }).lifeNow (nextGen s.cfg.gen)

/-- The blocks take the live tables (R382): memory classes, slot arbitration, the parcels of the variant cache (07 R161). -/
def State.applyTables (s : State) : State :=
  let arb (k : Nat) : Bool × Nat := s.cfg.live.slotArb.getD k (false, 4)
  let s := { s with mem := { s.mem with prio := s.cfg.live.prio, cachePer := s.cacheParcels } }
  foldS s (List.finRange 64) fun s c => foldS s (List.finRange 4) fun s k =>
    s.modSlot c.val k.val fun y => { y with strict := (arb k.val).1, weight := (arb k.val).2 }

/-- Unpinned copies that reach below a smaller cache are evicted as their references clear (07 R161). -/
def State.shrinkCache (s : State) : State :=
  foldS s s.var.reg fun s e =>
    if !s.isPinned e.1 e.2 ∧ !e.2.evicting ∧ e.2.cacheParcels.any fun x => decide (x.2 < 2048 - s.cacheParcels) then s.nullSpd e.1 e.2
    else s

/-- CFG_COMMIT_INSTANT (R381): once the record is written, the staged tables become live at one instant. -/
def cfgCommitInstant (s : State) : State :=
  if s.cfg.state ≠ .committing ∨ s.life.writing.isSome ∨ !s.life.record.any (fun r => r.lastCfgGen == nextGen s.cfg.gen) then s
  else
    let s := s.setCfg fun x => { x with live := s.stagedTables, staged := [], gen := nextGen x.gen, state := .none, reason := 0 }
    s.applyTables.shrinkCache.raise Ev.cfgCommitted

/-! ### The meanings -/

/-- CFG_STAGE_LOAD (14 R378). -/
def execCfgStageLoad (v : W64) (s : State) : Res := .next (cfgStageLoad v s)
/-- CFG_STAGE_DMA_DONE (14 R378). -/
def execCfgStageDmaDone (data : Option Bytes) (s : State) : Res := .next (cfgStageDmaDone data s)
/-- CFG_STAGE_DISCARD (14 R378). -/
def execCfgStageDiscard (v : W64) (s : State) : Res := .next (cfgStageDiscard v s)
/-- CFG_CHECK (14 R380). -/
def execCfgCheck (v : W32) (s : State) : Res := .next (cfgCheck v s)
/-- CFG_COMMIT (14 R381). -/
def execCfgCommit (v : W32) (s : State) : Res := .next (cfgCommit v s)
/-- CFG_COMMIT_INSTANT (14 R381). -/
def execCfgCommitInstant (s : State) : Res := .next (cfgCommitInstant s)

end Sys2Proof.Machine
end

