-- ==== Sys2Proof/Machine/Ctrl.lean ====
section
/-! DEFINITION. Sys2Proof/Machine/Ctrl.lean: CTRL instructions (05 R118 to R120) and the completion of instructions and streams (05 R118, R124). -/

namespace Sys2Proof.Machine

open Sys2Proof

/-- Updates the issuing slot. -/
def Env.modSlot (e : Env) (s : State) (f : Slot → Slot) : State := s.modSlot e.c.val e.k.val f

def nopBody (_e : Env) (s : State) : Ans := .ok s

/-- END: the slot issues nothing more and drains (05 R118, Table 5.12). -/
def endBody (e : Env) (s : State) : Ans := .ok (e.modSlot s fun y => { y with state := .draining, wait := .none })

/-- First byte after a loop's body. -/
def Loop.stop (l : Loop) : Nat := l.first + 16 * l.len

/-- BR: PC = PC + 16 × offset; the target lies inside the innermost active body (05 R119). -/
def brBody (e : Env) (s : State) : Ans :=
  let off := sext 32 (e.f 111 80)
  let target : Int := (e.y.pc.toNat : Int) + 16 * off
  let ok := match e.y.loops with
    | [] => true
    | l :: _ => decide ((l.first : Int) ≤ target) && decide (target < l.stop)
  if !ok then .fail { code := Ev.seqLoop }
  else .jump (e.modSlot s fun y => { (y.noteFirst s.life.clock).unstall with pc := BitVec.ofInt 48 target })

/-- LOOP (05 R118, R119): a count of 0 skips the body; at most four levels, each inside the one around it. -/
def loopBody (e : Env) (s : State) : Ans :=
  let n := e.y.rx (e.f 111 108)
  let first := e.y.pc.toNat + 16
  let l : Loop := ⟨first, e.f 103 88, n, 0, e.f 107 104⟩
  let inside := match e.y.loops with
    | [] => true
    | o :: _ => decide (l.stop ≤ o.stop)
  if !inside then .fail { code := Ev.seqLoop }
  else if n = 0 then .jump (e.modSlot s fun y => (y.noteFirst s.life.clock).unstall.goTo l.stop)
  else if 4 ≤ e.y.loops.length then .fail { code := Ev.seqLoop }
  else
    .jump (e.modSlot s fun y =>
      { ((y.noteFirst s.life.clock).unstall.setX (e.f 107 104) 0) with pc := BitVec.ofNat 48 first, loops := l :: y.loops })

def setxBody (e : Env) (s : State) : Ans :=
  .ok (e.modSlot s fun y => y.setX (e.f 111 108) (BitVec.ofNat 32 (e.f 95 64)))

def addxBody (e : Env) (s : State) : Ans :=
  .ok (e.modSlot s fun y =>
    y.setX (e.f 111 108) (BitVec.ofNat 32 (e.y.rx (e.f 107 104) + e.y.rx (e.f 103 100) + e.f 95 64)))

def mulxBody (e : Env) (s : State) : Ans :=
  .ok (e.modSlot s fun y => y.setX (e.f 111 108) (BitVec.ofNat 32 (e.y.rx (e.f 107 104) * e.f 95 64)))

/-- A load through the M address of [63:32]: it waits for earlier writes of the slot (05 R120, R124). -/
def Env.load (e : Env) (s : State) (len : Nat) (k : Nat → State → Ans) : Ans :=
  .of (mAddr s e.c e.y (e.f 63 32) len len) fun a =>
    if e.y.hazard [a.rng len false] none then .stall
    else
      .of (poisonCheck s e.req a len) fun _ =>
      .after (spdParity s e.who [(a, len)] e.readBad) fun s =>
        let r := s.load e.who a len
        k (leNat r.1) r.2

/-- PTEST writes its predicate (05 R120). -/
def Env.setPd (e : Env) (s : State) (v : Bool) : Ans := .ok (e.modSlot s fun y => y.setP (e.f 111 109) v)

def ptestOccupancyBody (e : Env) (s : State) : Ans := e.load s 4 fun v s => e.setPd s (v.testBit (e.f 4 0))
def ptestRouterCountBody (e : Env) (s : State) : Ans := e.load s 4 fun v s => e.setPd s (decide (e.f 31 0 < v))
def ptestBelowBody (e : Env) (s : State) : Ans :=
  e.setPd s (decide (e.y.rx (e.f 103 100) < e.y.rx (e.f 99 96)))
def ptestEqualBody (e : Env) (s : State) : Ans := e.setPd s (decide (e.y.rx (e.f 103 100) = e.f 31 0))
def ptestAndBody (e : Env) (s : State) : Ans := e.setPd s (e.y.rp (e.f 102 100) && e.y.rp (e.f 98 96))
def ptestOrBody (e : Env) (s : State) : Ans := e.setPd s (e.y.rp (e.f 102 100) || e.y.rp (e.f 98 96))

/-- LDTD: 8 B into a tile register. -/
def ldtdBody (e : Env) (s : State) : Ans :=
  e.load s 8 fun v s => .ok (e.modSlot s fun y => { y with t := mset 0 y.t (e.f 111 106) (BitVec.ofNat 64 v) })
/-- LDBASE: bits [47:0] of 8 B into b1 to b7. -/
def ldbaseBody (e : Env) (s : State) : Ans :=
  e.load s 8 fun v s => .ok (e.modSlot s fun y => { y with b := mset 0 y.b (e.f 111 109) (BitVec.ofNat 48 v) })
/-- LDSCL: bits [47:0] of 8 B into s1 to s31. -/
def ldsclBody (e : Env) (s : State) : Ans :=
  e.load s 8 fun v s => .ok (e.modSlot s fun y => { y with s := mset 0 y.s (e.f 111 107) (BitVec.ofNat 48 v) })
/-- LDX: 4 B into a scalar register. -/
def ldxBody (e : Env) (s : State) : Ans :=
  e.load s 4 fun v s => .ok (e.modSlot s fun y => y.setX (e.f 111 108) (BitVec.ofNat 32 v))

/-! ### Completion -/

/-- INSTR_COMPLETE (05 R124): a MOVE or ROUTE reaches its completion point, frees its ranges and signals its semaphore. -/
def instrComplete (c : CId) (k : SId) (id : Nat) (s : State) : State :=
  let y := s.slot c.val k.val
  match y.out.find? fun o => o.id == id && (o.kind == .move || o.kind == .route) with
  | none => s
  | some o =>
    let s := s.modSlot c.val k.val fun y => { y with out := y.out.filter fun o => o.id != id }
    match o.sem with
    | none => s
    | some r => (s.signalTo y.tag r 1 (BitVec.ofNat 8 k.val)).noteRemote c k y.tag r id

/-- STREAM_END (05 R118): a slot that drains and has nothing outstanding becomes idle. -/
def streamEnd (c : CId) (k : SId) (s : State) : State :=
  let y := s.slot c.val k.val
  if y.state = .draining ∧ y.out = [] then s.slotIdle c k else s

/-- NOP (05 R118). -/
def execNop (i : Issue) (s : State) : Res := .next (s.issue i (rowCode 5 0 0) nopBody)
/-- END (05 R118). -/
def execEndOp (i : Issue) (s : State) : Res := .next (s.issue i (rowCode 5 1 0) endBody)
/-- BR (05 R119). -/
def execBr (i : Issue) (s : State) : Res := .next (s.issue i (rowCode 5 2 0) brBody)
/-- LOOP (05 R119). -/
def execLoopOp (i : Issue) (s : State) : Res := .next (s.issue i (rowCode 5 3 0) loopBody)
/-- SETX (05 R118). -/
def execSetx (i : Issue) (s : State) : Res := .next (s.issue i (rowCode 5 4 0) setxBody)
/-- ADDX (05 R118). -/
def execAddx (i : Issue) (s : State) : Res := .next (s.issue i (rowCode 5 5 0) addxBody)
/-- MULX (05 R118). -/
def execMulx (i : Issue) (s : State) : Res := .next (s.issue i (rowCode 5 6 0) mulxBody)
/-- PTEST kind 0b000 (05 R120). -/
def execPtestOccupancy (i : Issue) (s : State) : Res := .next (s.issue i (rowCode 5 7 0) ptestOccupancyBody)
/-- PTEST kind 0b001 (05 R120). -/
def execPtestRouterCount (i : Issue) (s : State) : Res := .next (s.issue i (rowCode 5 7 1) ptestRouterCountBody)
/-- PTEST kind 0b010 (05 R120). -/
def execPtestBelow (i : Issue) (s : State) : Res := .next (s.issue i (rowCode 5 7 2) ptestBelowBody)
/-- PTEST kind 0b011 (05 R120). -/
def execPtestEqual (i : Issue) (s : State) : Res := .next (s.issue i (rowCode 5 7 3) ptestEqualBody)
/-- PTEST kind 0b100 (05 R120). -/
def execPtestAnd (i : Issue) (s : State) : Res := .next (s.issue i (rowCode 5 7 4) ptestAndBody)
/-- PTEST kind 0b101 (05 R120). -/
def execPtestOr (i : Issue) (s : State) : Res := .next (s.issue i (rowCode 5 7 5) ptestOrBody)
/-- LDTD (05 R118). -/
def execLdtd (i : Issue) (s : State) : Res := .next (s.issue i (rowCode 5 8 0) ldtdBody)
/-- LDBASE (05 R106, R118). -/
def execLdbase (i : Issue) (s : State) : Res := .next (s.issue i (rowCode 5 9 0) ldbaseBody)
/-- LDSCL (05 R118). -/
def execLdscl (i : Issue) (s : State) : Res := .next (s.issue i (rowCode 5 10 0) ldsclBody)
/-- LDX (05 R118). -/
def execLdx (i : Issue) (s : State) : Res := .next (s.issue i (rowCode 5 11 0) ldxBody)
/-- INSTR_COMPLETE (05 R124). -/
def execInstrComplete (c : CId) (k : SId) (id : Nat) (s : State) : Res := .next (instrComplete c k id s)
/-- STREAM_END (05 R118). -/
def execStreamEnd (c : CId) (k : SId) (s : State) : Res := .next (streamEnd c k s)

end Sys2Proof.Machine
end

