-- ==== Sys2Proof/Machine/Events.lean ====
section
/-! DEFINITION. Sys2Proof/Machine/Events.lean: the end of a merge window (17 R441), the host mirror of the event ring (17 R440, R442, 12 R448). -/

namespace Sys2Proof.Machine

open Sys2Proof

/-- An event record as the 32 bytes of 17 Table 17.2, with the phase of its mirror pass. -/
def EvRec.bytes (r : EvRec) (phase : Bool) : Bytes :=
  leBytes 2 r.code.toNat ++ leBytes 2 r.node.toNat ++ leBytes 1 (b2n phase + 2 * b2n r.lost) ++ leBytes 1 r.unit.toNat ++
    leBytes 1 r.sub.toNat ++ leBytes 1 r.repeats ++ leBytes 8 r.lifeUs.toNat ++ leBytes 3 r.tag.toNat ++ leBytes 1 0 ++
    leBytes 2 r.domain.toNat ++ leBytes 2 r.aux.toNat ++ leBytes 8 r.arg.toNat

/-- The record of a window that ends: the first merged raise, with the number merged (17 R441). -/
def EvWindow.closing (w : EvWindow) : Option EvRec := w.merged.map fun r => { r with repeats := min w.count 255 }

/-- EVENT_MERGE_WINDOW (17 R441): the oldest 1 ms window of that key ends. -/
def eventMergeWindow (code : W16) (unit sub : Byte) (tag : Tag) (s : State) : State :=
  let hit (w : EvWindow) : Bool :=
    w.key.code == code && w.key.unit == unit && w.key.sub == sub && w.key.tag == tag
  match s.evt.windows.find? hit with
  | none => s
  | some w =>
    let s := { s with evt := { s.evt with windows := s.evt.windows.erase w } }
    match w.closing with
    | none => s
    | some r =>
      let e := s.evt.write r
      let just := e.lost == BitVec.allOnes 64 && s.evt.lost != BitVec.allOnes 64
      ({ s with evt := e }).satEvent just 0 offEvtLost

/-- Vector 16 of the physical function for one copied record, coalesced as EVT_CFG says (17 R442, 12 R448). -/
def State.signalMirror (s : State) : State :=
  let e := s.evt
  if e.coalCount = 0 ∨ e.coalCount ≤ e.gathered + 1 then ({ s with evt := { e with gathered := 0 } }).signalVector 0 16
  else { s with evt := { e with gathered := e.gathered + 1 } }

/-- Has the mirror a free slot (17 R442, Table 17.7)? -/
def Evt.mirrorFree (e : Evt) : Bool := decide ((e.tail - e.head).toNat < 2 ^ e.hostLog2)

/-- EVENT_MIRROR (17 R442): the oldest record of the ring goes to the mirror in one host write. -/
def eventMirror (s : State) : State :=
  match s.evt.ring with
  | [] => s
  | r :: l =>
    let e := s.evt
    if s.rst.held ≠ .none ∨ bitOf s.rst.blockAct 16 ∨ !e.enable ∨ !e.ringReady ∨ !e.mirrorFree then s
    else
      let size := 2 ^ e.hostLog2
      let phase := e.tail.toNat / size % 2 == 0
      let at' := e.hostBase + BitVec.ofNat 64 (32 * (e.tail.toNat % size))
      let s := ({ s with evt := { e with ring := l, tail := e.tail + 1 } }).emit (.hostWrite at' (r.bytes phase))
      if e.irqSev ≤ Ev.severity r.code then s.signalMirror else s

/-- EVT_IDX_HEAD (17 Table 17.7, 15 R409). -/
def evtIdxHead (v : W32) (s : State) : State := s.hostReg fun s => { s with evt := { s.evt with head := v } }

/-- EVENT_MERGE_WINDOW (17 R441). -/
def execEventMergeWindow (code : W16) (unit sub : Byte) (tag : Tag) (s : State) : Res :=
  .next (eventMergeWindow code unit sub tag s)
/-- EVENT_MIRROR (17 R442). -/
def execEventMirror (s : State) : Res := .next (eventMirror s)
/-- EVT_IDX_HEAD (17 R442). -/
def execEvtIdxHead (v : W32) (s : State) : Res := .next (evtIdxHead v s)

end Sys2Proof.Machine
end

