-- ==== Sys2Proof/Machine/Mma.lean ====
section
/-! DEFINITION. Sys2Proof/Machine/Mma.lean: accumulation groups (03): open, accumulate, side pass, close, the chunk in the arrays with its promotion, the epilogue. -/

namespace Sys2Proof.Machine

open Sys2Proof

/-! ### The group descriptor (03 Table 3.6) -/

/-- A field of the 1,024-bit descriptor. -/
def GrpDesc.f (d : GrpDesc) (hi lo : Nat) : Nat := bitsOf d.raw hi lo

def GrpDesc.int (d : GrpDesc) : Bool := d.f 75 72 == 8
def GrpDesc.accFmt (d : GrpDesc) : Fmt := if d.int then .int32 else .fp32
def GrpDesc.rows (d : GrpDesc) : Nat := 32 * (d.f 69 68 + 1 - d.f 71 70)
def GrpDesc.cols (d : GrpDesc) : Nat := 32 * (d.f 64 62 + 1 - d.f 67 65)
def GrpDesc.sparse (d : GrpDesc) : Bool := d.f 80 80 == 1
def GrpDesc.skipEn (d : GrpDesc) : Bool := d.f 81 81 == 1
def GrpDesc.sideEn (d : GrpDesc) : Bool := d.f 82 82 == 1
def GrpDesc.zpEn (d : GrpDesc) : Bool := d.f 83 83 == 1
def GrpDesc.ewOp (d : GrpDesc) : Nat := d.f 85 84
def GrpDesc.scl (d : GrpDesc) : Nat := d.f 87 86
def GrpDesc.outEn (d : GrpDesc) : Bool := d.f 100 100 == 1
def GrpDesc.occEn (d : GrpDesc) : Bool := d.f 101 101 == 1
def GrpDesc.topkEn (d : GrpDesc) : Bool := d.f 102 102 == 1
def GrpDesc.topkK (d : GrpDesc) : Nat := d.f 108 103 + 1
def GrpDesc.topkBase (d : GrpDesc) : Nat := d.f 351 320
def GrpDesc.doneSem (d : GrpDesc) (node : NodeId) (c : CId) : Option SemRef :=
  if d.f 109 109 = 1 then some ⟨node, c, d.f 119 110⟩ else none
/-- Chunk length C (03 Table 3.2). -/
def GrpDesc.chunkLen (d : GrpDesc) : Nat := 32 * 2 ^ d.f 78 76
/-- Conversion control; checked at open. -/
def GrpDesc.conv (d : GrpDesc) : ConvCtl :=
  (ConvCtl.decode (d.f 99 88)).getD ⟨.fp32, false, false, false, false, false⟩

def GrpDesc.rowScale (d : GrpDesc) : Option Addr := ptrAddr (d.f 767 720)
def GrpDesc.colScale (d : GrpDesc) : Option Addr := ptrAddr (d.f 719 672)
def GrpDesc.amax (d : GrpDesc) : Option Addr := ptrAddr (d.f 671 624)
def GrpDesc.zp (d : GrpDesc) : Option Addr := ptrAddr (d.f 623 576)
def GrpDesc.rescale (d : GrpDesc) : Option Addr := ptrAddr (d.f 575 528)
def GrpDesc.topk (d : GrpDesc) : Option Addr := ptrAddr (d.f 527 480)
def GrpDesc.occ (d : GrpDesc) : Option Addr := ptrAddr (d.f 479 432)
def GrpDesc.sideSum (d : GrpDesc) : Option Addr := ptrAddr (d.f 431 384)

/-- The side partial-sum tile: FP32, rows packed (03 Table 3.6). -/
def GrpDesc.sideTile (d : GrpDesc) : Option Tile :=
  if d.sideEn then d.sideSum.map fun a => ⟨.fp32, a, d.rows, d.cols, 4 * d.cols, 0⟩ else none

/-- Is the conversion input an integer (03 R71, Table 3.8)? -/
def GrpDesc.intInput (d : GrpDesc) : Bool := d.int && (d.scl == 2 || (d.scl == 0 && !d.sideEn))

/-- Does the conversion use the rescale record's zero point (02 R37)? -/
def GrpDesc.usesRescale (d : GrpDesc) : Bool := d.scl == 2 || d.sideEn || (d.conv.zpEn && d.rescale.isSome)

/-- A tile as one that an overlap or identity is judged by. -/
def Tile.same (a b : Tile) : Bool :=
  a.fmt == b.fmt && a.addr == b.addr && a.rows == b.rows && a.cols == b.cols && a.pitch == b.pitch
def Tile.overlaps (a b : Tile) : Bool := (a.rng true).conflict (b.rng true)

/-- A pointer of an enabled stage: present, aligned, inside its space. -/
def ptrOk (s : State) (p : Option Addr) (align : Nat) : Bool :=
  match p with
  | none => false
  | some a => a.a % align == 0 && s.inSpace a 1

/-- Reserved encodings of the descriptor (03 R71, R9). -/
def GrpDesc.reservedOk (d : GrpDesc) : Bool :=
  d.f 319 120 == 0 && d.f 61 0 == 0 && decide (d.f 78 76 ≤ 4) && (d.f 75 72 == 0 || d.f 75 72 == 8) &&
  d.scl != 3 && d.ewOp != 3 && (ConvCtl.decode (d.f 99 88)).isSome &&
  ([1020, 956, 892, 828].all fun b => (Fmt.ofCode (d.f (b + 3) b)).isSome) &&
  ([720, 672, 624, 576, 528, 480, 432, 384].all fun b => (ptrDecode (d.f (b + 47) b)).isSome)

/-- The checks of 03 R71 that need the target tile; all true for a legal descriptor. The spec lists no formats for the
element-wise operand: every format but the run format is taken, INT4 and the compensated pair too (DESIGN CHOICE, log 13). It
names no refusal for scl = 0b10 with a conversion that breaks R78: it is checked here with the rest (DESIGN CHOICE, log 13). -/
def GrpDesc.checks (s : State) (c : CId) (others : List Tile) (d : GrpDesc) : List Bool :=
  let t := d.target
  let cv := d.conv
  [ !t.addr.dev && spdCluster t.addr.a == c.val && t.fmt == d.accFmt,
    decide (d.topkBase + t.cols ≤ 2 ^ 24),
    t.rows == d.rows && t.cols == d.cols && decide (d.f 71 70 ≤ d.f 69 68) && decide (d.f 67 65 ≤ d.f 64 62),
    others.all fun o => !t.overlaps o,
    (match d.out with
     | some o => !d.outEn || ((!o.overlaps t || (o.same t && (o.fmt == .fp32 || o.fmt == .int32))) &&
         o.rows == t.rows && o.cols == t.cols && o.fmt == cv.dst)
     | none => !d.outEn),
    (match d.init with
     | some i => i.fmt == t.fmt && i.rows == t.rows && i.cols == t.cols
     | none => d.f 79 79 == 0),
    (match d.ew with
     | some x => !d.int && x.scl == 0 && x.rows == t.rows && x.cols == t.cols && x.fmt != .run
     | none => d.ewOp == 0),
    !d.sideEn || (d.int && d.scl != 2),
    d.scl != 2 || (d.int && (cv.dst == .int8 || cv.dst == .uint8 || cv.dst == .int32) && !cv.zpEn && !cv.stoch),
    !cv.amaxEn || (!d.intInput && ptrOk s d.amax 16),
    !d.topkEn || ptrOk s d.topk 8,
    !d.zpEn || (d.int && ptrOk s d.zp 32),
    !d.occEn || ptrOk s d.occ 4,
    !d.sideEn || ptrOk s d.sideSum 64,
    !d.usesRescale || ptrOk s d.rescale 16,
    d.scl != 1 || d.rowScale.isNone || ptrOk s d.rowScale 1,
    d.scl != 1 || d.colScale.isNone || ptrOk s d.colScale 1 ]

/-- The tiles of a descriptor, resolved with the slot's base registers. -/
def grpDesc (s : State) (e : Env) (b : Bytes) : Option GrpDesc :=
  let raw := BitVec.ofNat 1024 (leNat b)
  let tile (hi lo : Nat) : Option Tile :=
    match tileOf s e.c e.y (bitsOf raw hi lo) 0 with
    | .ok t => some t
    | .error _ => none
  match tile 1023 960 with
  | none => none
  | some t =>
    let d : GrpDesc := ⟨raw, t, none, none, none⟩
    some { d with
      init := if d.f 79 79 = 1 then tile 959 896 else none
      out := if d.outEn then tile 895 832 else none
      ew := if d.ewOp ≠ 0 then tile 831 768 else none }

/-- An element-wise or output tile that the group uses and that does not resolve leaves its field empty (03 R71). -/
def GrpDesc.legal (s : State) (c : CId) (others : List Tile) (d : GrpDesc) : Bool :=
  d.reservedOk && (d.checks s c others).all id

/-- ACC events carry the group. -/
def accFail (code : W16) (g : GId) : Fail := { code := code, sub := some g.val }

/-! ### Replays (03 R83, R84) -/

/-- Group g holds no arrays. -/
def State.freeArrays (s : State) (c : CId) (g : GId) : State :=
  s.modClu c.val fun x => { x with owners := x.owners.filter (· != g) }

/-- One replay or repeat: ACC_REPLAY, the group's count, the life counter. -/
def State.accReplay (s : State) (c : CId) (g : GId) (t : Tag) (a : Addr) : State :=
  ((s.modGroup c.val g.val fun x => { x with replays := if x.replays = 255 then 255 else x.replays + 1 }).raiseJob t
    Ev.accReplay { unit := BitVec.ofNat 8 c.val, sub := BitVec.ofNat 8 g.val, arg := BitVec.ofNat 64 (Addr.ptr a) }).bumpLife 5

/-- A second parity error poisons the group and ends its job; what its slot has issued to it runs no further, and it stays
poisoned until its job has ended (03 R68). The arrays go to others once the job is stopped. -/
def State.accPoison (s : State) (c : CId) (g : GId) (t : Tag) (a : Addr) : State :=
  let k := (s.group c.val g.val).slot
  let s := (s.freeArrays c g).modGroup c.val g.val fun x => { x with state := .poisoned, chunks := [], dying := false }
  let s := s.modSlot c.val k.val fun y => if y.tag = t then { y with out := y.out.filter fun o => o.group != some g } else y
  s.stopThenGrant c t fun s => s.faultJob t Ev.accPoison
    { unit := BitVec.ofNat 8 c.val, sub := BitVec.ofNat 8 g.val, arg := BitVec.ofNat 64 (Addr.ptr a) }

/-- Reads of a group with how often each failed: a first failure repeats the read, a second one of the same read poisons the
group and ends the reads. -/
def State.accReads (s : State) (c : CId) (g : GId) (t : Tag) (reads : List (Addr × Nat)) (bad : List Nat) :
    State × Option Fail :=
  parityReads (fun s a => s.accReplay c g t a) (fun s a => (s.accPoison c g t a, some (accFail Ev.accPoison g))) s
    (failures reads bad)

/-! ### Open (03 R69 to R72) -/

/-- Sets the target, and the side sum, at open (03 R72). -/
def State.openTiles (s : State) (w : Who) (d : GrpDesc) : State :=
  let zero (s : State) (t : Tile) : State :=
    foldS s (List.range t.rows) fun s i => s.putRow w t i (List.replicate t.cols 0)
  let s' := match d.init with
    | none => zero s d.target
    | some i =>
      if i.same d.target then s
      else foldS s (List.range i.rows) fun t k => t.putRow w d.target k (s.tileRow w.req i k)
  match d.sideTile with
  | some t => zero s' t
  | none => s'

/-- The bytes an OPEN touches besides its descriptor (05 R124). -/
def GrpDesc.openRngs (d : GrpDesc) : List Rng :=
  d.target.rng true :: ((d.init.toList.map (·.rng false)) ++ (d.sideTile.toList.map (·.rng true)))

/-- Targets of the open groups of the cluster. -/
def Cluster.targets (x : Cluster) : List Tile :=
  x.groups.filterMap fun e => if e.2.state = .opened then e.2.desc.map (·.target) else none

/-- 05 R113, 03 R71, R72: MMA OPEN. Its reads are the descriptor, checked as scratchpad is (07 R162), then the rows of
init_tile, checked by the arrays (03 R83, R84). The row sums r_i of 02 R49 start at 0, also where init_tile resumes an earlier partial
sum: the spec does not say that they resume (DESIGN CHOICE, log 13). -/
def mmaOpenBody (e : Env) (s : State) : Ans :=
  let g : GId := ⟨e.f 111 108 % 16, Nat.mod_lt _ (by decide)⟩
  .of (mAddr s e.c e.y (e.f 107 76) 128 1) fun a =>
    if a.a % 64 ≠ 0 ∨ a.dev ∨ spdCluster a.a ≠ e.c.val ∨ spdCluster (a.a + 127) ≠ e.c.val then
      .fail (accFail Ev.accDescBad g)
    else if (s.group e.c.val g.val).state ≠ .free then .fail (accFail Ev.accOpenBusy g)
    else if e.y.hazard [a.rng 128 false] none then .stall
    else
      let r := s.load e.who a 128
      let bad (s : State) : Ans := .after (spdParity s e.who [(a, 128)] (e.readBad.take 1)) fun _ => .fail (accFail Ev.accDescBad g)
      match grpDesc s e r.1 with
      | none => bad r.2
      | some d =>
        if !d.legal s e.c (s.clu e.c.val).targets then bad r.2
        else
          .of (semCheck s e.job (d.doneSem s.lnk.node e.c)) fun _ =>
            if e.y.crowded d.openRngs.length ∨ e.y.hazard d.openRngs none then .stall
            else
              .after (spdParity r.2 e.who [(a, 128)] (e.readBad.take 1)) fun s =>
                let grp : Group := { state := .opened, slot := e.k, tag := e.job.tag, desc := some d }
                match d.init with
                | none => .ok ((s.setGroup e.c.val g.val grp).openTiles e.who d)
                | some t =>
                  .of (poisonAll s e.req t.reads) fun _ =>
                    let x := ((s.noteReads e.who t.reads).setGroup e.c.val g.val grp).accReads e.c g e.job.tag t.reads
                      (e.readBad.drop 1)
                    .ok (if x.2.isSome then x.1 else x.1.openTiles e.who d)

/-! ### Accumulate and side pass (05 R114, 03 R58, 02 R46) -/

/-- Number of pieces of an operand (02 R46). -/
def Fmt.pieces : Fmt → Nat
  | .fp32 => 3
  | .fp16 => 2
  | _ => 1

/-- The passes over piece pairs in order: ascending i + j, then ascending i (02 R46). -/
def passes (pa pb : Nat) : List (Nat × Nat) :=
  let p := max pa pb
  (List.range p).flatMap fun n =>
    (List.range (n + 1)).filterMap fun i => if i < pa ∧ n - i < pb then some (i, n - i) else none

/-- The chunks of an instruction over K positions, `span` positions each; the last ends the instruction (03 R58, R65). -/
def chunksOf (proto : Chunk) (k span : Nat) : List Chunk :=
  let n := ceilDiv k span
  (List.range n).map fun i =>
    { proto with k0 := i * span, k1 := min ((i + 1) * span) k, last := i + 1 == n }

/-- Operand formats of a group (02 R32, 03 R63, R44). -/
def fmtsOk (d : GrpDesc) (a b : Fmt) : Bool :=
  (if d.int then (a == .uint8 || a == .int8) && (b == .int8 || b == .int4)
   else a.isFloat && b.isFloat && a.okOperand && b.okOperand) &&
  (!d.sparse || ((a == .e4m3 || a == .e5m2 || a == .int8 || a == .uint8) &&
    (b == .e4m3 || b == .e5m2 || b == .int8 || b == .int4))) &&
  (!d.int || b != .int8 || decide (d.chunkLen ≤ 256))

/-- K of an A operand that fits the group; none otherwise (05 R114 check 1). -/
def aLen (d : GrpDesc) (t : Tile) (kcol : Bool) : Option Nat :=
  if kcol then (if t.cols = d.rows then some t.rows else none)
  else if t.rows = d.rows then some t.cols else none

/-- Stored length along K of a B operand that fits the group (05 R114 check 2). -/
def bLen (d : GrpDesc) (t : Tile) (kcol : Bool) : Option Nat :=
  if kcol then (if t.cols = d.cols then some t.rows else none)
  else if t.rows = d.cols then some t.cols else none

/-- The checks of 05 R114 on an accumulate; some K when all pass. -/
def accShape (d : GrpDesc) (a b : Tile) (m o : Option Tile) (aK bK : Bool) : Option Nat :=
  match aLen d a aK, bLen d b bK with
  | some k, some kb =>
    if (if d.sparse then k % 4 = 0 ∧ kb * 2 = k else kb = k) ∧ fmtsOk d a.fmt b.fmt ∧ m.isSome = d.sparse ∧
        (o.isSome → d.skipEn) ∧
        (∀ t ∈ m, t.fmt = .uint8 ∧ t.rows = d.cols ∧ t.cols = ceilDiv k 8) ∧
        (∀ t ∈ o, t.fmt = .int32 ∧ t.rows = 1 ∧ t.cols = ceilDiv k 256) then some k
    else none
  | _, _ => none

/-- An operand reference where 0 means none. -/
def Env.tile? (e : Env) (s : State) (r : Nat) : Except Fail (Option Tile) :=
  if r = 0 then .ok none else (e.tile s r).map some

/-- Is the group open and owned by the issuing slot (03 R73)? `poisoned` for its own poisoned group. -/
inductive Owner where
  | owns (d : GrpDesc)
  | poisoned
  | not

def ownerOf (s : State) (e : Env) (g : GId) : Owner :=
  let x := s.group e.c.val g.val
  if x.slot ≠ e.k ∨ x.tag ≠ e.job.tag then .not
  else
    match x.state, x.desc with
    | .opened, some d => .owns d
    | .poisoned, _ => .poisoned
    | _, _ => .not

/-- Chunks enter the group, whose arrays may be granted at once (05 R127); the instruction stays outstanding until its last is
promoted. -/
def Env.queueChunks (e : Env) (s : State) (g : GId) (rs : List Rng) (l : List Chunk) : Ans :=
  if e.y.crowded rs.length ∨ e.y.hazard rs (some g) then .stall
  else
    let id := e.y.nextId
    let s := s.modGroup e.c.val g.val fun x => { x with chunks := x.chunks ++ l.map fun ch => { ch with id := id } }
    .ok ((s.addOut e .acc rs none (some g)).grantArrays e.c.val)

/-- 05 R114: MMA ACC. -/
def mmaAccBody (e : Env) (s : State) : Ans :=
  let g : GId := ⟨e.f 111 108 % 16, Nat.mod_lt _ (by decide)⟩
  match ownerOf s e g with
  | .not => .fail (accFail Ev.accNotOwner g)
  | .poisoned => .ok s
  | .owns d =>
    .of (e.tile s (e.f 107 98)) fun a =>
    .of (e.tile s (e.f 97 88)) fun b =>
    .of (e.tile? s (e.f 87 78)) fun m =>
    .of (e.tile? s (e.f 77 68)) fun o =>
      let aK := e.f 67 67 == 1
      let bK := e.f 66 66 == 1
      match accShape d a b m o aK bK with
      | none => .fail (accFail Ev.accShape g)
      | some k =>
        let proto : Chunk :=
          { side := false, a := a, b := b, metaT := m, occ := o, aK := aK, bK := bK, k0 := 0, k1 := 0
            passes := if d.int then [(0, 0)] else passes a.fmt.pieces b.fmt.pieces, last := false, id := 0 }
        let rs := [a.rng false, b.rng false, d.target.rng true] ++ (m.toList ++ o.toList).map (·.rng false)
        e.queueChunks s g rs (chunksOf proto k (if d.sparse then 2 * d.chunkLen else d.chunkLen))

/-- An outlier list is well formed (02 R51): 64 entries, the used ones strictly ascending and below K, then 0xFFFF. -/
def outliersOk (o : Outliers) : Bool :=
  let used := o.list.takeWhile (· != 0xFFFF)
  o.list.length == 64 && (o.list.drop used.length).all (· == 0xFFFF) && used.all (fun c => decide (c.toNat < o.k)) &&
    (used.zip (used.drop 1)).all fun e => decide (e.1.toNat < e.2.toNat)

/-- No channel is listed (02 When an outlier list is malformed). -/
def outliersEmpty (o : Outliers) : Bool := o.list.all (· == 0xFFFF)

/-- 05 R114: MMA SIDE. A malformed outlier list ends the job before any step, with ACC_SHAPE (02 R51; the event: log 13); an
empty one leaves no side work. -/
def mmaSideBody (e : Env) (s : State) : Ans :=
  let g : GId := ⟨e.f 111 108 % 16, Nat.mod_lt _ (by decide)⟩
  match ownerOf s e g with
  | .not => .fail (accFail Ev.accNotOwner g)
  | .poisoned => .ok s
  | .owns d =>
    .of (e.tile s (e.f 107 98)) fun a =>
    .of (e.tile s (e.f 97 88)) fun b =>
      let aK := e.f 67 67 == 1
      let bK := e.f 66 66 == 1
      match d.sideTile with
      | none => .fail (accFail Ev.accShape g)
      | some st =>
        if a.fmt ≠ .bf16 ∨ b.fmt ≠ .bf16 ∨ aLen d a aK ≠ some 64 ∨ bLen d b bK ≠ some 64 then
          .fail (accFail Ev.accShape g)
        else if e.outliers.any fun o => !outliersOk o then .fail (accFail Ev.accShape g)
        else if e.outliers.any outliersEmpty then .ok s
        else
          let proto : Chunk :=
            { side := true, a := a, b := b, metaT := none, occ := none, aK := aK, bK := bK, k0 := 0, k1 := 0
              passes := [(0, 0)], last := false, id := 0 }
          e.queueChunks s g [a.rng false, b.rng false, st.rng true] (chunksOf proto 64 d.chunkLen)

/-- The zero-point record (03 Table 3.9): pointers to c, z and w. -/
structure ZpRec where
  c : Option Addr
  z : Option Addr
  w : Option Addr
  ok : Bool

def zpRec (s : State) (r : Req) (d : GrpDesc) : ZpRec :=
  match d.zp with
  | none => ⟨none, none, none, !d.zpEn⟩
  | some a =>
    let b := s.read r a 32
    let p (i : Nat) : Nat := leAt b (8 * i) 8
    let good (i : Nat) : Bool := decide (p i < 2 ^ 48) && (ptrDecode (p i)).isSome
    ⟨ptrAddr (p 0), ptrAddr (p 1), ptrAddr (p 2),
     (ptrAddr (p 0)).isSome && good 0 && good 1 && good 2 && p 3 == 0⟩

/-- The bytes a close reads and writes, the lists of its zero-point record among them. -/
def GrpDesc.closeRngs (d : GrpDesc) (z : ZpRec) : List Rng :=
  let n := d.rows
  let opt (b : Bool) (p : Option Addr) (len : Nat) (w : Bool) : List Rng :=
    if b then p.toList.map (·.rng len w) else []
  d.target.rng true :: (d.sideTile.toList.map (·.rng false)) ++ (d.out.toList.map (·.rng true)) ++
    (d.ew.toList.map (·.rng false)) ++ opt (d.scl == 1) d.rowScale (4 * n) false ++
    opt (d.scl == 1) d.colScale (4 * d.cols) false ++
    opt d.conv.amaxEn d.amax (16 + if d.conv.amaxRow then 4 * n else 0) true ++
    opt d.topkEn d.topk (8 * d.topkK * n) true ++ opt d.occEn d.occ 4 true ++ opt d.zpEn d.zp 32 false ++
    opt d.zpEn z.c (4 * d.cols) false ++ opt d.zpEn z.z (4 * n) false ++ opt d.zpEn z.w (4 * d.cols) false ++
    opt d.usesRescale d.rescale (16 * d.cols) false

/-- 03 R73: MMA CLOSE. The epilogue's stochastic draws come from the generator that the slot holds here, in program order; the spec
does not say whether open, close or the stage takes it (DESIGN CHOICE, log 13). -/
def mmaCloseBody (e : Env) (s : State) : Ans :=
  let g : GId := ⟨e.f 111 108 % 16, Nat.mod_lt _ (by decide)⟩
  match ownerOf s e g with
  | .not => .fail (accFail Ev.accNotOwner g)
  | .poisoned => .ok s
  | .owns d =>
    let rs := d.closeRngs (zpRec s e.req d)
    if e.y.crowded rs.length ∨ e.y.hazard rs (some g) then .stall
    else
      let id := e.y.nextId
      let gen := (s.vctx e.c.val e.k.val).gen
      let s := s.modGroup e.c.val g.val fun x => { x with state := .closing, closeId := id, gen := gen }
      .ok (s.addOut e .closing rs none (some g))

/-! ### A chunk in the arrays (03 R55, R57, R62, R67; 02 R43, R44, R46, R451) -/

/-- Rounds a sum into the run format: to nearest, a tie by `Config.runTieUp` (log 10). -/
def runRound : FVal → Nat
  | .nan => fmtRun.nanBits
  | .inf n => fmtRun.withSign n fmtRun.infMag
  | .fin n m e =>
    let sp := fmtRun.split m e
    let up := decide (sp.range < 2 * sp.rem) || (decide (sp.range = 2 * sp.rem) && Config.runTieUp sp.mant)
    let mag := fmtRun.magBits (sp.mant + b2n up) sp.t
    fmtRun.withSign n (if fmtRun.maxMag < mag then fmtRun.infMag else mag)

/-- Piece i of an operand value: eight bits of its significand from the top (02 R46). -/
def pieceOf (f : Fmt) (v : FVal) (i : Nat) : FVal :=
  match v with
  | .fin n m e =>
    match f with
    | .fp32 => .fin n (fld m (16 - 8 * i) 8) (e + (16 - 8 * i : Nat))
    | .fp16 => if i = 0 then .fin n (fld m 3 8) (e + 3) else .fin n (fld m 0 3) e
    | _ => v
  | _ => v

/-- A product beyond the greatest finite value of the run format is an infinity; any other is exact (02 R43). -/
def runProduct : FVal → FVal
  | .fin n m e => if fmtRun.aboveMax m e then .inf n else .fin n m e
  | v => v

/-- The product a pass adds for one pair of operands (02 R451). -/
def pieceProduct (fa fb : Fmt) (p : Nat × Nat) (x y : Nat) : FVal :=
  let a := fa.val x
  let b := fb.val y
  if !a.isFinite || !b.isFinite then (if p = (0, 0) then a.mul b else .fin false 0 0)
  else runProduct ((pieceOf fa a p.1).mul (pieceOf fb b p.2))

/-- One pass of one cell over its operand pairs, floating-point. -/
def runFloat (fa fb : Fmt) (p : Nat × Nat) (l : List (Nat × Nat)) : Nat :=
  l.foldl (fun r xy => runRound ((fmtRun.decode r).add (pieceProduct fa fb p xy.1 xy.2))) 0

/-- The exact sum of one cell, integer (02 R44). -/
def runInt (fa fb : Fmt) (l : List (Nat × Nat)) : Int :=
  l.foldl (fun r xy => r + fa.intVal xy.1 * fb.intVal xy.2) 0

/-- A(i, k) and B(k, j) in their storage (05 R114). -/
def Chunk.aAt (ch : Chunk) (s : State) (r : Req) (i k : Nat) : Nat :=
  if ch.aK then s.elem r ch.a k i else s.elem r ch.a i k
def Chunk.bAt (ch : Chunk) (s : State) (r : Req) (k j : Nat) : Nat :=
  if ch.bK then s.elem r ch.b k j else s.elem r ch.b j k

/-- Is the 32-position span that holds position k marked empty for every block row of A (03 R67)? -/
def Chunk.skipped (ch : Chunk) (s : State) (r : Req) (k : Nat) : Bool :=
  match ch.occ with
  | none => false
  | some o =>
    let word := s.elem r o 0 (k / 256)
    let m := if ch.aK then ch.a.cols else ch.a.rows
    (List.range (m / 32)).all fun row => !word.testBit (8 * row + k % 256 / 32)

/-- The positions of K that a chunk's steps take for output column j: the position in A and the index in B, in step
order; in sparse mode the two kept values of each group of four (03 R62, R64). -/
def Chunk.steps (ch : Chunk) (s : State) (r : Req) (j : Nat) : List (Nat × Nat) :=
  match ch.metaT with
  | none => (List.range (ch.k1 - ch.k0)).map fun k => (k + ch.k0, k + ch.k0)
  | some m =>
    (List.range ((ch.k1 - ch.k0) / 4)).flatMap fun q =>
      let g := ch.k0 / 4 + q
      let e := fld (s.elem r m j (g / 2)) (4 * (g % 2)) 4
      [(4 * g + e % 4, 2 * g), (4 * g + e / 4, 2 * g + 1)]

/-- The zero of an operand's own sign. -/
def zeroOf (f : Fmt) (x : Nat) : Nat :=
  match f.flt? with
  | some g => x / g.signW % 2 * g.signW
  | none => 0

/-- The operand pairs of cell (i, j) in step order. A skipped step has the zeros of its operands' signs for operands: it adds exactly
zero whatever B holds, and leaves every bit of the run as the step itself would have left it (03 R67; DEDUCED, log 13). -/
def Chunk.pairs (ch : Chunk) (s : State) (r : Req) (i j : Nat) : List (Nat × Nat) :=
  (ch.steps s r j).map fun x =>
    let a := ch.aAt s r i x.1
    let b := ch.bAt s r x.2 j
    if ch.skipped s r x.1 then (zeroOf ch.a.fmt a, zeroOf ch.b.fmt b) else (a, b)

/-- The runs of a chunk's passes for cell (i, j), in order, as run register bits. -/
def Chunk.runs (ch : Chunk) (s : State) (r : Req) (int : Bool) (i j : Nat) : List Nat :=
  let l := ch.pairs s r i j
  if int then [(runInt ch.a.fmt ch.b.fmt l % 2 ^ 24).toNat]
  else ch.passes.map fun p => runFloat ch.a.fmt ch.b.fmt p l

/-- Promotion of the runs into a partial sum: the new bits and whether an integer sum saturated (03 R57, 02 R44). -/
def promote (int : Bool) (old : Nat) (runs : List Nat) : Nat × Bool :=
  if int then
    let x := runs.foldl (fun x r => x + sext 24 r) (sext 32 old)
    let y := clampInt (-2147483648) 2147483647 x
    ((y % 2 ^ 32).toNat, decide (x ≠ y))
  else (runs.foldl (fun x r => (toF32 ((fmtF32.decode x).add (fmtRun.decode r))).toNat) old, false)

/-- The reads of a chunk's operands. -/
def Chunk.reads (ch : Chunk) : List (Addr × Nat) :=
  let rd (t : Tile) (kcol : Bool) (k0 k1 : Nat) : List (Addr × Nat) :=
    if kcol then ((List.range (k1 - k0)).map fun k => (t.rowAddr (k0 + k), t.rowBytes))
    else (List.range t.rows).map fun i => ((t.rowAddr i).plus (k0 * t.fmt.width / 8), ceilDiv ((k1 - k0) * t.fmt.width) 8)
  let half := if ch.metaT.isSome then 2 else 1
  rd ch.a ch.aK ch.k0 ch.k1 ++ rd ch.b ch.bK (ch.k0 / half) (ch.k1 / half)

/-- Key of a cell's run registers: array row, array column, row and column in the array. -/
def runKey (d : GrpDesc) (i j : Nat) : Nat := (((d.f 71 70 + i / 32) * 8 + d.f 67 65 + j / 32) * 32 + i % 32) * 32 + j % 32

/-- The side adders: the sum of an activation row over the positions that pass (02 R49). -/
def Chunk.rowSum (ch : Chunk) (s : State) (r : Req) (i : Nat) : Int :=
  ((List.range (ch.k1 - ch.k0)).map (· + ch.k0)).foldl
    (fun x k => if ch.skipped s r k then x else x + ch.a.fmt.intVal (ch.aAt s r i k)) 0

/-- ACC_INT_SAT, once for each group (02 R44). -/
def State.accSat (s : State) (c : CId) (g : GId) : State :=
  let x := s.group c.val g.val
  if x.intSat then s
  else (s.setGroup c.val g.val { x with intSat := true }).raiseJob x.tag Ev.accIntSat
    { unit := BitVec.ofNat 8 c.val, sub := BitVec.ofNat 8 g.val }

/-- A chunk's runs promoted into its partial-sum tile, row by row, array by array (03 R57); `failed` the blocks (row and column)
whose array failed twice: their partial sums stay as they were (03 R82). -/
def State.promoteChunk (s : State) (c : CId) (g : GId) (w : Who) (d : GrpDesc) (ch : Chunk)
    (failed : Nat → Nat → Bool := fun _ _ => false) : State :=
  let int := d.int && !ch.side
  match (if ch.side then d.sideTile else some d.target) with
  | none => s
  | some t =>
    foldS s (List.range t.rows) fun u i =>
      let runs := (List.range t.cols).map fun j => ch.runs s w.req int i j
      let old := s.tileRow w.req t i
      let new := (old.zip runs).zipIdx.map fun x =>
        if failed (i / 32) (x.2 / 32) then (x.1.1, false) else promote int x.1.1 x.1.2
      let u := u.putRow w t i (new.map (·.1))
      let u := u.modClu c.val fun x =>
        { x with runs := (runs.zipIdx).foldl (fun m y =>
            let k := runKey d i y.2
            if failed (i / 32) (y.2 / 32) then m else mset 0 m k (BitVec.ofNat 48 (y.1.getLastD 0 + (mget 0 m k).toNat % 2 ^ 24 * 2 ^ 24))) x.runs }
      let u := if int then
          u.modGroup c.val g.val fun x =>
            { x with rowSums := mset 0 x.rowSums i (mget 0 x.rowSums i + ch.rowSum s w.req i) }
        else u
      if new.any (·.2) then u.accSat c g else u

/-- Removes an outstanding instruction of a slot (05 R124). -/
def State.dropOut (s : State) (c : CId) (k : SId) (id : Nat) : State :=
  s.modSlot c.val k.val fun y => { y with out := y.out.filter fun o => o.id != id }

/-- The chunk leaves the group and its arrays; the last of an instruction completes it; a group of a stopped job returns to
free. -/
def State.leaveArrays (s : State) (c : CId) (g : GId) (ch : Chunk) : State :=
  let x := s.group c.val g.val
  let s := if ch.last then s.dropOut c x.slot ch.id else s
  (s.setGroup c.val g.val (if x.dying then {} else { x with chunks := x.chunks.drop 1 })).freeArrays c g

/-- The end of a chunk: the arrays are granted anew. -/
def State.endChunk (s : State) (c : CId) (g : GId) (ch : Chunk) : State := (s.leaveArrays c g ch).grantArrays c.val

/-- Where array n of a group's set has its block of the target. -/
def GrpDesc.blockAt (d : GrpDesc) (n : Nat) : Addr :=
  (d.target.rowAddr (32 * (n / 8 - d.f 71 70))).plus (128 * (n % 8 - d.f 67 65))

/-- Did the array of block (i, j) fail more than once? -/
def GrpDesc.failedBlock (d : GrpDesc) (l : List (Nat × Nat)) (i j : Nat) : Bool :=
  l.any fun e => decide (2 ≤ e.2) && e.1 == 8 * (d.f 71 70 + i) + d.f 67 65 + j

/-- The arrays that failed replay their chunk, once each (03 R83). -/
def State.replayArrays (s : State) (c : CId) (g : GId) (t : Tag) (d : GrpDesc) (l : List (Nat × Nat)) : State :=
  foldS s l fun s e => if e.2 = 0 then s else s.accReplay c g t (d.blockAt e.1)

/-- The requester of a job's group. -/
def Job.groupWho (j : Job) (g : GId) : Who := { j.who with sub := BitVec.ofNat 8 g.val }

/-- CHUNK_END (03 R57): the chunk that holds group g's arrays ends and is promoted; a group that has not been granted its arrays
(05 R127) runs no chunk. `bad` counts the parity errors of each array of the set in number order: one error replays that
array's chunk (R83), a second one in the same array poisons the group (R84), errors of different arrays do not add up (DEDUCED,
log 13). An operand that arrives as poison ends the job (07 R175), and the chunk with it; no later chunk of the job starts (05
R125). -/
def chunkEnd (c : CId) (g : GId) (bad : List Nat) (s : State) : State :=
  let x := s.group c.val g.val
  match x.desc, x.chunks, s.job x.tag with
  | some d, ch :: _, some j =>
    if !(s.clu c.val).owners.contains g then s
    else
      match poisonAll s j.who.req ch.reads with
      | .error f => (s.leaveArrays c g ch).stopThenGrant c x.tag fun s => s.failJob c x.slot x.tag f
      | .ok _ =>
        let l := d.arrays.zip bad
        let w := j.groupWho g
        let s := (s.noteReads w ch.reads).replayArrays c g x.tag d l
        let t := s.promoteChunk c g w d ch (d.failedBlock l)
        match l.find? fun e => decide (2 ≤ e.2) with
        | some e => t.accPoison c g x.tag (d.blockAt e.1)
        | none => t.endChunk c g ch
  | _, _, _ => s

/-! ### The epilogue (03 R76 to R81; 02 R37, R39, R49, R50, R52) -/

/-- The INT32 at index n of a list, 0 where the pointer is null (03 Table 3.9). -/
def listI32 (s : State) (r : Req) (p : Option Addr) (n : Nat) : Int :=
  match p with
  | none => 0
  | some a => sext 32 (leNat (s.read r (a.plus (4 * n)) 4))

/-- The rescale record of column j (03 Table 3.10). -/
structure Rescale where
  m : Int
  n : Nat
  o : Int
  invU : W32
  ok : Bool

def rescaleRec (s : State) (r : Req) (d : GrpDesc) (j : Nat) : Rescale :=
  match (if d.usesRescale then d.rescale else none) with
  | none => ⟨0, 0, 0, f32One, true⟩
  | some a =>
    let b := s.read r (a.plus (16 * j)) 16
    ⟨sext 32 (leAt b 0 4), leAt b 4 1, sext 32 (leAt b 8 4), BitVec.ofNat 32 (leAt b 12 4),
     decide (leAt b 4 1 < 63) && leAt b 5 3 == 0⟩

/-- 02 R50: rounds p / 2^n to nearest, ties away from zero. -/
def rescaleShift (p : Int) (n : Nat) : Int :=
  if n = 0 then p
  else
    let q : Int := ((p.natAbs + 2 ^ (n - 1)) / 2 ^ n : Nat)
    if p < 0 then -q else q

/-- 02 R49: the zero-point correction, exact and saturated once. -/
def zpCorrect (s : State) (r : Req) (d : GrpDesc) (z : ZpRec) (rowSum : Int) (i j : Nat) (x : Int) : Int × Bool :=
  if !d.zpEn then (x, false)
  else
    let zi := listI32 s r z.z i
    let wj := listI32 s r z.w j
    let cj := listI32 s r z.c j
    let v := x - zi * cj - wj * rowSum + (d.f 383 352 : Nat) * zi * wj
    let y := clampInt (-2147483648) 2147483647 v
    (y, decide (v ≠ y))

/-- What the stages give for one element. -/
structure EpiOut where
  bits : Nat
  amax : AmaxIn
  sat : Bool

/-- Stages 2 to 5 for element (i, j) (03 Table 3.8). `g16` is the stochastic draw of the element. -/
def epilogueElem (s : State) (r : Req) (d : GrpDesc) (z : ZpRec) (rowSum : Int) (i j : Nat) (g16 : Nat) : EpiOut :=
  let t := s.elem r d.target i j
  let c := d.conv
  let rs := rescaleRec s r d j
  let sc (y : W32) : W32 :=
    if d.scl = 1 then fscale (fscale y (scaleAt s r d.rowScale i)) (scaleAt s r d.colScale j) else y
  if d.int then
    let x := zpCorrect s r d z rowSum i j (sext 32 t)
    if d.scl = 2 then
      let range := c.dst.intRange
      let v := clampInt range.1 range.2 (rescaleShift (x.1 * rs.m) rs.n + rs.o)
      ⟨(v % (2 ^ c.dst.width : Nat)).toNat, (FVal.ofInt v, false), x.2⟩
    else if d.scl = 0 ∧ ¬ d.sideEn then
      let o := convert c (FVal.ofInt x.1) g16 rs.o
      ⟨o.bits, (FVal.ofInt x.1, false), x.2⟩
    else
      let y := sc (toF32 (FVal.ofInt x.1))
      let y := match d.sideTile with
        | some st => fmul (fadd y (BitVec.ofNat 32 (s.elem r st i j))) rs.invU
        | none => y
      let o := convert c (f32 y) g16 rs.o
      ⟨o.bits, (f32 y, o.sat), x.2⟩
  else
    let y : W32 := BitVec.ofNat 32 t
    let y := match d.ew with
      | none => y
      | some w =>
        let v := w.fmt.f32 (s.elem r w i j)
        if d.ewOp = 1 then fadd y v else fmul y v
    let y := sc y
    let o := convert c (f32 y) g16 rs.o
    ⟨o.bits, (f32 y, o.sat), false⟩

/-- The occupancy word of the outputs (03 R66). -/
def occWord (f : Fmt) (rows : List (List EpiOut)) : Nat :=
  rows.zipIdx.foldl (fun w ri => ri.1.zipIdx.foldl (fun w ej =>
    if (f.val ej.1.bits).isZero then w else w ||| 2 ^ (8 * (ri.2 / 32) + ej.2 / 32)) w) 0

/-- Reads that a close makes besides its target. -/
def GrpDesc.epiReads (d : GrpDesc) (z : ZpRec) : List (Addr × Nat) :=
  let o (b : Bool) (p : Option Addr) (n : Nat) : List (Addr × Nat) := if b then p.toList.map fun a => (a, n) else []
  d.target.reads ++ (d.ew.toList.flatMap (·.reads)) ++ (d.sideTile.toList.flatMap (·.reads)) ++
    o (d.scl == 1) d.rowScale (4 * d.rows) ++ o (d.scl == 1) d.colScale (4 * d.cols) ++
    o d.usesRescale d.rescale (16 * d.cols) ++ o d.zpEn d.zp 32 ++ o d.zpEn z.c (4 * d.cols) ++
    o d.zpEn z.z (4 * d.rows) ++ o d.zpEn z.w (4 * d.cols)

/-- All outputs, amax merges, the occupancy word and the top-k merges of a close (03 R76 to R81). -/
def State.epilogueWrite (s : State) (w : Who) (gen : GenDesc) (x : Group) (d : GrpDesc) (z : ZpRec) : State × Bool :=
  let c := d.conv
  let rows := (List.range d.rows).map fun i =>
    (List.range d.cols).map fun j =>
      epilogueElem s w.req d z (mget 0 x.rowSums i) i j (if c.stoch then gen.draw16 (i * d.cols + j) else 0)
  let s := foldS s rows.zipIdx fun s ri =>
    let s := match d.out with
      | some o => s.putRow w o ri.2 (ri.1.map (·.bits))
      | none => s
    let s := match (if c.amaxEn then d.amax else none) with
      | some a => s.mergeAmax w a (if c.amaxRow then some ri.2 else none) (ri.1.map (·.amax))
      | none => s
    match (if d.topkEn then d.topk else none) with
    | some a => s.mergeTop w a ri.2 d.topkK c.dst.isInt
        (ri.1.zipIdx.map fun e => ⟨topValue c.dst e.1.bits, d.topkBase + e.2⟩)
    | none => s
  let s := match (if d.occEn then d.occ else none) with
    | some a => s.store w a (leBytes 4 (occWord c.dst rows))
    | none => s
  (s, rows.any fun r => r.any (·.sat))

/-- EPILOGUE (03 R76): once every chunk of a closing group is promoted; `bad` counts the parity errors of each of its reads
(R83, R84). A reserved value in a record it reads, or a null c_ptr, ends the job with ACC_DESC_BAD, and nothing is written.
The stochastic draws come from the generator that the close took (log 13). -/
def epilogue (c : CId) (g : GId) (bad : List Nat) (s : State) : State :=
  let x := s.group c.val g.val
  match x.desc, s.job x.tag with
  | some d, some j =>
    if x.state ≠ .closing ∨ x.chunks ≠ [] ∨ x.epilogued then s
    else
      let z := zpRec s j.who.req d
      let reads := d.epiReads z
      let stop (s : State) (f : Fail) : State :=
        ((s.setGroup c.val g.val {}).dropOut c x.slot x.closeId).failJob c x.slot x.tag f
      match poisonAll s j.who.req reads with
      | .error f => stop s f
      | .ok _ =>
        if (d.zpEn && !z.ok) || (d.usesRescale && (List.range d.cols).any fun q => !(rescaleRec s j.who.req d q).ok) then
          stop s (accFail Ev.accDescBad g)
        else
          let w := j.groupWho g
          let y := (s.noteReads w reads).accReads c g x.tag reads bad
          if y.2.isSome then y.1
          else
            let r := y.1.epilogueWrite w x.gen x d z
            let s := if r.2 then r.1.accSat c g else r.1
            s.modGroup c.val g.val fun y => { y with epilogued := true }
  | _, _ => s

/-- CLOSE_DONE (03 R79): the close completes, the group signals done_sem and returns to free. -/
def closeDone (c : CId) (g : GId) (s : State) : State :=
  let x := s.group c.val g.val
  match x.desc with
  | none => s
  | some d =>
    if x.state ≠ .closing ∨ !x.epilogued then s
    else
      let s := (s.dropOut c x.slot x.closeId).setGroup c.val g.val {}
      match d.doneSem s.lnk.node c with
      | some r => s.signalTo x.tag r 1 (BitVec.ofNat 8 x.slot.val)
      | none => s

/-- MMA_OPEN (05 R113, 03 R71). -/
def execMmaOpen (i : Issue) (s : State) : Res := .next (s.issue i (rowCode 2 0 0) mmaOpenBody)
/-- MMA_ACC (05 R114). -/
def execMmaAcc (i : Issue) (s : State) : Res := .next (s.issue i (rowCode 2 1 0) mmaAccBody)
/-- MMA_SIDE (05 R114). -/
def execMmaSide (i : Issue) (s : State) : Res := .next (s.issue i (rowCode 2 2 0) mmaSideBody)
/-- MMA_CLOSE (03 R73). -/
def execMmaClose (i : Issue) (s : State) : Res := .next (s.issue i (rowCode 2 3 0) mmaCloseBody)
/-- CHUNK_END (03 R57). -/
def execChunkEnd (c : CId) (g : GId) (bad : List Nat) (s : State) : Res := .next (chunkEnd c g bad s)
/-- EPILOGUE (03 R76). -/
def execEpilogue (c : CId) (g : GId) (bad : List Nat) (s : State) : Res := .next (epilogue c g bad s)
/-- CLOSE_DONE (03 R79). -/
def execCloseDone (c : CId) (g : GId) (s : State) : Res := .next (closeDone c g s)

end Sys2Proof.Machine
end

