-- ==== Sys2Proof/Machine/Reset.lean ====
section
/-! DEFINITION. Sys2Proof/Machine/Reset.lean: device-wide resets and their reach, cold and warm starts (15 R392 to R408, 13 R361, 14 R377, R390), block resets (15 R399, R400), the thermal trip (15 R415 to R417). -/

namespace Sys2Proof.Machine

open Sys2Proof

/-! ### What a reset keeps (15 Table 15.2) -/

/-- Changes every entry of a sparse map, the ones that become the default leaving it. -/
def remap {α : Type} [DecidableEq α] (d : α) (f : α → α) (m : SMap α) : SMap α :=
  (m.map fun e => (e.1, f e.2)).filter fun e => e.2 != d

/-- An installation that a reset interrupts (08 R187): its slot is erased. -/
def FSlot.interrupted (x : FSlot) : FSlot := if x.state = .installing then { x with state := .erasing } else x

/-- A staging that a reset interrupts has failed (13 R362). -/
def StagedState.interrupted (x : StagedState) : StagedState := if x = .writing then .failed else x

/-- The device in cold reset (15 Table 15.2): fuses, Firn store, catalogue, life record and the flash survive; a life record that was being
written fails its digest (14 R390). -/
def State.coldState (s : State) : State :=
  { State.reset with
    pending := s.pending
    free := s.free
    out := s.out
    lnk := { cut := s.out.length }
    glb := { tripN := s.glb.tripN }
    rst := { trip := s.rst.trip, held := .cold, source := s.rst.source }
    life :=
      { record := s.life.record
        slots := match s.life.writing with | some r => merase (r.seq.toNat % 64) s.life.slots | none => s.life.slots }
    sec :=
      { activeSlot := s.sec.activeSlot, staged := s.sec.staged.interrupted, stagedSlot := s.sec.stagedSlot
        stagedImg := s.sec.stagedImg, stagedSvn := s.sec.stagedSvn, fuseSvn := s.sec.fuseSvn, fuseSeed := s.sec.fuseSeed
        flashA := s.sec.flashA, flashB := s.sec.flashB }
    firn :=
      { slots := s.firn.slots, greatest := s.firn.greatest, catSeq := s.firn.catSeq, halves := s.firn.halves
        retired := s.firn.retired, wearHigh := s.firn.wearHigh, idCert := s.firn.idCert } }

/-- A source holds a cold reset; of two sources the lower code is recorded (R392). -/
def State.holdCold (s : State) (src : Nat) : State :=
  if s.rst.held = .cold then { s with rst := { s.rst with source := min src s.rst.source } }
  else
    let t := s.coldState
    { t with rst := { t.rst with source := src } }

/-- A chain port through a warm reset (R396): its lanes, secret, epoch and key counters stay, its link layer restarts with rst
flits until the HELLO, its counters clear. -/
def Port.warm (x : Port) : Port :=
  { state := if x.state = .up then .upVc0 else x.state
    mode := x.mode, peer := x.peer, peerPort := x.peerPort, retrains := x.retrains, enabled := x.enabled, gang := x.gang
    restart := true, secret := x.secret, heldKey := x.heldKey, heldCount := x.heldCount, heldEnds := x.heldEnds, epoch := x.epoch
    agreed := x.agreed, peerIdd := x.peerIdd, peerExchange := x.peerExchange, txCount := x.txCount, rxCount := x.rxCount
    trained := x.trained, peerGlb := x.peerGlb, rekeying := x.rekeying, stopped := x.stopped }

/-- The host port through a warm reset: its link, SR-IOV settings, bindings and vectors stay (R396), the assembled records too, with the ring
that they go to once ready (R395; DEDUCED, log 19). -/
def Hif.warm (x : Hif) : Hif :=
  { rate := x.rate, width := x.width, vfs := x.vfs
    queues := remap {} (fun q => { bindValid := q.bindValid, bindDomain := q.bindDomain }) x.queues
    vectors := x.vectors, evidBuf := x.evidBuf, evidSeq := x.evidSeq, evidLink := x.evidLink, evidEn := x.evidEn
    evidBase := x.evidBase, evidLog2 := x.evidLog2, evidHead := x.evidHead, evidTail := x.evidTail
    ckptBase := x.ckptBase, ckptLog2 := x.ckptLog2, ckptHead := x.ckptHead, ckptTail := x.ckptTail }

/-- Resets and power through a warm reset, which source `src` holds: what the reset controller records, and readings of parts that are not
reset. -/
def Rst.warm (x : Rst) (src : Nat) (node : NodeId) : Rst :=
  { held := .warm, source := src, srcNode := node, cause := x.cause, causeNode := x.causeNode, readyOnce := x.readyOnce
    fromCold := x.fromCold, coreMv := x.coreMv, coreRead := x.coreRead, dieTemp := x.dieTemp, firnTemp := x.firnTemp
    powerW := x.powerW, fanPct := x.fanPct, measured := x.measured, smbAddr := x.smbAddr }

/-- GLB_STATUS and the pins through a warm reset (R401). -/
def Glb.warm (x : Glb) : Glb :=
  { bootSrc := x.bootSrc, clkMode := x.clkMode, readyN := x.readyN, faultN := x.faultN, alertN := x.alertN, tripN := x.tripN }

/-- The event unit through a warm reset: the ring, its mirror's place and the counters stay (17 R442, R446). -/
def Evt.warm (x : Evt) : Evt := { x with enable := false, fatalCode := 0, fatalUnit := 0, fatalSub := 0, fatalArg := 0 }

/-- A variant through a warm reset (R397): its cache copy is gone, a Loading one is Dormant again with its runs scrubbed; a
state area that waited to come in is dropped. -/
def State.warmVariant (s : State) (vid : Nat) (x : Variant) : State :=
  if x.state = .loading then
    (s.freeVariant vid x).modVariant vid fun y => { y with state := .dormant, filling := false, evicting := false }
  else
    let s := if x.cacheParcels.isEmpty then s else s.nullSpd vid x
    let s := if x.stateWait.isSome then s.scrubPages x.sfirst x.spages false else s
    s.modVariant vid fun y => { y with
      cacheParcels := [], oldCopies := [], filling := false, evicting := false, copied := false, stateWait := none
      state := if y.state = .hot then .live else y.state
      sfirst := if y.stateWait.isSome then 0 else y.sfirst, spages := if y.stateWait.isSome then 0 else y.spages }

/-- A controller through a warm reset (07 R169): the poison and stuck lists stay. -/
def MemCtl.warm (x : MemCtl) : MemCtl := { poison := x.poison, stuck := x.stuck, refresh := x.refresh }

/-- The device in warm reset (15 Table 15.2, R396, R397). -/
def State.warmState (s : State) (src : Nat) (node : NodeId) : State :=
  let s := foldS s s.var.reg fun s e => s.warmVariant e.1 e.2
  { s with
    glb := s.glb.warm
    evt := s.evt.warm
    rst := s.rst.warm src node
    cfg := { live := s.cfg.live }
    sec := { s.sec with
      arg := 0, cmdState := .idle, reason := 0, written := 0, attestWait := none, openWait := none, download := false
      staged := s.sec.staged.interrupted, debugLevel := 0, challenge := none, jtag := 0, jtagOut := [], jobKeys := [], jobCounts := []
      jobRx := [], challengeWait := false, stageAt := 0, stageLen := 0 }
    hif := s.hif.warm
    jobs := {}
    coll := []
    bars := []
    upd := []
    cl := []
    lnk := { ports := remap {} Port.warm s.lnk.ports, cut := s.out.length }
    mem := { s.mem with
      ctls := remap {} MemCtl.warm s.mem.ctls, cmdState := .idle, qmode := .free, qdomain := 0, reason := 0, retagBusy := false
      scrubs := s.mem.scrubs.map (fun x => { x with byCmd := false }), refetching := [], tierStep := [], tierOver := []
      tierTemp := [], tierHold := [], cachePer := 0 }
    firn := { s.firn with
      cmdState := .idle, reason := 0, progress := 0, cmd := none, ring := 0, catRead := false
      prod := 0, cons := 0, install := none, sweepOn := false, sweepAt := 0 }
    var := { reg := s.var.reg, removals := s.var.removals, clock := s.var.clock } }

/-- The device in a warm reset before ready has been set since the last cold reset, after which the cold start runs again (R398): the life
keeper, the event unit, the host port's link and the pins are held as by any warm reset. -/
def State.warmEarly (s : State) (src : Nat) (node : NodeId) : State :=
  { s.coldState with life := s.life, glb := s.glb.warm, evt := s.evt.warm, rst := s.rst.warm src node, hif := s.hif.warm }

/-- A source holds a warm reset; a cold reset that is held has the greater reach, and of two sources the lower code is recorded (R392). -/
def State.holdWarm (s : State) (src : Nat) (node : NodeId) : State :=
  match s.rst.held with
  | .cold => s
  | .warm =>
    if src < s.rst.source then { s with rst := { s.rst with source := src, srcNode := node } } else s
  | .none => if s.rst.readyOnce then s.warmState src node else s.warmEarly src node

/-- POWER_ON_RESET: a rail is below its good level (R392, R404); RST_CAUSE will read 0x1 whatever else acted (R393, R417). -/
def powerOnReset (s : State) : State :=
  let t := s.holdCold 1
  { t with rst := { t.rst with source := 1, trip := false }, glb := { t.glb with tripN := false } }

/-- PERST_ASSERT (R392). -/
def perstAssert (s : State) : State := s.holdCold 2

/-- WARM_RST_ASSERT (R392). -/
def warmRstAssert (s : State) : State := s.holdWarm 4 0

/-- SOFTWARE_RESET (R392, Table 15.17): a write of RST_CTL with its key; it acts before ready too (Table 15.9), and its
reserved bits are ignored (00 R8). -/
def softwareReset (v : W32) (s : State) : State :=
  if bitsOf v 31 16 = 0x5752 ∧ bitOf v 0 then s.holdWarm 5 0 else s

/-- WATCHDOG_EXPIRY (R394): it runs from the moment the ROM starts. -/
def watchdogExpiry (s : State) : State := if s.rst.held = .none then s.holdWarm 6 0 else s

/-- RESET_MSG (11 R311): a RESET of the coordinator, where the configuration permits it. -/
def resetMsg (m : Msg) (s : State) : State :=
  s.receive m [0] fun s =>
    if m.src = s.lnk.coordinator ∧ s.cfg.live.dev.chainReset then s.holdWarm 7 m.src
    else s.raise Ev.lnkResetDenied (lnkInfo s m.port m.vc.toNat)

/-- THERMAL_TRIP (R415, R417): an excursion is counted when none is in progress, the life record is written, and the device is
in cold reset. -/
def thermalTrip (s : State) : State :=
  let s := if s.life.excursion ∨ s.rst.held = .cold then s else s.bumpLife 3
  let s := if s.rst.held = .cold then s
    else
      let t := s.lifeWrite
      match t.life.writing with
      | some r => { t with life := { t.life.store r with writing := none } }
      | none => t
  let t := s.holdCold 3
  { t with rst := { t.rst with trip := true }, glb := { t.glb with tripN := true } }

/-! ### The steps of a start (15 Tables 15.7, 15.8) -/

/-- A staged slot whose trial a reset ended is rejected (13 R361). -/
def State.rejectTrial (s : State) : State :=
  if s.sec.staged = .trial then
    (s.setSec fun x => { x with staged := .rejected, trial := false }).raise Ev.secTrialRejected
  else s

/-- A device-wide reset is released: its code is recorded, the pins follow (R393, R401), the ROM sets VDD_CORE to its start level (R405), and
a trial that the reset ended is rejected. -/
def State.released (s : State) : State :=
  (({ s with
    rst := { s.rst with
      held := .none, cause := s.rst.source, causeNode := if s.rst.source = 7 then s.rst.srcNode else 0, source := 0, srcNode := 0
      startWait := false, romStart := false, target := 750 }
    glb := { s.glb with faultN := false, readyN := false, alertN := s.life.excursion } } : State).emit (.rail 750)).rejectTrial

/-- TRIP_RELEASE (R416): the compute die has read below 95 °C for 1 s; the pin and, where the trip alone holds it, the cold reset are
released at the same moment. -/
def tripRelease (s : State) : State :=
  let on := s.rst.trip
  let s := { s with rst := { s.rst with trip := false }, glb := { s.glb with tripN := false } }
  if on ∧ s.rst.held = .cold ∧ s.rst.source = 3 then
    let s := s.released
    { s with rst := { s.rst with romStart := true } }
  else s

/-- The life record that is in force at a start (14 R390): of those whose digest checks (`bad`: the slots where it does not) the one with
the highest seq; one that is being written since the reset goes on from the record in force, where that checks (log 8). -/
def Life.found (l : Life) (bad : List Nat) : Option LifeRecord :=
  let ok := (l.slots.filter fun e => !bad.contains e.1).filterMap (·.2)
  let best := ok.foldl (fun (a : Option LifeRecord) r =>
    match a with
    | some x => if x.seq.toNat < r.seq.toNat then some r else a
    | none => some r) none
  match l.writing, l.record with
  | some w, some r => if bad.contains (r.seq.toNat % 64) then best else some w
  | _, _ => best

/-- The life record is restored after a cold reset, with what has been counted since; the counts of the start are advanced, CFG_GEN is set,
and the record is written (14 R389, R390; 15 R398). -/
def State.startLife (s : State) (b : Boot) : State :=
  let s :=
    if !s.rst.fromCold then s
    else
      let s :=
        match s.life.found b.lifeBad with
        | some r =>
          { s with life := { s.life with
              counters := List.zipWith add48 r.counters s.life.counters
              pe := r.pe, restored := true, record := some r, writing := none } }
        | none =>
          { s with life := { s.life with pe := [], restored := false, record := none, writing := none } }.raise Ev.lifeRecordLost
      { s.bumpLife 1 with rst := { s.rst with fromCold := false } }
  let s := if 4 ≤ s.rst.cause then s.bumpLife 2 else s
  let gen := match s.life.newest with
    | some r => nextGen r.lastCfgGen
    | none => 1
  let s := ({ s with cfg := { s.cfg with gen := gen } } : State).lifeWrite
  match s.life.writing with
  | some r => { s with life := { s.life.store r with writing := none, saveBusy := false, saves := 1 } }
  | none => s

/-! ### Boot images (14 R370 to R373) -/

/-- The firmware body (R371): its header and section entries are well formed, and the sections load below 1.5 MiB and overlap
nowhere. -/
def firmwareOk (l : Bytes) : Bool :=
  let n := leAt l 6 2
  let secs := (List.range n).map fun i => (leAt l (64 + 16 * i) 4, leAt l (64 + 16 * i + 4) 4, leAt l (64 + 16 * i + 8) 4)
  leAt l 0 4 == 0x5746_4B59 && leAt l 4 2 == 1 && decide (1 ≤ n) && decide (n ≤ 16) && leAt l 8 4 == l.length && leAt l 16 48 == 0 &&
    secs.all (fun e => decide (e.1 + e.2.1 ≤ 0x18_0000) && decide (e.2.2 + e.2.1 ≤ leAt l 8 4)) &&
    decide (secs.Pairwise fun a b => a.1 + a.2.1 ≤ b.1 ∨ b.1 + b.2.1 ≤ a.1)

/-- Does an image set boot: both images verify, and the firmware body is in order (13 R360, 14 R371)? -/
def slotOk (fuse : Nat) (x : ImageSet) : Bool := setOk fuse x && firmwareOk x.fw.body

/-- The image set of a slot, where it boots: A is false. -/
def State.bootable (s : State) (k : Bool) : Option ImageSet := (s.sec.flash k).filter (slotOk s.sec.fuseSvn)

/-- The configuration body (14 Table 14.2): cfg_id and the tables by kind and instance; none where its header or directory is not as
R372 lays it out. -/
def cfgImage (l : Bytes) : Option (W64 × List (Nat × Nat × Bytes)) :=
  let n := leAt l 6 2
  let e (i k w : Nat) : Nat := leAt l (64 + 32 * i + k) w
  if leAt l 0 4 ≠ 0x4746_434B ∨ leAt l 4 2 ≠ 1 ∨ n = 0 ∨ 64 < n ∨ leAt l 8 4 ≠ l.length ∨ l.length % 64 ≠ 0 ∨ leAt l 12 4 ≠ 0 ∨
      leAt l 24 40 ≠ 0 ∨ l.length < 64 + 32 * n ∨
      (List.range n).any (fun i => e i 4 4 % 64 != 0 || decide (l.length < e i 4 4 + e i 8 4) || e i 12 20 != 0) then none
  else
    some (BitVec.ofNat 64 (leAt l 16 8), (List.range n).map fun i => (e i 0 2, e i 2 2, (l.drop (e i 4 4)).take (e i 8 4)))

/-- The tables of a configuration body. -/
def bootTables (l : Bytes) : List (Nat × Nat × Bytes) := match cfgImage l with | some x => x.2 | none => []
/-- The cfg_id of a configuration body. -/
def bootCfgId (l : Bytes) : W64 := match cfgImage l with | some x => x.1 | none => 0

/-- The slot that boots, its set, and whether it is in trial (13 R361); a start that goes on after it has waited boots the slot whose trial
it began. -/
def State.pickSlot (s : State) : Option (Bool × Bool × ImageSet) :=
  let at' (k trial : Bool) : Option (Bool × Bool × ImageSet) := (s.bootable k).map fun x => (k, trial, x)
  let staged := if s.sec.staged = .verified ∨ s.sec.staged = .trial then at' s.sec.stagedSlot true else none
  (staged.orElse fun _ => at' s.sec.activeSlot false).orElse fun _ => at' (!s.sec.activeSlot) false

/-- A route entry (11 Table 11.18). -/
def routeOf (e : Bytes) : Route where
  first := BitVec.ofNat 16 (leAt e 6 2)
  last := BitVec.ofNat 16 (leAt e 4 2)
  ports := BitVec.ofNat 12 (leAt e 0 4 / 2 ^ 20)
  valid := (leAt e 0 4).testBit 19
  parent := (leAt e 0 4).testBit 18
  child := (leAt e 0 4).testBit 17

/-- One table of a kind. -/
def bootTable (l : Bytes) (k : Nat) : Bytes := match (bootTables l).find? fun e => e.1 == k with | some e => e.2.2 | none => []

/-- Enabled and mode of a port, as the port table has them. -/
def bootMode (l : Bytes) (p : Nat) : Bool × Bool :=
  let v := leAt (bootTable l 4) (4 * p) 4
  (v.testBit 31, v.testBit 30)

/-- The image's kinds: none reserved, none twice, the required ones there (14 R373). -/
def kindsOk (l : Bytes) (t : Topo) : Bool :=
  let ks := (bootTables l).map fun e => (e.1, e.2.1)
  (cfgImage l).isSome && decide ks.Nodup && (ks.all fun k => decide (1 ≤ k.1) && decide (k.1 ≤ 16)) &&
    ([1, 2, 4].all fun k => ks.any fun e => e.1 == k) && (decide (t.nodes.length ≤ 1) || ks.any fun e => e.1 == 3)

/-- The configuration tables of the booted image are checked and taken (14 R370 to R377); none: ready is never set. An image
that fails outside Table 14.6 has no reason code in the spec: a free value (log 3). `l`: the configuration body; `topo`: the
topology that its kind 2 table spells (log 22). -/
def State.loadTables (s : State) (l : Bytes) (topo : Topo) : State × Bool :=
  let bad (s : State) (r : Nat) : State × Bool := (s.deviceFatal Ev.cfgImageBad (argReason r), false)
  let t0 : Tables := { defServePct := Config.romServePct.val, defBulkJobs := Config.romBulkJobs.val }
  let t := (bootTables l).foldl (fun (t : Tables) e => t.apply e.1 e.2.1 e.2.2) { t0 with topo := topo }
  let routes := (tableOf 8 (bootTable l 3)).map routeOf
  if !kindsOk l topo then bad s.fresh.2 (s.fresh.1.toNat % 256)
  else if !(bootTables l).all fun e => tableOk e.1 e.2.1 e.2.2 then bad s 0x01
  else if s.tablesReason t ≠ 0 then bad s (s.tablesReason t)
  else if !t.dev.codesOk then bad s.fresh.2 (s.fresh.1.toNat % 256)
  else if !topoOk topo t.dev.position routes (bootMode l) then bad s.fresh.2 (s.fresh.1.toNat % 256)
  else
    let s := s.setCfg fun x => { x with live := t, image := bootCfgId l }
    let s := s.setLnk fun x => { x with
      routes := routes, node := (topoMembers topo).getD t.dev.position 0xFFFF, coordinator := topo.coordinator, deputy := topo.deputy
      shape := topo.shape, position := t.dev.position }
    let s := foldS s (List.range 12) fun s p =>
      let v := leAt (bootTable l 4) (4 * p) 4
      s.modPort p fun x => { x with enabled := v.testBit 31, mode := v.testBit 30, gang := v / 2 ^ 26 % 16 }
    (s.applyTables, true)

/-- The keys of a cold start (13 R344), and the identity key as the fuses hold it (R345). -/
def State.makeKeys (s : State) : State :=
  let a := s.random 64
  let b := a.2.random 32
  let c := b.2.random 32
  let d := c.2.random 32
  d.2.setSec fun x => { x with
    idSeed := some x.fuseSeed, exchangeSeed := some a.1, tweakKey := some b.1, baseKey := some c.1, deviceKey := some d.1 }

/-- LPDDR5X training (07 R166, R167): every package passes, or each channel that fails raises MEM_TRAIN_FAIL; then the event ring
has its page, the last one, and the installation's staging area of 2 GiB the 256 pages before it (17 R441, 08 R198; log 22). -/
def State.trainMemory (s : State) (b : Boot) : State × Bool :=
  if !b.memFail.isEmpty then
    (foldS s b.memFail fun s e =>
      s.deviceFatal Ev.memTrainFail { unit := BitVec.ofNat 8 e.1.val, sub := BitVec.ofNat 8 e.2.val }, false)
  else
    let d := s.cfg.live.dev
    let n := [39680, 79360, 158720].getD d.density 79360
    let s := { s with mem := { s.mem with
      rate := d.rate, density := d.density, ranks := d.ranks, trained := true, usablePages := n
      pages := (List.range 257).map fun i => (n - 257 + i, ⟨.device, 0, false⟩) } }
    ({ s with evt := { s.evt with ringReady := true, ringBase := BitVec.ofNat 41 ((n - 1) * 2 ^ 23) } }, true)

/-- The ports of the topology train in ascending order, and each whose lanes train begins its key agreement (11 R283, 13 R354). -/
def State.trainPorts (s : State) (b : Boot) : State :=
  foldS s (List.finRange 12) fun s p =>
    if !(s.port p.val).enabled then s
    else if b.ports.contains p then s.beginKeys p
    else s.portDown p Ev.lnkTrainFail

/-- A warm start joins its chain again (15 Table 15.8 step 5): HELLO, JOIN, and, where `b` brings it, ADMIT; else the start waits for it. -/
def State.joinWarm (s : State) (b : Boot) : State :=
  let s := s.inPhase 4
  let s := (foldS s (List.finRange 12) fun s p => if (s.port p.val).agreed then s.modPort p.val (·.open' false) else s).helloAll
  if s.cfg.live.topo.nodes.length ≤ 1 then (s.setLnk fun l => { l with member := true, members := [l.node] }).openDevice
  else
    let mine := s.lnk.node == s.lnk.coordinator
    let s := if mine then s else s.sendJoin
    if !mine ∧ b.members.isEmpty then s
    else
      match ((if mine then s else s.adoptRegistry b.registry).adoptGen b.slot b.gen b.firnBad b.firnUnread) with
      | (s, .error r) => s.raise Ev.baseSwapFail (argReason r)
      | (s, .ok _) => s.joined b.members

/-- The catalogue at a start (08 R186, R187): read from stripe 0; a slot found Installing becomes Erasing. -/
def State.startCatalogue (s : State) (b : Boot) : State :=
  let s := s.setFirn (·.readCatalogue b.catOk)
  if s.firn.slots.any fun e => e.2.state == .installing then
    (s.setFirn fun x => { x with slots := remap {} FSlot.interrupted x.slots }).catalogue
  else s

/-- The digest check of one generation at a warm start (08 R214): segments that fail are thawed again, one that fails again is
unrepairable, which ends the start; its placements are laid down in new parcels. -/
def State.startDigest (s : State) (g : Gen) (x : List Nat × List Nat × List Nat) : State × Option Gen :=
  let r := x.1.foldl (fun (a : State × Option Nat) i =>
    if a.2.isSome then a
    else
      match a.1.repair g i (!x.2.1.contains i) (!x.2.2.contains i) with
      | (t, true) => (t, none)
      | (t, false) => (t, some i)) (s, none)
  match r.2 with
  | some i => (r.1.deviceFatal Ev.baseUnrepairable (firnInfo g.slot.val i g.num), none)
  | none =>
    let c := r.1.replace g
    (c.1, some c.2)

/-- The generations of this node are checked and placed again, the current one first (15 Table 15.8 step 4); a swap whose thaw has not
ended has only its parcels taken again. False: ready is never set. -/
def State.startDigests (s : State) (b : Boot) : State × Bool :=
  let one (s : State) (g : Option Gen) (x : List Nat × List Nat × List Nat) (put : Firn → Gen → Firn) : State × Bool :=
    match g with
    | none => (s, true)
    | some g =>
      match s.startDigest g x with
      | (s, none) => (s, false)
      | (s, some g) => (s.setFirn fun y => put y g, true)
  match one s s.firn.current (b.firnBad, b.firnUnread, b.reFirnBad) fun y g => { y with current := some g } with
  | (s, false) => (s, false)
  | (s, true) =>
    match one s s.firn.old b.old fun y g => { y with old := some g } with
    | (s, false) => (s, false)
    | (s, true) =>
      match s.firn.swap with
      | none => (s, true)
      | some w =>
        if w.thawed then one s (some w.gen) b.swap fun y g => { y with swap := some { w with gen := g } }
        else
          match s.placeAll (s.fslot w.slot.val).segments with
          | some (t, l) => (t.setFirn fun x => { x with swap := some { w with gen := { w.gen with parcels := l } } }, true)
          | none => (s.setFirn fun x => { x with swap := some { w with gen := { w.gen with parcels := [] } } }, true)

/-- The start from the booted image on; the keys that it makes wait for the DRBG (13 R342). A cold start ends with the steps of the chain
(`portsTry`). -/
def State.startImage (s : State) (b : Boot) (x : ImageSet) : State :=
  let fresh := !s.rst.readyOnce
  let changed := s.sec.attKey.isNone || s.sec.runningImg != setHash x
  if (fresh ∨ changed) ∧ !s.sec.entropyOk then { s with rst := { s.rst with startWait := true } }
  else
  let s := (s.setSec fun y => { y with runningSvn := setSvn x, runningImg := setHash x, runningSet := some x }).inPhase 1
  let s := (s.startLife b).startCatalogue b
  match s.loadTables x.cfg.body b.topo with
  | (s, false) => s
  | (s, true) =>
    let s := if fresh then s.makeKeys else s
    let s := if changed then s.makeAttKey else s
    if fresh then
      match (s.inPhase 2).trainMemory b with
      | (s, false) => s
      | (s, true) => ((s.inPhase 3).trainPorts b).portsTry
    else
      match s.startDigests b with
      | (s, false) => s
      | (s, true) => s.joinWarm b

/-- The ROM has trained a port and asks the peer for its image set (R403). -/
def State.askImage (s : State) (p : PortId) : State :=
  let s := (s.restartPort p).modPort p.val fun x => { x with state := .training, trained := true, idleOnly := false }
  ({ s with rst := { s.rst with bootPort := some p, startWait := true } } : State).emit (.imageRequest p)

/-- The next port of those that train, in ascending order, past those that the ROM has gone past; with none the start waits. -/
def State.askNext (s : State) (b : Boot) : State :=
  match (List.finRange 12).find? fun p => b.ports.contains p && !s.rst.bootTried.contains p with
  | some p => s.askImage p
  | none => { s with rst := { s.rst with bootPort := none, startWait := true } }

/-- Boot from a chain neighbour (R403): the set that the port asked has brought is verified and booted, or the ROM goes on to the next
port. -/
def State.bootNeighbour (s : State) (b : Boot) : State :=
  match s.rst.bootPort, b.set with
  | some p, some x =>
    let s := { s.setPort p.val {} with rst := { s.rst with bootPort := none } }
    if slotOk s.sec.fuseSvn x then s.startImage b x
    else ({ s with rst := { s.rst with bootTried := s.rst.bootTried ++ [p] } } : State).askNext b
  | some _, none => { s with rst := { s.rst with startWait := true } }
  | none, _ => s.askNext b

/-- The start by the boot source that was sampled (13 R361, 15 R402, R403). -/
def State.start (s : State) (b : Boot) : State :=
  let none' := (s.bootable false).isNone && (s.bootable true).isNone
  match s.glb.bootSrc.toNat with
  | 0 =>
    match s.pickSlot with
    | none => ((s.setSec fun x => { x with noImage := true }).deviceFatal Ev.secImageBad).inPhase 0xA
    | some (slot, trial, x) =>
      let s := s.setSec fun x => { x with
        noImage := false, runningSlot := slot, trial := trial, staged := if trial then .trial else x.staged }
      s.startImage b x
  | 1 => s.inPhase 8
  | 2 => s.bootNeighbour b
  | _ => (s.setSec fun x => { x with noImage := none' }).inPhase 9

/-- The entropy start-up test of a cold start (13 R342); a start whose test fails waits. -/
def State.startTest (s : State) (b : Boot) : State :=
  if b.entropy then (s.setSec fun x => { x with entropyOk := true, healthFail := false }).start b
  else
    let s := s.setSec fun x => { x with entropyOk := false, healthFail := true }
    { s with rst := { s.rst with startWait := true } }

/-- The host port's link is trained (12 R317, R340): the rate and the width that it reaches lie with the host; free values within
Table 12.1 (log 3). -/
def State.trainHost (s : State) : State :=
  let r := s.fresh
  { r.2 with hif := { r.2.hif with rate := r.1.toNat % 7 + 1, width := 2 ^ (r.1.toNat / 7 % 5) } }

/-- The ROM starts after a cold reset: straps are sampled (R402), the host port trains, the entropy test runs. -/
def State.romBegins (s : State) (b : Boot) : State :=
  ({ s with
    glb := { s.glb with bootSrc := b.bootSrc, clkMode := b.clkMode }
    rst := { s.rst with romStart := false } } : State).trainHost.startTest b

/-- COLD_START: the release of a cold reset; the factory-test clock mode does not leave it (R402). A start that waits for entropy or for a
neighbour's image goes on, and one whose cold reset a trip's release has ended begins (R416). -/
def coldStart (b : Boot) (s : State) : State :=
  if s.rst.held = .none ∧ s.rst.startWait then
    let s : State := { s with rst := { s.rst with startWait := false } }
    if s.rst.readyOnce then s.start b else s.startTest b
  else if b.clkMode = 3 then s
  else if s.rst.held = .none ∧ s.rst.romStart then s.romBegins b
  else if s.rst.held ≠ .cold ∨ s.rst.trip then s
  else s.released.romBegins b

/-- WARM_START (R408): the release of a warm reset; before ready has been set once, the cold start runs again (R398). -/
def warmStart (b : Boot) (s : State) : State :=
  if s.rst.held ≠ .warm then s
  else if s.rst.readyOnce then s.released.start b
  else s.released.trainHost.startTest b

/-- HOST_DOWNLOAD_BOOT (R403): the staged set, of the length that SEC_CMD gave, is read, verified and booted; the flash and trial take no
part. -/
def hostDownloadBoot (b : Boot) (s : State) : State :=
  if s.rst.held ≠ .none ∨ s.glb.phase ≠ 8 ∨ !s.sec.download ∨ !s.sec.entropyOk then s
  else
    let s := s.setSec fun x => { x with download := false }
    match b.set with
    | some x => if setSize x = s.sec.stageLen ∧ slotOk s.sec.fuseSvn x then s.startImage b x else s
    | none => s

/-! ### Block resets (15 R399, R400, Table 15.3) -/

/-- The clusters of field f. -/
def inField (f c : Nat) : Bool := c / 16 == f

/-- Is block k of Table 15.3 idle? -/
def State.blockIdle (s : State) (k : Nat) : Bool :=
  if k < 12 then !s.lnk.member || (s.port k).state == .down
  else if k < 16 then
    !(s.liveJobs.any fun j => (List.range 64).any fun c => inField (k - 12) c && j.uses c) &&
      s.var.reg.all fun e => !((e.2.filling || e.2.evicting || e.2.state == .loading) && e.2.cacheParcels.any fun x => inField (k - 12) x.1.val) &&
        !(e.2.oldCopies.flatMap (·.2)).any fun x => inField (k - 12) x.1.val
  else if k = 16 then (s.hif.queues.all fun e => !e.2.enable) && s.hif.vfs == 0
  else if k = 17 then (s.upd.all fun e => e.2.state == .free) && s.coll.isEmpty
  else if k = 19 then s.mem.scrubs.isEmpty
  else if k = 18 ∨ k = 20 then !s.firnBusy && s.mem.refetching.isEmpty && !s.firn.sweepOn
  else !s.hif.evidEn && s.hif.evidBuf.isEmpty

/-- A cluster through a reset of its field: parcels free, lines invalid, semaphores zero. -/
def Cluster.fieldReset (x : Cluster) : Cluster := { x with bytes := [], parcels := [], sems := [], stuck := [] }

/-- What the reset of a block clears. -/
def State.blockClear (s : State) (k : Nat) : State :=
  if k < 12 then
    s.modPort k fun x =>
      { mode := x.mode, enabled := x.enabled, gang := x.gang, retrains := x.retrains, replays := x.replays, stomped := x.stomped
        authDrop := x.authDrop, authFail := x.authFail, noRoute := x.noRoute, badMsg := x.badMsg, replaySat := x.replaySat
        stompSat := x.stompSat, dropSat := x.dropSat, failSat := x.failSat, routeSat := x.routeSat, badSat := x.badSat }
  else if k < 16 then
    let s := foldS s s.var.reg fun s e =>
      if e.2.cacheParcels.any fun x => inField (k - 12) x.1.val then s.releaseCache e.1 e.2 else s
    foldS s ((List.range 64).filter (inField (k - 12))) fun s c => s.modClu c (·.fieldReset)
  else if k = 16 then { s with hif := { s.hif with queues := [], rate := 0, width := 0, vectors := [] } }
  else if k = 20 then s.setFirn fun x => { x with catRead := false }
  else if k = 18 then s.setFirn fun x => { x with sweepOn := false, sweepAt := 0 }
  else s

/-- RST_BLOCK_CTL (R400; bits above 21 are reserved and ignored, 00 R8): all the named blocks, or none with RST_BLOCK_BUSY naming the first that failed. -/
def rstBlockCtl (v : W64) (s : State) : State :=
  s.hostReg fun s =>
    let ks := (List.range 22).filter fun k => bitOf v k
    match ks.find? fun k => !s.blockIdle k || bitOf s.rst.blockAct k with
    | some k => s.raise Ev.rstBlockBusy (argReason k)
    | none =>
      let s := foldS s ks fun s k => s.blockClear k
      { s with rst := { s.rst with blockAct := s.rst.blockAct ||| BitVec.ofNat 22 (bitsOf v 21 0) } }

/-- BLOCK_RESET_DONE (R400): ports train again, placements are laid down again, reports that waited are written, the catalogue
is read again. -/
def blockResetDone (k : Fin 22) (s : State) : State :=
  if !bitOf s.rst.blockAct k.val then s
  else
    let bit : BitVec 22 := BitVec.ofNat 22 (2 ^ k.val)
    let s := { s with rst := { s.rst with blockAct := s.rst.blockAct ^^^ bit, block := s.rst.block ||| bit } }
    let s := s.raise Ev.rstBlockDone { arg := BitVec.ofNat 64 k.val }
    if k.val < 12 then s.modPort k.val fun x => if x.enabled then { x with state := .training } else x
    else if k.val < 16 then
      foldS s (s.firn.current.toList ++ s.firn.old.toList ++ (s.firn.swap.map (·.gen)).toList) fun s g =>
        s.layPlaces g (inField (k.val - 12))
    else if k.val = 16 then s.trainHost.attestTry
    else if k.val = 20 then s.setFirn (·.readCatalogue (true, true))
    else s

/-! ### The meanings -/

/-- POWER_ON_RESET (15 R392). -/
def execPowerOnReset (s : State) : Res := .next (powerOnReset s)
/-- PERST_ASSERT (15 R392). -/
def execPerstAssert (s : State) : Res := .next (perstAssert s)
/-- WARM_RST_ASSERT (15 R392). -/
def execWarmRstAssert (s : State) : Res := .next (warmRstAssert s)
/-- SOFTWARE_RESET (15 R392). -/
def execSoftwareReset (v : W32) (s : State) : Res := .next (softwareReset v s)
/-- WATCHDOG_EXPIRY (15 R394). -/
def execWatchdogExpiry (s : State) : Res := .next (watchdogExpiry s)
/-- RESET_MSG (11 R311). -/
def execResetMsg (m : Msg) (s : State) : Res := .next (resetMsg m s)
/-- THERMAL_TRIP (15 R415). -/
def execThermalTrip (s : State) : Res := .next (thermalTrip s)
/-- TRIP_RELEASE (15 R416). -/
def execTripRelease (s : State) : Res := .next (tripRelease s)
/-- COLD_START (15 R406). -/
def execColdStart (b : Boot) (s : State) : Res := .next (coldStart b s)
/-- WARM_START (15 R408). -/
def execWarmStart (b : Boot) (s : State) : Res := .next (warmStart b s)
/-- HOST_DOWNLOAD_BOOT (15 R403). -/
def execHostDownloadBoot (b : Boot) (s : State) : Res := .next (hostDownloadBoot b s)
/-- RST_BLOCK_CTL (15 R400). -/
def execRstBlockCtl (v : W64) (s : State) : Res := .next (rstBlockCtl v s)
/-- BLOCK_RESET_DONE (15 R400). -/
def execBlockResetDone (k : Fin 22) (s : State) : Res := .next (blockResetDone k s)

end Sys2Proof.Machine
end

