-- ==== Sys2Proof/Machine/Regs.lean ====
section
/-! DEFINITION. Sys2Proof/Machine/Regs.lean: host writes of the registers that have no command row of their own (00 R7, R8, R449; the register tables of chapters 04 to 17). -/

namespace Sys2Proof.Machine

open Sys2Proof

/-- A writable register without a row of its own. -/
inductive Reg where
  | secArg | cfgStageArg | lifePeSel | hifCntStatus | hifEvidBase | hifCkptBase | hifEvidCfg | hifEvidIdx | hifCkptIdx
  | lnkCntStatus (p : PortId) | memTierTemp (f : Nat) | memCtlStatus (m : Nat) | varArg | varPages | varSpages | varStatus
  | firnRing | updCtxStatus (x : CtxId) | updStepLr (x : CtxId) | evtHostBase | evtCfg | evtStatus
  | vecSlotStatus (c : CId) (k : SId) | semStatus (c : CId) | spdStatus (c : CId)
  | wqSqBase (q : QId) | wqCqBase (q : QId) | msixAddr (k : Fin 17) | msixData (k : Fin 17) | msixMask (k : Fin 17)
deriving DecidableEq, Repr

/-- The register of a cluster window (01 R21; 04 R97, 06 Table 6.3, 07 Table 7.10). -/
def windowReg (c : CId) (o : Nat) : Option Reg :=
  if o = 0x3_1010 then some (.semStatus c)
  else if o = 0x3_A008 then some (.spdStatus c)
  else if h : 0x2_0000 ≤ o ∧ o < 0x2_0400 ∧ o % 0x100 = 0 then some (.vecSlotStatus c ⟨(o - 0x2_0000) / 0x100, by omega⟩)
  else none

/-- The register at an offset of BAR0 (13 Table 13.8, 14 Table 14.10, 12 Table 12.11, 11 Table 11.12, 07 Table 7.10, 09 Table
9.13, 08 Table 8.9, 10 Table 10.9, 17 Table 17.4). -/
def bar0Reg (o : Nat) : Option Reg :=
  if o = 0x004_0010 then some .secArg
  else if o = 0x002_0018 then some .cfgStageArg
  else if o = 0x003_0100 then some .lifePeSel
  else if o = 0x008_0010 then some .hifCntStatus
  else if o = 0x008_4000 then some .hifEvidBase
  else if o = 0x008_4008 then some .hifCkptBase
  else if o = 0x008_4010 then some .hifEvidCfg
  else if o = 0x008_4018 then some .hifEvidIdx
  else if o = 0x008_4020 then some .hifCkptIdx
  else if h : 0x010_0000 ≤ o ∧ o < 0x010_0000 + 12 * 0x8000 ∧ o % 0x8000 = 0x040 then
    some (.lnkCntStatus ⟨(o - 0x010_0000) / 0x8000, by omega⟩)
  else if 0x020_0200 ≤ o ∧ o < 0x020_0210 ∧ o % 4 = 0 then some (.memTierTemp ((o - 0x020_0200) / 4))
  else if 0x020_1000 ≤ o ∧ o < 0x020_1000 + 20 * 0x40 ∧ o % 0x40 = 0x20 then some (.memCtlStatus ((o - 0x020_1000) / 0x40))
  else if o = 0x020_8008 then some .varArg
  else if o = 0x020_8010 then some .varPages
  else if o = 0x020_8018 then some .varSpages
  else if o = 0x020_8048 then some .varStatus
  else if o = 0x030_0110 then some .firnRing
  else if h : 0x040_0000 ≤ o ∧ o < 0x040_0000 + 64 * 0x40 ∧ o % 0x40 = 0 then
    some (.updCtxStatus ⟨(o - 0x040_0000) / 0x40, by omega⟩)
  else if h : 0x040_0000 ≤ o ∧ o < 0x040_0000 + 64 * 0x40 ∧ o % 0x40 = 0x18 then
    some (.updStepLr ⟨(o - 0x040_0000) / 0x40, by omega⟩)
  else if o = 0x080_0008 then some .evtHostBase
  else if o = 0x080_0010 then some .evtCfg
  else if o = 0x080_0028 then some .evtStatus
  else if h : 0x100_0000 ≤ o ∧ o < 0x200_0000 then windowReg ⟨(o - 0x100_0000) / 0x4_0000, by omega⟩ (o % 0x4_0000)
  else none

/-- The register at an offset of BAR2 (12 R319; the MSI-X table in the layout of PCI Express: R318). -/
def bar2Reg (o : Nat) : Option Reg :=
  if h : o < 0x8000 ∧ o % 0x800 = 0x00 then some (.wqSqBase ⟨o / 0x800, by omega⟩)
  else if h : o < 0x8000 ∧ o % 0x800 = 0x08 then some (.wqCqBase ⟨o / 0x800, by omega⟩)
  else if h : 0x8000 ≤ o ∧ o < 0x8000 + 17 * 16 then
    let k : Fin 17 := ⟨(o - 0x8000) / 16, by omega⟩
    if o % 16 = 0 then some (.msixAddr k) else if o % 16 = 8 then some (.msixData k) else if o % 16 = 12 then some (.msixMask k)
    else none
  else none

/-- An address register whose low `n` bits are reserved (R8) or below its alignment: they read as zero. -/
def alignedTo (n : Nat) (v : W64) : W64 := v >>> n <<< n

/-- A W1C bit (00 Table 0.4). -/
def w1c (old : Bool) (v : W64) (i : Nat) : Bool := old && !bitOf v i

/-- A run of pages (09 Table 9.15): first page and pages − 1, held as a count. -/
def pageFields (v : W64) : Nat × Nat := (bitsOf v 63 46, bitsOf v 45 28 + 1)

/-- HIF_EVID_CFG (12 Table 12.15): a reserved ring size is ignored as a whole; while enable is 1, only clearing it acts. -/
def Hif.evidCfg (h : Hif) (v : W64) : Hif :=
  let e := bitsOf v 30 26
  let k := bitsOf v 25 21
  if e < 8 ∨ 20 < e ∨ k < 2 ∨ 12 < k then h
  else if h.evidEn then { h with evidEn := bitOf v 31 }
  else { h with evidEn := bitOf v 31, evidLog2 := e, ckptLog2 := k }

/-- EVT_CFG (17 Table 17.6): a reserved ring size is ignored as a whole; host_log2 keeps its value while enable is 1. -/
def Evt.config (e : Evt) (v : W64) : Evt :=
  let n := bitsOf v 30 26
  if n < 8 ∨ 20 < n then e
  else
    { e with
      enable := bitOf v 31, hostLog2 := if e.enable then e.hostLog2 else n, irqSev := bitsOf v 25 24
      coalCount := bitsOf v 23 16, coalUs := bitsOf v 15 6 }

/-- What a write of `v` does to a register of function `f`: RW fields take the value, W1C bits clear, the rest is ignored
(00 R7, R8). -/
def State.writeReg (s : State) (f : FnId) (r : Reg) (v : W64) : State :=
  match r with
  | .secArg => { s with sec := { s.sec with arg := v } }
  | .cfgStageArg => { s with cfg := { s.cfg with stageArg := alignedTo 6 v } }
  | .lifePeSel => { s with life := { s.life with peSel := v.truncate 12 } }
  | .hifCntStatus => { s with hif := { s.hif with dbDropSat := w1c s.hif.dbDropSat v 0 } }
  | .hifEvidBase => { s with hif := { s.hif with evidBase := alignedTo 16 v } }
  | .hifCkptBase => { s with hif := { s.hif with ckptBase := alignedTo 16 v } }
  | .hifEvidCfg => { s with hif := s.hif.evidCfg v }
  | .hifEvidIdx => { s with hif := { s.hif with evidHead := v.extractLsb' 32 32 } }
  | .hifCkptIdx => { s with hif := { s.hif with ckptHead := v.extractLsb' 32 32 } }
  | .lnkCntStatus p => s.modPort p.val fun x => { x with
      badSat := w1c x.badSat v 5, routeSat := w1c x.routeSat v 4, failSat := w1c x.failSat v 3
      dropSat := w1c x.dropSat v 2, stompSat := w1c x.stompSat v 1, replaySat := w1c x.replaySat v 0 }
  | .memTierTemp k =>
    { s with mem := { s.mem with tierOver := mset false s.mem.tierOver k (w1c (mget false s.mem.tierOver k) v 16) } }
  | .memCtlStatus m =>
    let x := s.ctl m
    s.setCtl m { x with
      poisonedSat := w1c x.poisonedSat v 3, refetchesSat := w1c x.refetchesSat v 2, replaysSat := w1c x.replaysSat v 1
      missSat := w1c x.missSat v 0 }
  | .varArg => { s with var := { s.var with arg := alignedTo 12 v } }
  | .varPages => { s with var := { s.var with pFirst := (pageFields v).1, pCount := (pageFields v).2 } }
  | .varSpages => { s with var := { s.var with sFirst := (pageFields v).1, sCount := (pageFields v).2 } }
  | .varStatus =>
    { s with var := { s.var with
        evictionsSat := w1c s.var.evictionsSat v 2, fillFailsSat := w1c s.var.fillFailsSat v 1
        fillsSat := w1c s.var.fillsSat v 0 } }
  | .firnRing => { s with firn := { s.firn with ring := alignedTo 12 v } }
  | .updCtxStatus k => s.modCtx k.val fun x => { x with
      skewSat := w1c x.skewSat v 3, staleSat := w1c x.staleSat v 2, frozenSat := w1c x.frozenSat v 1
      skippedSat := w1c x.skippedSat v 0 }
  | .updStepLr k => s.modCtx k.val fun x => { x with lrTag := v.extractLsb' 32 32, lr := v.truncate 32 }
  | .evtHostBase => if s.evt.enable then s else { s with evt := { s.evt with hostBase := alignedTo 12 v } }
  | .evtCfg => ({ s with evt := s.evt.config v } : State).mirrorDue
  | .evtStatus => { s with evt := { s.evt with lostSat := w1c s.evt.lostSat v 0 } }
  | .vecSlotStatus c k => s.modVctx c.val k.val fun x => { x with
      flags := { intSat := w1c x.flags.intSat v 4, overflow := w1c x.flags.overflow v 3, dz := w1c x.flags.dz v 2
                 invalid := w1c x.flags.invalid v 1, nanIn := w1c x.flags.nanIn v 0 } }
  | .semStatus c => s.modClu c.val fun x => { x with semDropSat := w1c x.semDropSat v 0 }
  | .spdStatus c => s.modClu c.val fun x => { x with missSat := w1c x.missSat v 0 }
  | .msixAddr k => s.setVector f k.val { s.vector f k.val with addr := alignedTo 2 v }
  | .msixData k => s.setVector f k.val { s.vector f k.val with data := v.truncate 32 }
  | .msixMask k => s.maskVector f k.val (bitOf v 0)
  | .wqSqBase q => s.modQueue f q fun x => { x with sqBase := alignedTo 12 v }
  | .wqCqBase q => s.modQueue f q fun x => { x with cqBase := alignedTo 12 v }

/-- NumVFs with VF Enable set, in the physical function's SR-IOV capability (12 R317): up to 63 virtual functions; while they
are enabled their number stays (PRESUMED, as SR-IOV has it: log 19). Clearing VF Enable is VF_ENABLE_CLEAR. -/
def State.enableVfs (s : State) (f : FnId) (n : Nat) : State :=
  if f.val = 0 ∧ s.rst.held = .none ∧ s.hif.vfs = 0 ∧ n ≤ 63 then { s with hif := { s.hif with vfs := n } } else s

/-- REGISTER_WRITE (00 R449, 15 R409): the physical function alone has BAR0 (12 R318); before ready only SEC_ARG of these
takes a write, and the SR-IOV capability; an offset that no register without its own row names is ignored. The debugger writes control space
at level 2 and above (13 R367), as the physical function writes it. -/
def registerWrite (f : FnId) (space : RegSpace) (off : Nat) (v : W64) (s : State) : State :=
  let reg (f : FnId) (r : Option Reg) : State :=
    match r with
    | none => s
    | some .secArg => if s.rst.held = .none then s.writeReg f .secArg v else s
    | some r => s.fnReg f fun s => s.writeReg f r v
  match space with
  | .bar0 => reg f (if f.val = 0 then bar0Reg off else none)
  | .bar2 => reg f (bar2Reg off)
  | .debug => if 2 ≤ s.sec.debugLevel then reg 0 (bar0Reg off) else s
  | .sriov => s.enableVfs f v.toNat

/-- REGISTER_WRITE (00 R449). -/
def execRegisterWrite (f : FnId) (space : RegSpace) (off : Nat) (v : W64) (s : State) : Res :=
  .next (registerWrite f space off v s)

end Sys2Proof.Machine
end

