-- ==== Sys2Proof/Machine/Route.lean ====
section
/-! DEFINITION. Sys2Proof/Machine/Route.lean: ROUTE TOPK, GATHER, SCATTER and DISPATCH (05 R121 to R123, R450). -/

namespace Sys2Proof.Machine

open Sys2Proof

/-- k of a ROUTE instruction. -/
def Env.routeK (e : Env) : Nat := e.f 81 76 + 1

/-- The semaphore of a ROUTE: in the cluster that holds dst, or of the issuing cluster's number where dst lies in device
memory; for TOPK (no dst) in this cluster (05 Table 5.10). -/
def Env.routeSem (e : Env) (node : NodeId) (dst : Option Tile) : Option SemRef :=
  if e.f 75 75 = 1 then
    let c : CId := match dst with
      | some t => if t.addr.dev then e.c else ⟨spdCluster t.addr.a, Nat.mod_lt _ (by decide)⟩
      | none => e.c
    some ⟨node, c, e.f 73 64⟩
  else none

/-- Position in entry i of a record row, and its value. -/
def recEntry (s : State) (r : Req) (rec : Addr) (k row i : Nat) : TopEntry :=
  let b := s.read r (rec.plus (8 * k * row + 8 * i)) 8
  ⟨leAt b 0 4, leAt b 4 4⟩

/-- The first entry of record row r with position p, if any. -/
def recFind (s : State) (r : Req) (rec : Addr) (k row p : Nat) : Option TopEntry :=
  ((List.range k).map fun i => recEntry s r rec k row i).find? fun t => t.pos == p

/-- Element i of an index tile. -/
def auxAt (s : State) (r : Req) (aux : Tile) (i : Nat) : Nat := s.elem r aux 0 i

/-- A ROUTE whose static checks have passed: semaphore, hazards, poison and parity of what it reads (the record rows, its source,
the index tile that a SCATTER follows); then `k`, which checks what it reads before any write. -/
def Env.routeIssue (e : Env) (s : State) (sem : Option SemRef) (src : Tile) (rec : Addr) (recRows : Nat) (aux : List Tile)
    (rs : List Rng)
    (k : State → Except Fail State) : Ans :=
  .of (semCheck s e.job sem) fun _ =>
    if e.y.crowded rs.length || e.y.hazard rs none then .stall
    else
      let reads := (rec, 8 * e.routeK * recRows) :: (src.reads ++ aux.flatMap (·.reads))
      .of (poisonAll s e.req reads) fun _ =>
        .after (spdParity (s.noteReads e.who reads) e.who reads e.readBad) fun s' =>
          match k s' with
          | .ok s'' => .ok (s''.addOut e .route rs sem none)
          | .error f => .failIn s' f

/-- TOPK merges each row of src into the record (05 R123). -/
def topkBody (e : Env) (s : State) : Ans :=
  .of (e.tile s (e.f 101 92)) fun src =>
    if src.fmt ≠ .fp32 ∧ src.fmt ≠ .bf16 ∧ src.fmt ≠ .int32 then .fail { code := Ev.vecOpBad }
    else
      .of (mAddr s e.c e.y (e.f 63 32) (8 * e.routeK * src.rows) 8) fun rec =>
        e.routeIssue s (e.routeSem s.lnk.node none) src rec src.rows [] [src.rng false, rec.rng (8 * e.routeK * src.rows) true] fun t =>
          .ok (foldS t (List.range src.rows) fun t i =>
            t.mergeTop e.who rec i e.routeK src.fmt.isInt
              ((s.tileRow e.req src i).zipIdx.map fun x => ⟨topValue src.fmt x.1, (e.f 31 0 + x.2) % 2 ^ 32⟩))

/-- Rows of src that qualify for expert p, ascending (05 R122). -/
def gatherRows (s : State) (r : Req) (rec : Addr) (k rows p : Nat) : List Nat :=
  (List.range rows).filter fun i => (recFind s r rec k i p).isSome

/-- The writes of GATHER and DISPATCH (05 R122): the rows, the zero rows up to a multiple of 32, the indices, the count. -/
def gatherWrite (e : Env) (node : Option NodeId) (s0 : State) (src dst aux : Tile) (rows : List Nat) (t : State) : State :=
  let n := rows.length
  let stop := min (if n = 0 then 32 else alignUp n 32) dst.rows
  let t := foldS t rows.zipIdx fun t x =>
    t.put e.who node (dst.rowAddr x.2) (s0.read e.req (src.rowAddr x.1) src.rowBytes)
  let t := foldS t ((List.range (stop - n)).map (· + n)) fun t i =>
    t.put e.who node (dst.rowAddr i) (List.replicate dst.rowBytes 0)
  t.put e.who node aux.addr (leBytes 4 n ++ rows.flatMap fun r => leBytes 4 r)

/-- GATHER and DISPATCH (05 R122, R450); `node` where dst and aux lie. -/
def gatherBody (remote : Bool) (e : Env) (s : State) : Ans :=
  let node : NodeId := if remote then BitVec.ofNat 16 (e.f 31 16) else s.lnk.node
  .of (e.tile s (e.f 111 102)) fun dst =>
  .of (e.tile s (e.f 101 92)) fun src =>
  .of (e.tile s (e.f 91 82)) fun aux =>
  .of (mAddr s e.c e.y (e.f 63 32) (8 * e.routeK * src.rows) 8) fun rec =>
    if aux.fmt ≠ .int32 ∨ aux.rows ≠ 1 ∨ aux.cols < dst.rows + 1 ∨ src.fmt ≠ dst.fmt ∨ src.cols ≠ dst.cols ∨
        src.fmt = .run then
      .fail { code := Ev.seqTile }
    else
      let here := node = s.lnk.node
      let rs := [src.rng false, rec.rng (8 * e.routeK * src.rows) false] ++
        if here then [dst.rng true, aux.rng true] else []
      e.routeIssue s (e.routeSem node (some dst)) src rec src.rows [] rs fun t =>
        let rows := gatherRows s e.req rec e.routeK src.rows (e.f 15 0)
        if dst.rows < rows.length then .error { code := Ev.routeCap }
        else .ok (gatherWrite e (some node) s src dst aux rows t)

/-- dst[r] + g × src[i], each one FP32 operation with RNE, rounded back for a BF16 dst (05 R123). -/
def scatterElem (fd fs : Fmt) (g : W32) (old x : Nat) : Nat :=
  let y := fadd (fd.f32 old) (fmul g (fs.f32 x))
  if fd = .bf16 then fmtBF16.round (f32 y) else y.toNat

/-- SCATTER (05 R123, R450). Every row of src is read as it was before the instruction, also where dst overlaps src: the spec is
silent (DESIGN CHOICE, log 12). -/
def scatterBody (e : Env) (s : State) : Ans :=
  .of (e.tile s (e.f 111 102)) fun dst =>
  .of (e.tile s (e.f 101 92)) fun src =>
  .of (e.tile s (e.f 91 82)) fun aux =>
  .of (mAddr s e.c e.y (e.f 63 32) (8 * e.routeK * dst.rows) 8) fun rec =>
    let fl (f : Fmt) : Bool := f == .fp32 || f == .bf16
    if aux.fmt ≠ .int32 ∨ aux.rows ≠ 1 ∨ aux.cols < src.rows + 1 ∨ !fl dst.fmt ∨ !fl src.fmt ∨ src.cols ≠ dst.cols then
      .fail { code := Ev.seqTile }
    else
      e.routeIssue s (e.routeSem s.lnk.node (some dst)) src rec dst.rows [aux]
          [src.rng false, aux.rng false, rec.rng (8 * e.routeK * dst.rows) false, dst.rng true] fun t =>
        let n := auxAt s e.req aux 0
        let rows := (List.range (min n src.rows)).map fun i => auxAt s e.req aux (i + 1)
        if src.rows < n ∨ rows.any fun r => decide (dst.rows ≤ r) then .error { code := Ev.seqTile }
        else
          .ok (foldS t rows.zipIdx fun t x =>
            match recFind s e.req rec e.routeK x.1 (e.f 15 0) with
            | none => t
            | some en =>
              let g : W32 := BitVec.ofNat 32 en.value
              t.putRow e.who dst x.1 (((t.tileRow e.req dst x.1).zip (s.tileRow e.req src x.2)).map fun y =>
                scatterElem dst.fmt src.fmt g y.1 y.2))

/-- TOPK (05 R123). -/
def execTopk (i : Issue) (s : State) : Res := .next (s.issue i (rowCode 6 0 0) topkBody)
/-- GATHER (05 R122). -/
def execGather (i : Issue) (s : State) : Res := .next (s.issue i (rowCode 6 1 0) (gatherBody false))
/-- SCATTER (05 R123). -/
def execScatter (i : Issue) (s : State) : Res := .next (s.issue i (rowCode 6 2 0) scatterBody)
/-- DISPATCH (05 R122). -/
def execDispatch (i : Issue) (s : State) : Res := .next (s.issue i (rowCode 6 3 0) (gatherBody true))

end Sys2Proof.Machine
end

