-- ==== Sys2Proof/Machine/Dispatch.lean ====
section
/-! DEFINITION. Sys2Proof/Machine/Dispatch.lean: one arm per command, each a direct call of its meaning. -/

namespace Sys2Proof.Machine

open Sys2Proof

/-- What a command does to everything but the queue. -/
def exec (i : Instr) (s : State) : Host.Outcome State Fault Refusal :=
  match i with
  | .paceUpdate mon => Sys2Proof.Machine.execPaceUpdate mon s
  | .moveCopy iss => Sys2Proof.Machine.execMoveCopy iss s
  | .moveConv iss => Sys2Proof.Machine.execMoveConv iss s
  | .moveFill iss => Sys2Proof.Machine.execMoveFill iss s
  | .mmaOpen iss => Sys2Proof.Machine.execMmaOpen iss s
  | .mmaAcc iss => Sys2Proof.Machine.execMmaAcc iss s
  | .mmaSide iss => Sys2Proof.Machine.execMmaSide iss s
  | .mmaClose iss => Sys2Proof.Machine.execMmaClose iss s
  | .chunkEnd c g bad => Sys2Proof.Machine.execChunkEnd c g bad s
  | .epilogue c g bad => Sys2Proof.Machine.execEpilogue c g bad s
  | .closeDone c g => Sys2Proof.Machine.execCloseDone c g s
  | .vecAdd iss => Sys2Proof.Machine.execVecAdd iss s
  | .vecSub iss => Sys2Proof.Machine.execVecSub iss s
  | .vecMul iss => Sys2Proof.Machine.execVecMul iss s
  | .vecFma iss => Sys2Proof.Machine.execVecFma iss s
  | .vecMin iss => Sys2Proof.Machine.execVecMin iss s
  | .vecMax iss => Sys2Proof.Machine.execVecMax iss s
  | .vecAbs iss => Sys2Proof.Machine.execVecAbs iss s
  | .vecNeg iss => Sys2Proof.Machine.execVecNeg iss s
  | .vecCmp iss => Sys2Proof.Machine.execVecCmp iss s
  | .vecSel iss => Sys2Proof.Machine.execVecSel iss s
  | .vecMov iss => Sys2Proof.Machine.execVecMov iss s
  | .vecDiv iss => Sys2Proof.Machine.execVecDiv iss s
  | .vecSqrt iss => Sys2Proof.Machine.execVecSqrt iss s
  | .vecRcp iss => Sys2Proof.Machine.execVecRcp iss s
  | .vecRsqrt iss => Sys2Proof.Machine.execVecRsqrt iss s
  | .vecExp2 iss => Sys2Proof.Machine.execVecExp2 iss s
  | .vecLog2 iss => Sys2Proof.Machine.execVecLog2 iss s
  | .vecExp iss => Sys2Proof.Machine.execVecExp iss s
  | .vecLog iss => Sys2Proof.Machine.execVecLog iss s
  | .vecTanh iss => Sys2Proof.Machine.execVecTanh iss s
  | .vecSigmoid iss => Sys2Proof.Machine.execVecSigmoid iss s
  | .vecErf iss => Sys2Proof.Machine.execVecErf iss s
  | .vecGelu iss => Sys2Proof.Machine.execVecGelu iss s
  | .vecSilu iss => Sys2Proof.Machine.execVecSilu iss s
  | .vecSin iss => Sys2Proof.Machine.execVecSin iss s
  | .vecCos iss => Sys2Proof.Machine.execVecCos iss s
  | .vecIadd iss => Sys2Proof.Machine.execVecIadd iss s
  | .vecIsub iss => Sys2Proof.Machine.execVecIsub iss s
  | .vecImul iss => Sys2Proof.Machine.execVecImul iss s
  | .vecAnd iss => Sys2Proof.Machine.execVecAnd iss s
  | .vecOr iss => Sys2Proof.Machine.execVecOr iss s
  | .vecXor iss => Sys2Proof.Machine.execVecXor iss s
  | .vecShl iss => Sys2Proof.Machine.execVecShl iss s
  | .vecShr iss => Sys2Proof.Machine.execVecShr iss s
  | .vecSra iss => Sys2Proof.Machine.execVecSra iss s
  | .vecImin iss => Sys2Proof.Machine.execVecImin iss s
  | .vecImax iss => Sys2Proof.Machine.execVecImax iss s
  | .vecAddsat iss => Sys2Proof.Machine.execVecAddsat iss s
  | .vecSubsat iss => Sys2Proof.Machine.execVecSubsat iss s
  | .vecIcmp iss => Sys2Proof.Machine.execVecIcmp iss s
  | .vecCvt iss => Sys2Proof.Machine.execVecCvt iss s
  | .vecRsum iss => Sys2Proof.Machine.execVecRsum iss s
  | .vecRmax iss => Sys2Proof.Machine.execVecRmax iss s
  | .vecRmin iss => Sys2Proof.Machine.execVecRmin iss s
  | .vecLd iss => Sys2Proof.Machine.execVecLd iss s
  | .vecSt iss => Sys2Proof.Machine.execVecSt iss s
  | .vecGather iss => Sys2Proof.Machine.execVecGather iss s
  | .vecScatter iss => Sys2Proof.Machine.execVecScatter iss s
  | .vecScatadd iss => Sys2Proof.Machine.execVecScatadd iss s
  | .vecBcast iss => Sys2Proof.Machine.execVecBcast iss s
  | .vecRraw iss => Sys2Proof.Machine.execVecRraw iss s
  | .vecRuni iss => Sys2Proof.Machine.execVecRuni iss s
  | .vecRbern iss => Sys2Proof.Machine.execVecRbern iss s
  | .vecLdgen iss => Sys2Proof.Machine.execVecLdgen iss s
  | .vecTopk iss => Sys2Proof.Machine.execVecTopk iss s
  | .vecSetvl iss => Sys2Proof.Machine.execVecSetvl iss s
  | .vecMld iss => Sys2Proof.Machine.execVecMld iss s
  | .vecMst iss => Sys2Proof.Machine.execVecMst iss s
  | .vecMand iss => Sys2Proof.Machine.execVecMand iss s
  | .vecMor iss => Sys2Proof.Machine.execVecMor iss s
  | .vecMnot iss => Sys2Proof.Machine.execVecMnot iss s
  | .signalOp iss => Sys2Proof.Machine.execSignalOp iss s
  | .waitTake iss => Sys2Proof.Machine.execWaitTake iss s
  | .waitObs iss => Sys2Proof.Machine.execWaitObs iss s
  | .barrier iss => Sys2Proof.Machine.execBarrier iss s
  | .syncSet iss => Sys2Proof.Machine.execSyncSet iss s
  | .nop iss => Sys2Proof.Machine.execNop iss s
  | .endOp iss => Sys2Proof.Machine.execEndOp iss s
  | .br iss => Sys2Proof.Machine.execBr iss s
  | .loopOp iss => Sys2Proof.Machine.execLoopOp iss s
  | .setx iss => Sys2Proof.Machine.execSetx iss s
  | .addx iss => Sys2Proof.Machine.execAddx iss s
  | .mulx iss => Sys2Proof.Machine.execMulx iss s
  | .ptestOccupancy iss => Sys2Proof.Machine.execPtestOccupancy iss s
  | .ptestRouterCount iss => Sys2Proof.Machine.execPtestRouterCount iss s
  | .ptestBelow iss => Sys2Proof.Machine.execPtestBelow iss s
  | .ptestEqual iss => Sys2Proof.Machine.execPtestEqual iss s
  | .ptestAnd iss => Sys2Proof.Machine.execPtestAnd iss s
  | .ptestOr iss => Sys2Proof.Machine.execPtestOr iss s
  | .ldtd iss => Sys2Proof.Machine.execLdtd iss s
  | .ldbase iss => Sys2Proof.Machine.execLdbase iss s
  | .ldscl iss => Sys2Proof.Machine.execLdscl iss s
  | .ldx iss => Sys2Proof.Machine.execLdx iss s
  | .topk iss => Sys2Proof.Machine.execTopk iss s
  | .gather iss => Sys2Proof.Machine.execGather iss s
  | .scatter iss => Sys2Proof.Machine.execScatter iss s
  | .dispatch iss => Sys2Proof.Machine.execDispatch iss s
  | .instrComplete c k id => Sys2Proof.Machine.execInstrComplete c k id s
  | .streamEnd c k => Sys2Proof.Machine.execStreamEnd c k s
  | .semSet c v control => Sys2Proof.Machine.execSemSet c v control s
  | .signalMsg m sem n => Sys2Proof.Machine.execSignalMsg m sem n s
  | .signalAck m sem applied => Sys2Proof.Machine.execSignalAck m sem applied s
  | .arrive m b step => Sys2Proof.Machine.execArrive m b step s
  | .release m b step removed => Sys2Proof.Machine.execRelease m b step removed s
  | .barrierAbort m b skew => Sys2Proof.Machine.execBarrierAbort m b skew s
  | .memRetag v => Sys2Proof.Machine.execMemRetag v s
  | .pageAssign v => Sys2Proof.Machine.execPageAssign v s
  | .pageScrub v => Sys2Proof.Machine.execPageScrub v s
  | .pageQuery v => Sys2Proof.Machine.execPageQuery v s
  | .scrubDone first => Sys2Proof.Machine.execScrubDone first s
  | .lpddrParityFail a tag replays => Sys2Proof.Machine.execLpddrParityFail a tag replays s
  | .lineRefetch a tag firnOk readBack => Sys2Proof.Machine.execLineRefetch a tag firnOk readBack s
  | .wckTracking m => Sys2Proof.Machine.execWckTracking m s
  | .mr4Poll m rate => Sys2Proof.Machine.execMr4Poll m rate s
  | .sramStepSample t => Sys2Proof.Machine.execSramStepSample t s
  | .sramOver f => Sys2Proof.Machine.execSramOver f s
  | .firnInstall v => Sys2Proof.Machine.execFirnInstall v s
  | .firnErase v => Sys2Proof.Machine.execFirnErase v s
  | .firnSwap v => Sys2Proof.Machine.execFirnSwap v s
  | .firnAbortInstall v => Sys2Proof.Machine.execFirnAbortInstall v s
  | .firnRingDoorbell prod => Sys2Proof.Machine.execFirnRingDoorbell prod s
  | .installFrame m f bad unread => Sys2Proof.Machine.execInstallFrame m f bad unread s
  | .installOpen m dst head slot positions => Sys2Proof.Machine.execInstallOpen m dst head slot positions s
  | .installAbort m dst onward slot => Sys2Proof.Machine.execInstallAbort m dst onward slot s
  | .installComplete m => Sys2Proof.Machine.execInstallComplete m s
  | .slotEraseDone slot bad => Sys2Proof.Machine.execSlotEraseDone slot bad s
  | .swapPrepare m slot g tag version => Sys2Proof.Machine.execSwapPrepare m slot g tag version s
  | .thawDone bad unread => Sys2Proof.Machine.execThawDone bad unread s
  | .thawReady m node g => Sys2Proof.Machine.execThawReady m node g s
  | .commitMsg m g => Sys2Proof.Machine.execCommitMsg m g s
  | .swapAbort m g refused => Sys2Proof.Machine.execSwapAbort m g refused s
  | .swapSettle recorded done => Sys2Proof.Machine.execSwapSettle recorded done s
  | .oldGenFree => Sys2Proof.Machine.execOldGenFree s
  | .sweepSegment old seg same firnOk again => Sys2Proof.Machine.execSweepSegment old seg same firnOk again s
  | .firnDailyCheck mismatch unread => Sys2Proof.Machine.execFirnDailyCheck mismatch unread s
  | .firnHotStop => Sys2Proof.Machine.execFirnHotStop s
  | .firnHotResume => Sys2Proof.Machine.execFirnHotResume s
  | .varRegister v d => Sys2Proof.Machine.execVarRegister v d s
  | .varLoad v img firnOk => Sys2Proof.Machine.execVarLoad v img firnOk s
  | .varLoadDone vid => Sys2Proof.Machine.execVarLoadDone vid s
  | .varUnload v => Sys2Proof.Machine.execVarUnload v s
  | .varImageWrite vid => Sys2Proof.Machine.execVarImageWrite vid s
  | .varEvict v => Sys2Proof.Machine.execVarEvict v s
  | .evictRelease vid => Sys2Proof.Machine.execEvictRelease vid s
  | .varPublish v => Sys2Proof.Machine.execVarPublish v s
  | .varRemove v => Sys2Proof.Machine.execVarRemove v s
  | .varUnregister v dormant => Sys2Proof.Machine.execVarUnregister v dormant s
  | .varStateOut v => Sys2Proof.Machine.execVarStateOut v s
  | .stateOutWrite vid => Sys2Proof.Machine.execStateOutWrite vid s
  | .varStateIn v img => Sys2Proof.Machine.execVarStateIn v img s
  | .varQuery v => Sys2Proof.Machine.execVarQuery v s
  | .registryUpdate m vid d => Sys2Proof.Machine.execRegistryUpdate m vid d s
  | .publishCommit m vid g => Sys2Proof.Machine.execPublishCommit m vid g s
  | .removeMsg m vid => Sys2Proof.Machine.execRemoveMsg m vid s
  | .removed m vid => Sys2Proof.Machine.execRemoved m vid s
  | .cacheFillDone vid => Sys2Proof.Machine.execCacheFillDone vid s
  | .gradSlice tag vid layer step => Sys2Proof.Machine.execGradSlice tag vid layer step s
  | .stepVote x bad => Sys2Proof.Machine.execStepVote x bad s
  | .vote m step bad norms rd => Sys2Proof.Machine.execVote m step bad norms rd s
  | .verdict m v rd => Sys2Proof.Machine.execVerdict m v rd s
  | .layerUpdateDone x layer bad => Sys2Proof.Machine.execLayerUpdateDone x layer bad s
  | .parkedApply vid => Sys2Proof.Machine.execParkedApply vid s
  | .wqStepLr f q v => Sys2Proof.Machine.execWqStepLr f q v s
  | .collectiveRun tag entry bad => Sys2Proof.Machine.execCollectiveRun tag entry bad s
  | .collective m data bad => Sys2Proof.Machine.execCollective m data bad s
  | .portTrained p ok => Sys2Proof.Machine.execPortTrained p ok s
  | .keyOffer p x => Sys2Proof.Machine.execKeyOffer p x s
  | .keyCiphertext p ct => Sys2Proof.Machine.execKeyCiphertext p ct s
  | .flitReceive p f old => Sys2Proof.Machine.execFlitReceive p f old s
  | .rxSilenceTimeout p => Sys2Proof.Machine.execRxSilenceTimeout p s
  | .laneLockLoss p => Sys2Proof.Machine.execLaneLockLoss p s
  | .retrainDone p ok => Sys2Proof.Machine.execRetrainDone p ok s
  | .rstFlit p => Sys2Proof.Machine.execRstFlit p s
  | .writeMsg m a data => Sys2Proof.Machine.execWriteMsg m a data s
  | .hello m peerPort sameHash glb => Sys2Proof.Machine.execHello m peerPort sameHash glb s
  | .join m node seen key => Sys2Proof.Machine.execJoin m node seen key s
  | .admitMsg m members keys g slot registry seen bad unread => Sys2Proof.Machine.execAdmitMsg m members keys g slot registry seen bad unread s
  | .leave m => Sys2Proof.Machine.execLeave m s
  | .lost m nodes reset => Sys2Proof.Machine.execLost m nodes reset s
  | .neighbourLossTimeout node => Sys2Proof.Machine.execNeighbourLossTimeout node s
  | .rekeyThreshold p d => Sys2Proof.Machine.execRekeyThreshold p d s
  | .keyExhausted p d => Sys2Proof.Machine.execKeyExhausted p d s
  | .lnkLeave v => Sys2Proof.Machine.execLnkLeave v s
  | .leaveSend => Sys2Proof.Machine.execLeaveSend s
  | .lnkRejoin v => Sys2Proof.Machine.execLnkRejoin v s
  | .lnkRekey v => Sys2Proof.Machine.execLnkRekey v s
  | .resetMsg m => Sys2Proof.Machine.execResetMsg m s
  | .quiet m => Sys2Proof.Machine.execQuiet m s
  | .bootImageRequest p => Sys2Proof.Machine.execBootImageRequest p s
  | .wqDoorbell f q tail => Sys2Proof.Machine.execWqDoorbell f q tail s
  | .descriptorConsume f q d bad => Sys2Proof.Machine.execDescriptorConsume f q d bad s
  | .wqCqHead f q v => Sys2Proof.Machine.execWqCqHead f q v s
  | .wqCfg f q v => Sys2Proof.Machine.execWqCfg f q v s
  | .hifWqBind f q v => Sys2Proof.Machine.execHifWqBind f q v s
  | .setup m jobId members est g dom keys bad => Sys2Proof.Machine.execSetup m jobId members est g dom keys bad s
  | .accept m node origin => Sys2Proof.Machine.execAccept m node origin s
  | .refuse m node origin status => Sys2Proof.Machine.execRefuse m node origin status s
  | .go m => Sys2Proof.Machine.execGo m s
  | .jobAbort m status event => Sys2Proof.Machine.execJobAbort m status event s
  | .setupHoldTimeout jobId => Sys2Proof.Machine.execSetupHoldTimeout jobId s
  | .inputDmaDone tag l => Sys2Proof.Machine.execInputDmaDone tag l s
  | .jobStart tag bad => Sys2Proof.Machine.execJobStart tag bad s
  | .jobOutput tag l bad => Sys2Proof.Machine.execJobOutput tag l bad s
  | .jobComplete tag => Sys2Proof.Machine.execJobComplete tag s
  | .functionLevelReset f => Sys2Proof.Machine.execFunctionLevelReset f s
  | .vfEnableClear => Sys2Proof.Machine.execVfEnableClear s
  | .d3hotEntry f => Sys2Proof.Machine.execD3hotEntry f s
  | .busMasterClear f => Sys2Proof.Machine.execBusMasterClear f s
  | .fenceRelease f => Sys2Proof.Machine.execFenceRelease f s
  | .evidenceWrite => Sys2Proof.Machine.execEvidenceWrite s
  | .checkpoint => Sys2Proof.Machine.execCheckpoint s
  | .interruptCoalesceTimeout f q mirror => Sys2Proof.Machine.execInterruptCoalesceTimeout f q mirror s
  | .secOpen v => Sys2Proof.Machine.execSecOpen v s
  | .secProvision v arg => Sys2Proof.Machine.execSecProvision v arg s
  | .secExport v key => Sys2Proof.Machine.execSecExport v key s
  | .secClearExport v => Sys2Proof.Machine.execSecClearExport v s
  | .secRemove v => Sys2Proof.Machine.execSecRemove v s
  | .tenantRetire d => Sys2Proof.Machine.execTenantRetire d s
  | .removalRelease d => Sys2Proof.Machine.execRemovalRelease d s
  | .secAttest v req => Sys2Proof.Machine.execSecAttest v req s
  | .secStage v => Sys2Proof.Machine.execSecStage v s
  | .stageVerifyDone x => Sys2Proof.Machine.execStageVerifyDone x s
  | .secCancel v => Sys2Proof.Machine.execSecCancel v s
  | .secCommitSvn v => Sys2Proof.Machine.execSecCommitSvn v s
  | .attKeyReady => Sys2Proof.Machine.execAttKeyReady s
  | .drbgReseed => Sys2Proof.Machine.execDrbgReseed s
  | .trngHealthFail => Sys2Proof.Machine.execTrngHealthFail s
  | .trngFailTimeout => Sys2Proof.Machine.execTrngFailTimeout s
  | .jtagIdcode => Sys2Proof.Machine.execJtagIdcode s
  | .jtagBypass => Sys2Proof.Machine.execJtagBypass s
  | .jtagChallenge => Sys2Proof.Machine.execJtagChallenge s
  | .jtagToken level challenge idd signer => Sys2Proof.Machine.execJtagToken level challenge idd signer s
  | .jtagLevelClear => Sys2Proof.Machine.execJtagLevelClear s
  | .cfgStageLoad v => Sys2Proof.Machine.execCfgStageLoad v s
  | .cfgStageDmaDone data => Sys2Proof.Machine.execCfgStageDmaDone data s
  | .cfgStageDiscard v => Sys2Proof.Machine.execCfgStageDiscard v s
  | .cfgCheck v => Sys2Proof.Machine.execCfgCheck v s
  | .cfgCommit v => Sys2Proof.Machine.execCfgCommit v s
  | .cfgCommitInstant => Sys2Proof.Machine.execCfgCommitInstant s
  | .lifeHostTime v => Sys2Proof.Machine.execLifeHostTime v s
  | .lifeSave v => Sys2Proof.Machine.execLifeSave v s
  | .lifeRecordTimer => Sys2Proof.Machine.execLifeRecordTimer s
  | .lifeRecordDone => Sys2Proof.Machine.execLifeRecordDone s
  | .lifeSecond => Sys2Proof.Machine.execLifeSecond s
  | .thermalExcursionStart => Sys2Proof.Machine.execThermalExcursionStart s
  | .thermalExcursionEnd => Sys2Proof.Machine.execThermalExcursionEnd s
  | .powerOnReset => Sys2Proof.Machine.execPowerOnReset s
  | .perstAssert => Sys2Proof.Machine.execPerstAssert s
  | .warmRstAssert => Sys2Proof.Machine.execWarmRstAssert s
  | .softwareReset v => Sys2Proof.Machine.execSoftwareReset v s
  | .watchdogExpiry => Sys2Proof.Machine.execWatchdogExpiry s
  | .thermalTrip => Sys2Proof.Machine.execThermalTrip s
  | .tripRelease => Sys2Proof.Machine.execTripRelease s
  | .coldStart b => Sys2Proof.Machine.execColdStart b s
  | .warmStart b => Sys2Proof.Machine.execWarmStart b s
  | .hostDownloadBoot b => Sys2Proof.Machine.execHostDownloadBoot b s
  | .rstBlockCtl v => Sys2Proof.Machine.execRstBlockCtl v s
  | .blockResetDone k => Sys2Proof.Machine.execBlockResetDone k s
  | .throttleSample x => Sys2Proof.Machine.execThrottleSample x s
  | .powerGovernorTick avg1ms avg10us => Sys2Proof.Machine.execPowerGovernorTick avg1ms avg10us s
  | .avsReadback mv => Sys2Proof.Machine.execAvsReadback mv s
  | .avsTimeout => Sys2Proof.Machine.execAvsTimeout s
  | .pwrCtl v => Sys2Proof.Machine.execPwrCtl v s
  | .restEntry => Sys2Proof.Machine.execRestEntry s
  | .restWake => Sys2Proof.Machine.execRestWake s
  | .smbusRequest x => Sys2Proof.Machine.execSmbusRequest x s
  | .eventMergeWindow code unit sub tag => Sys2Proof.Machine.execEventMergeWindow code unit sub tag s
  | .eventMirror => Sys2Proof.Machine.execEventMirror s
  | .evtIdxHead v => Sys2Proof.Machine.execEvtIdxHead v s
  | .registerWrite f space off v => Sys2Proof.Machine.execRegisterWrite f space off v s
  | .healthTestRecovery => Sys2Proof.Machine.execHealthTestRecovery s
  | .revoke m d => Sys2Proof.Machine.execRevoke m d s
  | .memberAnnounce m node seen key => Sys2Proof.Machine.execMemberAnnounce m node seen key s
  | .retagComplete => Sys2Proof.Machine.execRetagComplete s
  | .publishCopyDone vid => Sys2Proof.Machine.execPublishCopyDone vid s
  | .publishReady m node vid ok => Sys2Proof.Machine.execPublishReady m node vid ok s

end Sys2Proof.Machine
end

