-- ==== Sys2Proof/Machine/Read.lean ====
section
/-! DEFINITION. Sys2Proof/Machine/Read.lean: what a host read of a register returns (00 R7, R8; 01 R21; the register tables of chapters 01 to 17). -/

namespace Sys2Proof.Machine

open Sys2Proof

/-! ### State codes -/

def cmdCode : CmdState → Nat
  | .idle => 0 | .busy => 1 | .done => 2 | .refused => 3
def memCode : MemMode → Nat
  | .free => 0 | .priv => 1 | .base => 2 | .device => 3
def grpCode : GrpState → Nat
  | .free => 0 | .opened => 1 | .closing => 2 | .poisoned => 3
def slotCode : SlotState → Nat
  | .idle => 0 | .running => 1 | .waiting => 2 | .draining => 3
def waitCode : WaitKind → Nat
  | .none => 0 | .semaphore => 1 | .barrier => 2 | .hazard => 3
def barCode : BarState → Nat
  | .free => 0 | .armed => 1 | .collecting => 2 | .waitRelease => 3 | .aborting => 4
def firnSlotCode : FSlotState → Nat
  | .empty => 0 | .installing => 1 | .valid => 2 | .damaged => 3 | .erasing => 4
def ctxCode : CtxState → Nat
  | .free => 0 | .receiving => 1 | .voting => 2 | .updating => 3
def portCode : PortState → Nat
  | .untrained => 0 | .training => 1 | .upVc0 => 2 | .up => 3 | .retraining => 4 | .down => 5
def queueCode : QState → Nat
  | .disabled => 0 | .running => 1 | .fenced => 2 | .error => 3
def sessCode : SessState → Nat
  | .free => 0 | .opened => 1 | .provisioned => 2 | .removing => 3
def stagedField : StagedState → Nat
  | .none => 0 | .writing => 1 | .verified => 2 | .failed => 3 | .trial => 4 | .rejected => 5
def cfgCode : CfgState → Nat
  | .none => 0 | .loading => 1 | .staged => 2 | .checking => 3 | .checked => 4 | .refused => 5 | .committing => 6
def pwrCode : PwrState → Nat
  | .starting => 0 | .ready => 1 | .entering => 2 | .rest => 3 | .restQuiet => 4 | .waking => 5

/-! ### The window of a cluster (01 R21) -/

/-- SEQ_PACE (01 Table 1.6). -/
def Cluster.paceWord (x : Cluster) : W64 :=
  fieldsOf [(24, 8, x.throttleStep.toNat), (12, 12, x.avgMsps.toNat), (0, 12, x.rateMsps.toNat)]

/-- SEQ_SLOT_CTL (05 Table 5.11). -/
def Slot.ctlWord (y : Slot) : W64 := fieldsOf [(31, 1, b2n y.strict), (24, 4, y.weight)]

/-- SEQ_SLOT_STATUS (05 Table 5.12). -/
def Slot.statusWord (y : Slot) : W64 :=
  fieldsOf [(30, 2, slotCode y.state), (28, 2, waitCode y.wait), (16, 10, y.waitIndex), (13, 3, y.loops.length),
    (0, 8, min (y.out.length + b2n (y.wait == .semaphore || y.wait == .barrier)) 0xFF)]

/-- ACC_GRP_STATE (03 Table 3.5). `pending` has 8 bits: more than 255 chunks show modulo 256, because the table does not say that it
saturates (DESIGN CHOICE, log 13). -/
def Group.stateWord (g : Group) : W64 :=
  fieldsOf ([(30, 2, grpCode g.state), (28, 2, g.slot.val), (8, 8, g.replays.toNat), (0, 8, g.chunks.length)] ++
    match g.desc with
    | some d => [(25, 3, d.f 78 76), (24, 1, b2n d.sparse), (23, 1, b2n d.int), (22, 1, b2n d.sideEn)]
    | none => [])

/-- VEC_SLOT_STATUS (04 Table 4.4). -/
def VCtx.statusWord (x : VCtx) : W64 :=
  fieldsOf [(16, 11, x.vl), (4, 1, b2n x.flags.intSat), (3, 1, b2n x.flags.overflow), (2, 1, b2n x.flags.dz),
    (1, 1, b2n x.flags.invalid), (0, 1, b2n x.flags.nanIn)]

/-- SPD_PARCEL of parcel p (07 Table 7.11); the parcels that the variant cache occupies belong to it. -/
def State.parcelWord (s : State) (c p : Nat) : W64 :=
  let x := (s.clu c).parcel p
  fieldsOf [(30, 2, memCode x.mode), (29, 1, b2n (x.cache || s.inCache p)),
    (16, 12, if x.mode = .priv then x.domain.toNat else 0),
    (0, 7, ((List.range 64).filter fun i => x.valid.getLsbD i).length)]

/-- What offset `o` of a cluster window reads; zero where no readable register lies. -/
def State.readWindow (s : State) (c o : Nat) : W64 :=
  let x := s.clu c
  if o = 0x40 then x.paceWord
  else if 0x100 ≤ o ∧ o < 0x180 then
    let y := x.slot ((o - 0x100) / 0x20)
    match o % 0x20 with
    | 0x00 => y.ctlWord
    | 0x04 => y.statusWord
    | 0x08 => y.pc.setWidth 64
    | _ => 0
  else if 0x1_0000 ≤ o ∧ o < 0x1_0000 + 4 * 16 ∧ o % 4 = 0 then (s.group c ((o - 0x1_0000) / 4)).stateWord
  else if 0x2_0000 ≤ o ∧ o < 0x2_0400 ∧ o % 0x100 = 0 then (s.vctx c ((o - 0x2_0000) / 0x100)).statusWord
  else if 0x3_0000 ≤ o ∧ o < 0x3_1000 ∧ o % 4 = 0 then (x.sem ((o - 0x3_0000) / 4)).setWidth 64
  else if o = 0x3_1008 then x.semDrop
  else if o = 0x3_1010 then fieldsOf [(0, 1, b2n x.semDropSat)]
  else if 0x3_8000 ≤ o ∧ o < 0x3_A000 ∧ o % 4 = 0 then s.parcelWord c ((o - 0x3_8000) / 4)
  else if o = 0x3_A000 then x.miss
  else if o = 0x3_A008 then fieldsOf [(0, 1, b2n x.missSat)]
  else 0

/-! ### BAR0 -/

/-- GLB_STATUS (15 Table 15.15). -/
def Glb.statusWord (g : Glb) : W64 :=
  fieldsOf [(31, 1, b2n g.ready), (30, 1, b2n g.fatal), (26, 4, g.phase), (24, 2, g.bootSrc.toNat), (22, 2, g.clkMode.toNat)]

/-- GLB_ID, GLB_STATUS, GLB_PACE (15 Tables 15.15, 15.22; 01 Table 1.7) and the barrier objects (06 Tables 6.9, 6.10). -/
def State.readGlb (s : State) (o : Nat) : W64 :=
  if o = 0x0000 then glbId
  else if o = 0x0008 then s.glb.statusWord
  else if o = 0x0040 then
    fieldsOf [(24, 6, s.glb.slowest.toNat), (12, 12, s.glb.minMsps.toNat), (0, 12, s.glb.meanMsps.toNat)]
  else if 0x1000 ≤ o ∧ o < 0x1100 then
    let b := s.bar ((o - 0x1000) / 0x10)
    match o % 0x10 with
    | 0x0 => fieldsOf [(29, 3, barCode b.state), (20, 9, b.arrived), (16, 4, b.children)]
    | 0x4 => b.epStep.setWidth 64
    | _ => 0
  else 0

/-- The reset and power registers (15 Tables 15.14 to 15.21). -/
def Rst.readReg (r : Rst) (o : Nat) : W64 :=
  match o with
  | 0x0000 => fieldsOf [(8, 16, r.causeNode.toNat), (0, 4, r.cause)]
  | 0x0010 => r.block.setWidth 64
  | 0x0020 => r.blockAct.setWidth 64
  | 0x0100 => fieldsOf [(29, 3, pwrCode r.pwr), (24, 5, r.powerStep), (14, 10, r.coreMv)]
  | 0x0108 => fieldsOf [(31, 1, b2n r.restReq), (30, 1, b2n r.quietReq), (25, 5, r.floorStep)]
  | 0x0110 => fieldsOf [(48, 16, r.dieTemp.toNat), (32, 16, r.firnTemp.toNat), (21, 11, r.powerW), (14, 7, r.fanPct)]
  | _ => 0

/-- The configuration registers (14 Tables 14.10 to 14.15). -/
def Cfg.readReg (x : Cfg) (o : Nat) : W64 :=
  match o with
  | 0x00 => fieldsOf [(61, 3, cfgCode x.state), (48, 8, x.reason),
      (32, 16, nsum ((List.range 16).map fun k => b2n (x.staged.any fun e => e.1 == k + 1) * 2 ^ k))]
  | 0x08 => x.gen.setWidth 64
  | 0x18 => x.stageArg
  | 0x30 => x.image
  | _ => 0

/-- The life registers (14 Tables 14.16 to 14.19). -/
def Life.readReg (x : Life) (o : Nat) : W64 :=
  if o = 0x000 then x.clock
  else if o = 0x008 then x.hostTime
  else if o = 0x010 then
    fieldsOf [(16, 16, x.saves.toNat),
      (10, 6, nsum ((List.range 6).map fun i => b2n (x.counters.getD i 0 == BitVec.allOnes 48) * 2 ^ i)),
      (3, 1, b2n x.timeSet), (2, 1, b2n x.saveBusy), (1, 1, b2n x.restored)]
  else if 0x020 ≤ o ∧ o < 0x050 ∧ o % 8 = 0 then (x.counters.getD ((o - 0x020) / 8) 0).setWidth 64
  else if o = 0x100 then x.peSel.setWidth 64
  else if o = 0x108 then (mget 0 x.pe x.peSel.toNat).setWidth 64
  else 0

/-- The security registers (13 Tables 13.8 to 13.14). -/
def State.readSec (s : State) (o : Nat) : W64 :=
  let x := s.sec
  if o = 0x0000 then
    fieldsOf [(31, 1, b2n x.entropyOk), (30, 1, b2n x.attReady), (29, 1, b2n x.runningSlot), (28, 1, b2n x.trial)]
  else if o = 0x0010 then x.arg
  else if o = 0x0018 then fieldsOf [(62, 2, cmdCode x.cmdState), (48, 8, x.reason), (0, 32, x.written)]
  else if o = 0x0020 then
    fieldsOf [(63, 1, b2n x.activeSlot), (60, 3, stagedField x.staged), (59, 1, b2n x.stagedSlot), (52, 7, x.fuseSvn),
      (45, 7, min x.runningSvn 127)]
  else if o = 0x0028 then fieldsOf [(30, 2, x.debugLevel)]
  else if 0x8000 ≤ o ∧ o < 0x1_0000 ∧ o % 8 = 0 then
    let d := s.session ((o - 0x8000) / 8)
    fieldsOf [(61, 3, sessCode d.state), (60, 1, b2n d.exportKey.isSome), (44, 16, d.epoch.toNat), (0, 32, d.sess.toNat)]
  else 0

/-- The host-port registers (12 Tables 12.11 to 12.16). -/
def State.readHif (s : State) (o : Nat) : W64 :=
  let h := s.hif
  if o = 0x0000 then fieldsOf [(28, 4, h.rate), (23, 5, h.width), (16, 7, h.vfs)]
  else if o = 0x0008 then h.dbDrop
  else if o = 0x0010 then fieldsOf [(0, 1, b2n h.dbDropSat)]
  else if o = 0x0100 then fieldsOf [(32, 32, h.committed), (0, 32, h.cap)]
  else if k : 0x1000 ≤ o ∧ o < 0x2000 ∧ o % 4 = 0 then
    let n := (o - 0x1000) / 4
    let q := s.queue ⟨n / 16, by omega⟩ ⟨n % 16, by omega⟩
    fieldsOf [(31, 1, b2n q.bindValid), (0, 12, q.bindDomain.toNat)]
  else if o = 0x4000 then h.evidBase
  else if o = 0x4008 then h.ckptBase
  else if o = 0x4010 then fieldsOf [(31, 1, b2n h.evidEn), (26, 5, h.evidLog2), (21, 5, h.ckptLog2)]
  else if o = 0x4018 then fieldsOf [(32, 32, h.evidHead.toNat), (0, 32, h.evidTail.toNat)]
  else if o = 0x4020 then fieldsOf [(32, 32, h.ckptHead.toNat), (0, 32, h.ckptTail.toNat)]
  else 0

/-- The registers of a chain port (11 Tables 11.12 to 11.16). -/
def Port.readReg (x : Port) (o : Nat) : W64 :=
  match o with
  | 0x000 => fieldsOf [(29, 3, portCode x.state), (28, 1, b2n x.mode), (12, 16, x.peer.toNat), (8, 4, x.peerPort),
      (0, 8, x.retrains.toNat)]
  | 0x008 => fieldsOf [(31, 1, b2n x.enabled), (30, 1, b2n x.mode), (26, 4, x.gang)]
  | 0x010 => x.replays
  | 0x018 => x.stomped
  | 0x020 => x.authDrop
  | 0x028 => x.authFail
  | 0x030 => x.noRoute
  | 0x038 => x.badMsg
  | 0x040 => fieldsOf [(5, 1, b2n x.badSat), (4, 1, b2n x.routeSat), (3, 1, b2n x.failSat), (2, 1, b2n x.dropSat),
      (1, 1, b2n x.stompSat), (0, 1, b2n x.replaySat)]
  | _ => 0

/-- A route entry (11 Table 11.18). -/
def Route.word (r : Route) : W64 :=
  fieldsOf [(48, 16, r.first.toNat), (32, 16, r.last.toNat), (20, 12, r.ports.toNat), (19, 1, b2n r.valid), (18, 1, b2n r.parent),
    (17, 1, b2n r.child)]

/-- The chain registers (11 Tables 11.12, 11.17, 11.18, 11.20). -/
def State.readLnk (s : State) (o : Nat) : W64 :=
  let x := s.lnk
  if o = 0x0000 then
    fieldsOf [(48, 16, x.node.toNat), (32, 16, x.coordinator.toNat), (16, 16, x.deputy.toNat), (14, 2, x.shape),
      (13, 1, b2n x.member), (12, 1, b2n s.isCoord), (0, 12, x.position)]
  else if o = 0x0010 then fieldsOf [(62, 2, cmdCode x.cmdState), (48, 8, x.reason)]
  else if 0x1000 ≤ o ∧ o < 0x1200 ∧ o % 8 = 0 then
    match x.routes[(o - 0x1000) / 8]? with
    | some r => r.word
    | none => 0
  else 0

/-- MEM_PRIO (07 Table 7.18). -/
def Prio.word (p : Prio) : W64 :=
  fieldsOf [(31, 1, b2n p.strict), (24, 4, p.weight), (16, 8, p.ceiling), (8, 8, p.subB), (0, 8, p.subA)]

/-- The counters of a controller (07 Tables 7.12, 7.13). -/
def MemCtl.readReg (x : MemCtl) (o : Nat) : W64 :=
  match o with
  | 0x00 => x.replays
  | 0x08 => x.refetches
  | 0x10 => x.poisoned
  | 0x18 => x.miss
  | 0x20 => fieldsOf [(3, 1, b2n x.poisonedSat), (2, 1, b2n x.refetchesSat), (1, 1, b2n x.replaysSat), (0, 1, b2n x.missSat)]
  | _ => 0

/-- The variant registers (09 Tables 9.13 to 9.17). -/
def State.readVar (s : State) (o : Nat) : W64 :=
  let x := s.var
  match o with
  | 0x08 => x.arg
  | 0x10 => fieldsOf [(46, 18, x.pFirst), (28, 18, x.pCount - 1)]
  | 0x18 => fieldsOf [(46, 18, x.sFirst), (28, 18, x.sCount - 1)]
  | 0x20 => fieldsOf [(62, 2, cmdCode x.cmdState), (48, 8, x.reason), (44, 4, x.qstate), (32, 12, x.qdomain.toNat),
      (0, 32, x.qgen.toNat)]
  | 0x28 => fieldsOf [(50, 14, (x.reg.filter fun e => e.2.isLive).length), (40, 10, (x.reg.filter fun e => e.2.state == .hot).length),
      (23, 17, nsum (x.reg.map fun e => e.2.cacheParcels.length + nsum (e.2.oldCopies.map fun c => c.2.length)))]
  | 0x30 => x.fills
  | 0x38 => x.fillFails
  | 0x40 => x.evictions
  | 0x48 => fieldsOf [(2, 1, b2n x.evictionsSat), (1, 1, b2n x.fillFailsSat), (0, 1, b2n x.fillsSat)]
  | _ => 0

/-- The memory registers of BAR0 and the variant registers (07 Table 7.10, 09 Table 9.13). -/
def State.readMem (s : State) (o : Nat) : W64 :=
  let m := s.mem
  if o = 0x0000 then
    fieldsOf [(28, 4, m.rate), (26, 2, m.density), (25, 1, m.ranks), (24, 1, b2n m.trained), (0, 18, m.usablePages)]
  else if o = 0x0028 then
    fieldsOf [(30, 2, cmdCode m.cmdState), (28, 2, memCode m.qmode), (16, 12, m.qdomain.toNat), (8, 8, m.reason)]
  else if 0x0100 ≤ o ∧ o < 0x0110 ∧ o % 4 = 0 then
    match m.prio[(o - 0x0100) / 4]? with
    | some p => p.word
    | none => 0
  else if 0x0200 ≤ o ∧ o < 0x0210 ∧ o % 4 = 0 then
    let f := (o - 0x0200) / 4
    fieldsOf [(24, 8, mget 0 m.tierStep f), (16, 1, b2n (mget false m.tierOver f)), (0, 16, (mget 0 m.tierTemp f).toNat)]
  else if 0x1000 ≤ o ∧ o < 0x1000 + 20 * 0x40 then (s.ctl ((o - 0x1000) / 0x40)).readReg (o % 0x40)
  else if 0x8000 ≤ o ∧ o < 0x8050 then s.readVar (o - 0x8000)
  else 0

/-- The lowest cycle count of a stripe in service, in its 12-bit field (08 Table 8.14). -/
def State.minPe (s : State) : Nat :=
  let on := (List.range 4096).filter fun i => !s.firn.retired.contains i
  on.foldl (fun a i => min a (mget 0 s.life.pe i).toNat) 0xFFF

/-- The slots that are the source of a live generation. -/
def Firn.sources (x : Firn) : List FSlotId := (x.current.toList ++ x.old.toList).map (·.slot)

/-- THAW_STATUS (08 Table 8.17). -/
def State.thawWord (s : State) : W64 :=
  let st := if s.firn.swap.any (fun w => !w.thawed) then 1 else if !s.mem.refetching.isEmpty then 3 else b2n s.firn.sweepOn * 2
  fieldsOf [(30, 2, st), (29, 1, b2n s.firn.sweepOn)]

/-- The Firn and Thaw registers (08 Tables 8.9 to 8.17). What the catalogue says shows once the controller has read it (R186). -/
def State.readFirn (s : State) (o : Nat) : W64 :=
  let x := s.firn
  if h : o < 0x80 then
    let k : FSlotId := ⟨o / 0x10, by omega⟩
    let y := if x.catRead then s.fslot k.val else {}
    match o % 0x10 with
    | 0x0 => fieldsOf [(61, 3, firnSlotCode y.state), (60, 1, b2n (x.sources.contains k)), (48, 12, y.stripes.length),
        (32, 16, y.position.toNat), (0, 32, y.imageVersion.toNat)]
    | 0x8 => if y.state = .empty then 0 else y.chainTag
    | _ => 0
  else
    match o with
    | 0x108 => fieldsOf [(62, 2, cmdCode x.cmdState), (48, 8, x.reason), (0, 32, x.progress)]
    | 0x110 => x.ring
    | 0x118 => fieldsOf [(32, 32, x.prod.toNat), (0, 32, x.cons.toNat)]
    | 0x120 => if !x.catRead then 0 else fieldsOf [(52, 12, s.maxPe), (40, 12, s.minPe), (28, 12, x.retired.length), (16, 12, s.freeStripes.length)]
    | 0x200 => fieldsOf [(32, 32, match x.old with | some g => g.num.toNat | none => 0),
        (0, 32, match x.current with | some g => g.num.toNat | none => 0)]
    | 0x208 => fieldsOf ((match x.current with | some g => [(29, 3, g.slot.val), (28, 1, 1)] | none => []) ++
        (match x.old with | some g => [(25, 3, g.slot.val), (24, 1, 1), (0, 24, s.genRefs g.num)] | none => []))
    | 0x300 => s.thawWord
    | _ => 0

/-- The registers of a training context (10 Tables 10.9 to 10.14). -/
def Ctx.readReg (x : Ctx) (o : Nat) : W64 :=
  match o with
  | 0x00 => fieldsOf [(30, 2, ctxCode x.state), (23, 7, x.vars.length), (8, 12, x.domain.toNat), (7, 1, b2n !x.parks.isEmpty),
      (3, 1, b2n x.skewSat), (2, 1, b2n x.staleSat), (1, 1, b2n x.frozenSat), (0, 1, b2n x.skippedSat)]
  | 0x08 => x.upStep
  | 0x10 => if x.state = .free then 0 else x.scale.setWidth 64
  | 0x18 => fieldsOf [(32, 32, x.lrTag.toNat), (0, 32, x.lr.toNat)]
  | 0x20 => x.skipped
  | 0x28 => x.frozen
  | 0x30 => x.lrStale
  | 0x38 => x.skew
  | _ => 0

/-- The event registers (17 Tables 17.4 to 17.8). -/
def Evt.readReg (x : Evt) (o : Nat) : W64 :=
  match o with
  | 0x00 => x.ringBase.setWidth 64
  | 0x08 => x.hostBase
  | 0x10 => fieldsOf [(31, 1, b2n x.enable), (26, 5, x.hostLog2), (24, 2, x.irqSev), (16, 8, x.coalCount), (6, 10, x.coalUs)]
  | 0x18 => fieldsOf [(32, 32, x.head.toNat), (0, 32, x.tail.toNat)]
  | 0x20 => x.lost
  | 0x28 => fieldsOf [(1, 19, if x.ringReady then x.ring.length else 0), (0, 1, b2n x.lostSat)]
  | 0x30 => fieldsOf [(48, 16, x.fatalCode.toNat), (40, 8, x.fatalUnit.toNat), (32, 8, x.fatalSub.toNat), (0, 32, x.fatalArg.toNat)]
  | _ => 0

/-- What a BAR0 offset reads: RW and RO registers their value, WO registers and offsets that no register names zero. -/
def State.readBar0 (s : State) (o : Nat) : W64 :=
  if o < 0x001_0000 then s.readGlb o
  else if o < 0x002_0000 then s.rst.readReg (o - 0x001_0000)
  else if o < 0x003_0000 then s.cfg.readReg (o - 0x002_0000)
  else if o < 0x004_0000 then s.life.readReg (o - 0x003_0000)
  else if o < 0x005_0000 then s.readSec (o - 0x004_0000)
  else if 0x008_0000 ≤ o ∧ o < 0x009_0000 then s.readHif (o - 0x008_0000)
  else if 0x010_0000 ≤ o ∧ o < 0x010_0000 + 12 * 0x8000 then (s.port ((o - 0x010_0000) / 0x8000)).readReg (o % 0x8000)
  else if 0x018_0000 ≤ o ∧ o < 0x019_0000 then s.readLnk (o - 0x018_0000)
  else if 0x020_0000 ≤ o ∧ o < 0x021_0000 then s.readMem (o - 0x020_0000)
  else if 0x030_0000 ≤ o ∧ o < 0x031_0000 then s.readFirn (o - 0x030_0000)
  else if 0x040_0000 ≤ o ∧ o < 0x040_1000 then (s.ctx ((o - 0x040_0000) / 0x40)).readReg (o % 0x40)
  else if 0x080_0000 ≤ o ∧ o < 0x081_0000 then s.evt.readReg (o - 0x080_0000)
  else if 0x100_0000 ≤ o ∧ o < 0x200_0000 then s.readWindow ((o - 0x100_0000) / 0x4_0000) (o % 0x4_0000)
  else 0

/-! ### BAR2 (12 R318, R319) -/

/-- The registers of a queue window (12 Tables 12.2 to 12.4). -/
def State.readQueue (s : State) (x : Queue) (o : Nat) : W64 :=
  match o with
  | 0x00 => x.sqBase
  | 0x08 => x.cqBase
  | 0x10 => fieldsOf [(31, 1, b2n x.enable), (30, 1, b2n x.msixEn), (26, 4, x.sqLog2), (22, 4, x.cqLog2), (14, 8, x.coalCount),
      (4, 10, x.coalUs)]
  | 0x14 => fieldsOf [(30, 2, queueCode x.state), (24, 6, x.error), (12, 12, x.bindDomain.toNat), (0, 1, b2n s.glb.ready)]
  | 0x1C => x.sqHead.setWidth 64
  | 0x24 => x.cqTail.setWidth 64
  | _ => 0

/-- What a BAR2 offset of a function reads. -/
def State.readBar2 (s : State) (f : FnId) (o : Nat) : W64 :=
  if h : o < 0x8000 then s.readQueue (s.queue f ⟨o / 0x800, by omega⟩) (o % 0x800)
  else if o < 0x8000 + 17 * 16 then
    let v := s.vector f ((o - 0x8000) / 16)
    match o % 16 with
    | 0 => v.addr
    | 8 => v.data.setWidth 64
    | 12 => fieldsOf [(0, 1, b2n v.masked)]
    | _ => 0
  else if o = 0x9000 then
    BitVec.ofNat 64 (nsum ((List.range 17).map fun k => b2n (s.vector f k).pending * 2 ^ k))
  else 0

/-- The word that the debugger reads of the run register of a cell (02 R29): the run value in [23:0], zeros in [31:24]; none below debug
level 1 (13 R367). `newest` picks the last run of the two that the cell keeps. -/
def State.debugRun (s : State) (c : CId) (cell : Nat) (newest : Bool) : Option W32 :=
  let v := (mget 0 (s.clu c.val).runs cell).toNat
  if 1 ≤ s.sec.debugLevel then some (BitVec.ofNat 32 (if newest then v % 2 ^ 24 else v / 2 ^ 24)) else none

/-- What the host reads at the offset of a register of function f (00 R7, R8): BAR0 is the physical function's alone (12 R318), and
a function that is not enabled has no registers. The debugger reads control space at level 1 and above (13 R367). -/
def State.readReg (s : State) (f : FnId) (space : RegSpace) (off : Nat) : W64 :=
  match space with
  | .bar0 => if f.val = 0 then s.readBar0 off else 0
  | .bar2 => if s.fnOn f then s.readBar2 f off else 0
  | .debug => if 1 ≤ s.sec.debugLevel then s.readBar0 off else 0
  | .sriov => if f.val = 0 then BitVec.ofNat 64 s.hif.vfs else 0

end Sys2Proof.Machine
end

