-- ==== Sys2Proof/WellFormed.lean ====
section
/-! DEFINITION. Sys2Proof/WellFormed.lean: when a command is well formed: a stream instruction's word spells its row with its reserved fields zero (05 R107, R116, R118, R120), a command written to a shared command register carries that command's op, a list operand has the length its rule gives. -/

namespace Sys2Proof

open Sys2Proof.Machine

/-- The word spells the row of class, op and func or kind, and no field it leaves unused is set. -/
def Issue.spells (i : Issue) (cls op sub : Nat) : Bool :=
  rowOf i.word == some (rowCode cls op sub) && reservedOk i.word && moveConvOk i.word

/-- The op of a command register, bits [63:60]. -/
def opIs (v : W64) (op : Nat) : Bool := bitsOf v 63 60 == op

/-- The op in a field of `len` bits at `lo` is this command's, or one that is reserved, from `n` up: a device refuses it. -/
def opOk (v : W64) (lo len op n : Nat) : Bool := fld v.toNat lo len == op || decide (n ≤ fld v.toNat lo len)

/-- Is the command well formed? -/
def Instr.wf (i : Instr) : Bool :=
  match i with
  | .paceUpdate mon => mon.length == 64 && mon.all fun e => e.1 != 0 && e.2 != 0
  | .moveCopy i => i.spells 1 0 0
  | .moveConv i => i.spells 1 1 0
  | .moveFill i => i.spells 1 2 0
  | .mmaOpen i => i.spells 2 0 0
  | .mmaAcc i => i.spells 2 1 0
  | .mmaSide i => i.spells 2 2 0
  | .mmaClose i => i.spells 2 3 0
  | .chunkEnd _ _ _ => true
  | .epilogue _ _ _ => true
  | .closeDone _ _ => true
  | .vecAdd i => i.spells 3 0 0x00
  | .vecSub i => i.spells 3 0 0x01
  | .vecMul i => i.spells 3 0 0x02
  | .vecFma i => i.spells 3 0 0x03
  | .vecMin i => i.spells 3 0 0x04
  | .vecMax i => i.spells 3 0 0x05
  | .vecAbs i => i.spells 3 0 0x06
  | .vecNeg i => i.spells 3 0 0x07
  | .vecCmp i => i.spells 3 0 0x08
  | .vecSel i => i.spells 3 0 0x09
  | .vecMov i => i.spells 3 0 0x0A
  | .vecDiv i => i.spells 3 0 0x10
  | .vecSqrt i => i.spells 3 0 0x11
  | .vecRcp i => i.spells 3 0 0x12
  | .vecRsqrt i => i.spells 3 0 0x13
  | .vecExp2 i => i.spells 3 0 0x14
  | .vecLog2 i => i.spells 3 0 0x15
  | .vecExp i => i.spells 3 0 0x16
  | .vecLog i => i.spells 3 0 0x17
  | .vecTanh i => i.spells 3 0 0x18
  | .vecSigmoid i => i.spells 3 0 0x19
  | .vecErf i => i.spells 3 0 0x1A
  | .vecGelu i => i.spells 3 0 0x1B
  | .vecSilu i => i.spells 3 0 0x1C
  | .vecSin i => i.spells 3 0 0x1D
  | .vecCos i => i.spells 3 0 0x1E
  | .vecIadd i => i.spells 3 0 0x20
  | .vecIsub i => i.spells 3 0 0x21
  | .vecImul i => i.spells 3 0 0x22
  | .vecAnd i => i.spells 3 0 0x23
  | .vecOr i => i.spells 3 0 0x24
  | .vecXor i => i.spells 3 0 0x25
  | .vecShl i => i.spells 3 0 0x26
  | .vecShr i => i.spells 3 0 0x27
  | .vecSra i => i.spells 3 0 0x28
  | .vecImin i => i.spells 3 0 0x29
  | .vecImax i => i.spells 3 0 0x2A
  | .vecAddsat i => i.spells 3 0 0x2B
  | .vecSubsat i => i.spells 3 0 0x2C
  | .vecIcmp i => i.spells 3 0 0x2D
  | .vecCvt i => i.spells 3 0 0x30
  | .vecRsum i => i.spells 3 0 0x38
  | .vecRmax i => i.spells 3 0 0x39
  | .vecRmin i => i.spells 3 0 0x3A
  | .vecLd i => i.spells 3 0 0x40
  | .vecSt i => i.spells 3 0 0x41
  | .vecGather i => i.spells 3 0 0x42
  | .vecScatter i => i.spells 3 0 0x43
  | .vecScatadd i => i.spells 3 0 0x44
  | .vecBcast i => i.spells 3 0 0x45
  | .vecRraw i => i.spells 3 0 0x48
  | .vecRuni i => i.spells 3 0 0x49
  | .vecRbern i => i.spells 3 0 0x4A
  | .vecLdgen i => i.spells 3 0 0x4B
  | .vecTopk i => i.spells 3 0 0x50
  | .vecSetvl i => i.spells 3 0 0x58
  | .vecMld i => i.spells 3 0 0x59
  | .vecMst i => i.spells 3 0 0x5A
  | .vecMand i => i.spells 3 0 0x5B
  | .vecMor i => i.spells 3 0 0x5C
  | .vecMnot i => i.spells 3 0 0x5D
  | .signalOp i => i.spells 4 0 0
  | .waitTake i => i.spells 4 1 0
  | .waitObs i => i.spells 4 2 0
  | .barrier i => i.spells 4 4 0
  | .syncSet i => i.spells 4 3 0
  | .nop i => i.spells 5 0 0
  | .endOp i => i.spells 5 1 0
  | .br i => i.spells 5 2 0
  | .loopOp i => i.spells 5 3 0
  | .setx i => i.spells 5 4 0
  | .addx i => i.spells 5 5 0
  | .mulx i => i.spells 5 6 0
  | .ptestOccupancy i => i.spells 5 7 0
  | .ptestRouterCount i => i.spells 5 7 1
  | .ptestBelow i => i.spells 5 7 2
  | .ptestEqual i => i.spells 5 7 3
  | .ptestAnd i => i.spells 5 7 4
  | .ptestOr i => i.spells 5 7 5
  | .ldtd i => i.spells 5 8 0
  | .ldbase i => i.spells 5 9 0
  | .ldscl i => i.spells 5 10 0
  | .ldx i => i.spells 5 11 0
  | .topk i => i.spells 6 0 0
  | .gather i => i.spells 6 1 0
  | .scatter i => i.spells 6 2 0
  | .dispatch i => i.spells 6 3 0
  | .instrComplete _ _ _ => true
  | .streamEnd _ _ => true
  | .semSet _ _ _ => true
  | .signalMsg _ _ _ => true
  | .signalAck _ _ _ => true
  | .arrive _ _ _ => true
  | .release _ _ _ _ => true
  | .barrierAbort _ _ _ => true
  | .memRetag _ => true
  | .pageAssign v => opOk v 61 3 0 3
  | .pageScrub v => opOk v 61 3 1 3
  | .pageQuery v => opOk v 61 3 2 3
  | .scrubDone _ => true
  | .lpddrParityFail _ _ _ => true
  | .lineRefetch _ _ _ _ => true
  | .wckTracking _ => true
  | .mr4Poll _ _ => true
  | .sramStepSample t => t.length == 4 && t.all fun l => l.length == 16
  | .sramOver _ => true
  | .firnInstall v => opIs v 1
  | .firnErase v => opIs v 2
  | .firnSwap v => opIs v 3
  | .firnAbortInstall v => opIs v 4
  | .firnRingDoorbell _ => true
  | .installFrame m f _ _ => if m.isSome then f.length == 4016 || f.length == 80 else f.length == 4096
  | .installOpen _ _ _ _ _ => true
  | .installAbort _ _ _ _ => true
  | .installComplete _ => true
  | .slotEraseDone _ _ => true
  | .swapPrepare _ _ _ _ _ => true
  | .thawDone _ _ => true
  | .thawReady _ _ _ => true
  | .commitMsg _ _ => true
  | .swapAbort _ _ _ => true
  | .swapSettle _ _ => true
  | .oldGenFree => true
  | .sweepSegment _ _ _ _ _ => true
  | .firnDailyCheck _ _ => true
  | .firnHotStop => true
  | .firnHotResume => true
  | .varRegister v _ => opIs v 1
  | .varLoad v _ _ => opIs v 2
  | .varLoadDone _ => true
  | .varUnload v => opIs v 3
  | .varImageWrite _ => true
  | .varEvict v => opIs v 4
  | .evictRelease _ => true
  | .varPublish v => opIs v 5
  | .varRemove v => opIs v 6
  | .varUnregister v _ => opIs v 7
  | .varStateOut v => opIs v 8
  | .stateOutWrite _ => true
  | .varStateIn v _ => opIs v 9
  | .varQuery v => opIs v 10
  | .registryUpdate _ _ _ => true
  | .publishCommit _ _ _ => true
  | .removeMsg _ _ => true
  | .removed _ _ => true
  | .cacheFillDone _ => true
  | .gradSlice _ _ _ _ => true
  | .stepVote _ _ => true
  | .vote _ _ _ _ _ => true
  | .verdict _ _ _ => true
  | .layerUpdateDone _ _ _ => true
  | .parkedApply _ => true
  | .wqStepLr _ _ _ => true
  | .collectiveRun _ _ _ => true
  | .collective _ _ _ => true
  | .portTrained _ _ => true
  | .keyOffer _ _ => true
  | .keyCiphertext _ _ => true
  | .flitReceive _ _ _ => true
  | .rxSilenceTimeout _ => true
  | .laneLockLoss _ => true
  | .retrainDone _ _ => true
  | .rstFlit _ => true
  | .writeMsg _ _ _ => true
  | .hello _ _ _ _ => true
  | .join _ _ _ _ => true
  | .admitMsg _ _ _ _ _ _ _ _ _ => true
  | .leave _ => true
  | .lost _ _ _ => true
  | .neighbourLossTimeout _ => true
  | .rekeyThreshold _ _ => true
  | .keyExhausted _ _ => true
  | .lnkLeave v => opIs v 1
  | .leaveSend => true
  | .lnkRejoin v => opIs v 2
  | .lnkRekey v => opIs v 3
  | .resetMsg _ => true
  | .quiet _ => true
  | .bootImageRequest _ => true
  | .wqDoorbell _ _ _ => true
  | .descriptorConsume _ _ _ _ => true
  | .wqCqHead _ _ _ => true
  | .wqCfg _ _ _ => true
  | .hifWqBind _ _ _ => true
  | .setup _ _ _ _ _ _ _ _ => true
  | .accept _ _ _ => true
  | .refuse _ _ _ _ => true
  | .go _ => true
  | .jobAbort _ _ _ => true
  | .setupHoldTimeout _ => true
  | .inputDmaDone _ _ => true
  | .jobStart _ _ => true
  | .jobOutput _ _ _ => true
  | .jobComplete _ => true
  | .functionLevelReset _ => true
  | .vfEnableClear => true
  | .d3hotEntry _ => true
  | .busMasterClear _ => true
  | .fenceRelease _ => true
  | .evidenceWrite => true
  | .checkpoint => true
  | .interruptCoalesceTimeout _ _ _ => true
  | .secOpen v => opIs v 1
  | .secProvision v _ => opIs v 2
  | .secExport v _ => opIs v 3
  | .secClearExport v => opIs v 4
  | .secRemove v => opIs v 5
  | .tenantRetire _ => true
  | .removalRelease _ => true
  | .secAttest v _ => opIs v 6
  | .secStage v => opIs v 7
  | .stageVerifyDone _ => true
  | .secCancel v => opIs v 8
  | .secCommitSvn v => opIs v 9
  | .attKeyReady => true
  | .drbgReseed => true
  | .trngHealthFail => true
  | .trngFailTimeout => true
  | .jtagIdcode => true
  | .jtagBypass => true
  | .jtagChallenge => true
  | .jtagToken _ _ _ _ => true
  | .jtagLevelClear => true
  | .cfgStageLoad v => opIs v 1
  | .cfgStageDmaDone _ => true
  | .cfgStageDiscard v => opIs v 2
  | .cfgCheck _ => true
  | .cfgCommit _ => true
  | .cfgCommitInstant => true
  | .lifeHostTime _ => true
  | .lifeSave _ => true
  | .lifeRecordTimer => true
  | .lifeRecordDone => true
  | .lifeSecond => true
  | .thermalExcursionStart => true
  | .thermalExcursionEnd => true
  | .powerOnReset => true
  | .perstAssert => true
  | .warmRstAssert => true
  | .softwareReset _ => true
  | .watchdogExpiry => true
  | .thermalTrip => true
  | .tripRelease => true
  | .coldStart _ => true
  | .warmStart _ => true
  | .hostDownloadBoot _ => true
  | .rstBlockCtl _ => true
  | .blockResetDone _ => true
  | .throttleSample x => x.die.length == 4
  | .powerGovernorTick _ _ => true
  | .avsReadback _ => true
  | .avsTimeout => true
  | .pwrCtl _ => true
  | .restEntry => true
  | .restWake => true
  | .smbusRequest _ => true
  | .eventMergeWindow _ _ _ _ => true
  | .eventMirror => true
  | .evtIdxHead _ => true
  | .registerWrite _ _ _ _ => true
  | .healthTestRecovery => true
  | .revoke _ _ => true
  | .memberAnnounce _ _ _ _ => true
  | .retagComplete => true
  | .publishCopyDone _ => true
  | .publishReady _ _ _ _ => true

end Sys2Proof
end

