-- ==== Sys2Proof/Safety.lean ====
section
/-! DEFINITION. Sys2Proof/Safety.lean: the terms that claims about the machine are stated in: when a stream instruction issues, what an issued instruction leaves, canonical memory, the legal fuse count, what a job may touch. -/

namespace Sys2Proof.Safety

open Sys2Proof Sys2Proof.Machine

/-! ### Stream instructions -/

/-- The slot an instruction issues in. -/
def slotOf (s : State) (i : Issue) : Slot := s.slot i.cluster.val i.slot.val

/-- The instruction's environment. -/
def envOf (s : State) (i : Issue) (j : Job) : Env := ⟨i.cluster, i.slot, j, slotOf s i, i.word, i.readBad, i.regBad, i.outliers⟩

/-- An instruction of a live job is fetched in a slot that may issue, from memory that its job may read (05 R104, R106, 07 R156) and
that is not poisoned (07 R174), on a device that does not just wake (15 R419): whether its predicate selects it and whether its ord bit lets it issue is not said here. -/
def Fetched (s : State) (i : Issue) (j : Job) : Prop :=
  s.job (slotOf s i).tag = some j ∧ (slotOf s i).ready = true ∧
  (∃ a, ptrAddr (slotOf s i).pc.toNat = some a ∧ s.inSpace a 16 = true ∧ s.fetchable j a = true ∧ s.poisonIn a 16 = none) ∧ i.fetchBad = 0 ∧ s.rst.pwr ≠ .waking

/-- It issues: its predicate selects it (05 R107), its slot has a tracked range left and, with ord set, nothing of its slot is
outstanding (05 R124). -/
def Issues (s : State) (i : Issue) (j : Job) : Prop :=
  Fetched s i j ∧ selected (slotOf s i) i.word = true ∧ (slotOf s i).full = false ∧
  (wf i.word 115 115 = 1 → (slotOf s i).out = [])

/-- No other slot of the cluster has a vector operation ready (05 R127). -/
def Alone (s : State) (i : Issue) : Prop := s.vecRivals i = []

/-- The slot `y` goes on past the instruction that stood at `pc` (05 R119); the first one of its stream leaves the life clock (12 R331). -/
def goesOn (now : W64) (y : Slot) (pc : W48) : Slot := (y.noteFirst now).unstall.goTo (pc.toNat + 16)

/-- The state after an instruction that changes its slot alone and goes on. -/
def after (s : State) (i : Issue) (f : Slot → Slot) : State :=
  s.setSlot i.cluster.val i.slot.val (goesOn s.life.clock (f (slotOf s i)) (slotOf s i).pc)

/-! ### The vector engine -/

/-- The bytes of element n of width w of register r. -/
def elemBytes (x : VCtx) (r w n : Nat) : Bytes := mgetBytes x.v (1024 * r + w * n) w

/-- `y` is the context `x` after an operation that writes the elements `res` of width `w` into vd, an element being active
when its lanes at width `wa` are (04 R87, R89, R97): active elements take their result, the others keep their bytes or become
zero as zm says, an operation with no active element writes nothing, the flags gather, and nothing else changes. -/
def VecWritten (s : State) (e : Env) (y : VCtx) (w wa : Nat) (res : Nat → Nat × VFlags) : Prop :=
  let x := e.vctx s
  let act := e.actives s wa
  (∀ n, n < 1024 / w → elemBytes y e.vd w n =
    if n < 1024 / wa ∧ x.active e.vm wa n = true then leBytes w (res n).1
    else if e.zm = true ∧ act ≠ [] then List.replicate w 0
    else elemBytes x e.vd w n) ∧
  (∀ k, (k < 1024 * e.vd ∨ 1024 * (e.vd + 1) ≤ k) → mget 0 y.v k = mget 0 x.v k) ∧
  y.flags = (act.map fun n => (res n).2).foldl VFlags.or x.flags ∧
  y.m = x.m ∧ y.vl = x.vl ∧ y.gen = x.gen

/-- The state after an operation of the engine that leaves its context `y`, with nothing else changed and the slot going on;
an operation with no active element writes nothing. -/
def vecDone (s : State) (i : Issue) (act : List Nat) (y : VCtx) : State :=
  after (if act = [] then s else s.setVctx i.cluster.val i.slot.val y) i id

/-- An element-wise operation of 05 Table 5.8: its command, the formats 04 Table 4.2 allows it, and what it gives for one
element of va, vb and vc. -/
structure ElemOp where
  cmd : Issue → Instr
  ok : Fmt → Bool
  op : Fmt → Nat → Nat → Nat → Nat × VFlags

/-- The element-wise operations. -/
def elemOps : List ElemOp :=
  [⟨.vecAdd, okFloat, opAdd⟩, ⟨.vecSub, okFloat, opSub⟩, ⟨.vecMul, okFloat, opMul⟩, ⟨.vecFma, okFloat, opFma⟩,
   ⟨.vecMin, okFloatMove, opMin⟩, ⟨.vecMax, okFloatMove, opMax⟩, ⟨.vecAbs, okFloatMove, opAbs⟩,
   ⟨.vecNeg, okFloatMove, opNeg⟩, ⟨.vecSel, okFloatMove, opSel⟩, ⟨.vecMov, okMove8, opMov⟩, ⟨.vecDiv, okFp32, opDiv⟩,
   ⟨.vecSqrt, okFp32, opSqrt⟩, ⟨.vecRcp, okFp32, opTrans 0x12⟩, ⟨.vecRsqrt, okFp32, opTrans 0x13⟩,
   ⟨.vecExp2, okFp32, opTrans 0x14⟩, ⟨.vecLog2, okFp32, opTrans 0x15⟩, ⟨.vecExp, okFp32, opTrans 0x16⟩,
   ⟨.vecLog, okFp32, opTrans 0x17⟩, ⟨.vecTanh, okFp32, opTrans 0x18⟩, ⟨.vecSigmoid, okFp32, opTrans 0x19⟩,
   ⟨.vecErf, okFp32, opTrans 0x1A⟩, ⟨.vecGelu, okFp32, opTrans 0x1B⟩, ⟨.vecSilu, okFp32, opTrans 0x1C⟩,
   ⟨.vecSin, okFp32, opTrans 0x1D⟩, ⟨.vecCos, okFp32, opTrans 0x1E⟩] ++
  [⟨.vecIadd, okI32, opIadd⟩, ⟨.vecIsub, okI32, opIsub⟩, ⟨.vecImul, okI32, opImul⟩, ⟨.vecAnd, okI32, opAnd⟩,
   ⟨.vecOr, okI32, opOr⟩, ⟨.vecXor, okI32, opXor⟩, ⟨.vecShl, okI32, opShl⟩, ⟨.vecShr, okI32, opShr⟩,
   ⟨.vecSra, okI32, opSra⟩, ⟨.vecImin, okPacked, opImin⟩, ⟨.vecImax, okPacked, opImax⟩,
   ⟨.vecAddsat, okPacked, opAddsat⟩, ⟨.vecSubsat, okPacked, opSubsat⟩]

/-- The combination of elements 2^k i to 2^k (i + 1) − 1 by the fixed pairwise tree (04 R94). -/
def pairwise {α : Type} (op : α → α → α) (f : Nat → α) : Nat → Nat → α
  | 0, i => f i
  | k + 1, i => op (pairwise op f k (2 * i)) (pairwise op f k (2 * i + 1))

/-- The commands of every stream instruction of 05 Tables 5.6, 5.7, 5.9 and 5.10: those of MOVE, MMA, SYNC, CTRL and ROUTE. -/
def scalarCommands : List (Issue → Instr) :=
  [.moveCopy, .moveConv, .moveFill, .mmaOpen, .mmaAcc, .mmaSide, .mmaClose, .signalOp, .waitTake, .waitObs, .barrier, .syncSet,
   .nop, .endOp, .br, .loopOp, .setx, .addx, .mulx, .ptestOccupancy, .ptestRouterCount, .ptestBelow, .ptestEqual, .ptestAnd,
   .ptestOr, .ldtd, .ldbase, .ldscl, .ldx, .topk, .gather, .scatter, .dispatch]

/-- The commands of every VEC instruction of 05 Table 5.8. -/
def vectorCommands : List (Issue → Instr) :=
  elemOps.map (·.cmd) ++
  [.vecCmp, .vecIcmp, .vecCvt, .vecRsum, .vecRmax, .vecRmin, .vecLd, .vecSt, .vecGather, .vecScatter, .vecScatadd, .vecBcast,
   .vecRraw, .vecRuni, .vecRbern, .vecLdgen, .vecTopk, .vecSetvl, .vecMld, .vecMst, .vecMand, .vecMor, .vecMnot]

/-! ### Memory -/

/-- Every sparse memory holds its entries in the canonical form: keys strictly rising, no entry that reads as unlisted. -/
def memoryCanonical (s : State) : Prop :=
  mwf 0 s.mem.bytes = true ∧ mwf {} s.mem.pages = true ∧ mwf {} s.cl = true ∧
    ∀ e ∈ s.cl, mwf 0 e.2.bytes = true ∧ mwf {} e.2.parcels = true

/-- An address that exists: the scratchpads fill 33 bits (07 R153). -/
def realAddr (a : Addr) : Prop := a.dev = true ∨ a.a < 2 ^ 33

/-- The rows of a tile hold `rows` where the requester may write, and every other byte is as it was in `s`. -/
def TileStored (s t : State) (r : Req) (dst : Tile) (rows : Nat → Bytes) : Prop :=
  (∀ n k, n < dst.rows → k < dst.rowBytes →
    t.rawByte ((dst.rowAddr n).plus k) =
      if s.mayAccess r ((dst.rowAddr n).plus k) true then (rows n).getD k 0 else s.rawByte ((dst.rowAddr n).plus k)) ∧
  ∀ a, realAddr a → (∀ n k, n < dst.rows → k < dst.rowBytes → a ≠ (dst.rowAddr n).plus k) → t.rawByte a = s.rawByte a

/-- Tiles that share no byte. -/
def Apart (a b : Tile) : Prop :=
  ∀ n m k q, n < a.rows → k < a.rowBytes → m < b.rows → q < b.rowBytes → (a.rowAddr n).plus k ≠ (b.rowAddr m).plus q

/-- The rows of two tiles that share no byte hold what is said of each, and every other byte is as it was in `s`. -/
def TwoStored (s t : State) (r : Req) (a b : Tile) (ra rb : Nat → Bytes) : Prop :=
  (∀ x rows, (x, rows) ∈ [(a, ra), (b, rb)] → ∀ n k, n < x.rows → k < x.rowBytes →
    t.rawByte ((x.rowAddr n).plus k) =
      if s.mayAccess r ((x.rowAddr n).plus k) true then (rows n).getD k 0 else s.rawByte ((x.rowAddr n).plus k)) ∧
  ∀ p, realAddr p → (∀ x ∈ [a, b], ∀ n k, n < x.rows → k < x.rowBytes → p ≠ (x.rowAddr n).plus k) → t.rawByte p = s.rawByte p

/-- An instruction that stays outstanding: the slot goes on, with the instruction's entry added. -/
def outstanding (now : W64) (y : Slot) (kind : OutKind) (rs : List Rng) (sem : Option SemRef) (g : Option GId) : Slot :=
  goesOn now { y with out := y.out ++ [⟨y.nextId, kind, rs, sem, g⟩], nextId := y.nextId + 1 } y.pc

/-- May a job of domain d change the byte at an address (07 R156 Table 7.2)? -/
def mayWrite (s : State) (d : Dom) (a : Addr) : Bool := s.mayAccess (.dom d) a true

/-! ### Frames -/

/-- The blocks of the machine: every field of its state but the queue and the count of free values used. -/
inductive Block where
  | glb | evt | rst | life | cfg | sec | hif | jobs | lnk | mem | cl | bars | firn | var | upd | coll | out
deriving DecidableEq, Repr

/-- A block holds the same in two states. -/
def Block.Same (s t : State) : Block → Prop
  | .glb => t.glb = s.glb
  | .evt => t.evt = s.evt
  | .rst => t.rst = s.rst
  | .life => t.life = s.life
  | .cfg => t.cfg = s.cfg
  | .sec => t.sec = s.sec
  | .hif => t.hif = s.hif
  | .jobs => t.jobs = s.jobs
  | .lnk => t.lnk = s.lnk
  | .mem => t.mem = s.mem
  | .cl => t.cl = s.cl
  | .bars => t.bars = s.bars
  | .firn => t.firn = s.firn
  | .var => t.var = s.var
  | .upd => t.upd = s.upd
  | .coll => t.coll = s.coll
  | .out => t.out = s.out

/-- The queue stays, and every block outside `l` holds what it held. -/
def Only (l : List Block) (s t : State) : Prop := t.pending = s.pending ∧ ∀ b, b ∉ l → b.Same s t

/-- A command answers a next state that changes the blocks `l` at most and has `p`. -/
def Does (c : Instr) (s : State) (l : List Block) (p : State → Prop) : Prop := ∃ t, exec c s = .next t ∧ Only l s t ∧ p t

/-- A message that has arrived whole for this node is acted on (11 R292, R293, R314): its port carries its virtual channel,
which its type may use, its key_id fits its tag, its key is live and its tag verifies. -/
def Heard (s : State) (m : Msg) (vcs : List Nat) : Prop :=
  s.portCarries m.port m.vc.toNat = true ∧ vcs.contains m.vc.toNat = true ∧
  m.keyId.toNat = (if m.tag = 0 then 0 else 0xFFF) ∧ s.wakeUp.retiredKey m.tag = false ∧ m.verifies = true

/-- A VAR_CMD write of op `op` on variant `vid` that the unit takes up (09 R249): no command is running, and no domain is named
where Table 9.14 asks for 0. -/
def VarAsks (s : State) (v : W64) (op vid : Nat) : Prop :=
  s.up = true ∧ s.var.cmdState ≠ .busy ∧ bitsOf v 63 60 = op ∧ bitsOf v 59 44 = vid ∧ vid ≠ 0 ∧
  (op ≠ 1 → op ≠ 2 → bitsOf v 43 32 = 0)

/-! ### Fuses -/

/-- The anti-rollback fuses count 0 to 64 (13 Table 13.12). -/
def fuseLegal (s : State) : Prop := s.sec.fuseSvn ≤ 64

end Sys2Proof.Safety
end

