-- ==== Sys2Proof/Certificates/Slice0/Obligations.lean ====
section
/-! DEFINITION. Sys2Proof/Certificates/Slice0/Obligations.lean: what is claimed of the machine, for the provers. -/

open Sys2Proof Sys2Proof.Machine Sys2Proof.Safety

/-! ### The queue, reset, and what every step keeps -/

/-- A step takes the command at the front of the queue and runs it on the state with the rest of the queue.
With nothing waiting, one microsecond passes unless a cold reset is held: the life clock counts it (14 R387), the chain ports send
what waits, a port that exchanges flits and has nothing sends an idle flit with its link word (11 R283, R288), and the rest of the
machine stays; that a step on an empty queue is one microsecond is the model's choice (log 8). -/
def Obligations.StepRunsFrontCommandOrTicks : Prop :=
  (∀ (c : Instr) (rest : List Instr) (s : State),
     step { s with pending := c :: rest } = exec c { s with pending := rest }) ∧
  (∀ s : State, s.pending = [] →
     (s.rst.held ≠ .cold → ∃ t, step s = .next t ∧ t.life = { s.life with clock := s.life.clock + 1 } ∧ t.pending = [] ∧
       t.glb = s.glb ∧ (s.out.length ≤ s.lnk.cut → t.evt = s.evt) ∧ t.rst = s.rst ∧ t.cfg = s.cfg ∧ t.hif = s.hif ∧ t.jobs = s.jobs ∧ t.mem = s.mem ∧
       t.cl = s.cl ∧ t.bars = s.bars ∧ t.firn = s.firn ∧ t.var = s.var ∧ t.upd = s.upd ∧ t.coll = s.coll ∧
       (s.lnk.cut = s.out.length →
         (∀ p : PortId, (s.port p.val).txQ = []) →
         ∀ p : PortId, Out.flit p (s.port p.val).idleFlit ∈ t.out ↔ Out.flit p (s.port p.val).idleFlit ∈ s.out ∨
           s.portLives p = true ∧ (s.port p.val).quiet = false ∧ (s.port p.val).said = false)) ∧
     (s.rst.held = .cold → step s = .next s))

/-- Every command answers a next state, and none touches the queue: a step removes its front and adds nothing. That every command
answers a next state is the model's choice (DESIGN CHOICE, log 1): no outcome of the spec stops the machine, a fault being an event and
a job's end (17 R439). -/
def Obligations.CommandsAnswerNextAndKeepQueue : Prop :=
  ∀ (c : Instr) (s : State), ∃ t, exec c s = .next t ∧ t.pending = s.pending

/-- Anti-rollback: no step, in any state, lowers the security version that the fuses hold; only SEC commit_svn raises it,
and never beyond 64 (13 R363). -/
def Obligations.StepKeepsFusesLegalAndNeverLowers : Prop :=
  ∀ s t : State, step s = .next t →
    s.sec.fuseSvn ≤ t.sec.fuseSvn ∧ (fuseLegal s → fuseLegal t) ∧
    (s.sec.fuseSvn < t.sec.fuseSvn → ∃ v rest, s.pending = .secCommitSvn v :: rest)

/-- Reset (15 R395 Table 15.2, cold column): the reset values the register tables state, nothing in any memory, every memory
in canonical form, the fuse count legal (its value 0 is the model's choice, log 2). -/
def Obligations.ResetState : Prop :=
  let s := State.reset
  s.pending = [] ∧ s.rst.held = .cold ∧ s.glb.ready = false ∧ s.glb.fatal = false ∧ s.rst.cause = 1 ∧ s.rst.coreMv = 0x2EE ∧
  s.evt.hostLog2 = 0xC ∧ s.evt.irqSev = 1 ∧ s.evt.enable = false ∧ s.lnk.node = 0xFFFF ∧ s.lnk.coordinator = 0xFFFF ∧
  s.hif.evidLog2 = 0xC ∧ s.hif.ckptLog2 = 4 ∧ s.life.clock = 0 ∧ s.life.timeSet = false ∧
  (∀ f q, (s.queue f q).sqLog2 = 4 ∧ (s.queue f q).cqLog2 = 4 ∧ (s.queue f q).state = .disabled) ∧
  (∀ c k, (s.slot c k).state = .idle ∧ (s.slot c k).weight = 4 ∧ ((s.slot c k).strict = true ↔ k = 3)) ∧
  (∀ c k, (s.vctx c k).vl = 1024) ∧ (∀ c i, (s.clu c).sem i = 0) ∧ (∀ b, (s.bar b).state = .free) ∧
  (∀ a, s.rawByte a = 0) ∧ memoryCanonical s ∧ fuseLegal s

/-! ### Instruction streams -/

/-- 00 R9, 05 R107: a word that spells no row, or that sets a field its row leaves unused or reserves, a VEC format or conversion
among them, ends its job with SEQ_DECODE, by each command of the stream instructions (MOVE, MMA, SYNC, CTRL, ROUTE and VEC); so does a
MOVE whose conversion field is reserved. That the predicate is not looked at, and which misplaced fields count, is the model's reading
of R9 and R107 (DEDUCED, log 12).
05 R104, 07 R156, R159: a fetch from a parcel or page that the job may not read reads zeros: its miss counts and the job ends with
SEQ_DECODE; one that meets a poisoned line ends the job with MEM_POISON (07 R174). A word whose parity fails once is fetched again, which in scratchpad counts as a replay (R162), and the instruction
goes on; one that fails twice ends the job with SEQ_FETCH. -/
def Obligations.ReservedWordEndsJob : Prop :=
  (∀ (s : State) (i : Issue) (j : Job), Fetched s i j →
     (rowOf i.word = none ∨ reservedOk i.word = false ∨ moveConvOk i.word = false) →
     ∀ cmd ∈ scalarCommands ++ vectorCommands,
       exec (cmd i) s = .next (s.failJob i.cluster i.slot j.tag { code := Ev.seqDecode })) ∧
  (∀ (s : State) (i : Issue) (j : Job) (a : Addr), s.job (slotOf s i).tag = some j → (slotOf s i).ready = true →
     s.rst.pwr ≠ .waking → ptrAddr (slotOf s i).pc.toNat = some a → s.inSpace a 16 = true →
     ∀ cmd, cmd ∈ scalarCommands ∨ cmd ∈ vectorCommands ∧ Alone s i →
       (s.fetchable j a = false → i.fetchBad = 0 → exec (cmd i) s =
         .next ((s.noteMiss (envOf s i j).who a 16 false).failJob i.cluster i.slot j.tag { code := Ev.seqDecode })) ∧
       (∀ f, s.fetchable j a = true → i.fetchBad = 0 → poisonCheck s j.who.req a 16 = .error f →
         exec (cmd i) s = .next (s.failJob i.cluster i.slot j.tag f)) ∧
       (2 ≤ i.fetchBad → exec (cmd i) s = .next ((if a.dev then s else s.bumpLife 5).failJob i.cluster i.slot j.tag
         { code := Ev.seqFetch })) ∧
       (i.fetchBad = 1 → s.fetchable j a = true → (cmd i).wf = true → exec (cmd i) s =
         exec (cmd { i with fetchBad := 0 }) (if a.dev then s else s.bumpLife 5)))

/-- 05 R107: an instruction that its predicate does not select changes nothing but the pc (and the loop that ends there);
with ord set it first waits for everything outstanding in its slot.
05 R107, R124: with ord set, an instruction waits while anything of its slot is outstanding, and any instruction waits while all 32
tracked ranges of its slot are in use: the slot stands waiting for a hazard, the pc and all else unchanged. Both hold of the command of
every stream instruction. -/
def Obligations.PredicateAndOrder : Prop :=
  (∀ (s : State) (i : Issue) (j : Job), Fetched s i j → selected (slotOf s i) i.word = false →
     (wf i.word 115 115 = 1 → (slotOf s i).out = []) → (slotOf s i).full = false →
     ∀ cmd ∈ scalarCommands ++ vectorCommands,
       (cmd i).wf = true → exec (cmd i) s = .next (after s i id)) ∧
  (∀ (s : State) (i : Issue) (j : Job), Fetched s i j →
     (wf i.word 115 115 = 1 ∧ (slotOf s i).out ≠ [] ∨ (slotOf s i).full = true) →
     ∀ cmd ∈ scalarCommands ++ vectorCommands,
       (cmd i).wf = true →
       exec (cmd i) s =
         .next (s.setSlot i.cluster.val i.slot.val { slotOf s i with state := .waiting, wait := .hazard, waitIndex := 0 }))

/-- 05 R118, R120: NOP, END, SETX, ADDX, MULX and the PTEST kinds that read registers: the one register each writes (a write
to x0 is discarded, R105), the slot's state, nothing else; the slot goes on at the next instruction. -/
def Obligations.ScalarInstructionsResult : Prop :=
  ∀ (s : State) (i : Issue) (j : Job), Issues s i j →
    let y := slotOf s i
    let f := wf i.word
    ((Instr.nop i).wf = true → exec (.nop i) s = .next (after s i id)) ∧
    ((Instr.endOp i).wf = true →
      exec (.endOp i) s = .next (after s i fun y => { y with state := .draining, wait := .none })) ∧
    ((Instr.setx i).wf = true →
      exec (.setx i) s = .next (after s i fun y => y.setX (f 111 108) (BitVec.ofNat 32 (f 95 64)))) ∧
    ((Instr.addx i).wf = true →
      exec (.addx i) s = .next (after s i fun z =>
        z.setX (f 111 108) (BitVec.ofNat 32 (y.rx (f 107 104) + y.rx (f 103 100) + f 95 64)))) ∧
    ((Instr.mulx i).wf = true →
      exec (.mulx i) s = .next (after s i fun z => z.setX (f 111 108) (BitVec.ofNat 32 (y.rx (f 107 104) * f 95 64)))) ∧
    ((Instr.ptestBelow i).wf = true →
      exec (.ptestBelow i) s = .next (after s i fun z =>
        z.setP (f 111 109) (decide (y.rx (f 103 100) < y.rx (f 99 96))))) ∧
    ((Instr.ptestEqual i).wf = true →
      exec (.ptestEqual i) s = .next (after s i fun z => z.setP (f 111 109) (decide (y.rx (f 103 100) = f 31 0)))) ∧
    ((Instr.ptestAnd i).wf = true →
      exec (.ptestAnd i) s = .next (after s i fun z => z.setP (f 111 109) (y.rp (f 102 100) && y.rp (f 98 96)))) ∧
    ((Instr.ptestOr i).wf = true →
      exec (.ptestOr i) s = .next (after s i fun z => z.setP (f 111 109) (y.rp (f 102 100) || y.rp (f 98 96))))

/-- 05 R119: BR goes to PC + 16 × offset, which must lie inside the innermost active body; LOOP skips its body for a count of
0 and else enters it with index 0, at most four levels deep and inside the body around it; a breach ends the job with
SEQ_LOOP; a stream's first instruction leaves the life clock in its slot (12 R331). SET in a stream ends the job with SEQ_PRIV (R117). -/
def Obligations.ControlFlowResult : Prop :=
  ∀ (s : State) (i : Issue) (j : Job), Issues s i j →
    let y := (slotOf s i).noteFirst s.life.clock
    let f := wf i.word
    let target : Int := (y.pc.toNat : Int) + 16 * sext 32 (f 111 80)
    let first := y.pc.toNat + 16
    let stop := first + 16 * f 103 88
    let put (z : Slot) : Host.Outcome State Fault Refusal := .next (s.setSlot i.cluster.val i.slot.val z)
    let bad : Host.Outcome State Fault Refusal := .next (s.failJob i.cluster i.slot j.tag { code := Ev.seqLoop })
    let inside := ∀ l ∈ y.loops.head?, (l.first : Int) ≤ target ∧ target < (l.first + 16 * l.len : Nat)
    let nested := ∀ l ∈ y.loops.head?, stop ≤ l.first + 16 * l.len
    ((Instr.br i).wf = true → inside → exec (.br i) s = put { y.unstall with pc := BitVec.ofInt 48 target }) ∧
    ((Instr.br i).wf = true → ¬ inside → exec (.br i) s = bad) ∧
    ((Instr.loopOp i).wf = true → nested → y.rx (f 111 108) = 0 → exec (.loopOp i) s = put (y.unstall.goTo stop)) ∧
    ((Instr.loopOp i).wf = true → nested → 0 < y.rx (f 111 108) → y.loops.length < 4 →
      exec (.loopOp i) s = put { (y.unstall.setX (f 107 104) 0) with
        pc := BitVec.ofNat 48 first, loops := ⟨first, f 103 88, y.rx (f 111 108), 0, f 107 104⟩ :: y.loops }) ∧
    ((Instr.loopOp i).wf = true → (¬ nested ∨ (0 < y.rx (f 111 108) ∧ 4 ≤ y.loops.length)) → exec (.loopOp i) s = bad) ∧
    ((Instr.syncSet i).wf = true →
      exec (.syncSet i) s = .next (s.failJob i.cluster i.slot j.tag { code := Ev.seqPriv }))

/-- 05 R118, R120: the loads of registers and the PTEST kinds that read memory: with an address that the M address gives, no
earlier write of the slot outstanding there, no poison and no parity error, the register takes what the job's read returns,
the domain misses of the read are counted (07 R159), and nothing else changes. -/
def Obligations.RegisterLoadsResult : Prop :=
  ∀ (s : State) (i : Issue) (j : Job), Issues s i j → i.readBad = [] →
    let y := slotOf s i
    let f := wf i.word
    let reads (len : Nat) (a : Addr) : Prop :=
      mAddr s i.cluster y (f 63 32) len len = .ok a ∧ y.hazard [a.rng len false] none = false ∧
      poisonCheck s j.who.req a len = .ok ()
    let v (len : Nat) (a : Addr) : Nat := leNat (s.read j.who.req a len)
    let done (len : Nat) (a : Addr) (g : Slot → Slot) : Host.Outcome State Fault Refusal :=
      .next (after (s.noteMiss (envOf s i j).who a len false) i g)
    ∀ a,
    ((Instr.ldtd i).wf = true → reads 8 a → exec (.ldtd i) s =
      done 8 a fun z => { z with t := mset 0 z.t (f 111 106) (BitVec.ofNat 64 (v 8 a)) }) ∧
    ((Instr.ldbase i).wf = true → reads 8 a → exec (.ldbase i) s =
      done 8 a fun z => { z with b := mset 0 z.b (f 111 109) (BitVec.ofNat 48 (v 8 a)) }) ∧
    ((Instr.ldscl i).wf = true → reads 8 a → exec (.ldscl i) s =
      done 8 a fun z => { z with s := mset 0 z.s (f 111 107) (BitVec.ofNat 48 (v 8 a)) }) ∧
    ((Instr.ldx i).wf = true → reads 4 a → exec (.ldx i) s =
      done 4 a fun z => z.setX (f 111 108) (BitVec.ofNat 32 (v 4 a))) ∧
    ((Instr.ptestOccupancy i).wf = true → reads 4 a → exec (.ptestOccupancy i) s =
      done 4 a fun z => z.setP (f 111 109) ((v 4 a).testBit (f 4 0))) ∧
    ((Instr.ptestRouterCount i).wf = true → reads 4 a → exec (.ptestRouterCount i) s =
      done 4 a fun z => z.setP (f 111 109) (decide (f 31 0 < v 4 a)))

/-! ### The vector engine -/

/-- 04 R87 to R92, R97: every element-wise operation, in every format Table 4.2 allows it: the active elements of vd take the
operation's result, the others keep their contents or become zero, the flags gather, nothing else changes.
04 R90, 05 R116: an operation in a format Table 4.2 does not allow it ends the job with VEC_OP_BAD, a register in error
with VEC_PARITY (R98), before anything is written.
05 R127: while other slots of the cluster have a vector operation ready too, the arbiter chooses among them; a slot that it does
not choose waits for the engine, all else unchanged. -/
def Obligations.ElementwiseOperationsResult : Prop :=
  (∀ o ∈ elemOps, ∀ (s : State) (i : Issue) (j : Job) (f : Fmt), Issues s i j → Alone s i → (o.cmd i).wf = true → i.regBad = false →
     Fmt.ofCode (wf i.word 103 100) = some f → o.ok f = true →
     let e := envOf s i j
     let x := e.vctx s
     ∃ y, exec (o.cmd i) s = .next (vecDone s i (e.actives s f.bytes) y) ∧
       VecWritten s e y f.bytes f.bytes fun n =>
         o.op f (x.elem e.va f.bytes n) (x.elem e.vb f.bytes n) (x.elem e.vc f.bytes n)) ∧
  (∀ o ∈ elemOps, ∀ (s : State) (i : Issue) (j : Job) (f : Fmt), Issues s i j → Alone s i → (o.cmd i).wf = true →
     Fmt.ofCode (wf i.word 103 100) = some f →
     (i.regBad = true → exec (o.cmd i) s = .next (s.failJob i.cluster i.slot j.tag { code := Ev.vecParity })) ∧
     (i.regBad = false → o.ok f = false →
       exec (o.cmd i) s = .next (s.failJob i.cluster i.slot j.tag { code := Ev.vecOpBad }))) ∧
  (∀ o ∈ elemOps, ∀ (s : State) (i : Issue) (j : Job) (k : Nat) (t : Turn), Issues s i j → ¬ Alone s i → (o.cmd i).wf = true →
     chooseSlot (s.clu i.cluster.val).slot (i.slot.val :: s.vecRivals i) (s.clu i.cluster.val).vecTurn = some (k, t) →
     k ≠ i.slot.val → exec (o.cmd i) s = .next (s.modSlot i.cluster.val i.slot.val (·.stall)))

/-- 04 R94: the reductions in FP32 and BF16 are the fixed pairwise tree over the elements, an inactive element taking the
identity; the result goes to element 0, the other elements are as inactive ones. -/
def Obligations.ReductionsFollowPairwiseTree : Prop :=
  ∀ (s : State) (i : Issue) (j : Job) (f : Fmt), Issues s i j → Alone s i → i.regBad = false →
    Fmt.ofCode (wf i.word 103 100) = some f → (f = .fp32 ∨ f = .bf16) →
    let e := envOf s i j
    let x := e.vctx s
    let w := f.bytes
    let levels := if f = .fp32 then 8 else 9
    let leaf (e0 : FVal) (n : Nat) : FVal := if x.active e.vm w n then f.val (x.elem e.va w n) else e0
    let result (op : FVal → FVal → FVal) (e0 : FVal) : Bytes := leBytes 4 (fmtF32.round (pairwise op (leaf e0) levels 0))
    let reduces (cmd : Issue → Instr) (op : FVal → FVal → FVal) (e0 : FVal) : Prop :=
      (cmd i).wf = true → ∃ y, exec (cmd i) s = .next (after (s.setVctx i.cluster.val i.slot.val y) i id) ∧
        elemBytes y e.vd 4 0 = result op e0 ∧
        ∀ n, 0 < n → n < 256 → elemBytes y e.vd 4 n = if e.zm then [0, 0, 0, 0] else elemBytes x e.vd 4 n
    reduces .vecRsum (fun a b => f32 (toF32 (a.add b))) (.fin false 0 0) ∧
    reduces .vecRmax FVal.max (.inf true) ∧ reduces .vecRmin FVal.min (.inf false)

/-- 04 R95, R97, R102, 05 R116: VEC_CVT converts each active element (and, with amax_en, gathers its input into the amax record it
names, R41); one that quantises with an outlier list writes z_0 in the listed channels and, where the list names a side tile, their true
values there as BF16 (02 R51; that an operation of one register takes the list so is the model's choice, log 13); BCAST writes the
immediate; the random operations draw from the slot's generator (04 R100), and a keep value that is NaN or rounds to an infinity sets its
flag (DEDUCED, log 14). -/
def Obligations.ConversionAndRandomResult : Prop :=
  ∀ (s : State) (i : Issue) (j : Job) (f : Fmt), Issues s i j → Alone s i → i.regBad = false → i.readBad = [] →
    Fmt.ofCode (wf i.word 103 100) = some f →
    let e := envOf s i j
    let x := e.vctx s
    let writes (cmd : Issue → Instr) (w wa : Nat) (res : Nat → Nat × VFlags) : Prop :=
      (cmd i).wf = true → ∃ y, exec (cmd i) s = .next (vecDone s i (e.actives s wa) y) ∧ VecWritten s e y w wa res
    (okWritten f = true → writes .vecBcast f.bytes f.bytes fun _ => (wf i.word 31 0 % 2 ^ f.width, {})) ∧
    (f = .int32 → writes .vecRraw 4 4 fun n => (x.gen.draw32 n, {})) ∧
    (f = .fp32 → writes .vecRuni 4 4 fun n => (uniformBits (x.gen.draw32 n), {})) ∧
    (okFloat f = true → writes .vecRbern f.bytes f.bytes fun n =>
      let g := fmtF32.decode (wf i.word 63 32)
      if x.gen.draw32 n < wf i.word 31 0 then (fltOut f g, fltFlags [g] (f.val (fltOut f g)) false) else (0, { nanIn := g.isNan })) ∧
    ∀ c, ConvCtl.decode (wf i.word 75 64) = some c → okInput f = true → c.dst ≠ .pair →
      let v (n : Nat) : FVal := f.val (x.elem e.va f.bytes n)
      let o (n : Nat) : ConvOut := convert c (v n) (if c.stoch then x.gen.draw16 n else 0) 0
      let wa := max f.bytes c.dst.bytes
      let act := e.actives s wa
      let list := e.quantList c.dst
      let res (n : Nat) : Nat × VFlags :=
        if isOutlier list n then (((list.toList.flatMap (·.zero)).headD 0 % (2 ^ c.dst.width : Nat)).toNat, {})
        else ((o n).bits, convFlags c (v n) (o n))
      let side (t : State) : State :=
        match e.cvtSide s c, list with
        | some st, some l => if act = [] then t else t.putRow e.who st 0 (cvtSideRow f x e.va act l)
        | _, _ => t
      let rs := (e.cvtSide s c).toList.map (Tile.rng · true)
      let put (y : VCtx) : State := if act = [] then s else s.setVctx i.cluster.val i.slot.val y
      let on (t : State) : Host.Outcome State Fault Refusal := .next (t.advance i.cluster i.slot (slotOf s i).pc.toNat)
      (Instr.vecCvt i).wf = true →
      (c.amaxEn = false → (slotOf s i).hazard rs none = false →
        ∃ y, VecWritten s e y c.dst.bytes wa res ∧ exec (.vecCvt i) s = on (side (put y))) ∧
      ∀ a, c.amaxEn = true → e.vecAddr s (16 + if c.amaxRow then 4 * (wf i.word 31 0 + 1) else 0) 16 = .ok a →
        (slotOf s i).hazard ([a.rng 16 true] ++ (if c.amaxRow then [(a.plus (16 + 4 * wf i.word 31 0)).rng 4 true] else []) ++ rs)
          none = false →
        ∃ y, VecWritten s e y c.dst.bytes wa res ∧
          exec (.vecCvt i) s = on ((side (put y)).mergeAmax e.who a (if c.amaxRow then some (wf i.word 31 0) else none)
            ((act.filter fun n => !isOutlier list n).map fun n => (v n, (o n).sat)))

/-- 04 R90, R93: VEC_LD and VEC_GATHER read the job's memory element by element, VEC_ST and VEC_SCATTER write it; of two
elements that name one byte the higher-numbered one remains; every byte outside the active elements keeps its value, a byte
the job may not write keeps it too (07 R156), and each denied line that an element touches counts one domain miss (R93). That a NaN
loaded or stored sets no flag is the model's choice (DESIGN CHOICE, log 14).
04 R93: VEC_SCATADD adds element by element, in ascending order: where no other active element touches an element's
bytes, they hold what was read there plus the element, rounded once (or wrapping); the rest of memory is as it was. -/
def Obligations.VectorMemoryResult : Prop :=
  (∀ (s : State) (i : Issue) (j : Job) (f : Fmt) (base : Addr) (idx : Bool), Issues s i j → Alone s i → i.regBad = false → i.readBad = [] →
     Fmt.ofCode (wf i.word 103 100) = some f →
     let e := envOf s i j
     let x := e.vctx s
     let w := f.bytes
     let at' := e.elemAddr s base w idx
     let act := e.actives s w
     let addrs := act.filterMap at'
     mAddr s i.cluster (slotOf s i) (wf i.word 63 32) 1 1 = .ok base → base.dev = false →
     (∀ n ∈ act, (at' n).isSome) →
     (∀ cmd ok, (cmd, ok) = (if idx then (Instr.vecGather, okGather f) else (Instr.vecLd, okInput f)) → (cmd i).wf = true →
       ok = true → (slotOf s i).hazard (addrs.map fun a => a.rng w false) none = false →
       ∃ y, exec (cmd i) s = .next (vecDone (s.noteLines e.who w addrs false) i act y) ∧
         VecWritten s e y w w fun n => (((at' n).map fun a => leNat (s.read j.who.req a w)).getD 0, {})) ∧
     (∀ cmd ok, (cmd, ok) = (if idx then (Instr.vecScatter, okGather f) else (Instr.vecSt, okWritten f)) → (cmd i).wf = true →
       ok = true → (slotOf s i).hazard (addrs.map fun a => a.rng w true) none = false →
       ∃ t, exec (cmd i) s = .next t ∧ slotOf t i = goesOn s.life.clock (slotOf s i) (slotOf s i).pc ∧ e.vctx t = x ∧
         t.mem = s.mem ∧ t.sec = s.sec ∧ t.lnk = s.lnk ∧ t.var = s.var ∧ t.upd = s.upd ∧ t.bars = s.bars ∧
         (∀ a, realAddr a → (∀ n ∈ act, ∀ b, at' n = some b → ¬ (a.dev = false ∧ b.a ≤ a.a ∧ a.a < b.a + w)) →
           t.rawByte a = s.rawByte a) ∧
         ∀ n ∈ act, ∀ b k, at' n = some b → k < w →
           (∀ m ∈ act, n < m → ∀ b', at' m = some b' → ¬ (b'.a ≤ b.a + k ∧ b.a + k < b'.a + w)) →
           t.rawByte (b.plus k) =
             if s.mayAccess j.who.req (b.plus k) true then (leBytes w (x.elem e.va w n)).getD k 0 else s.rawByte (b.plus k))) ∧
  (∀ (s : State) (i : Issue) (j : Job) (f : Fmt) (base : Addr), Issues s i j → Alone s i → (Instr.vecScatadd i).wf = true →
     i.regBad = false → i.readBad = [] → Fmt.ofCode (wf i.word 103 100) = some f → okGather f = true →
     let e := envOf s i j
     let x := e.vctx s
     let w := f.bytes
     let at' := e.elemAddr s base w true
     let act := e.actives s w
     mAddr s i.cluster (slotOf s i) (wf i.word 63 32) 1 1 = .ok base → base.dev = false →
     (∀ n ∈ act, (at' n).isSome) → (slotOf s i).hazard ((act.filterMap at').map fun a => a.rng w true) none = false →
     ∃ t, exec (.vecScatadd i) s = .next t ∧ slotOf t i = goesOn s.life.clock (slotOf s i) (slotOf s i).pc ∧
       (e.vctx t).v = x.v ∧ t.mem = s.mem ∧ t.sec = s.sec ∧ t.lnk = s.lnk ∧
       (∀ a, realAddr a → (∀ n ∈ act, ∀ b, at' n = some b → ¬ (a.dev = false ∧ b.a ≤ a.a ∧ a.a < b.a + w)) → t.rawByte a = s.rawByte a) ∧
       ∀ n ∈ act, ∀ b, at' n = some b →
         (∀ m ∈ act, m ≠ n → ∀ b', at' m = some b' → b.a + w ≤ b'.a ∨ b'.a + w ≤ b.a) →
         (∀ k, k < w → s.lineValid (b.plus k) = true ∨ s.rawByte (b.plus k) = 0) →
         ∀ k, k < w → t.rawByte (b.plus k) =
           if s.mayAccess j.who.req (b.plus k) true then
             (leBytes w (if f.isInt then opIadd f (leNat (s.read j.who.req b w)) (x.elem e.va w n) 0
               else opAdd f (leNat (s.read j.who.req b w)) (x.elem e.va w n) 0).1).getD k 0
           else s.rawByte (b.plus k))

/-- 04 R87 to R89, R91, R115: compares and the mask operations write lanes of a mask register (m0 discards the write): a
compare's lane is the AND over its active elements; an inactive lane keeps its bit or becomes 0; with nothing active nothing is
written. No vector register, length or generator changes. -/
def Obligations.MaskOperationsResult : Prop :=
  ∀ (s : State) (i : Issue) (j : Job), Issues s i j → Alone s i → i.regBad = false →
    let e := envOf s i j
    let x := e.vctx s
    let md := wf i.word 97 95
    let lanes (y : VCtx) (any : Bool) (on val : Nat → Bool) : Prop :=
      y.v = x.v ∧ y.vl = x.vl ∧ y.gen = x.gen ∧ (∀ k, k ≠ md → y.mask k = x.mask k) ∧
      ∀ l, l < 256 → bitOf (y.mask md) l =
        if md = 0 then true else if !any then bitOf (x.mask md) l else if on l then val l
        else if e.zm then false else bitOf (x.mask md) l
    let masks (cmd : Issue → Instr) (val : Nat → Bool) : Prop :=
      (cmd i).wf = true → ∃ y, exec (cmd i) s = .next (vecDone s i (e.actives s 4) y) ∧
        y.flags = x.flags ∧ lanes y (e.actives s 4 != []) (fun l => x.active e.vm 4 l) val
    let va := x.mask (wf i.word 92 90)
    let vb := x.mask (wf i.word 87 85)
    masks .vecMand (fun l => bitOf va l && bitOf vb l) ∧ masks .vecMor (fun l => bitOf va l || bitOf vb l) ∧
    masks .vecMnot (fun l => !bitOf va l) ∧
    ∀ f, Fmt.ofCode (wf i.word 103 100) = some f →
      let act := e.actives s f.bytes
      let r (n : Nat) := cmpElem f (wf i.word 66 64) (x.elem e.va f.bytes n) (x.elem e.vb f.bytes n)
      let els (l : Nat) := act.filter fun n => f.bytes * n / 4 == l
      ∀ cmd ok, (cmd, ok) ∈ [(Instr.vecCmp, okFloatMove f), (Instr.vecIcmp, okPacked f)] → ok = true → (cmd i).wf = true →
        ∃ y, exec (cmd i) s = .next (vecDone s i act y) ∧
          y.flags = (act.map fun n => (r n).2).foldl VFlags.or x.flags ∧
          lanes y (act != []) (fun l => els l != []) fun l => (els l).all fun n => (r n).1

/-- 04 R88, R96, R100, 05 R115: SETVL grants the lower of its operand and the most a register holds; LDGEN loads the
generator descriptor; MLD and MST move a mask register from and to 32 bytes of the cluster's scratchpad; TOPK merges the
active elements into the row of the record. -/
def Obligations.LengthMaskMemoryAndTopkResult : Prop :=
  ∀ (s : State) (i : Issue) (j : Job) (a : Addr), Issues s i j → Alone s i → i.regBad = false → i.readBad = [] →
    let e := envOf s i j
    let x := e.vctx s
    let y := slotOf s i
    let put (t : State) (v : VCtx) : State := t.setVctx i.cluster.val i.slot.val v
    let on (t : State) : Host.Outcome State Fault Refusal := .next (t.advance i.cluster i.slot y.pc.toNat)
    (∀ f, (Instr.vecSetvl i).wf = true → Fmt.ofCode (wf i.word 103 100) = some f → f.okVector = true →
      let n := min (y.rx (wf i.word 93 90)) (1024 / f.bytes)
      exec (.vecSetvl i) s =
        .next (after (put s { x with vl := n * f.bytes }) i fun z => z.setX (wf i.word 98 95) (BitVec.ofNat 32 n))) ∧
    (∀ g, (Instr.vecLdgen i).wf = true → e.vecAddr s 32 1 = .ok a → y.hazard [a.rng 32 false] none = false →
      GenDesc.decode (s.read j.who.req a 32) = some g →
      exec (.vecLdgen i) s = on (put (s.noteMiss e.who a 32 false) { x with gen := g })) ∧
    ((Instr.vecMld i).wf = true → e.vecAddr s 32 1 = .ok a → y.hazard [a.rng 32 false] none = false →
      exec (.vecMld i) s = on (e.writeMask (s.noteMiss e.who a 32 false) (BitVec.ofNat 256 (leNat (s.read j.who.req a 32))))) ∧
    ((Instr.vecMst i).wf = true → e.vecAddr s 32 1 = .ok a → y.hazard [a.rng 32 true] none = false →
      e.actives s 4 ≠ [] →
      ∃ v : BitVec 256, exec (.vecMst i) s = on (s.store e.who a (leBytes 32 v.toNat)) ∧
        ∀ l, l < 256 → bitOf v l =
          if x.active e.vm 4 l then bitOf (x.mask (wf i.word 97 95)) l
          else (leNat (s.read j.who.req a 32)).testBit l) ∧
    (∀ f, (Instr.vecTopk i).wf = true → Fmt.ofCode (wf i.word 103 100) = some f → okReduce f = true →
      let k := wf i.word 69 64 + 1
      let act := e.actives s f.bytes
      e.vecAddr s (8 * k) 8 = .ok a → act ≠ [] → y.hazard [a.rng (8 * k) true] none = false →
      let v (n : Nat) := x.elem e.va f.bytes n
      exec (.vecTopk i) s = on (put
        (s.mergeTop e.who a 0 k f.isInt
          (act.map fun n => ⟨topValue f (v n), (wf i.word 31 0 + n) % 2 ^ 32⟩))
        (x.addFlags { nanIn := !f.isInt && act.any fun n => (f.val (v n)).isNan })))

/-! ### Semaphores and barriers -/

/-- 06 R134, R135: SIGNAL on this node adds n to a count of the job's window; WAIT_TAKE takes n from a count that has it,
WAIT_OBS leaves the count; a wait that the count does not meet blocks the slot in arrival order and leaves the count. -/
def Obligations.SignalAndWaitResult : Prop :=
  ∀ (s : State) (i : Issue) (j : Job), Issues s i j →
    let y := slotOf s i
    let r := semRef (BitVec.ofNat 32 (wf i.word 111 80))
    let n : W32 := BitVec.ofNat 32 (wf i.word 79 48)
    let x := s.clu r.cluster.val
    let c := i.cluster.val
    r.node = s.lnk.node → j.holdsSem r.cluster.val r.index = true →
    ((Instr.signalOp i).wf = true → (∀ o ∈ y.out, o.kind = .remoteSignal) →
      x.stuck.contains r.index = false → (x.sem r.index).toNat + n.toNat < 2 ^ 32 →
      exec (.signalOp i) s =
        .next ((s.setClu r.cluster.val (x.setSem r.index (x.sem r.index + n))).advance i.cluster i.slot y.pc.toNat)) ∧
    (r.cluster = i.cluster → 0 < n.toNat →
      let queued := x.waiters.any fun w => w.take && w.sem == r.index
      ((Instr.waitTake i).wf = true → n.toNat ≤ (x.sem r.index).toNat → queued = false → r.index ∉ x.stuck →
        exec (.waitTake i) s =
          .next ((s.setClu c (x.setSem r.index (x.sem r.index - n))).advance i.cluster i.slot y.pc.toNat)) ∧
      ((Instr.waitObs i).wf = true → n.toNat ≤ (x.sem r.index).toNat → exec (.waitObs i) s = .next (after s i id)) ∧
      ∀ cmd take, (cmd, take) ∈ [(Instr.waitTake, true), (Instr.waitObs, false)] → (cmd i).wf = true →
        ((x.sem r.index).toNat < n.toNat ∨ (take = true ∧ queued = true)) →
        ∃ t, exec (cmd i) s = .next t ∧ (t.clu c).sems = x.sems ∧
          (t.clu c).waiters = x.waiters ++ [⟨i.slot, r.index, take, n⟩] ∧
          (slotOf t i).state = .waiting ∧ (slotOf t i).wait = .semaphore ∧ (slotOf t i).waitIndex = r.index ∧
          (∀ c' k', (c', k') ≠ (c, i.slot.val) → t.slot c' k' = s.slot c' k') ∧ t.mem = s.mem ∧ t.lnk = s.lnk)

/-- 06 R133, R145: a wait on another node or cluster ends the job with SEM_ADDR, a semaphore outside the job's window with
SEM_RANGE, and so does a BARRIER on an object the job does not hold; nothing waits.
06 R145, R146: the arrival of a slot that is not the episode's last: the object collects, its step is the instruction's,
one more has arrived, and the slot is blocked past its BARRIER until the release. -/
def Obligations.SemaphoreChecksAndBarrierBlocks : Prop :=
  (∀ (s : State) (i : Issue) (j : Job), Issues s i j →
     let r := semRef (BitVec.ofNat 32 (wf i.word 111 80))
     let bad (f : Fail) : Host.Outcome State Fault Refusal := .next (s.failJob i.cluster i.slot j.tag f)
     (∀ cmd ∈ [Instr.waitTake, .waitObs], (cmd i).wf = true → (r.node ≠ s.lnk.node ∨ r.cluster ≠ i.cluster) →
       exec (cmd i) s = bad { code := Ev.semAddr }) ∧
     (∀ cmd ∈ [Instr.signalOp, .waitTake, .waitObs], (cmd i).wf = true → r.node = s.lnk.node → r.cluster = i.cluster →
       j.holdsSem r.cluster.val r.index = false → exec (cmd i) s = bad (semFail s r)) ∧
     ((Instr.barrier i).wf = true → s.holdsBar j.tag ⟨wf i.word 47 44 % 16, Nat.mod_lt _ (by decide)⟩ = false →
       exec (.barrier i) s = bad { code := Ev.semRange })) ∧
  (∀ (s : State) (i : Issue) (j : Job), Issues s i j → (Instr.barrier i).wf = true →
     let b : BarId := ⟨wf i.word 47 44 % 16, Nat.mod_lt _ (by decide)⟩
     let x := s.bar b.val
     let step : W32 := BitVec.ofNat 32 (wf i.word 43 12)
     s.holdsBar j.tag b = true → (slotOf s i).out = [] → j.remoteOf i.cluster i.slot = false → (x.state = .armed ∨ step = x.epStep) →
     (x.state = .armed ∨ x.state = .collecting) → x.arrived + 1 ≠ x.localArrivals →
     ∃ t, exec (.barrier i) s = .next t ∧
       t.bar b.val = { x with
         state := .collecting, epStep := step, arrived := x.arrived + 1, blocked := x.blocked ++ [(i.cluster, i.slot)] } ∧
       (slotOf t i).state = .waiting ∧ (slotOf t i).wait = .barrier ∧ (slotOf t i).waitIndex = b.val ∧
       (∀ b', b' ≠ b.val → t.bar b' = s.bar b') ∧ t.mem = s.mem ∧ t.evt = s.evt ∧ t.out = s.out ∧ t.jobs = s.jobs)

/-! ### MOVE, ROUTE, MMA -/

/-- 05 R111, R112: COPY, CONV (no amax record) and FILL to a tile of this node: every byte of the destination that the job may
write holds what the rule gives, every other byte of memory is as before (07 R156), and the MOVE stays outstanding until it
completes (R124). A CONV to INT8 or UINT8 with an outlier list stores the zero point of the row in the listed channels and their
true values in the side tile (02 R51). A MOVE to another node changes no memory here and sends its rows as WRITE messages of at
most 4,016 B (11 R292).
05 R112: a COPY or CONV whose tiles differ in shape, or whose formats do not fit, ends the job with SEQ_TILE and writes
nothing. -/
def Obligations.MoveResult : Prop :=
  (∀ (s : State) (i : Issue) (j : Job) (src dst : Tile), Issues s i j → i.readBad = [] →
     let e := envOf s i j
     let y := slotOf s i
     let r := j.who.req
     let sem := e.moveSem s
     e.tile s (wf i.word 101 92) = .ok src → e.tile s (wf i.word 111 102) = .ok dst → dst.fmt ≠ .run →
     semCheck s j sem = .ok () →
     let node : NodeId := BitVec.ofNat 16 (wf i.word 79 64)
     let here : Prop := wf i.word 63 63 = 1 → node = s.lnk.node
     let issues (cmd : Issue → Instr) (rs : List Rng) (p : State → Prop) : Prop :=
       (cmd i).wf = true → y.crowded rs.length = false → y.hazard rs none = false →
       ∃ t, exec (cmd i) s = .next t ∧ slotOf t i = outstanding s.life.clock y .move rs sem none ∧ p t
     let moves (cmd : Issue → Instr) (rs : List Rng) (rows : Nat → Bytes) : Prop :=
       (here → issues cmd (rs ++ [dst.rng true]) fun t => TileStored s t r dst rows) ∧
       (¬ here → (s.route node).isSome = true → issues cmd rs fun t => (∀ a, t.rawByte a = s.rawByte a) ∧
         t.out = s.out ++ (List.range dst.rows).flatMap fun n => (pieces 4016 (rows n).length 0 (rows n)).map fun q =>
           Out.write node j.tag (s.dataVc j.tag) ((dst.rowAddr n).plus q.1).msg q.2)
     let same := src.rows = dst.rows ∧ src.cols = dst.cols ∧ src.fmt ≠ .run ∧ poisonAll s r src.reads = .ok ()
     (same → src.fmt = dst.fmt → moves .moveCopy [src.rng false] fun n => s.read r (src.rowAddr n) src.rowBytes) ∧
     moves .moveFill [] (fun _ =>
       packElems dst.fmt (List.replicate dst.cols (wf i.word 31 0 % 2 ^ dst.fmt.width))) ∧
     ∀ c sa sb, same → ConvCtl.decode (wf i.word 91 80) = some c → c.dst = dst.fmt → c.amaxEn = false →
       e.scaleOf s src = .ok sa → e.scaleOf s dst = .ok sb →
       let scl := [sa, sb].filterMap fun p => p.map fun a => (a, 4 * src.rows)
       let o := e.quantList dst.fmt
       let rows (n : Nat) : Bytes :=
         packElems dst.fmt (quantRow o dst.fmt n (convRow c (e.vctx s).gen dst.cols n (convInputs s e src sa sb n)))
       let rs := [src.rng false, dst.rng true] ++ scl.map fun x => x.1.rng x.2 false
       poisonAll s r scl = .ok () → here →
       (o.bind (s.sideTile src.rows) = none → issues .moveConv rs fun t => TileStored s t r dst rows) ∧
       ∀ x st, o = some x → s.sideTile src.rows x = some st → Apart dst st → issues .moveConv (rs ++ [st.rng true]) fun t =>
         TwoStored s t r dst st rows fun n => packElems .bf16 (sideRow s e src sa x n)) ∧
  (∀ (s : State) (i : Issue) (j : Job) (src dst : Tile), Issues s i j →
     let e := envOf s i j
     e.tile s (wf i.word 101 92) = .ok src → e.tile s (wf i.word 111 102) = .ok dst →
     let bad : Host.Outcome State Fault Refusal := .next (s.failJob i.cluster i.slot j.tag { code := Ev.seqTile })
     ((Instr.moveCopy i).wf = true → (src.fmt ≠ dst.fmt ∨ src.rows ≠ dst.rows ∨ src.cols ≠ dst.cols) →
       exec (.moveCopy i) s = bad) ∧
     ∀ c, (Instr.moveConv i).wf = true → ConvCtl.decode (wf i.word 91 80) = some c →
       (c.dst ≠ dst.fmt ∨ src.rows ≠ dst.rows ∨ src.cols ≠ dst.cols) → exec (.moveConv i) s = bad)

/-- 05 R122, R123: GATHER, and a DISPATCH to this node, copy the qualifying rows in ascending order, fill up to a multiple of
32 rows with zeros and write the count and the indices; TOPK merges each row of src into the record; SCATTER adds to each row that the
index tile names, one after another in index order, the gate of its record's entry times row i of src, in FP32 operations rounded to
nearest even, and rounds back for a BF16 dst; every other byte stays. Each stays outstanding. That src is read as it was before the
instruction is the model's choice (DESIGN CHOICE, log 12). -/
def Obligations.RouteInstructionsResult : Prop :=
  ∀ (s : State) (i : Issue) (j : Job) (dst src aux : Tile) (rec : Addr), Issues s i j → i.readBad = [] →
    let e := envOf s i j
    let y := slotOf s i
    let r := j.who.req
    let k := wf i.word 81 76 + 1
    let p := wf i.word 15 0
    let issued (rows : Nat) (also : List (Addr × Nat)) (sem : Option SemRef) (rs : List Rng) : Prop :=
      mAddr s i.cluster y (wf i.word 63 32) (8 * k * rows) 8 = .ok rec ∧ semCheck s j sem = .ok () ∧
      y.crowded rs.length = false ∧ y.hazard rs none = false ∧
      poisonAll s r ((rec, 8 * k * rows) :: (src.reads ++ also)) = .ok ()
    let noted (rows : Nat) : State := s.noteReads e.who ((rec, 8 * k * rows) :: src.reads)
    e.tile s (wf i.word 101 92) = .ok src →
    (let sem := e.routeSem s.lnk.node none
     let rs := [src.rng false, rec.rng (8 * k * src.rows) true]
     (Instr.topk i).wf = true → (src.fmt = .fp32 ∨ src.fmt = .bf16 ∨ src.fmt = .int32) → issued src.rows [] sem rs →
     ∃ t, exec (.topk i) s = .next t ∧ slotOf t i = outstanding s.life.clock y .route rs sem none ∧
       ∀ a, t.rawByte a = ((List.range src.rows).foldl (fun u n => u.mergeTop e.who rec n k src.fmt.isInt
         ((s.tileRow r src n).zipIdx.map fun x => ⟨topValue src.fmt x.1, (wf i.word 31 0 + x.2) % 2 ^ 32⟩))
         (noted src.rows)).rawByte a) ∧
    (e.tile s (wf i.word 111 102) = .ok dst → e.tile s (wf i.word 91 82) = .ok aux → aux.fmt = .int32 → aux.rows = 1 →
     src.fmt ≠ .run → src.cols = dst.cols →
     (∀ cmd ∈ [Instr.gather, .dispatch], (cmd i).wf = true →
       (cmd = Instr.dispatch → BitVec.ofNat 16 (wf i.word 31 16) = s.lnk.node) →
       src.fmt = dst.fmt → dst.rows + 1 ≤ aux.cols →
       let sem := e.routeSem s.lnk.node (some dst)
       let rs := [src.rng false, rec.rng (8 * k * src.rows) false, dst.rng true, aux.rng true]
       let rows := (List.range src.rows).filter fun n => (recFind s r rec k n p).isSome
       issued src.rows [] sem rs → rows.length ≤ dst.rows →
       ∃ t, exec (cmd i) s = .next t ∧ slotOf t i = outstanding s.life.clock y .route rs sem none ∧
         let stop := min (if rows.length = 0 then 32 else alignUp rows.length 32) dst.rows
         let index := leBytes 4 rows.length ++ rows.flatMap fun n => leBytes 4 n
         let row (n : Nat) : Bytes :=
           match rows[n]? with
           | some m => s.read r (src.rowAddr m) src.rowBytes
           | none => List.replicate dst.rowBytes 0
         (∀ m, m < index.length → s.mayAccess r (aux.addr.plus m) true = true → t.rawByte (aux.addr.plus m) = index.getD m 0) ∧
         (∀ m, m < index.length → s.mayAccess r (aux.addr.plus m) true = false →
           (∀ n q, n < stop → q < dst.rowBytes → aux.addr.plus m ≠ (dst.rowAddr n).plus q) →
           t.rawByte (aux.addr.plus m) = s.rawByte (aux.addr.plus m)) ∧
         (∀ n m, n < stop → m < dst.rowBytes → (∀ q, q < index.length → (dst.rowAddr n).plus m ≠ aux.addr.plus q) →
           t.rawByte ((dst.rowAddr n).plus m) =
             if s.mayAccess r ((dst.rowAddr n).plus m) true then (row n).getD m 0 else s.rawByte ((dst.rowAddr n).plus m)) ∧
         ∀ a, realAddr a → (∀ q, q < index.length → a ≠ aux.addr.plus q) →
           (∀ n m, n < stop → m < dst.rowBytes → a ≠ (dst.rowAddr n).plus m) → t.rawByte a = s.rawByte a) ∧
     ((Instr.scatter i).wf = true → okFloat dst.fmt = true → okFloat src.fmt = true → src.rows + 1 ≤ aux.cols →
       let sem := e.routeSem s.lnk.node (some dst)
       let rs := [src.rng false, aux.rng false, rec.rng (8 * k * dst.rows) false, dst.rng true]
       let n := s.elem r aux 0 0
       let list := (List.range n).map fun m => s.elem r aux 0 (m + 1)
       issued dst.rows aux.reads sem rs → n ≤ src.rows → (∀ q ∈ list, q < dst.rows) →
       ∃ t, exec (.scatter i) s = .next t ∧ slotOf t i = outstanding s.life.clock y .route rs sem none ∧
         (∀ q ∈ list, dst.rowBytes ≤ dst.pitch →
           (∀ m, m < dst.rowBytes → s.mayAccess r ((dst.rowAddr q).plus m) true = true ∧
             s.mayAccess r ((dst.rowAddr q).plus m) false = true ∧ s.lineValid ((dst.rowAddr q).plus m) = true) →
           let gated := (list.zipIdx.filter fun x => x.1 == q).map (·.2)
           let row := match recFind s r rec k q p with
             | none => s.tileRow r dst q
             | some en => gated.foldl (fun row m => (row.zip (s.tileRow r src m)).map fun x =>
                 scatterElem dst.fmt src.fmt (BitVec.ofNat 32 en.value) x.1 x.2) (s.tileRow r dst q)
           ∀ m, m < dst.rowBytes → t.rawByte ((dst.rowAddr q).plus m) = (packElems dst.fmt row).getD m 0) ∧
         ∀ a, realAddr a → (∀ q ∈ list, ∀ m, m < dst.rowBytes → a ≠ (dst.rowAddr q).plus m) → t.rawByte a = s.rawByte a))

/-- 03 R69 to R72, R58, R73; 05 R113, R114: OPEN takes a free group with a legal descriptor and sets its target (zeros, or the
init tile); ACC and SIDE queue their chunks in ascending K, ask for the group's arrays (05 R127) and stay outstanding; CLOSE moves the group to
closing.
02 R51: a side pass whose outlier list is malformed ends the job, one whose list names no channel has no work; that the event is
ACC_SHAPE is the model's choice (log 13).
03 R58, 05 R114: the chunks of K positions in spans of C: consecutive, none empty, together all of K, the last one alone
marked. -/
def Obligations.GroupInstructionsResult : Prop :=
  (∀ (s : State) (i : Issue) (j : Job), Issues s i j →
     let e := envOf s i j
     let y := slotOf s i
     let c := i.cluster.val
     let g : GId := ⟨wf i.word 111 108 % 16, Nat.mod_lt _ (by decide)⟩
     (∀ a d, (Instr.mmaOpen i).wf = true → i.readBad = [] → mAddr s i.cluster y (wf i.word 107 76) 128 1 = .ok a →
       a.a % 64 = 0 → a.dev = false → spdCluster a.a = c → spdCluster (a.a + 127) = c →
       (s.group c g.val).state = .free → y.hazard [a.rng 128 false] none = false →
       grpDesc s e (s.read j.who.req a 128) = some d → d.legal s i.cluster (s.clu c).targets = true →
       semCheck s j (d.doneSem s.lnk.node i.cluster) = .ok () → y.crowded d.openRngs.length = false →
       y.hazard d.openRngs none = false →
       (∀ t ∈ d.init, poisonAll s j.who.req t.reads = .ok ()) → d.sideEn = false → (∀ t ∈ d.init, t.same d.target = false) →
       ∃ t, exec (.mmaOpen i) s = .next t ∧
         t.group c g.val = { state := .opened, slot := i.slot, tag := j.tag, desc := some d } ∧ slotOf t i = goesOn s.life.clock y y.pc ∧
         TileStored s t j.who.req d.target fun n => packElems d.target.fmt
           (match d.init with
            | some x => s.tileRow j.who.req x n
            | none => List.replicate d.target.cols 0)) ∧
     ∀ d, ownerOf s e g = .owns d →
       let queue (rs : List Rng) (l : List Chunk) : Host.Outcome State Fault Refusal :=
         .next ((((s.modGroup c g.val fun x => { x with chunks := x.chunks ++ l.map fun ch => { ch with id := y.nextId } }).addOut
           e .acc rs none (some g)).grantArrays c).advance i.cluster i.slot y.pc.toNat)
       (∀ a b m o k, (Instr.mmaAcc i).wf = true → e.tile s (wf i.word 107 98) = .ok a → e.tile s (wf i.word 97 88) = .ok b →
         e.tile? s (wf i.word 87 78) = .ok m → e.tile? s (wf i.word 77 68) = .ok o →
         let aK := wf i.word 67 67 == 1
         let bK := wf i.word 66 66 == 1
         accShape d a b m o aK bK = some k →
         let rs := [a.rng false, b.rng false, d.target.rng true] ++ (m.toList ++ o.toList).map (·.rng false)
         y.crowded rs.length = false → y.hazard rs (some g) = false →
         exec (.mmaAcc i) s = queue rs (chunksOf
           { side := false, a := a, b := b, metaT := m, occ := o, aK := aK, bK := bK, k0 := 0, k1 := 0
             passes := if d.int then [(0, 0)] else passes a.fmt.pieces b.fmt.pieces, last := false, id := 0 }
           k (if d.sparse then 2 * d.chunkLen else d.chunkLen))) ∧
       (∀ a b st, (Instr.mmaSide i).wf = true → e.tile s (wf i.word 107 98) = .ok a → e.tile s (wf i.word 97 88) = .ok b →
         let aK := wf i.word 67 67 == 1
         let bK := wf i.word 66 66 == 1
         d.sideTile = some st → a.fmt = .bf16 → b.fmt = .bf16 → aLen d a aK = some 64 → bLen d b bK = some 64 →
         let rs := [a.rng false, b.rng false, st.rng true]
         ((∃ o, i.outliers = some o ∧ outliersOk o = false) →
          exec (.mmaSide i) s = .next (s.failJob i.cluster i.slot j.tag (accFail Ev.accShape g))) ∧
         ((∃ o, i.outliers = some o ∧ outliersOk o = true ∧ outliersEmpty o = true) → exec (.mmaSide i) s = .next (after s i id)) ∧
         ((∀ o, i.outliers = some o → outliersOk o = true ∧ outliersEmpty o = false) → y.crowded rs.length = false →
          y.hazard rs (some g) = false →
          exec (.mmaSide i) s = queue rs (chunksOf
            { side := true, a := a, b := b, metaT := none, occ := none, aK := aK, bK := bK, k0 := 0, k1 := 0
              passes := [(0, 0)], last := false, id := 0 } 64 d.chunkLen))) ∧
       (let rs := d.closeRngs (zpRec s j.who.req d)
        (Instr.mmaClose i).wf = true → y.crowded rs.length = false → y.hazard rs (some g) = false →
         ∃ t, exec (.mmaClose i) s = .next t ∧
           t.group c g.val = { s.group c g.val with
             state := .closing, closeId := y.nextId, gen := (s.vctx c i.slot.val).gen } ∧
           slotOf t i = outstanding s.life.clock y .closing rs none (some g) ∧ ∀ a, t.rawByte a = s.rawByte a)) ∧
  (∀ (proto : Chunk) (k span : Nat), 0 < k → 0 < span →
     let l := chunksOf proto k span
     l.length = (k + span - 1) / span ∧
     (∀ n (h : n < l.length), l[n].k0 = n * span ∧ l[n].k0 < l[n].k1 ∧ l[n].k1 - l[n].k0 ≤ span ∧
       (l[n].last = true ↔ n + 1 = l.length) ∧ (n + 1 < l.length → l[n].k1 = (n + 1) * span) ∧
       (n + 1 = l.length → l[n].k1 = k)))

/-- 03 R57, R76, R79, R83, R84, 05 R127: a chunk of a group that holds its arrays is promoted into the partial sums and leaves the
group; one parity error of an array replays its chunk, a second one in the same array poisons the group and ends its job; a group
that has not been granted its arrays runs no chunk; the epilogue runs once every chunk of a closing group is
promoted; the close then frees the group. That a stochastic epilogue draws from the generator that the close took is the model's choice
(DESIGN CHOICE, log 13). -/
def Obligations.GroupWorkResult : Prop :=
  ∀ (s : State) (c : CId) (g : GId) (d : GrpDesc) (j : Job),
    let x := s.group c.val g.val
    x.desc = some d → s.job x.tag = some j →
    (∀ bad, g ∉ (s.clu c.val).owners → exec (.chunkEnd c g bad) s = .next s) ∧
    (∀ ch rest, x.chunks = ch :: rest → g ∈ (s.clu c.val).owners → poisonAll s j.who.req ch.reads = .ok () →
      (∀ n, n ∈ d.arrays → exec (.chunkEnd c g ((List.replicate (d.arrays.idxOf n) 0) ++ [1])) s =
        .next (((((s.noteReads (j.groupWho g) ch.reads).accReplay c g x.tag (d.blockAt n))).promoteChunk c g (j.groupWho g) d
          ch).endChunk c g ch)) ∧
      (∃ u, exec (.chunkEnd c g []) s = .next u ∧ (u.group c.val g.val).chunks = if x.dying then [] else rest) ∧
      (∀ n, n ∈ d.arrays → ∃ u, exec (.chunkEnd c g ((List.replicate (d.arrays.idxOf n) 0) ++ [2])) s = .next u ∧
        (u.group c.val g.val).state = .poisoned ∧ (u.group c.val g.val).chunks = [] ∧ g ∉ (u.clu c.val).owners ∧
        (j.stop = none → ∀ k, u.job x.tag = some k → k.stop = some (Stat.fault, Ev.accPoison))) ∧
      ∀ t, (ch.side = false ∧ t = d.target ∨ ch.side = true ∧ d.sideTile = some t) → t.rowBytes ≤ t.pitch →
        ∃ u, exec (.chunkEnd c g []) s = .next u ∧
          TileStored s u j.who.req t fun m => packElems t.fmt
            (((s.tileRow j.who.req t m).zip ((List.range t.cols).map fun q => ch.runs s j.who.req (d.int && !ch.side) m q)).map
              fun z => (promote (d.int && !ch.side) z.1 z.2).1)) ∧
    (x.state = .closing → x.chunks = [] → x.epilogued = false →
      let z := zpRec s j.who.req d
      poisonAll s j.who.req (d.epiReads z) = .ok () → (d.zpEn = true → z.ok = true) →
      (d.usesRescale = true → ∀ q, q < d.cols → (rescaleRec s j.who.req d q).ok = true) →
      ∃ u, exec (.epilogue c g []) s = .next u ∧ (u.group c.val g.val).epilogued = true ∧
        (u.group c.val g.val).state = .closing ∧
        ∀ o, d.out = some o → d.conv.amaxEn = false → d.topkEn = false → d.occEn = false → o.rows = d.rows → o.cols = d.cols →
          o.rowBytes ≤ o.pitch →
          TileStored s u j.who.req o fun m => packElems o.fmt ((List.range d.cols).map fun q =>
            (epilogueElem s j.who.req d z (mget 0 x.rowSums m) m q
              (if d.conv.stoch then x.gen.draw16 (m * d.cols + q) else 0)).bits)) ∧
    (x.state = .closing → x.epilogued = true →
      exec (.closeDone c g) s = .next (match d.doneSem s.lnk.node c with
        | some r => ((s.dropOut c x.slot x.closeId).setGroup c.val g.val {}).signalTo x.tag r 1 (BitVec.ofNat 8 x.slot.val)
        | none => (s.dropOut c x.slot x.closeId).setGroup c.val g.val {}))

/-- 05 R118, R124: a MOVE or ROUTE that reaches its completion point leaves the slot's list and signals the semaphore it
names; a slot that drains with nothing outstanding becomes idle and leaves its job's running streams. -/
def Obligations.CompletionResult : Prop :=
  ∀ (s : State) (c : CId) (k : SId),
    let y := s.slot c.val k.val
    (∀ o, o ∈ y.out → (o.kind = .move ∨ o.kind = .route) → (∀ q ∈ y.out, q.id = o.id → q = o) →
      let done := s.modSlot c.val k.val fun z => { z with out := z.out.filter fun q => q.id != o.id }
      exec (.instrComplete c k o.id) s = .next (match o.sem with
        | none => done
        | some r => (done.signalTo y.tag r 1 (BitVec.ofNat 8 k.val)).noteRemote c k y.tag r o.id)) ∧
    (y.state = .draining → y.out = [] →
      ∃ t, exec (.streamEnd c k) s = .next t ∧ (t.slot c.val k.val).state = .idle ∧ (t.slot c.val k.val).tag = 0 ∧
        t.mem = s.mem ∧ t.lnk = s.lnk ∧ t.evt = s.evt ∧
        ∀ j ∈ t.jobs.list, j.admitted = true → j.phase ≠ .ended → j.tag = y.tag → (c, k) ∉ j.live)

/-- 06 R136: a SIGNAL that would raise a count above 0xFFFF_FFFF sets it there and the count stays, whoever waits: SEM_SAT is
raised and the job that owns the window ends with FAULT; a later signal leaves the count, raises nothing and is counted
nowhere. -/
def Obligations.SignalSaturatesAndSticks : Prop :=
  ∀ (s : State) (j : Job) (t : Tag) (c i : Nat) (n : W32), s.job t = some j → j.holdsSem c i = true →
    let x := s.clu c
    let u := s.signalSem t c i n
    (i ∉ x.stuck → 2 ^ 32 ≤ (x.sem i).toNat + n.toNat →
      (u.clu c).sem i = BitVec.allOnes 32 ∧ i ∈ (u.clu c).stuck ∧
      u.evt = (s.raise Ev.semSat
        { unit := BitVec.ofNat 8 c, tag := t, domain := j.d.domain, aux := BitVec.ofNat 16 i,
          arg := BitVec.ofNat 64 ((x.sem i).toNat * 2 ^ 32 + 0xFFFF_FFFF) }).evt ∧
      (j.stop = none → ∀ j', u.job t = some j' → j'.stop = some (Stat.fault, Ev.semSat))) ∧
    (i ∈ x.stuck → u = s)

/-- 06 R143: a privileged SEM_SET sets the count and releases waiters (R135: takers in queue order while their counts are met),
checks no window and raises SEM_MANUAL_SET with the old and the new count; any other is ignored and raises SEM_SET_DENIED; a write of
the host before ready does nothing (15 R409).
06 R137, R140, R141: a SIGNAL message for this node of a live job whose window holds the semaphore adds n and is
acknowledged; one that no window takes is dropped with SEM_STRAY and acknowledged as dropped; the acknowledgement completes
the SIGNAL of the slot that sent it.
06 R137: the acknowledgement of a remote SIGNAL takes it from its job's list and from its slot's outstanding instructions;
no memory, semaphore or register changes. -/
def Obligations.SemaphoreMessagesResult : Prop :=
  (∀ (s : State) (c : CId) (v : W64) (control : Bool),
     let i := bitsOf v 41 32
     let new := BitVec.ofNat 32 (bitsOf v 31 0)
     let x := s.clu c.val
     let takers := x.waiters.filter fun w => w.sem == i && w.take
     ((control = true ∨ s.up = true ∧ 2 ≤ s.sec.debugLevel) →
       Does (.semSet c v control) s [.cl, .evt] fun t =>
         (t.clu c.val).sem i = BitVec.ofNat 32 (takePass new.toNat takers).1 ∧
         (∀ k, k ≠ i → (t.clu c.val).sem k = x.sem k) ∧
         (∀ c', c' ≠ c.val → t.clu c' = s.clu c') ∧
         t.evt = (s.raise Ev.semManualSet
           { unit := BitVec.ofNat 8 c.val, aux := BitVec.ofNat 16 i, arg := BitVec.ofNat 64 ((x.sem i).toNat * 2 ^ 32 + new.toNat) }).evt) ∧
     (control = false → s.up = false → exec (.semSet c v control) s = .next s) ∧
     (control = false → s.up = true → s.sec.debugLevel < 2 →
       exec (.semSet c v control) s = .next (s.raise Ev.semSetDenied { unit := BitVec.ofNat 8 c.val }))) ∧
  (∀ (s : State) (m : Msg), Heard s m [1, 3] → m.dst = s.lnk.node →
     let u := s.wakeUp
     ∀ (sem n : W32), (s.route m.src).isSome = true →
       let r := semRef sem
       let x := s.clu r.cluster.val
       let ack (ok : Bool) : Out := .signalAck m.src m.tag sem ok
       (∀ j, s.job m.tag = some j → r.node = s.lnk.node → j.holdsSem r.cluster.val r.index = true → r.index ∉ x.stuck →
         (x.sem r.index).toNat + n.toNat < 2 ^ 32 →
         exec (.signalMsg m sem n) s =
           .next ((u.setClu r.cluster.val (x.setSem r.index (x.sem r.index + n))).emit (ack true))) ∧
       ((s.job m.tag = none ∨ ∃ j, s.job m.tag = some j ∧ j.holdsSem r.cluster.val r.index = false) →
         exec (.signalMsg m sem n) s = .next ((u.dropSignal m.tag r.cluster.val r.index).emit (ack false)) ∧
         ∀ c i, ((u.dropSignal m.tag r.cluster.val r.index).clu c).sem i = (s.clu c).sem i)) ∧
  (∀ (s : State) (m : Msg) (sem : W32) (ok : Bool) (j : Job) (c : CId) (k : SId) (id : Nat), Heard s m [0] →
     m.dst = s.lnk.node → s.jobs.list.find? (fun j => j.admitted && j.tag == m.tag) = some j →
     j.remote.find? (fun x => x.2.2.1 == semRef sem) = some (c, k, semRef sem, id) → (s.slot c.val k.val).tag = m.tag →
     Does (.signalAck m sem ok) s [.jobs, .cl, .rst] fun t =>
       (t.slot c.val k.val).out = (s.slot c.val k.val).out.filter (fun o => !(o.kind == .remoteSignal && o.id == id)) ∧
       (t.slot c.val k.val).pc = (s.slot c.val k.val).pc ∧ (t.slot c.val k.val).x = (s.slot c.val k.val).x ∧
       (∀ c' i, (t.clu c').sem i = (s.clu c').sem i) ∧ ∀ a, t.rawByte a = s.rawByte a)

/-- 06 R146, R147: a child's ARRIVE counts in the episode of its step; a RELEASE for the step waited for arms the object again
and wakes its slots (no realign due, no removals); an abort stops the job here and leaves the object aborting. A node without the
job sends its messages on. That the aborting object stays so until its job has ended, and that a node without the job passes its barrier
messages on, is the model's reading (DEDUCED, log 15). -/
def Obligations.BarrierMessagesResult : Prop :=
  ∀ (s : State) (m : Msg) (b : BarId), Heard s m [0] →
    let u := s.wakeUp
    let x := s.bar b.val
    (s.job m.tag = none → m.tag ≠ 0 → s.lnk.left = false →
      (∀ step, exec (.arrive m b step) s = .next (u.emit (.arrive (s.relayEdge m.port) m.tag b step))) ∧
      (∀ step l, exec (.release m b step l) s = .next (u.emit (.release (s.relayEdge m.port) m.tag b step l))) ∧
      ∀ skew, exec (.barrierAbort m b skew) s = .next (u.emit (.barAbort (.but m.port) m.tag b skew))) ∧
    ∀ (j : Job), s.job m.tag = some j → s.holdsBar m.tag b = true →
    (∀ step, s.isChildPort m.port = true → (x.state = .armed ∨ x.state = .collecting ∧ step = x.epStep) →
      x.arrived ≠ x.localArrivals →
      exec (.arrive m b step) s = .next (u.setBar b.val { x with
        state := .collecting, epStep := step, children := x.children + 1 })) ∧
    (∀ step, s.isChildPort m.port = true → x.state ≠ .armed → step ≠ x.epStep →
      exec (.arrive m b step) s = .next (u.faultBar m.tag b Ev.barSkew)) ∧
    (s.isParentPort m.port = true → x.state = .waitRelease →
      (x.realignEn = false ∨ x.epStep.toNat % 2 ^ x.periodLog2 ≠ 0) →
      Does (.release m b x.epStep []) s [.bars, .cl, .out, .rst] fun t =>
        t.bar b.val = { x with state := .armed, arrived := 0, children := 0, blocked := [] } ∧
        (∀ e ∈ x.blocked, (s.slot e.1.val e.2.val).state = .waiting → (t.slot e.1.val e.2.val).state = .running) ∧
        t.out = if s.jobChildren j = 0 then s.out else s.out ++ [.release (s.jobDown j) m.tag b x.epStep []]) ∧
    ∀ skew, j.stop = none → ∃ t, exec (.barrierAbort m b skew) s = .next t ∧ (t.bar b.val).state = .aborting ∧
      (t.bar b.val).blocked = [] ∧ s.holdsBar m.tag b = true ∧ t.holdsBar m.tag b = false ∧
      (∀ j', t.job m.tag = some j' → j'.stop = some (Stat.fault, if skew then Ev.barSkew else Ev.realignUnder)) ∧
      t.mem = s.mem ∧ t.evt = s.evt

/-! ### Main memory -/

/-- 07 R160: MEM_RETAG changes its parcels at one instant to free or to private with the domain, every line invalid, so that
they read as zero; nothing else changes but the command's status; RETAG_COMPLETE makes it done.
07 R170, R171, R183: assign makes free pages private to a domain with a live session; scrub frees pages at one instant, so
that every read of them returns zero, and SCRUB_DONE ends it with MEM_SCRUB_DONE; query answers mode and domain.
07 R170, R174: the end of a scrub: its pages can be assigned, no poisoned line of theirs is listed, MEM_SCRUB_DONE is
raised, and a commanded one is done. -/
def Obligations.MemoryCommandsResult : Prop :=
  (∀ (s : State) (v : W64), s.up = true → s.mem.cmdState ≠ .busy →
     let d : Dom := BitVec.ofNat 12 (bitsOf v 61 50)
     let c := bitsOf v 49 44
     let first := bitsOf v 43 33
     let n := bitsOf v 32 22 + 1
     let priv := bitsOf v 63 62 = 1
     bitsOf v 63 62 < 2 → (¬ priv → d = 0) → first + n ≤ 2048 → s.inCache (first + n - 1) = false →
     (∀ p, first ≤ p → p < first + n → ((s.clu c).parcel p).mode ≠ .base ∧ ((s.clu c).parcel p).cache = false ∧
       (((s.clu c).parcel p).mode = .priv → s.liveOn ((s.clu c).parcel p).domain c = false)) →
     (priv → s.liveSession d = true) →
     Does (.memRetag v) s [.cl, .mem] fun t =>
       t.mem = { s.mem with cmdState := .busy, reason := 0, retagBusy := true } ∧
       (∀ p, (t.clu c).parcel p =
         if first ≤ p ∧ p < first + n then { mode := if priv then .priv else .free, domain := if priv then d else 0 }
         else (s.clu c).parcel p) ∧
       (∀ c', c' ≠ c → t.clu c' = s.clu c') ∧
       (∀ r a, a.dev = false → a.a < 2 ^ 33 → spdCluster a.a = c → first ≤ spdOff a.a / 65536 →
         spdOff a.a / 65536 < first + n → t.readByte r a = 0) ∧
       exec .retagComplete t = .next { t with mem := { t.mem with cmdState := .done, retagBusy := false } }) ∧
  (∀ (s : State) (v : W64), s.up = true → s.mem.cmdState ≠ .busy →
     let p := pageCmd v
     let here (k : Nat) : Prop := p.first ≤ k ∧ k < p.first + p.n
     p.first + p.n ≤ s.mem.usablePages →
     (p.op = 0 → (∀ k, here k → (s.page k).mode = .free ∧ (s.page k).scrubbing = false) → s.liveSession p.d = true →
       Does (.pageAssign v) s [.mem] fun t =>
         t.mem.cmdState = .done ∧ t.mem.bytes = s.mem.bytes ∧
         (∀ k, here k → t.page k = ⟨.priv, p.d, false⟩) ∧ ∀ k, ¬ here k → t.page k = s.page k) ∧
     (p.op = 1 → p.d = 0 → (∀ k, here k → (s.page k).mode = .free ∨
         (s.page k).mode = .priv ∧ s.liveOf (s.page k).domain = false) → s.parkHolds p.first p.n = false →
       Does (.pageScrub v) s [.mem] fun t =>
         t.mem.cmdState = .busy ∧ t.mem.scrubs = s.mem.scrubs ++ [⟨p.first, p.n, true⟩] ∧
         (∀ k, here k → t.page k = ⟨.free, 0, true⟩) ∧ (∀ k, ¬ here k → t.page k = s.page k) ∧
         (∀ a, a.dev = true → here (pageOf a.a) → ∀ r, t.readByte r a = 0) ∧
         (∀ a, a.dev = true → ¬ here (pageOf a.a) → t.rawByte a = s.rawByte a)) ∧
     (p.op = 2 → p.d = 0 → p.n = 1 →
       exec (.pageQuery v) s = .next { s with mem := { s.mem with
         qmode := (s.page p.first).mode
         qdomain := if (s.page p.first).mode = .priv then (s.page p.first).domain else 0, cmdState := .done, reason := 0 } }) ∧
     (p.op = 0 → (∃ k, here k ∧ (s.page k).mode ≠ .free) → exec (.pageAssign v) s = .next (s.memRefuse 0x01))) ∧
  (∀ (s : State) (first : Nat) (x : Scrub), s.mem.scrubs.find? (fun x => x.first == first) = some x → s.sec.removals = [] →
     Does (.scrubDone first) s [.mem, .evt] fun t =>
       t.mem.scrubs = s.mem.scrubs.erase x ∧ t.evt = (s.raise Ev.memScrubDone).evt ∧ t.mem.bytes = s.mem.bytes ∧
       t.mem.cmdState = (if x.byCmd then .done else s.mem.cmdState) ∧
       (∀ p, t.page p = { s.page p with
         scrubbing := (s.page p).scrubbing && !(decide (x.first ≤ p) && decide (p < x.first + x.count)) }) ∧
       ∀ m, m < 20 → ∀ l, l ∈ (t.ctl m).poison ↔
         l ∈ (s.ctl m).poison ∧ ¬ (x.first ≤ pageOf l ∧ pageOf l < x.first + x.count))

/-- 07 R168, R173 to R175: a read that a replay mends raises MEM_REPLAY and counts; one whose three replays fail goes to the
Thaw engine where the line is shared base, and ends its job with poison listed where it is private; MR4 sets the refresh rate, WCK tracking changes nothing. -/
def Obligations.ParityAndRefreshResult : Prop :=
  ∀ (s : State) (a : BitVec 41) (tag : Tag) (m : CtlId),
    let line := a.toNat / 64 * 64
    let x := s.ctl (ctlOf line)
    exec (.wckTracking m) s = .next s ∧
    (∀ rate, Does (.mr4Poll m rate) s [.mem] fun t => t.mem.bytes = s.mem.bytes ∧ t.mem.pages = s.mem.pages ∧
      t.ctl m.val = { s.ctl m.val with refresh := rate } ∧ ∀ k, k ≠ m.val → t.ctl k = s.ctl k) ∧
    (line < s.devBytes → line ∉ x.poison → line ∉ x.stuck → (s.page (pageOf line)).mode ≠ .free →
      (∀ n, n < 3 → Does (.lpddrParityFail a tag n) s [.evt, .mem, .life] fun t =>
        t.mem.bytes = s.mem.bytes ∧ t.mem.pages = s.mem.pages ∧
        (x.replays.toNat + n + 1 < 2 ^ 64 - 1 → (t.ctl (ctlOf line)).replays.toNat = x.replays.toNat + n + 1 ∧
          t.evt = (s.raise Ev.memReplay (s.memInfo line tag)).evt) ∧
        (t.ctl (ctlOf line)).poison = x.poison) ∧
      ((s.page (pageOf line)).mode = .base → Does (.lpddrParityFail a tag 3) s [.evt, .mem, .life] fun t =>
        t.mem.refetching = s.mem.refetching ++ [(line, tag)] ∧ t.mem.bytes = s.mem.bytes) ∧
      ((s.page (pageOf line)).mode = .priv → x.poison.length < 4096 → s.variantsAt (pageOf line) = [] →
        ∃ t, exec (.lpddrParityFail a tag 3) s = .next t ∧ (t.ctl (ctlOf line)).poison = x.poison ++ [line] ∧
          t.mem.bytes = s.mem.bytes ∧ ∀ j, t.job tag = some j → j.stop ≠ none)) ∧
    (line < s.devBytes → line ∈ x.poison → exec (.lpddrParityFail a tag 0) s = .next (s.poisonJob line tag))

/-! ### Power, thermal, life -/

/-- 01 R20 to R22, 12 R325: a pace update makes every cluster's two rates readable, names the slowest cluster (the
lowest-numbered of equals), the minimum and the mean, and sets the admission pool's cap; no serving job runs here.
12 R326: a pace update charges a serving job for the time since the last at the minimum pace, and aborts one whose charge
passes est × 1,024 with ABORTED and HIF_OVERRUN; a job that has been stopped is charged no more. Which of several equally slow clusters
is named, and that the mean is rounded down, is the model's choice (DESIGN CHOICE, log 23). -/
def Obligations.PaceUpdateResult : Prop :=
  (∀ (s : State) (mon : List (BitVec 12 × BitVec 12)), (Instr.paceUpdate mon).wf = true → s.up = true →
     (∀ j ∈ s.jobs.list, j.serving = false) →
     let low (e : BitVec 12 × BitVec 12) : Nat := min e.1.toNat e.2.toNat
     Does (.paceUpdate mon) s [.cl, .glb, .hif] fun t =>
       (∀ c (h : c < mon.length), (t.clu c).rateMsps = mon[c].1 ∧ (t.clu c).avgMsps = mon[c].2) ∧
       (∃ h : t.glb.slowest.toNat < mon.length, low mon[t.glb.slowest.toNat] = t.glb.minMsps.toNat ∧
         (∀ c (h : c < mon.length), t.glb.minMsps.toNat ≤ low mon[c]) ∧
         ∀ c (h : c < mon.length), c < t.glb.slowest.toNat → t.glb.minMsps.toNat < low mon[c]) ∧
       t.glb.meanMsps.toNat = nsum (mon.map fun e => e.2.toNat) / 64 ∧
       t.hif = { s.hif with cap := s.cfg.live.dev.horizonUs * t.glb.minMsps.toNat / 1024 } ∧
       ∀ c i, (t.clu c).sem i = (s.clu c).sem i) ∧
  (∀ (s : State) (mon : List (BitVec 12 × BitVec 12)) (j : Job), (Instr.paceUpdate mon).wf = true → s.up = true →
     s.jobs.list = [j] → j.admitted = true → j.phase = .running → j.serving = true → j.live ≠ [] →
     ∃ t, exec (.paceUpdate mon) s = .next t ∧
       let owed := j.charge + (s.life.clock - j.lastUs).toNat * t.glb.minMsps.toNat
       (j.stop ≠ none → t.jobs = s.jobs ∧ t.evt = s.evt) ∧
       (owed ≤ j.d.est * 1024 → j.stop = none → t.jobs.list = [{ j with charge := owed, lastUs := s.life.clock }] ∧ t.evt = s.evt) ∧
       (j.d.est * 1024 < owed → j.stop = none →
         (∀ j', t.job j.tag = some j' → j'.stop = some (Stat.aborted, Ev.hifOverrun) ∧ j'.charge = owed) ∧
         t.evt = (s.raise Ev.hifOverrun { tag := j.tag, domain := j.d.domain }).evt))

/-- 07 R180, R181: the temperature of a tier is the highest of its 16 sensors, and its SRAM step moves by at most one a sample: up at 92 + k °C, down below 90 + k °C; a hold of
MEM_SRAM_OVER lasts until the tier is below 92 °C.
15 R410, R412; 07 R181: a throttle sample applies, to each field, the greatest of the thermal curve's step, the governor's,
the SRAM step, the floor and (with no job live) the idle step, at most the curve's last; a held tier takes the last; every
cluster of the field shows it. While the device is not ready, at rest or without its regulator, only the readings change. -/
def Obligations.SramAndThrottleStepsResult : Prop :=
  (∀ (s : State) (l : List (List W16)) (f : FieldId), s.rst.held = .none →
     ((Instr.sramStepSample l).wf = true → Does (.sramStepSample l) s [.mem, .rst] fun t =>
       t.mem.bytes = s.mem.bytes ∧ t.mem.pages = s.mem.pages ∧ t.mem.ctls = s.mem.ctls ∧
       t.rst = { s.rst with tierRead := t.rst.tierRead } ∧ (∀ n, n < l.length → mget false t.rst.tierRead n = true) ∧
       ∀ n (h : n < l.length),
         let k := mget 0 s.mem.tierStep n
         let x := (mget 0 t.mem.tierTemp n).toInt
         mget 0 t.mem.tierTemp n ∈ l[n] ∧ (∀ y ∈ l[n], y.toInt ≤ x) ∧
         mget 0 t.mem.tierStep n =
           (if (92 + (k : Int)) * 16 ≤ x then k + 1 else if x < (90 + (k : Int)) * 16 ∧ 0 < k then k - 1 else k) ∧
         mget false t.mem.tierHold n = (mget false s.mem.tierHold n && decide (92 * 16 ≤ x))) ∧
     Does (.sramOver f) s [.mem, .evt] fun t =>
       t.mem = { s.mem with tierOver := mset false s.mem.tierOver f.val true, tierHold := mset false s.mem.tierHold f.val true } ∧
       t.evt = (s.raise Ev.memSramOver { unit := BitVec.ofNat 8 f.val }).evt) ∧
  (∀ (s : State) (x : Sensors), (Instr.throttleSample x).wf = true → s.rst.held = .none →
     let idle := s.up = false ∨ s.rst.avsFail = true ∨ s.rst.pwr = .rest ∨ s.rst.pwr = .restQuiet
     let last := s.cfg.live.throttle.length - 1
     (idle → Does (.throttleSample x) s [.rst] fun t =>
       t.rst.fieldStep = s.rst.fieldStep ∧ t.rst.target = s.rst.target ∧ t.rst.measured = true ∧ t.rst.powerW = x.powerW) ∧
     (¬ idle → Does (.throttleSample x) s [.rst, .cl, .out] fun t =>
       t.rst.powerW = x.powerW ∧ (∀ y ∈ x.firn, y.toInt ≤ t.rst.firnTemp.toInt) ∧ (x.firn ≠ [] → t.rst.firnTemp ∈ x.firn) ∧
       (∀ d ∈ x.die, ∀ y ∈ d, y.toInt ≤ t.rst.dieTemp.toInt) ∧
       ∀ f : FieldId,
         let step := t.rst.fieldStep.getD f.val 0
         let point := thermalPoint s.cfg.live.thermal (s.rst.thermPoint.getD f.val none) (hottest (x.die.getD f.val [])).toInt
         step ≤ last ∧ (mget false s.mem.tierHold f.val = true → step = last) ∧
         (mget false s.mem.tierHold f.val = false →
           step = min last (max (max (max s.rst.powerStep (curveValue s.cfg.live.thermal point)) (mget 0 s.mem.tierStep f.val))
             (max s.rst.floorStep (if s.anyLive then 0 else idleStep s.cfg.live.throttle)))) ∧
         ∀ c : CId, c.val / 16 = f.val → (t.clu c.val).throttleStep = BitVec.ofNat 8 step))

/-- 15 R405, R411: the power governor's step (up by one above 1,500 W, at most once per 100 µs, down by one below 1,400 W, at most once
per 1 ms, and apart from these up by two above 1,650 W over 10 µs, with the halving), the regulator's answer, and its silence, which holds the steps and ends every live job (device fatal).
15 R418 to R420: PWR_CTL asks for rest, which is entered only with nothing running, the rail then at 0.60 V, and left for the other
state of rest when quiet links are asked for or no longer; waking sets it to the idle step's voltage again; the management port takes
the address it is assigned, and answers at that address a sensor from its last reading, or that there is none.
The greatest step 31 of the governor, that the raise by two is made once while the halving lasts, and that an answer of the regulator
lifts its hold, are the model's reading (DEDUCED, log 23). -/
def Obligations.PowerAndManagementResult : Prop :=
  (∀ (s : State) (a b : Nat),
     let p := s.rst.powerStep
     let up := s.rst.lastRaise.all fun t => decide (100 ≤ (s.life.clock - t).toNat)
     let down := s.rst.lastFall.all fun t => decide (1000 ≤ (s.life.clock - t).toNat)
     let q := if 1500 < a ∧ up = true then min 31 (p + 1) else if a < 1400 ∧ down = true then p - 1 else p
     (s.up = true → Does (.powerGovernorTick a b) s [.rst] fun t =>
       t.rst.powerW = a ∧ t.rst.powerStep = (if 1650 < b ∧ s.rst.halving = false then min 31 (q + 2) else q) ∧
       t.rst.lastRaise = (if 1500 < a ∧ up = true then some s.life.clock else s.rst.lastRaise) ∧
       t.rst.lastFall = (if a < 1400 ∧ down = true then some s.life.clock else s.rst.lastFall) ∧
       t.rst.halving = (s.rst.halving || decide (1650 < b)) ∧ t.rst.fieldStep = s.rst.fieldStep) ∧
     (s.rst.held ≠ .cold → exec (.avsReadback a) s = .next { s with rst := { s.rst with coreMv := a % 1024, coreRead := true, avsFail := false } }) ∧
     (s.rst.held ≠ .cold → ∃ t, exec .avsTimeout s = .next t ∧ t.rst = { s.rst with avsFail := true } ∧ t.glb.fatal = true ∧
       t.glb.faultN = true ∧ (s.evt.fatalCode = 0 → t.evt.fatalCode = Ev.pwrAvsFail) ∧ t.mem = s.mem ∧
       ∀ j ∈ s.jobs.list, j.admitted = true → j.phase ≠ .ended → ∀ j', t.job j.tag = some j' → j'.stop ≠ none)) ∧
  (∀ (s : State) (v : W32) (n : Nat) (b : BitVec 7),
     (s.up = true → Does (.pwrCtl v) s [.rst] fun t =>
       t.rst.restReq = bitOf v 31 ∧ t.rst.quietReq = bitOf v 30 ∧ t.rst.floorStep = bitsOf v 29 25 ∧
       (bitOf v 31 = true → t.rst.pwr = if s.rst.pwr = .ready ∧ s.quietDevice = true then .entering else s.rst.pwr) ∧
       (bitOf v 31 = false → t.rst.pwr =
         if s.rst.pwr ∈ [.entering, .rest, .restQuiet] then .waking else s.rst.pwr)) ∧
     (s.up = true → s.rst.restReq = true → s.quietDevice = true →
       (s.rst.pwr = .entering ∨ s.rst.pwr = .ready ∨ s.rst.pwr = .rest ∧ s.rst.quietReq = true ∨
         s.rst.pwr = .restQuiet ∧ s.rst.quietReq = false) →
       Does .restEntry s [.rst, .out, .lnk] fun t =>
         t.rst = { s.rst with pwr := if s.rst.quietReq then .restQuiet else .rest, target := 600 } ∧
         (s.rst.quietReq = false → t.out = s.out ++ [.rail 600] ∧ ∀ p, p < 12 → (t.port p).quiet = false) ∧
         ∀ p : PortId, (Out.quiet p ∈ t.out ↔ Out.quiet p ∈ s.out ∨
           s.rst.quietReq = true ∧ (s.port p.val).state = .up)) ∧
     (s.rst.pwr = .waking → Does .restWake s [.rst, .out, .lnk] fun t =>
       t.rst.pwr = .ready ∧ (∀ p, p < 12 → (t.port p).quiet = false ∧ (t.port p).peerQuiet = false) ∧
       ∀ e, s.cfg.live.throttle[idleStep s.cfg.live.throttle]? = some e → t.rst.target = e.1 ∧ t.out = s.out ++ [.rail e.1]) ∧
     (s.rst.held ≠ .cold →
       exec (.smbusRequest (.assign b)) s = .next { s with rst := { s.rst with smbAddr := b } } ∧
       (b ≠ s.rst.smbAddr → exec (.smbusRequest (.read b n)) s = .next s) ∧
       (b = s.rst.smbAddr → n = 11 → exec (.smbusRequest (.read b n)) s = .next (s.emit (.answer (b2n s.glb.ready)))) ∧
       (b = s.rst.smbAddr → n = 7 → s.rst.measured = true →
         exec (.smbusRequest (.read b n)) s = .next (s.emit (.answer s.rst.powerW))) ∧
       (b = s.rst.smbAddr → n ∈ [1, 6, 7, 9, 10] → s.rst.measured = false →
         exec (.smbusRequest (.read b n)) s = .next (s.emit .unavailable))))

/-- 14 R385 to R389: calendar time is an offset from the life clock; a record is written from the counts of the moment and is
in force when its write is done (before a cold start has restored the kept record, it adds the counts made since to that one's: DEDUCED,
log 8); seconds count, a thermal excursion counts once and drives THERM_ALERT_N low. -/
def Obligations.LifeKeeperResult : Prop :=
  ∀ (s : State), s.rst.held = .none →
    (∀ v : W64, Does (.lifeHostTime v) s [.life] fun t =>
      t.life.hostTime = v ∧ t.life.clock = s.life.clock ∧ t.life.counters = s.life.counters ∧
      ({ t.life with clock := t.life.clock + 5 } : Life).hostTime = v + 5) ∧
    (s.rst.fromCold = false → ∀ cmd ∈ [Instr.lifeSave 1, .lifeRecordTimer], Does cmd s [.life] fun t =>
      t.life.saveBusy = true ∧ t.life.counters = s.life.counters ∧ t.life.record = s.life.record ∧
      ∃ r, t.life.writing = some r ∧ r.counters = s.life.counters ∧ r.pe = s.life.pe ∧
        (s.life.writing = none → ∀ o, s.life.record = some o → r.seq = o.seq + 1) ∧
        Does .lifeRecordDone t [.life] fun u => u.life.record = some r ∧ u.life.saveBusy = false ∧
          u.life.saves.toNat = min 0xFFFF (s.life.saves.toNat + 1)) ∧
    (s.rst.fromCold = true → s.life.writing = none → ∀ o, s.life.record = some o →
      ∀ cmd ∈ [Instr.lifeSave 1, .lifeRecordTimer], Does cmd s [.life] fun t =>
        t.life.saveBusy = true ∧ t.life.record = s.life.record ∧ t.life.pe = s.life.pe ∧
        ∃ r, t.life.writing = some r ∧ r.seq = o.seq + 1 ∧ r.pe = o.pe ∧ r.lastCfgGen = o.lastCfgGen ∧
          ∀ i, i < o.counters.length → i < s.life.counters.length → (r.counters.getD i 0).toNat =
            min (2 ^ 48 - 1) ((o.counters.getD i 0).toNat + (s.life.counters.getD i 0).toNat)) ∧
    exec (.lifeSave 0) s = .next s ∧
    Does .lifeSecond s [.life] (fun t =>
      (∀ i, i ≠ 0 → t.life.counters.getD i 0 = s.life.counters.getD i 0) ∧
      (0 < s.life.counters.length → (t.life.counters.getD 0 0).toNat = min (2 ^ 48 - 1) ((s.life.counters.getD 0 0).toNat + 1))) ∧
    (s.life.excursion = false → Does .thermalExcursionStart s [.life, .glb] fun t =>
      t.life.excursion = true ∧ t.glb = { s.glb with alertN := true } ∧
      (3 < s.life.counters.length → (t.life.counters.getD 3 0).toNat = min (2 ^ 48 - 1) ((s.life.counters.getD 3 0).toNat + 1))) ∧
    (s.life.excursion = true → s.glb.alertN = true → exec .thermalExcursionStart s = .next s) ∧
    exec .thermalExcursionEnd s =
      .next { s with life := { s.life with excursion := false }, glb := { s.glb with alertN := false } }

/-! ### Events and registers -/

/-- 17 R441, R442: the end of a merge window writes the first merged raise with the number merged, at most 255, or nothing; the
mirror copies the oldest record, as 32 bytes, to its slot of the host ring and counts the tail; its interrupt leaves, or is pending
while its vector is masked (12 R318); the host moves the head. The layout of the MSI-X table, with its masked and pending vectors, is
PRESUMED from PCI Express (log 19). -/
def Obligations.EventRingResult : Prop :=
  ∀ (s : State),
    (∀ w rest, s.evt.windows = w :: rest → s.evt.ring.length < s.evt.capacity →
      exec (.eventMergeWindow w.key.code w.key.unit w.key.sub w.key.tag) s = .next { s with evt := { s.evt with
        windows := rest
        ring := s.evt.ring ++ (match w.merged with
          | some r => [{ r with repeats := min w.count 255, lost := s.evt.lostNext }]
          | none => [])
        lostNext := s.evt.lostNext && w.merged.isNone } }) ∧
    (∀ r l, s.evt.ring = r :: l → s.rst.held = .none → bitOf s.rst.blockAct 16 = false → s.evt.enable = true →
      s.evt.ringReady = true → (s.evt.tail - s.evt.head).toNat < 2 ^ s.evt.hostLog2 →
      Does .eventMirror s [.evt, .out, .hif] fun t =>
        t.evt.ring = l ∧ t.evt.tail = s.evt.tail + 1 ∧ t.evt.lost = s.evt.lost ∧ t.evt.windows = s.evt.windows ∧
        let slot := s.evt.tail.toNat % 2 ^ s.evt.hostLog2
        let w := Out.hostWrite (s.evt.hostBase + BitVec.ofNat 64 (32 * slot))
          (r.bytes (s.evt.tail.toNat / 2 ^ s.evt.hostLog2 % 2 == 0))
        let told := s.evt.irqSev ≤ Ev.severity r.code ∧ (s.evt.coalCount = 0 ∨ s.evt.coalCount ≤ s.evt.gathered + 1)
        let x := s.vector 0 16
        t.out = (s.out ++ [w]) ++ (if told ∧ x.masked = false then [.msix 0 16 x.addr x.data] else []) ∧
        t.vector 0 16 = { x with pending := x.pending || decide (told ∧ x.masked = true) } ∧ t.hif.queues = s.hif.queues) ∧
    (2 ^ s.evt.hostLog2 ≤ (s.evt.tail - s.evt.head).toNat → exec .eventMirror s = .next s) ∧
    (s.up = true → ∀ v, exec (.evtIdxHead v) s = .next { s with evt := { s.evt with head := v } })

/-! ### The Firn store -/

/-- 08 R187, R197, R200, R201, R219, R220: an install takes an empty slot while a stripe is free (with none: 0x02) and an erase a
Valid or Damaged one; an erase of a slot that is the source of a live generation (0x09) or Installing (0x01) is refused; the
doorbell moves prod; one hot stop raises FIRN_HOT once, and at its end what waits in the staging area is programmed (15 R413).
08 R187, R218: the end of an erase empties the slot, counts a cycle of each of its stripes, retires those whose erase failed, and
completes the erase command, while the dies are not too hot and no thaw of a swap runs. -/
def Obligations.FirnCommandsResult : Prop :=
  (∀ (s : State) (v : W64), s.up = true → s.firnBusy = false →
     let c := firnCmd v
     let u := s.wakeUp
     let x := s.fslot c.slot.val
     (c.op = 1 → (c.src = false ∧ 16 ≤ c.ringFrames ∧ (∃ n, n < 32 ∧ c.ringFrames = 2 ^ n) ∨
         c.src = true ∧ c.ringFrames = 0 ∧ c.port < 12) → 0 < c.positions.toNat → c.positions.toNat ≤ 256 → x.state = .empty →
       (s.freeStripes = [] → exec (.firnInstall v) s = .next (u.firnRefuse 0x02)) ∧
       (s.freeStripes ≠ [] → Does (.firnInstall v) s [.firn, .out, .rst, .lnk, .evt] fun t =>
         (t.fslot c.slot.val).state = .installing ∧ t.firn.cmdState = .busy ∧ t.firn.cmd = some c ∧
         t.firn.install = some { slot := c.slot, head := s.lnk.node } ∧ t.firn.prod = s.firn.prod ∧
         (∀ k, k ≠ c.slot.val → t.fslot k = s.fslot k) ∧ t.firn.current = s.firn.current ∧ t.firn.greatest = s.firn.greatest ∧
         t.out = match s.pathNext s.lnk.node with
           | some n => if (s.route n).isSome then s.out ++ [.installOpen n s.lnk.node c.slot c.positions] else s.out
           | none => s.out)) ∧
     (c.op = 2 →
       (s.firn.liveSlot c.slot = true → exec (.firnErase v) s = .next (u.firnRefuse 0x09)) ∧
       (s.firn.liveSlot c.slot = false → x.state = .installing → exec (.firnErase v) s = .next (u.firnRefuse 0x01)) ∧
       (s.firn.liveSlot c.slot = false → (x.state = .valid ∨ x.state = .damaged) →
         Does (.firnErase v) s [.firn, .rst] fun t =>
           (t.fslot c.slot.val) = { x with state := .erasing } ∧ t.firn.cmdState = .busy ∧ t.firn.cmd = some c ∧
           ∀ k, k ≠ c.slot.val → t.fslot k = s.fslot k)) ∧
     (∀ prod, exec (.firnRingDoorbell prod) s = .next { s with firn := { s.firn with prod := prod } }) ∧
     (s.firn.hotStop = false → s.rst.held ≠ .cold →
       exec .firnHotStop s = .next ({ s with firn := { s.firn with hotStop := true } }.raise Ev.firnHot)) ∧
     (s.firn.hotStop = true → exec .firnHotStop s = .next s) ∧
     exec .firnHotResume s = .next { s with firn := { s.firn with
       hotStop := false
       install := s.firn.install.map fun i => { i with staged := 0 }
       progress := match s.firn.install with
         | some i => ({ i with staged := 0 } : Install).progress
         | none => s.firn.progress } }) ∧
  (∀ (s : State) (k : FSlotId) (bad : List Nat),
     let x := s.fslot k.val
     let waits := s.firn.hotStop = true ∨ ∃ w, s.firn.swap = some w ∧ w.thawed = false
     (x.state = .erasing → ¬ waits → ∃ t, exec (.slotEraseDone k bad) s = .next t ∧ t.fslot k.val = {} ∧
       (∀ i, i ≠ k.val → t.fslot i = s.fslot i) ∧ t.mem = s.mem ∧ t.jobs = s.jobs ∧
       (x.stripes.Nodup → ∀ n, mget 0 t.life.pe n = if n ∈ x.stripes then bump48 (mget 0 s.life.pe n) else mget 0 s.life.pe n) ∧
       (∀ n ∈ bad, n ∈ x.stripes → n ∈ t.firn.retired) ∧
       ∀ c, s.firn.cmd = some c → c.op = 2 → c.slot = k → t.firn.cmdState = .done ∧ t.firn.cmd = none) ∧
     ((x.state ≠ .erasing ∨ waits) → exec (.slotEraseDone k bad) s = .next s))

/-- 08 R187, R197 to R201, 11 R292, R298: the messages of an installation: opened on a member and sent on along the path, each frame read
from the host ring or joined from the two messages that bring it, each good one counted and passed on, a bad one failing the
installation (the slot Erasing, FIRN_INSTALL_FAIL), aborted from the path or by command, completed: the slot Valid with what its header
says, FIRN_INSTALL_DONE at the head where every member has. A frame waits while the controller takes none (08 R198, R213); a node that
a message is not for sends it on to that node. -/
def Obligations.InstallationResult : Prop :=
  ∀ (s : State) (m : Msg) (k : FSlotId) (head : NodeId),
    let u := s.wakeUp
    let next (h : NodeId) (o : NodeId → Out) : List Out := match s.pathNext h with
      | some n => if (s.route n).isSome then [o n] else []
      | none => []
    let prev (h : NodeId) (o : NodeId → Out) : List Out := match s.pathPrev h with
      | some n => if (s.route n).isSome then [o n] else []
      | none => []
    let routed (h : NodeId) : Prop := ∀ n, (s.pathNext h = some n ∨ s.pathPrev h = some n) → (s.route n).isSome = true
    (∀ n : W16, Heard s m [0] → s.firnBusy = false →
      ((s.fslot k.val).state = .empty → s.freeStripes ≠ [] →
        Does (.installOpen m s.lnk.node head k n) s [.firn, .out, .rst, .lnk, .evt] fun t =>
          (t.fslot k.val).state = .installing ∧ t.firn.install = some { slot := k, head := head } ∧
          t.out = s.out ++ next head (fun d => .installOpen d head k n) ∧ ∀ i, i ≠ k.val → t.fslot i = s.fslot i) ∧
      ((s.fslot k.val).state ≠ .empty → exec (.installOpen m s.lnk.node head k n) s =
        .next ((u.raise Ev.firnCmdRefused (argReason 0x01)).toPrev head fun d => .installAbort d false k))) ∧
    (∀ n, Heard s m [0] → head ≠ s.lnk.node →
      exec (.installComplete (some (m, s.lnk.node, n, head, k))) s = .next (u.toPrev head fun d => .installDone d n head k)) ∧
    (∀ (n : NodeId) (w : W16) (onward : Bool), Heard s m [0] → n ≠ s.lnk.node → s.lnk.left = false →
      exec (.installOpen m n head k w) s = .next (u.sendTo n m.tag (.installOpen n head k w)) ∧
      exec (.installAbort m n onward k) s = .next (u.sendTo n m.tag (.installAbort n onward k)) ∧
      exec (.installComplete (some (m, n, s.lnk.node, head, k))) s =
        .next (u.sendTo n m.tag (.installDone n s.lnk.node head k))) ∧
    (s.frameWaits = true → ∀ b bad unread, exec (.installFrame none b bad unread) s = .next s ∧
      (m.dst = s.lnk.node → exec (.installFrame (some m) b bad unread) s = .next s)) ∧
    ∀ x, s.firn.install = some x → x.slot = k → s.firn.swap = none →
      let ring : Prop := s.isHead x = true ∧ s.firn.cmd.any (·.src) = false
      let piece : Prop := Heard s m [1] ∧ m.dst = s.lnk.node ∧ s.streamPort x m.port = true ∧ x.ended = false ∧
        s.frameWaits = false
      let comes (cmd : Instr) (b : Bytes) : Prop := x.ended = false ∧ s.frameWaits = false ∧
        (cmd = .installFrame none b [] false ∧ ring ∨
          ∃ a l, cmd = .installFrame (some m) l [] false ∧ piece ∧ x.piece = some a ∧ l.length = 80 ∧ b = a ++ l)
      let joined (cmd : Instr) : Option Bytes := match cmd with
        | .installFrame none _ _ _ => x.piece
        | _ => none
      (∀ l : Bytes, piece → l.length = 4016 → x.piece = none →
        Does (.installFrame (some m) l [] false) s [.firn, .rst, .lnk] fun t =>
          t.firn = { s.firn with install := some { x with piece := some l } }) ∧
      (∀ cmd b f, comes cmd b → frameOf b = .ok f → f.seq = x.nextSeq → (∀ t, x.chainTag = some t → t = f.tag) → f.kind ≠ 5 →
        f.position ≠ s.lnk.position → Does cmd s [.firn, .out, .lnk, .evt, .rst] fun t =>
          t.firn.install = some { x with nextSeq := x.nextSeq + 1, chainTag := some f.tag, piece := joined cmd } ∧
          t.firn.slots = s.firn.slots ∧ t.firn.cons = (if s.isHead x then s.firn.cons + 1 else s.firn.cons) ∧
          t.out = s.out ++ next x.head fun d => .installFrame d b) ∧
      (∀ cmd b r, comes cmd b → (frameOf b = .error r ∨ ∃ f, frameOf b = .ok f ∧ f.seq ≠ x.nextSeq ∧ r = 0x05) →
        ∃ t, exec cmd s = .next t ∧ t.firn.install = none ∧ (t.fslot k.val).state = .erasing ∧
          (routed x.head → t.evt = (s.raise Ev.firnInstallFail (argReason r)).evt) ∧
          (s.isHead x = true → t.firn.cmdState = .refused ∧ t.firn.reason = r) ∧
          t.out = s.out ++ prev x.head (fun d => .installAbort d false k) ++ next x.head fun d => .installAbort d true k) ∧
      (∀ onward, Heard s m [0] → 0 < x.nextSeq →
        Does (.installAbort m s.lnk.node onward k) s [.firn, .out, .rst, .lnk, .evt] fun t =>
        t.firn.install = none ∧ (t.fslot k.val).state = .erasing ∧
        t.out = s.out ++ (if onward then next x.head fun d => .installAbort d true k else prev x.head fun d => .installAbort d false k) ∧
        (∀ i, i ≠ k.val → t.fslot i = s.fslot i) ∧ t.firn.current = s.firn.current) ∧
      (∀ v, s.up = true → (firnCmd v).op = 4 → (firnCmd v).slot = k →
        ∃ t, exec (.firnAbortInstall v) s = .next t ∧ t.firn.install = none ∧ (t.fslot k.val).state = .erasing ∧
          (routed x.head → t.evt = (s.raise Ev.firnInstallFail (argReason 0)).evt)) ∧
      (∀ h, x.ended = true → x.mineDone = false → s.firn.hotStop = false → imgHeader x.header = some h →
        ∃ t, exec (.installComplete none) s = .next t ∧
          t.fslot k.val = { s.fslot k.val with
            state := .valid, position := BitVec.ofNat 16 h.position, imageVersion := h.version, chainTag := h.chainTag
            header := x.header, segments := x.segs } ∧
          (s.isHead x = true → s.lnk.members = [s.lnk.node] → t.firn.cmdState = .done ∧ t.firn.install = none ∧
            t.evt = (s.raise Ev.firnInstallDone (firnInfo k.val 0 0)).evt) ∧
          (s.isHead x = false → t.firn.install = none ∧
            t.out = s.out ++ prev x.head (fun d => .installDone d s.lnk.node x.head k) ∧ (routed x.head → t.evt = s.evt))) ∧
      (∀ n, Heard s m [0] → x.mineDone = true → (∀ d ∈ s.lnk.members, d = s.lnk.node ∨ d ∈ x.done ∨ d = n) →
        ∃ t, exec (.installComplete (some (m, s.lnk.node, n, s.lnk.node, k))) s = .next t ∧ t.firn.cmdState = .done ∧ t.firn.install = none ∧
          t.evt = (s.raise Ev.firnInstallDone (firnInfo k.val 0 0)).evt)

/-- 08 R203, R208, R210, R211: a base swap: prepared under a number one greater than the greatest that any member's catalogue
records, its pages locked as shared base, the current generation untouched; thawed, ready, and committed at one instant: g is the
current generation, the one before is old until no live job holds it; an abort, a refusal of another member or a settle without
a record leaves the current generation.
08 R214, 15 R406: at a start the COMMIT of a thawed default slot makes it the current generation under the number that comes with it,
and the device ready. -/
def Obligations.BaseSwapResult : Prop :=
  ∀ (s : State) (m : Msg),
    let u := s.wakeUp
    let begun (k : FSlotId) (y : Gen) : Swap :=
      { slot := k, gen := y, ready := [], mineReady := false, thawed := false, recorded := false }
    let room (k : FSlotId) : Prop := leAt (s.fslot k.val).header 56 4 = 0 ∨
      ∀ c, c < 64 → leAt (s.fslot k.val).header 56 4 ≤ s.freeParcels c
    (∀ v, s.up = true → s.firnBusy = false → (firnCmd v).op = 3 → s.isCoord = true →
      let k := (firnCmd v).slot
      let g := nextGen (genMax s.firn.greatest s.firn.seen)
      (s.fslot k.val).state = .valid → s.firn.old = none → room k → ∀ t0 y, u.takeGen k g = some (t0, y) →
      ∃ t, exec (.firnSwap v) s = .next t ∧ t.firn.cmdState = .busy ∧ t.firn.current = s.firn.current ∧
        t.firn.greatest = s.firn.greatest ∧ t.firn.swap = some (begun k y) ∧
        y.num = g ∧ y.num ≠ 0 ∧ ∀ p, y.first ≤ p → p < y.first + y.pages → (t.page p).mode = .base) ∧
    (∀ k g tag ver t0 y, Heard s m [0] → s.lnk.member = true → s.firn.swap = none → s.firn.old = none →
      (s.fslot k.val).state = .valid → (s.fslot k.val).chainTag = tag → (s.fslot k.val).imageVersion = ver → room k →
      (u.sendDown (.swapPrepare k g tag ver)).takeGen k g = some (t0, y) →
      ∃ t, exec (.swapPrepare m k g tag ver) s = .next t ∧
        t.firn.swap = some (begun k y) ∧ t.firn.current = s.firn.current ∧ t.evt = s.evt) ∧
    (∀ w, s.firn.swap = some w → w.start = true → s.starting = true → w.thawed = true → Heard s m [0] → ∀ g,
      ∃ t, exec (.commitMsg m g) s = .next t ∧ t.firn.current = some { w.gen with num := g } ∧ t.firn.swap = none ∧
        t.firn.greatest = genMax g s.firn.greatest ∧ t.firn.old = s.firn.old ∧ t.glb.ready = true ∧ t.lnk.member = true ∧
        (s.lnk.node ∈ topoMembers s.cfg.live.topo → s.lnk.node ∈ t.lnk.members) ∧ t.mem.bytes = s.mem.bytes) ∧
    (∀ w, s.firn.swap = some w → w.start = false → s.starting = false →
      (w.thawed = false → s.isCoord = false → ∀ u g, s.thawGen w.gen [] [] = (u, .ok g) →
        ∃ t, exec (.thawDone [] []) s = .next t ∧ t.out = s.out ++ [.thawReady s.lnk.node g.num] ∧
          t.firn.current = s.firn.current ∧ t.firn.swap = some { w with gen := g, thawed := true, mineReady := true }) ∧
      (∀ n, Heard s m [0] → s.isCoord = true → w.settle = false → n ∉ w.ready → (∀ k ∈ s.lnk.members, k = s.lnk.node ∨ k ∈ w.ready ∨ k = n) →
        w.mineReady = true → ∃ t, exec (.thawReady m n w.gen.num) s = .next t ∧ t.firn.current = some w.gen ∧
          t.firn.old = s.firn.current ∧ t.firn.swap = none ∧
          t.out = s.out ++ (if s.childEdges = [] then [] else [.swapCommit w.gen.num]) ∧
          t.evt = (s.raise Ev.baseSwapDone (firnInfo w.slot.val 0 w.gen.num)).evt ∧ t.mem = s.mem) ∧
      (Heard s m [0] → w.thawed = true → ∃ t, exec (.commitMsg m w.gen.num) s = .next t ∧ t.mem = s.mem ∧ t.cl = s.cl ∧
        t.firn.current = some w.gen ∧ t.firn.old = s.firn.current ∧ t.firn.swap = none ∧
        t.firn.greatest = genMax w.gen.num s.firn.greatest ∧
        t.evt = (s.raise Ev.baseSwapDone (firnInfo w.slot.val 0 w.gen.num)).evt) ∧
      (∀ cmd r, ((cmd, r) = (Instr.swapAbort m w.gen.num none, none) ∨ (∃ l, (cmd, r) = (.swapSettle false l, none)) ∨
          ∃ n, (cmd, r) = (.swapAbort m w.gen.num (some n), some n)) → Heard s m [0] →
        (s.isRoot = true ∨ s.isChildPort m.port = false) → ∃ t, exec cmd s = .next t ∧ t.firn.swap = none ∧
        t.firn.current = s.firn.current ∧ t.firn.greatest = s.firn.greatest ∧
        t.evt = (match r with
          | none => s.raise Ev.baseSwapFail (argReason 0x06)
          | some n => s.raise Ev.firnCmdRefused (argReason n)).evt ∧
        ∀ p, w.gen.first ≤ p → p < w.gen.first + w.gen.pages → (t.page p).mode = .free)) ∧
    (∀ g, s.firn.old = some g → s.genRefs g.num = 0 → ∃ t, exec .oldGenFree s = .next t ∧ t.firn.old = none ∧
      t.firn.current = s.firn.current ∧ t.evt = (s.raise Ev.baseGenFreed (firnInfo g.slot.val 0 g.num)).evt ∧
      ∀ p, g.first ≤ p → p < g.first + g.pages → (t.page p).mode = .free) ∧
    (∀ g, s.firn.old = some g → s.genRefs g.num ≠ 0 → exec .oldGenFree s = .next s)

/-- 08 R215 to R217, 07 R173 step 4: a sweep whose digest matches moves on, one that differs lays the segment down again from the
store with SWEEP_REPAIR, and is past repair, device fatal, where the store cannot return it or it differs again; the daily check
marks the slots it names Damaged; a refetch rewrites the line's segment, counts, and
raises MEM_REFETCH. -/
def Obligations.CopyCheckResult : Prop :=
  ∀ (s : State) (g : Gen), s.firn.current = some g → s.rst.held = .none → s.rst.pwr ≠ .rest → s.rst.pwr ≠ .restQuiet →
    let n := (s.fslot g.slot.val).segments.length
    (∀ seg, seg < n →
      (∀ ok again, exec (.sweepSegment false seg true ok again) s = .next { s with firn := { s.firn with
        sweepOn := decide (seg + 1 < n), sweepAt := (seg + 1) % n } }) ∧
      (∀ ok again, (ok && again) = false → ∃ t, exec (.sweepSegment false seg false ok again) s = .next t ∧
        t.glb.fatal = true ∧ t.glb.faultN = true ∧ (s.evt.fatalCode = 0 → t.evt.fatalCode = Ev.baseUnrepairable)) ∧
      ∀ u, s.relay g seg = some u → ∃ t, exec (.sweepSegment false seg false true true) s = .next t ∧
        (∀ a, t.rawByte a = u.rawByte a) ∧ t.evt = (s.raise Ev.sweepRepair (firnInfo g.slot.val seg g.num)).evt ∧
        t.jobs = s.jobs ∧ t.firn.slots = s.firn.slots) ∧
    (∀ k : FSlotId, (s.fslot k.val).state = .valid → ∃ t, exec (.firnDailyCheck [k] []) s = .next t ∧
      t.fslot k.val = { s.fslot k.val with state := .damaged } ∧ (∀ i, i ≠ k.val → t.fslot i = s.fslot i) ∧
      t.evt = (s.raise Ev.firnSlotDamaged (firnInfo k.val 0 0)).evt ∧ t.mem = s.mem) ∧
    exec (.firnDailyCheck [] []) s = .next s ∧
    ∀ (a : BitVec 41) (tag : Tag) (u : State),
      let line := a.toNat / 64 * 64
      bitOf s.rst.blockAct 18 = false → (line, tag) ∈ s.mem.refetching → s.rewriteLine line = some u →
      line ∉ (s.ctl (ctlOf line)).stuck → (s.ctl (ctlOf line)).refetches.toNat + 1 < 2 ^ 64 - 1 →
      ∃ t, exec (.lineRefetch a tag true 0) s = .next t ∧ (∀ b, t.rawByte b = u.rawByte b) ∧
        t.mem.refetching = s.mem.refetching.erase (line, tag) ∧
        (t.ctl (ctlOf line)).refetches = (s.ctl (ctlOf line)).refetches + 1 ∧
        t.evt = (s.raise Ev.memRefetch (s.memInfo line tag)).evt ∧ t.jobs = s.jobs

/-! ### Variants -/

/-- 09 R221, R224, R249, R250: registration on the coordinator (a Dormant record, told to the other members), a member's copy,
removal of a Dormant registration, the query; an ID already registered, a command of another node, an unknown ID and the removal of
a variant that is not Dormant are refused with 0x01, 0x0B, 0x01 and 0x0D. That a node which is not the coordinator refuses with 0x0B is
the model's reading (DEDUCED, log 17). -/
def Obligations.VariantRegistryResult : Prop :=
  ∀ (s : State) (v : W64) (vid : Vid) (d : BitVec 512),
    let n := vid.toNat
    let u := s.wakeUp
    (VarAsks s v 1 n → s.isCoord = true →
      (s.variant n = none → descOk d = true → bitsOf d 511 496 = n → (descVariant d).domain.toNat = bitsOf v 43 32 →
        s.liveSession (descVariant d).domain = true → s.modelId = some (descVariant d).modelId →
        Does (.varRegister v d) s [.var, .out, .rst] fun t =>
          t.variant n = some (descVariant d) ∧ (descVariant d).state = .dormant ∧ t.var.cmdState = .done ∧
          (∀ k, k ≠ n → t.variant k = s.variant k) ∧
          t.out = if s.childEdges = [] then s.out else s.out ++ [.registry n (some d)]) ∧
      ((s.variant n).isSome = true → exec (.varRegister v d) s = .next (u.varRefuse 0x01))) ∧
    (VarAsks s v 1 n → s.isCoord = false → exec (.varRegister v d) s = .next (u.varRefuse 0x0B)) ∧
    (∀ m, Heard s m [0] → ∀ e, (∀ d', e = some d' → s.variant n = none) → Does (.registryUpdate m vid e) s [.var, .out, .rst] fun t =>
      t.variant n = e.map descVariant ∧ (∀ k, k ≠ n → t.variant k = s.variant k) ∧
      t.out = if s.childEdges = [] then s.out else s.out ++ [.registry n e]) ∧
    (∀ x, VarAsks s v 7 n → s.isCoord = true → s.variant n = some x →
      (x.state = .dormant → Does (.varUnregister v true) s [.var, .out, .rst] fun t => t.variant n = none ∧ t.var.cmdState = .done ∧
        (∀ k, k ≠ n → t.variant k = s.variant k) ∧ t.out = if s.childEdges = [] then s.out else s.out ++ [.registry n none]) ∧
      (x.state ≠ .dormant → exec (.varUnregister v true) s = .next (u.varRefuse 0x0D)) ∧
      exec (.varUnregister v false) s = .next (u.varRefuse 0x0D)) ∧
    (∀ x, VarAsks s v 10 n → s.variant n = some x →
      exec (.varQuery v) s = .next { u with var := { s.var with
        cmdState := .done, reason := 0, qstate := varCode x.state, qdomain := x.domain
        qgen := match x.cur with | some g => g.num | none => 0 } }) ∧
    (VarAsks s v 3 n → s.variant n = none → exec (.varUnload v) s = .next (u.varRefuse 0x01))

/-- 09 R227, R228, R243, R250: a load opens its envelope and writes the weight copy into the run that VAR_PAGES names; when its
data are in place the variant is Live; an unload writes the sealed image to the host once no job references the variant, and
gives every page back. -/
def Obligations.VariantLoadUnloadResult : Prop :=
  ∀ (s : State) (v : W64) (vid : Vid) (x : Variant),
    let n := vid.toNat
    s.variant n = some x →
    (∀ img g p im w, VarAsks s v 2 n → bitsOf v 43 32 = 0 → bitOf v 31 = true → x.state = .dormant →
      s.liveCount x.domain < (s.contract x.domain).liveLimit → s.liveAll < 8192 → s.unseal 0 n x.domain img = some (g, p) →
      sliceImage (s.baseSegs.map fun e => segEntry e.entry) n x p = some im → s.pinnedIn x.domain n = false →
      s.runOk x.domain s.var.pFirst s.var.pCount (areaPages im.weightBytes im.dir.length * (if x.trainable then 3 else 1)) = true →
      initWeights s.baseSegs true im.dir im.weights = .ok w →
      ∃ t y, exec (.varLoad v img true) s = .next t ∧ t.variant n = some y ∧ y.state = .loading ∧ y.first = s.var.pFirst ∧
        y.pages = s.var.pCount ∧ y.dir = im.dir ∧ y.noState = true ∧ y.stateIn = false ∧ t.var.loading = some n ∧
        t.var.cmdState = .busy ∧ (∀ k, k ≠ n → t.variant k = s.variant k) ∧ t.evt = s.evt ∧ t.jobs = s.jobs ∧
        (∀ k, k < im.weightBytes → k < w.length → t.rawByte ((y.area 0).plus k) = w.getD k 0) ∧
        ∀ a, a.dev = true → (s.mayAccess (.dom x.domain) a true = false) → t.rawByte a = s.rawByte a) ∧
    (∀ img, VarAsks s v 2 n → bitsOf v 43 32 ≠ 0 → bitsOf v 43 32 ≠ x.domain.toNat →
      exec (.varLoad v img true) s = .next (s.wakeUp.varRefuse 0x01)) ∧
    (s.var.loading = some n → x.state = .loading → x.pinned = false → Does (.varLoadDone vid) s [.var] fun t =>
      t.variant n = some { x with state := .live } ∧ t.var.cmdState = .done ∧ t.var.loading = none) ∧
    (VarAsks s v 3 n → x.isLive = true → s.parkedOn n = false → Does (.varUnload v) s [.var, .rst] fun t =>
      t.variant n = some { x with state := .unloading, unloadTo := s.var.arg } ∧ t.var.cmdState = .done) ∧
    (∀ b u, x.state = .unloading → s.refsOn n = [] → s.up = true → s.sec.entropyOk = true →
      s.sealImage 0 n x (s.sliceBytes n x) = some (b, u) →
      ∃ t y, exec (.varImageWrite vid) s = .next t ∧ t.variant n = some y ∧ y.state = .dormant ∧ y.pages = 0 ∧ y.spages = 0 ∧
        y.cur = none ∧ y.domain = x.domain ∧ y.modelId = x.modelId ∧ Out.hostWrite x.unloadTo b ∈ t.out ∧
        (∀ p, x.first ≤ p → p < x.first + x.pages → (t.page p).mode = .free) ∧ t.jobs = s.jobs ∧
        t.evt = (s.raise Ev.varUnloaded { aux := vid, domain := x.domain,
                                          arg := match x.cur with | some g => g.num.setWidth 64 | none => 0 }).evt)

/-- 09 R238 to R242, R244: an eviction nulls the spd pointers at one instant and frees the parcels once their references clear, but
the parcels of a variant that is pinned, at its load or by the contract that is live now (14 R382), take its current generation again
while no more than 512 variants are Hot (the model's choice, log 17); a fill sets them; the state leaves and enters main memory on its own, once no training job references the variant. -/
def Obligations.VariantCacheAndStateResult : Prop :=
  ∀ (s : State) (v : W64) (vid : Vid) (x : Variant),
    let n := vid.toNat
    s.variant n = some x →
    (VarAsks s v 4 n → s.isPinned n x = false → x.state = .hot →
      ∃ t y, exec (.varEvict v) s = .next t ∧ t.variant n = some y ∧ y.state = .live ∧ y.evicting = true ∧
        (∀ g, y.cur = some g → g.spd = false) ∧ y.cacheParcels = x.cacheParcels ∧ t.var.cmdState = .done ∧ t.cl = s.cl) ∧
    (VarAsks s v 4 n → s.isPinned n x = true → exec (.varEvict v) s = .next (s.wakeUp.varRefuse 0x09)) ∧
    (x.evicting = true → x.oldCopies = [] → s.cacheHeld n x.copyNo = false → (s.isPinned n x = true → x.isLive = false) →
      s.var.evictions.toNat + 1 < 2 ^ 64 - 1 →
      ∃ t y, exec (.evictRelease vid) s = .next t ∧ t.variant n = some y ∧ y.cacheParcels = [] ∧ y.evicting = false ∧
        (∀ e ∈ x.cacheParcels, (t.clu e.1.val).parcel e.2 = {}) ∧ t.var.evictions = s.var.evictions + 1 ∧
        t.evt = (s.raise Ev.varEvicted { aux := vid, domain := x.domain,
                                         arg := match x.cur with | some g => g.num.setWidth 64 | none => 0 }).evt) ∧
    (∀ g, x.evicting = true → x.oldCopies = [] → s.cacheHeld n x.copyNo = false → s.isPinned n x = true → x.isLive = true → s.hotCount ≤ 512 →
      x.cur = some g → ∃ t y, exec (.evictRelease vid) s = .next t ∧ t.variant n = some y ∧ y.state = .hot ∧
        y.evicting = false ∧ y.cacheParcels = x.cacheParcels ∧ y.cur = some { g with spd := true } ∧
        t.var.evictions = s.var.evictions ∧ t.evt = s.evt) ∧
    (x.oldCopies = [] → x.evicting = true → s.cacheHeld n x.copyNo = true → ∃ t, exec (.evictRelease vid) s = .next t ∧
      t.variant n = some x ∧ t.cl = s.cl ∧ t.mem = s.mem ∧ t.evt = s.evt) ∧
    (∀ g, x.filling = true → x.state = .live → x.cur = some g → s.var.fills.toNat + 1 < 2 ^ 64 - 1 →
      ∃ t y, exec (.cacheFillDone vid) s = .next t ∧ t.variant n = some y ∧ y.state = .hot ∧ y.filling = false ∧
        y.cur = some { g with spd := true } ∧ y.copyNo = x.copyNo + 1 ∧ t.var.fills = s.var.fills + 1 ∧ t.evt = s.evt) ∧
    (x.trainable = true → x.isLive = true →
      (VarAsks s v 8 n → x.stateIn = true → x.stateOut = false → Does (.varStateOut v) s [.var, .rst] fun t =>
        t.variant n = some { x with stateOut := true, unloadTo := s.var.arg } ∧ t.var.cmdState = .done) ∧
      (∀ b u, x.stateOut = true → s.trainRefs n = false → s.up = true → s.sec.entropyOk = true →
        s.sealImage 1 n x (s.read (.dom x.domain) x.stateAt x.stateBytes) = some (b, u) →
        ∃ t y, exec (.stateOutWrite vid) s = .next t ∧ t.variant n = some y ∧ y.stateIn = false ∧ y.spages = 0 ∧
          y.pages = x.pages ∧ Out.hostWrite x.unloadTo b ∈ t.out ∧
          ∀ p, x.sfirst ≤ p → p < x.sfirst + x.spages → (t.page p).mode = .free) ∧
      (∀ img g p, VarAsks s v 9 n → x.stateIn = false → x.stateWait = none → s.unseal 1 n x.domain img = some (g, p) →
        p.length = x.stateBytes → s.runOk x.domain s.var.sFirst s.var.sCount (ceilDiv x.stateBytes (2 ^ 23)) = true →
        ∃ t y, exec (.varStateIn v img) s = .next t ∧ t.variant n = some y ∧ y.sfirst = s.var.sFirst ∧ y.spages = s.var.sCount ∧
          t.var.cmdState = .done ∧ y.stateIn = !s.trainRefs n ∧ y.stateWait = if s.trainRefs n then some p else none))

/-- 09 R230: a publish copies the training weights into the free serving area on every member and then, at one instant, makes it
the current generation, the number one more, the one before kept while a job references it.
09 R246 to R248: a removal marks the variant Removing and ends the jobs that train it or have no token boundary with
VARIANT_GONE; once every reference has dropped its memory is free; the coordinator, with every member's word, drops the ID and
raises VAR_REMOVED; what members report goes up the control tree. -/
def Obligations.PublishAndRemovalResult : Prop :=
  (∀ (s : State) (v : W64) (vid : Vid) (x : Variant),
     let n := vid.toNat
     s.variant n = some x → x.trainable = true → x.isLive = true →
     (VarAsks s v 5 n → s.isCoord = true → x.old = none → Does (.varPublish v) s [.var, .out, .rst] fun t =>
       t.variant n = some x ∧ t.var.cmdState = .busy ∧ t.var.publish = some (n, []) ∧
       t.out = if s.childEdges = [] then s.out else s.out ++ [.publish n]) ∧
     (∀ g, VarAsks s v 5 n → s.isCoord = true → x.old = some g → s.genHeld n g.num = true →
       exec (.varPublish v) s = .next (s.wakeUp.varRefuse 0x07)) ∧
     (x.old = none → s.isCoord = false → ∃ t, exec (.publishCopyDone vid) s = .next t ∧
       t.variant n = some { x with copied := true } ∧ t.out = s.out ++ [.publishReady s.lnk.node n true] ∧
       ∀ k, k < x.weightBytes → s.mayAccess (.dom x.domain) ((x.area x.freeArea).plus k) true = true →
         t.rawByte ((x.area x.freeArea).plus k) = s.readByte (.dom x.domain) ((x.area 2).plus k)) ∧
     (∀ g, x.old = some g → s.genHeld n g.num = true → s.isCoord = false →
       exec (.publishCopyDone vid) s = .next (s.emit (.publishReady s.lnk.node n false))) ∧
     (∀ (m : Msg) (g : W32), Heard s m [0] → x.copied = true → s.isPinned n x = false →
       ∃ t y, exec (.publishCommit m vid g) s = .next t ∧ t.variant n = some y ∧
       y.cur = some ⟨g, x.freeArea, (x.dirAt x.freeArea).a, false⟩ ∧ y.copied = false ∧ y.state = .live ∧
       (∀ o, x.cur = some o → s.genHeld n o.num = true → y.old = some o) ∧
       (∀ o, x.cur = some o → s.genHeld n o.num = false → y.old = none) ∧ t.evt = s.evt ∧
       t.out = if s.childEdges = [] then s.out else s.out ++ [.publishCommit n g]) ∧
     (∀ (m : Msg) node l, Heard s m [0] →
       (∀ g0, s.isCoord = true → s.var.publish = some (n, l) → x.copied = true → s.isPinned n x = false → x.cur = some g0 →
         (∀ k ∈ s.lnk.members, k ∈ l ∨ k = node) → ∃ t y, exec (.publishReady m node vid true) s = .next t ∧ t.variant n = some y ∧
           y.cur = some ⟨nextGen g0.num, 1 - g0.area, (x.dirAt (1 - g0.area)).a, false⟩ ∧ t.var.publish = none ∧
           t.var.cmdState = .done) ∧
       (s.isCoord = true → s.var.publish = some (n, l) → Does (.publishReady m node vid false) s [.var, .rst] fun t =>
         t.var.publish = none ∧ t.var.cmdState = .refused ∧ t.var.reason = 0x0B ∧ t.variant n = some x) ∧
       (s.isCoord = false → s.isRoot = false → ∀ ok, exec (.publishReady m node vid ok) s =
         .next (s.wakeUp.emit (.publishReady node n ok))))) ∧
  (∀ (s : State) (v : W64) (vid : Vid) (x : Variant) (m : Msg),
     let n := vid.toNat
     s.variant n = some x →
     (∀ cmd, (cmd = .varRemove v ∧ VarAsks s v 6 n ∧ s.isCoord = true ∨ cmd = .removeMsg m vid ∧ Heard s m [0]) →
       x.state ≠ .removing →
       ∃ t y, exec cmd s = .next t ∧ t.variant n = some y ∧ y.state = .removing ∧ y.pages = x.pages ∧
         (s.parkedOn n = false → t.mem = s.mem ∧ t.evt = s.evt) ∧ (∀ k, k ≠ n → t.variant k = s.variant k) ∧
         ∀ j ∈ s.refsOn n, (j.training = true ∨ j.tokenBar = 0xFF) → ∀ k, s.job j.tag = some k → ∀ j', t.job j.tag = some j' →
           j'.stop = some (k.stop.getD (Stat.variantGone, 0))) ∧
     (x.state = .removing → s.refsOn n = [] → s.isCoord = false → ∃ t y, exec (.removed none vid) s = .next t ∧
       t.variant n = some y ∧ y.pages = 0 ∧ y.cur = none ∧ t.out = s.out ++ [.varRemoved s.lnk.node n] ∧
       ∀ p, x.first ≤ p → p < x.first + x.pages → (t.page p).mode = .free) ∧
     (∀ node l, Heard s m [0] → s.isCoord = true → s.var.removals.find? (fun e => e.1 == n) = some (n, l) →
       (∀ k ∈ s.lnk.members, k ∈ l ∨ k = node) → Does (.removed (some (m, node)) vid) s [.var, .out, .evt, .rst] fun t =>
         t.variant n = none ∧ (∀ k, k ≠ n → t.variant k = s.variant k) ∧
         t.out = (if s.childEdges = [] then s.out else s.out ++ [.registry n none]) ∧
         t.evt = (s.raise Ev.varRemoved { aux := vid, domain := x.domain }).evt) ∧
     (∀ node, Heard s m [0] → s.isCoord = false → s.isRoot = false → exec (.removed (some (m, node)) vid) s =
       .next (s.wakeUp.emit (.varRemoved node n))))

/-! ### Training -/

/-- 10 R257, R273, R274: the rows of a gradient slice that the engine handed over, once they fill its layer's tensors (in the order
of log 18, the model's choice), are taken once: those of the current step are written and their bad elements noted, those of a
frozen layer are counted and discarded, those of another step are not written, are counted and raise STEP_SKEW, and their layer is
withheld; rows that do not fill the layer wait.
10 R258, R259, R261, R263, R276; 12 R333: the vote takes vote_count from every cluster's vote semaphore and waits for the
children's votes, the reads of the lanes being neither poisoned nor faulty; a SKIP verdict takes the new loss scale, counts the step and begins the next; a layer's end signals its
semaphore, whoever kept its weights; a parked update is applied and leaves; the step size goes to the live job's context; a node
without the job sends its votes and verdicts on. -/
def Obligations.TrainingResult : Prop :=
  (∀ (s : State) (tg : Tag) (vid : Vid) (layer : W16) (step : W32) (j : Job) (x : CtxId) (v : TVar) (y : Variant),
     s.ctxOf tg = some (j, x) → (s.ctx x.val).var vid.toNat = some v → s.variant vid.toNat = some y →
     let cx := s.ctx x.val
     let l := layer.toNat
     let cmd : Instr := .gradSlice tg vid layer step
     let mine (r : SliceRow) : Bool := r.vid == vid.toNat && r.layer == l && r.step == step
     let rows := shareRows (y.gradsOf l) ((cx.slice.filter mine).foldr insertRow [])
     (rows = none → exec cmd s = .next s) ∧
     ∀ ts, rows = some ts → ts ≠ [] →
       (v.frozen l = false → step = cx.stepNow.truncate 32 →
         ∃ t w, exec cmd s = .next t ∧ (t.ctx x.val).var vid.toNat = some w ∧ w.got = l :: v.got ∧ w.skewed = v.skewed ∧
           (t.ctx x.val).bad = (cx.bad || ts.any fun q => q.2.2.1.gradBad q.2.2.2) ∧
           (t.ctx x.val).slice = cx.slice.filter (fun r => !mine r) ∧ t.lnk = s.lnk ∧ t.sec = s.sec ∧
           (∀ k, k ≠ x.val → t.ctx k = s.ctx k) ∧
           ∀ q a, ts = [q] → cx.gradAt (s.gradStart 0 vid.toNat cx.vars) q.2.1 = some a →
             (a.dev = true ∨ a.a + q.2.2.2.length ≤ 2 ^ 33) → ∀ n, n < q.2.2.2.length → t.rawByte (a.plus n) =
               if s.mayAccess cx.who.req (a.plus n) true then q.2.2.2.getD n 0 else s.rawByte (a.plus n)) ∧
       (v.frozen l = true → cx.frozen.toNat + 1 < 2 ^ 64 - 1 → Does cmd s [.upd] fun t =>
         (t.ctx x.val).frozen = cx.frozen + 1 ∧ (t.ctx x.val).bad = cx.bad ∧
         (t.ctx x.val).slice = cx.slice.filter (fun r => !mine r)) ∧
       (v.frozen l = false → step ≠ cx.stepNow.truncate 32 → cx.skew.toNat + 1 < 2 ^ 64 - 1 → Does cmd s [.upd, .evt] fun t =>
         (t.ctx x.val).skew = cx.skew + 1 ∧ (∃ w, (t.ctx x.val).var vid.toNat = some w ∧ l ∈ w.skewed ∧ l ∈ w.got) ∧
         t.evt = (s.raise Ev.stepSkew (updInfo x cx vid.toNat l
           (if serialAhead 32 step.toNat (cx.stepNow.toNat % 2 ^ 32) then 1 else 2 ^ 32 - 1))).evt)) ∧
  (∀ (s : State) (m : Msg) (x : CtxId) (j : Job),
     let cx := s.ctx x.val
     let freeze := cx.vars.filterMap fun v => (ptrAddr v.freeze.toNat).map fun a => (a, ceilDiv cx.layers 8)
     (s.ctxOf cx.tag = some (j, x) → (∀ a, ptrAddr cx.ctrl.toNat = some a → poisonAll s cx.who.req [(a.plus 16, 16)] = .ok ()) →
       cx.state = .receiving → cx.stepLeft = true → s.allGot cx = true → cx.childVotes.length < s.jobChildren j →
       (∀ c ∈ clustersOf cx.clusters, cx.voteCount ≤ ((s.clu c.val).sem cx.voteSem).toNat ∧ (s.clu c.val).waiters = [] ∧
         (s.clu c.val).stuck = []) →
       ∃ t, exec (.stepVote x []) s = .next t ∧ (t.ctx x.val).state = .voting ∧ (t.ctx x.val).voted = true ∧
         (∀ c ∈ clustersOf cx.clusters, (t.clu c.val).sem cx.voteSem =
           (s.clu c.val).sem cx.voteSem - BitVec.ofNat 32 cx.voteCount) ∧
         (cx.bad = true → (t.ctx x.val).bad = true) ∧ (ptrAddr cx.ctrl.toNat = none → (t.ctx x.val).bad = cx.bad)) ∧
     (∀ bad norms rd, Heard s m [0] → s.wakeUp.ctxOf m.tag = some (j, x) → s.fromChild j m.port = true →
       norms.length = cx.vars.length → cx.voted = false →
       exec (.vote m (cx.stepNow.truncate 32) bad norms rd) s = .next (s.wakeUp.setCtx x.val { cx with
         childVotes := insertVote (s.gangPort m.port, bad, norms) cx.childVotes })) ∧
     (s.job m.tag = none → Heard s m [0] → m.tag ≠ 0 → s.lnk.left = false →
       (∀ st bad norms rd, exec (.vote m st bad norms rd) s =
         .next (s.wakeUp.emit (.vote (s.relayEdge m.port) m.tag st bad norms))) ∧
       ∀ v rd, exec (.verdict m v rd) s = .next (s.wakeUp.emit (.verdict (s.relayEdge m.port) m.tag v))) ∧
     (∀ v : VerdictMsg, Heard s m [0] → s.wakeUp.ctxOf m.tag = some (j, x) → s.isParentPort m.port = true →
       cx.state = .voting → v.step = cx.stepNow → v.parts.length = cx.vars.length → v.skip = true →
       poisonAll s cx.who.req freeze = .ok () → ∃ t, exec (.verdict m v []) s = .next t ∧ (t.ctx x.val).state = .receiving ∧ (t.ctx x.val).stepNow = cx.stepNow + 1 ∧
         (t.ctx x.val).scale = v.scale ∧ (t.ctx x.val).clean = 0 ∧ (t.ctx x.val).upStep = cx.upStep ∧
         (t.ctx x.val).skippedAny = true ∧ (cx.skipped.toNat + 1 < 2 ^ 64 → (t.ctx x.val).skipped = cx.skipped + 1) ∧
         (t.ctx x.val).parks = cx.parks) ∧
     (∀ layer rd, cx.state = .updating → s.layerNow cx = some layer →
       (∀ v ∈ cx.vars, v.apply = false ∨ v.frozen layer = true ∨ layer ∈ v.skewed) →
       exec (.layerUpdateDone x layer rd) s = .next (((s.signalAll cx (cx.updSem + layer)).modCtx x.val fun y =>
         { y with nextLayer := layer + 1 }).layerEnd x rd) ∧ ∀ a, (s.signalAll cx (cx.updSem + layer)).rawByte a = s.rawByte a) ∧
     (∀ (vid : Vid) y, s.variant vid.toNat = some y → y.stateIn = true → ∃ t, exec (.parkedApply vid) s = .next t ∧
       ∀ k, k < 64 → (t.ctx k).parks = (s.ctx k).parks.filter fun p => p.vid != vid.toNat) ∧
     (∀ (f : FnId) (q : QId) (v : W64), s.fnOn f = false → exec (.wqStepLr f q v) s = .next s) ∧
     (∀ (f : FnId) (q : QId) (v : W64), s.up = true → s.fnOn f = true →
       s.jobs.list.find? (fun j => j.admitted && j.phase != .ended && j.fn == f && j.q == q && j.ctx.isSome) = some j →
       j.ctx = some x → exec (.wqStepLr f q v) s =
         .next (s.setCtx x.val { cx with lrTag := v.extractLsb' 32 32, lr := v.truncate 32 })) ∧
     (∀ (f : FnId) (q : QId) (v : W64), s.up = true → s.fnOn f = true →
       s.jobs.list.find? (fun j => j.admitted && j.phase != .ended && j.fn == f && j.q == q && j.ctx.isSome) = none →
       exec (.wqStepLr f q v) s = .next (s.raise Ev.hifLrNoJob)))

/-! ### Collectives -/

/-- 11 R300 to R302, R304, R305: the engine takes 1 from a collective's start semaphore; the run of a single member is done at once, the
run of a member of a broadcast below the root waits for every row; a message is laid out as Table 11.9 has it; one of the run's
step is kept for it, one of another step ends the job with COLL_STEP, one that does not fit the descriptor or has no header is
malformed. -/
def Obligations.CollectiveResult : Prop :=
  (∀ x : CollMsg, x.entry < 2 ^ 16 → x.kind < 2 ^ 8 → x.hops < 2 ^ 8 → x.firstRow < 2 ^ 32 → x.nrows < 2 ^ 16 →
     x.firstCol < 2 ^ 32 → x.count < 2 ^ 32 → collMsg (collBytes x) = some x) ∧
  ∀ (s : State) (j : Job) (cv : Coll), s.job cv.tag = some j → s.collOf cv.tag cv.entry = some cv → j.stop = none →
    let c := cv.start.cluster.val
    (∀ bad, cv.busy = false → 0 < ((s.clu c).sem cv.start.index).toNat →
      (j.members.length ≤ 1 → cv.deliver = false →
        ∃ t, exec (.collectiveRun cv.tag cv.entry bad) s = .next t ∧
          t.collOf cv.tag cv.entry = some { cv with
            busy := false, run := cv.run + 1, told := false, due := [], place := 0, sent := []
            held := cv.held.filter fun x => x.2.step != cv.step } ∧ t.mem = s.mem ∧
          (cv.done.node = s.lnk.node → t.lnk = s.lnk)) ∧
      (1 < j.members.length → cv.kind = 5 → s.jobRoot j = false → 0 < cv.rows → cv.held = [] →
        exec (.collectiveRun cv.tag cv.entry bad) s = .next ((s.setClu c ((s.clu c).setSem cv.start.index
          ((s.clu c).sem cv.start.index - 1))).setColl { cv with
            busy := true, told := false, place := cv.rows, due := (List.range cv.rows).map fun r => (false, true, r) }))) ∧
    (0 < ((s.clu c).sem cv.start.index).toNat → cv.busy = true → ∀ bad,
      exec (.collectiveRun cv.tag cv.entry bad) s = .next s) ∧
    ∀ (m : Msg) (data : Bytes) (bad : List Nat), Heard s m [2] → m.tag = cv.tag →
      (collMsg data = none → exec (.collective m data bad) s = .next (s.wakeUp.badMsg m.port m.vc.toNat)) ∧
      ∀ x, collMsg data = some x → x.entry = cv.entry →
        (cv.busy = false → cv.fits x = true → x.step = cv.step →
          exec (.collective m data bad) s = .next (s.wakeUp.setColl { cv with held := cv.held ++ [(m.port, x)] })) ∧
        (cv.fits x = true → x.step ≠ cv.step → exec (.collective m data bad) s =
          .next ((s.wakeUp.countBadMsg m.port).faultJob m.tag Ev.collStep (lnkInfo s.wakeUp m.port m.vc.toNat))) ∧
        (cv.fits x = false → exec (.collective m data bad) s = .next (s.wakeUp.badMsg m.port m.vc.toNat))

/-! ### Chain ports -/

/-- 11 R286: even parity. A flit passes when every word w other than 6 together with bit w of the parity field, and word 6
itself, holds an even number of ones; it fails when any word fails; any odd number of bit errors in one word is detected. -/
def Obligations.FlitParityDetectsOddErrors : Prop :=
  ∀ f : BitVec 2048,
    ((List.range 4).all (fun i => groupOk f i) = true ↔
      ∀ w, w < 64 → (((List.range 32).countP fun b => bitOf f (32 * w + b)) + if w = 6 then 0 else b2n (bitOf f (192 + w))) % 2 = 0) ∧
    ∀ (g : BitVec 2048) (w : Nat), (List.range 4).all (fun i => groupOk f i) = true → w < 64 →
      (∀ b, b < 2048 → b / 32 ≠ w → bitOf g b = bitOf f b) →
      ((List.range 32).countP fun b => bitOf g (32 * w + b) != bitOf f (32 * w + b)) % 2 = 1 →
      (List.range 4).all (fun i => groupOk g i) = false

/-- 11 R283, R284, R288, R313, R396; 13 R354; 15 R403: trained lanes begin the key agreement with this end's offer, failed ones leave the
port down; a peer's offer that fails a check takes the port down, a good one is kept, and the lower end answers with a ciphertext; the
agreement opens the port, and one on an open port is a rekey to the next epoch; silence or a lane's loss of lock makes a port retrain,
after which every unacknowledged flit is sent again under its own number; a key at its limit sends nothing more; a neighbour that boots
gets the running images. A cold start that waits for its ports is not looked at here. -/
def Obligations.PortLifeResult : Prop :=
  ∀ (s : State) (p : PortId), s.glb.phase ≠ 3 →
    let x := s.port p.val
    let u := s.wakeUp
    let put (y : Port) : State := s.setPort p.val y
    let opened : PortState := if s.glb.ready then .up else .upVc0
    (x.enabled = true → (x.state = .untrained ∨ x.state = .training) → s.rst.held = .none →
      (∃ t, exec (.portTrained p true) s = .next t ∧ (t.port p.val).state = .training ∧ (t.port p.val).trained = true ∧
        (t.port p.val).agreed = false ∧ (t.port p.val).secret = none ∧ (t.port p.val).heldKey = none ∧ (t.port p.val).epoch = 0 ∧
        (t.port p.val).peerExchange = [] ∧ (t.port p.val).replayBuf = [] ∧ (t.port p.val).txSeq = 0 ∧
        (t.port p.val).granted = [true, false, false, false] ∧ t.out = s.out ++ [.keyOffer p s.offer]) ∧
      exec (.portTrained p false) s =
        .next ((put { x with state := .down, trained := false }).raise Ev.lnkTrainFail (lnkInfo s p 0xFF))) ∧
    (x.state = .training → x.trained = true → x.agreed = false → s.rst.held = .none →
      (∀ o, offerOk o = false → exec (.keyOffer p o) s =
        .next ((u.setPort p.val { x with state := .down, trained := false }).raise Ev.secPeerBad (lnkInfo s p 0xFF))) ∧
      (∀ o, offerOk o = true → s.sec.entropyOk = true →
        let y := { x with peerIdd := Config.shake256 (certKey o.idCert) 32, peerExchange := o.exchange }
        ∃ t, exec (.keyOffer p o) s = .next t ∧
          if s.lower y = true then
            (t.port p.val).agreed = true ∧ (t.port p.val).state = opened ∧ (t.port p.val).epoch = 0 ∧
            (t.port p.val).secret.isSome = true ∧ (t.port p.val).txCount = [] ∧ (∃ c, Out.keyCiphertext p c ∈ t.out) ∧
            Out.hello p s.lnk.node glbId ∈ t.out
          else t = u.setPort p.val y) ∧
      ∀ ct seed, x.peerExchange ≠ [] → s.lower x = false → s.sec.exchangeSeed = some seed →
        ∃ t, exec (.keyCiphertext p ct) s = .next t ∧ (t.port p.val).agreed = true ∧ (t.port p.val).state = opened ∧
          (t.port p.val).secret.isSome = true ∧ t.out = s.out ++ [.hello p s.lnk.node glbId]) ∧
    (s.portRuns p = true → x.agreed = true → x.peerExchange ≠ [] → s.lower x = false → s.rst.held = .none →
      ∀ ct seed, s.sec.exchangeSeed = some seed → ∃ t, exec (.keyCiphertext p ct) s = .next t ∧
        (t.port p.val).epoch = x.epoch + 1 ∧ (t.port p.val).heldKey = x.secret ∧ (t.port p.val).heldCount = x.rxCount ∧
        (t.port p.val).txCount = [] ∧ (t.port p.val).rxCount = [] ∧ (t.port p.val).stopped = [] ∧
        (t.port p.val).state = x.state ∧ t.evt = (s.raise Ev.lnkRekey (lnkInfo s p 0xFF)).evt) ∧
    (s.portRuns p = true →
      (∀ cmd ∈ [Instr.rxSilenceTimeout p, .laneLockLoss p], (cmd = .laneLockLoss p ∨ x.quiet = false) →
        Does cmd s [.lnk, .evt, .life] fun t =>
          t.port p.val = { x with state := .retraining, naks := 0, retrains := if x.retrains = 0xFF then 0xFF else x.retrains + 1 } ∧
          t.evt = (s.raise Ev.lnkRetrain (lnkInfo s p 0xFF)).evt ∧ ∀ q, q ≠ p.val → t.port q = s.port q) ∧
      (x.quiet = true → exec (.rxSilenceTimeout p) s = .next s) ∧
      (x.agreed = true → s.lower x = false → ∀ d, Does (.rekeyThreshold p d) s [.lnk] fun t =>
        (t.port p.val).rekeying = true ∧ (t.port p.val).secret = x.secret ∧
        mget 0 (t.port p.val).txCount (linkKeyNo d) = BitVec.ofNat 64 (2 ^ 39)) ∧
      (x.agreed = true → ∀ d, linkKeyNo d ∉ x.stopped → Does (.keyExhausted p d) s [.lnk, .evt, .life] fun t =>
        (t.port p.val).state = .retraining ∧ linkKeyNo d ∈ (t.port p.val).stopped) ∧
      (∀ v, s.up = true → s.lnk.cmdState ≠ .busy → bitsOf v 63 60 = 3 → bitsOf v 59 56 = p.val →
        x.agreed = true → s.lower x = false → Does (.lnkRekey v) s [.lnk] fun t =>
          t.lnk.cmdState = .busy ∧ t.lnk.rekeyPort = some p ∧ t.port p.val = { x with rekeying := true }) ∧
      (s.rst.held = .none → s.sec.runningSet.isSome = true → exec (.bootImageRequest p) s = .next (u.emit (.image p))) ∧
      (s.sec.runningSet = none → exec (.bootImageRequest p) s = .next s)) ∧
    (x.state = .retraining →
      (x.agreed = true → x.txQ = [] → x.missing = [] → x.restart = false → Does (.retrainDone p true) s [.lnk, .out] fun t =>
        (t.port p.val).state = opened ∧ (t.port p.val).replayBuf = x.replayBuf ∧
        ∃ fs : List (BitVec 2048), t.out = s.out ++ fs.map (Out.flit p) ∧ fs.length = x.replayBuf.length ∧
          ∀ (i : Nat) (g h : BitVec 2048), x.replayBuf[i]? = some g → fs[i]? = some h →
            linkSeq h = linkSeq g ∧ linkAck h = x.ack ∧ ∀ w, w < 64 → (w < 4 ∨ 8 ≤ w) → flitWord h w = flitWord g w) ∧
      exec (.retrainDone p false) s =
        .next ((put { x with state := .down, trained := false }).raise Ev.lnkDown (lnkInfo s p 0xFF))) ∧
    (Does (.rstFlit p) s [.lnk] fun t => (t.port p.val).idleOnly = true ∧ (t.port p.val).replayBuf = [] ∧
      (t.port p.val).txSeq = 0 ∧ (t.port p.val).rxSeq = 0 ∧ (t.port p.val).state = x.state ∧
      (t.port p.val).secret = x.secret ∧ ∀ q, q ≠ p.val → t.port q = { s.port q with freed := (t.port q).freed }) ∧
    (x.state = .up → ∀ m, Heard s m [0] → m.port = p →
      exec (.quiet m) s = .next (put { x with peerQuiet := true, quiet := x.quiet || s.rst.pwr == .restQuiet }))

/-- 11 R286 to R294, R297: a flit that fails its parity in its first group asks for a NAK and nothing of it is taken; an idle flit
takes no number; one that came in order is acknowledged; one for this node is kept until its message is whole, and its receive slots
are then free, those of an INSTALL message once it is staged (08 R198); one for another node leaves by its route's port: as it is where
its job has end-to-end keys, decrypted and encrypted again where it is protected per link, counted at both ports (R312, R313).
11 R293: a WRITE of a live job stores its bytes where the job's domain may write, and nothing else of memory changes; one
whose reserved address bits are set, or that carries nothing, is malformed. -/
def Obligations.FlitAndWriteResult : Prop :=
  (∀ (s : State) (p : PortId) (f : BitVec 2048) (old : Bool), s.portRuns p = true → s.rst.held = .none →
     let x := s.port p.val
     (groupOk f 0 = false → x.naks + 1 < 8 → x.replays.toNat + 1 < 2 ^ 64 - 1 →
       Does (.flitReceive p f old) s [.lnk, .life] fun t =>
         t.port p.val = { x with discarding := true, nakNext := true, naks := x.naks + 1, replays := x.replays + 1 } ∧
         ∀ q, q ≠ p.val → t.port q = s.port q) ∧
     let inOrder : Prop := (List.range 4).all (fun i => groupOk f i) = true ∧ linkRst f = false ∧ linkNak f = false ∧
       linkSeq f = x.rxSeq ∧ x.txQ = []
     let sound : Prop := inOrder ∧ linkIdle f = false ∧ x.cut = none ∧ (typeVcs (hdrType f)).contains (hdrVc f) = true ∧
       x.granted.getD (hdrVc f) false = true ∧ headerOk f = true
     (inOrder → linkIdle f = true → Does (.flitReceive p f old) s [.lnk] fun t =>
       (t.port p.val).rxSeq = x.rxSeq ∧ (t.port p.val).discarding = false ∧ (t.port p.val).ack = x.ack ∧
       (t.port p.val).partialMsg = x.partialMsg ∧ ∀ q, q ≠ p.val → t.port q = s.port q) ∧
     (let mine := x.partialMsg.filter fun g => hdrVc g == hdrVc f
      sound → s.egress f = none → mine.length < 18 →
       (hdrFirst f = false ∨ s.sec.jobKeys.any (fun e => e.1 == hdrTag f) = false) → Does (.flitReceive p f old) s [.lnk] fun t =>
       (t.port p.val).rxSeq = x.rxSeq + 1 ∧ (t.port p.val).ack = linkSeq f ∧ (t.port p.val).discarding = false ∧
       (hdrLast f = false → (t.port p.val).partialMsg = x.partialMsg ++ [f] ∧ (t.port p.val).freed = x.freed) ∧
       (hdrLast f = true → (t.port p.val).partialMsg = x.partialMsg.filter (fun g => hdrVc g != hdrVc f) ∧
         (hdrType f = 6 → (t.port p.val).freed = x.freed ∧ (t.port p.val).owed = x.owed + mine.length + 1) ∧
         (hdrType f ≠ 6 →
           (t.port p.val).freed = x.freed.set (hdrVc f) (x.freed.getD (hdrVc f) 0 + BitVec.ofNat 9 (mine.length + 1)))) ∧
       (∀ k, hdrFirst f = true → hdrType f ≠ 8 → s.linkNo (hdrTag f) = some k → x.secret.isSome = true → old = false →
         mget 0 (t.port p.val).rxCount k = mget 0 x.rxCount k + 1) ∧
       (t.port p.val).replayBuf = x.replayBuf.filter (fun g => seqAhead (linkSeq g) (linkAck f)) ∧
       ∀ q, q ≠ p.val → t.port q = s.port q) ∧
     (∀ q : PortId,
       let y := s.port q.val
       sound → s.egress f = some (some q) → q ≠ p → s.lnk.left = false → hdrFirst f = true → y.txQ = [] →
       s.mayLeave q (hdrVc f) = true → s.wakeUp.rst.pwr ≠ .waking → y.mid.getD (hdrVc f) none = none → y.restart = false →
       s.portRuns q = true → (hdrVc f = 3 → y.vc3Sent < s.vc3Limit) →
       ((∃ j, s.job (hdrTag f) = some j ∧ j.members.length ≤ 32) → hdrTag f ≠ 0 →
         ∃ t, exec (.flitReceive p f old) s = .next t ∧ t.out = s.out ++ [.flit q (y.dress f)] ∧
           (t.port q.val).txSeq = y.txSeq + 1 ∧ (t.port q.val).replayBuf = y.replayBuf ++ [y.dress f] ∧ t.mem = s.mem) ∧
       (∀ k, s.linkNo (hdrTag f) = some k → hdrType f ≠ 8 → s.retiredKey (hdrTag f) = false → hdrLast f = false → old = false →
         x.secret.isSome = true → y.secret.isSome = true → k ∉ y.stopped →
         ∃ t g, exec (.flitReceive p f old) s = .next t ∧ t.out = s.out ++ [.flit q g] ∧
           (t.port q.val).txSeq = y.txSeq + 1 ∧ (t.port q.val).replayBuf = y.replayBuf ++ [g] ∧
           mget 0 (t.port p.val).rxCount k = mget 0 x.rxCount k + 1 ∧
           mget 0 (t.port q.val).txCount k = mget 0 y.txCount k + 1 ∧ t.mem = s.mem))) ∧
  (∀ (s : State) (m : Msg) (a : BitVec 44) (data : Bytes) (j : Job), Heard s m [1, 3] → m.dst = s.lnk.node →
     s.job m.tag = some j →
     let at' : Addr := ⟨bitOf a 43, bitsOf a 40 0⟩
     let good := bitsOf a 42 41 = 0 ∧ (bitOf a 43 = true ∨ bitsOf a 40 0 < 2 ^ 33) ∧ data ≠ [] ∧ data.length ≤ 4016
     (good → at'.a + data.length ≤ 2 ^ 33 ∨ at'.dev = true → ∃ t, exec (.writeMsg m a data) s = .next t ∧
       (∀ k, k < data.length → t.rawByte (at'.plus k) =
         if s.mayAccess j.who.req (at'.plus k) true then data.getD k 0 else s.rawByte (at'.plus k)) ∧
       (∀ b, realAddr b → (∀ k, k < data.length → b ≠ at'.plus k) → t.rawByte b = s.rawByte b) ∧ t.sec = s.sec ∧ t.lnk = s.lnk) ∧
     (¬ good → exec (.writeMsg m a data) s = .next (s.wakeUp.badMsg m.port m.vc.toNat)))

/-- 11 R306 to R309, 15 R422: a HELLO sets the port's peer with its GLB_ID, opens its channels and, at a node that joins, is answered by
JOIN up the tree; the coordinator answers JOIN with ADMIT, in a chain that starts with an empty member list (15 R406); an admitted node
is a member and tells the coordinator, which announces it; a member notes an announcement; a lost member leaves every list and the jobs that include it end; a leaving node sends LEAVE once no job
includes it. -/
def Obligations.MembershipResult : Prop :=
  ∀ (s : State) (m : Msg) (n : NodeId) (seen : W32),
    let u := s.wakeUp
    (Heard s m [0] → s.glb.phase ≠ 3 → ∀ (pp : PortId) (h : Bool) (glb : W64),
      let p := m.port
      let x := s.port p.val
      (h = false ∨ s.placedOn p m.src = false → exec (.hello m pp h glb) s = .next (u.portDown p Ev.lnkPeerBad)) ∧
      (h = true → s.placedOn p m.src = true → m.src ∉ s.lnk.members → x.txQ = [] → x.idleOnly = false →
        let t := u.setPort p.val { x.open' s.glb.ready with peer := m.src, peerPort := pp.val, peerGlb := glb, idleOnly := false }
        exec (.hello m pp h glb) s = .next (if s.joins = true ∧ s.isParentPort p = true
          then t.emit (.join s.lnk.node s.firn.greatest s.myExchange) else t))) ∧
    (∀ key, Heard s m [0] → n ∉ s.lnk.members →
      let keys := (n, key) :: s.lnk.memberKeys.filter fun e => e.1 != n
      (s.coordStarts = true → n ∈ topoMembers s.cfg.live.topo → (s.route n).isSome = true →
        Does (.join m n seen key) s [.firn, .out, .rst, .lnk] fun t =>
          t.firn = { s.firn with seen := genMax seen s.firn.seen } ∧ t.lnk = { s.lnk with memberKeys := keys } ∧
          t.out = s.out ++ [.admitOk n [] t.keyList 0 0 s.registryList (genMax (genMax seen s.firn.seen) s.firn.greatest)]) ∧
      (s.isCoord = true → n ∈ topoMembers s.cfg.live.topo → joinPlace s.cfg.live.topo s.lnk.members n = true →
        (s.route n).isSome = true → Does (.join m n seen key) s [.firn, .out, .rst, .lnk] fun t =>
          t.firn = { s.firn with seen := genMax seen s.firn.seen } ∧ t.lnk = { s.lnk with memberKeys := keys } ∧
          t.out = s.out ++ [.admitOk n s.lnk.members t.keyList (match s.firn.current with | some g => g.num | none => 0)
            (match s.firn.current with | some g => g.slot | none => 0) s.registryList
            (genMax (genMax seen s.firn.seen) s.firn.greatest)]) ∧
      (s.isCoord = false → s.coordStarts = false → s.isRoot = false →
        exec (.join m n seen key) s = .next (u.emit (.join n seen key))) ∧
      (s.isChildPort m.port = true → s.isCoord = false → s.isRoot = false →
        exec (.memberAnnounce m n seen key) s = .next (u.emit (.announce .up n seen key))) ∧
      (s.lnk.member = true → (s.isChildPort m.port = true → s.isCoord = true) →
        Does (.memberAnnounce m n seen key) s [.lnk, .evt, .out, .rst, .firn] fun t =>
          t.lnk = { s.lnk with
            memberKeys := keys, members := s.inOrder (n :: s.lnk.members), lost := s.lnk.lost.filter (· != n) } ∧
          t.firn = { s.firn with seen := genMax seen s.firn.seen } ∧
          t.out = (if s.childEdges = [] then s.out else s.out ++ [.announce .down n seen key]) ∧
          t.evt = (s.raise Ev.lnkMemberJoined { aux := n }).evt)) ∧
    (∀ ms keys g k reg bad unread r, Heard s m [0] → m.dst = s.lnk.node → s.joins = true → (g ≠ 0 ∨ ms ≠ []) →
      let v := ((u.adoptRegistry reg).setFirn fun x => { x with seen := genMax seen x.seen }).setLnk fun l =>
        { l with memberKeys := keys }
      (v.adoptGen k g bad unread = (r, .ok ()) →
        ∃ t, exec (.admitMsg m ms keys g k reg seen bad unread) s = .next t ∧
          t.lnk.member = true ∧ t.lnk.lost = [] ∧ t.firn = r.firn ∧ t.lnk.members = r.inOrder (r.lnk.node :: ms) ∧
          (s.glb.ready = true → t.out = r.out ++ [.announce .up r.lnk.node r.firn.greatest r.myExchange]) ∧
          (s.glb.fatal = false → t.glb.ready = true)) ∧
      ∀ e, v.adoptGen k g bad unread = (r, .error e) →
        exec (.admitMsg m ms keys g k reg seen bad unread) s = .next (r.raise Ev.baseSwapFail (argReason e))) ∧
    (Heard s m [0] → n ∈ s.lnk.members → n ≠ s.lnk.node → n ≠ s.lnk.coordinator → s.isCoord = false → s.firn.swap = none →
      s.starting = false → s.firn.install = none → (∀ j ∈ s.jobs.list, j.admitted = true) →
      ∃ t, exec (.lost m [n] false) s = .next t ∧ t.lnk.members = s.lnk.members.filter (fun k => k != n) ∧ n ∈ t.lnk.lost ∧
        t.mem = s.mem ∧
        ∀ j ∈ s.jobs.list, j.phase ≠ .ended → n ∈ j.members → ∀ j', t.job j.tag = some j' → j'.stop ≠ none) ∧
    (Heard s m [0] → exec (.leave m) s = .next (u.loseNodes (u.lostWith [m.src]) false)) ∧
    (∀ p ∈ (List.finRange 12).filter (fun q : PortId => (s.port q.val).enabled && ((s.port q.val).peer == n || s.placedOn q n)),
      (∀ q : PortId, (s.port q.val).enabled = true → ((s.port q.val).peer = n ∨ s.placedOn q n = true) →
        ((s.port q.val).state = .down ∨ (s.port q.val).state = .retraining) ∧ (s.port q.val).quiet = false) →
      exec (.neighbourLossTimeout n) s = 
        .next (s.loseNodes (s.lostAmong (if s.starting then topoMembers s.cfg.live.topo else s.lnk.members) [n]) false)) ∧
    (∀ v, s.up = true → s.lnk.cmdState ≠ .busy →
      (bitsOf v 63 60 = 1 → s.lnk.member = true → exec (.lnkLeave v) s =
        .next { s with lnk := { s.lnk with leaving := true, cmdState := .busy, reason := 0 } }) ∧
      (bitsOf v 63 60 = 2 → s.lnk.member = false → exec (.lnkRejoin v) s =
        .next ({ s with lnk := { s.lnk with cmdState := .busy, reason := 0 } }.emit (.join s.lnk.node s.firn.greatest s.myExchange)))) ∧
    (s.lnk.leaving = true → s.anyLive = false → Does .leaveSend s [.lnk, .out] fun t =>
      t.lnk.left = true ∧ t.lnk.member = false ∧ t.lnk.members = [] ∧ t.lnk.cmdState = .done ∧ t.out = s.out ++ [.leave]) ∧
    (s.anyLive = true → exec .leaveSend s = .next s)

/-! ### Queues and jobs -/

/-- 12 R319 to R322, R448: a doorbell moves the tail, more than a ring ahead of the head is a queue error, and before ready it is
dropped and counted, nothing else changing; a queue is bound while disabled, enabled with a legal configuration, and refused an
illegal one; clearing enable fences it, and what was written reads back (00 R7); a held interrupt signal goes to its vector.
That a virtual function which is not enabled writes nothing is PRESUMED from SR-IOV (log 19); that a write of WQ_CFG or WQ_CQ_HEAD while
the queue is being fenced is ignored whole is the model's choice (DESIGN CHOICE, log 19). -/
def Obligations.QueueResult : Prop :=
  ∀ (s : State) (f : FnId) (q : QId) (v : W32),
    let x := s.queue f q
    (s.rst.held = .none → s.fnOn f = true → s.glb.ready = false → s.hif.dbDrop.toNat + 1 < 2 ^ 64 - 1 →
      exec (.wqDoorbell f q v) s = .next { s with hif := { s.hif with dbDrop := s.hif.dbDrop + 1 } }) ∧
    (s.fnOn f = false → ∀ cmd ∈ [Instr.wqDoorbell f q v, .wqCqHead f q v, .wqCfg f q v], exec cmd s = .next s) ∧
    (s.up = true →
      (x.state = .disabled → exec (.hifWqBind f q v) s = .next (s.setQueue f q { x with
        bindValid := bitOf v 31, bindDomain := BitVec.ofNat 12 (bitsOf v 11 0) })) ∧
      (x.state ≠ .disabled → exec (.hifWqBind f q v) s = .next s)) ∧
    (s.up = true → s.fnOn f = true →
      (x.fencing = false → Does (.wqDoorbell f q v) s [.hif] fun t =>
        t.queue f q = (if x.state = .running ∧ 2 ^ x.sqLog2 < (v - x.sqHead).toNat
          then { x with sqTail := v, state := .error, error := 3 } else { x with sqTail := v }) ∧
        ∀ g p, (g, p) ≠ (f, q) → t.queue g p = s.queue g p) ∧
      (x.fencing = true → exec (.wqDoorbell f q v) s = .next s ∧ exec (.wqCqHead f q v) s = .next s) ∧
      (x.fencing = false → exec (.wqCqHead f q v) s = .next (s.setQueue f q { x with cqHead := v })) ∧
      (x.fencing = false → bitOf v 31 = true → x.bindValid = true → x.state = .disabled →
        4 ≤ bitsOf v 29 26 → bitsOf v 29 26 ≤ bitsOf v 25 22 → bitsOf v 25 22 ≤ 12 →
        (x.sqTail - x.sqHead).toNat ≤ 2 ^ bitsOf v 29 26 →
        exec (.wqCfg f q v) s = .next (s.setQueue f q { x with
          enable := true, msixEn := bitOf v 30, sqLog2 := bitsOf v 29 26, cqLog2 := bitsOf v 25 22
          coalCount := bitsOf v 21 14, coalUs := bitsOf v 13 4, state := .running, error := 0 })) ∧
      (x.fencing = false → (bitsOf v 29 26 < 4 ∨ 12 < bitsOf v 29 26 ∨ bitsOf v 25 22 < 4 ∨ 12 < bitsOf v 25 22) →
        exec (.wqCfg f q v) s = .next (s.setQueue f q { x with error := 4 })) ∧
      (x.fencing = false → bitOf v 31 = true → x.state = .disabled → 4 ≤ bitsOf v 29 26 → bitsOf v 29 26 ≤ 12 →
        4 ≤ bitsOf v 25 22 → bitsOf v 25 22 ≤ 12 →
        (x.bindValid = false → exec (.wqCfg f q v) s =
          .next (s.setQueue f q { x.config v with enable := false, error := 1 })) ∧
        (x.bindValid = true → bitsOf v 25 22 < bitsOf v 29 26 → exec (.wqCfg f q v) s =
          .next (s.setQueue f q { x.config v with enable := false, error := 2 }))) ∧
      (x.fencing = false → bitOf v 31 = false → x.state ≠ .disabled → 4 ≤ bitsOf v 29 26 → bitsOf v 29 26 ≤ 12 →
        4 ≤ bitsOf v 25 22 → bitsOf v 25 22 ≤ 12 → ∃ t, exec (.wqCfg f q v) s = .next t ∧
          t.queue f q = { x.config v with fencing := true, alone := true, state := .fenced } ∧
          ∀ g p, (g, p) ≠ (f, q) → t.queue g p = s.queue g p) ∧
      (x.fencing = true → exec (.wqCfg f q v) s = .next s)) ∧
    (0 < x.gathered → x.coalUs ≠ 0 → x.coalCount ≠ 0 → x.msixEn = true → exec (.interruptCoalesceTimeout f q false) s =
      .next ((s.setQueue f q { x with gathered := 0 }).signalVector f q.val)) ∧
    (0 < s.evt.gathered → s.evt.coalUs ≠ 0 → s.evt.coalCount ≠ 0 → exec (.interruptCoalesceTimeout f q true) s =
      .next ({ s with evt := { s.evt with gathered := 0 } }.signalVector 0 16)) ∧
    ((x.gathered = 0 ∨ x.coalUs = 0 ∨ x.coalCount = 0 ∨ x.msixEn = false) →
      exec (.interruptCoalesceTimeout f q false) s = .next s)

/-- 11 R298; 12 R324, R328, R329: a descriptor that passes every check is admitted and takes what it needs; one that fails completes with
the first failing check's status and takes nothing; the origin of a job of several members sends GO on the last ACCEPT and
ABORT after a REFUSE; a member waits for SETUP and descriptor, and refuses with HIF_SETUP_BAD where they name different origins; it
starts on GO and stops on ABORT; an answer for another node goes on to it. -/
def Obligations.JobSetupResult : Prop :=
  ∀ (s : State) (m : Msg) (f : FnId) (q : QId) (d : BitVec 1024) (bad : List Nat),
    (let x := s.queue f q
     let raw := leBytes 128 d.toNat
     let j := { jobOf f q x.sqHead raw with members := s.membersOf (jobOf f q x.sqHead raw).d, tag := s.nextTag.1 }
     let r := s.setQueue f q { x with sqHead := x.sqHead + 1, cqReserved := x.cqReserved + 1 }
     let u := if s.glb.fatal || !descGood raw j.d then (r, none) else r.admReads j bad
     s.up = true → x.state = .running → x.fencing = false → x.sqTail ≠ x.sqHead →
     (x.cqTail + BitVec.ofNat 32 x.cqReserved - x.cqHead).toNat < 2 ^ x.cqLog2 →
     (j.d.serial = true → ∀ o ∈ s.jobs.list, ¬ (o.fn = f ∧ o.q = q ∧ o.phase ≠ .ended)) →
     (∀ w, s.glb.fatal = false → s.jobs.setups.find? (fun w => w.jobId == j.d.jobId) = some w → j.d.origin ≠ w.origin →
       (1 < j.d.memberCount → s.sec.entropyOk = true) → (s.route w.origin).isSome = true →
       ∃ t, exec (.descriptorConsume f q d bad) s = .next t ∧
         Out.refuse w.origin w.tag s.lnk.node (Stat.fault + 256 * Ev.hifSetupBad.toNat) ∈ t.out ∧
         t.evt = (s.raise Ev.hifSetupBad { domain := j.d.domain }).evt ∧ t.mem = s.mem ∧ t.hif.committed = s.hif.committed) ∧
     ((s.glb.fatal = true ∨ s.jobs.setups.find? (fun w => w.jobId == j.d.jobId) = none) → j.d.memberCount ≤ 1 →
     (∀ p, u.1.planJob j raw none u.2 = .ok p → ∃ t k, exec (.descriptorConsume f q d bad) s = .next t ∧ k ∈ t.jobs.list ∧ k.tag = j.tag ∧
       k.admitted = true ∧ k.phase = .input ∧ k.gen = p.gen.num ∧ k.fn = f ∧ k.q = q ∧ k.d = j.d ∧
       (t.queue f q).sqHead = x.sqHead + 1 ∧ (t.queue f q).cqReserved = x.cqReserved + 1 ∧
       t.jobs.tagCount = s.nextTag.2.jobs.tagCount) ∧
     (∀ e, u.1.planJob j raw none u.2 = .error e → ∃ t, exec (.descriptorConsume f q d bad) s = .next t ∧
       (t.queue f q).sqHead = x.sqHead + 1 ∧ (t.queue f q).cqTail = x.cqTail + 1 ∧ (t.queue f q).cqReserved = x.cqReserved ∧
       Out.completion f q x.cqTail (j.record e.status e.event (x.cqTail.toNat / 2 ^ x.cqLog2 % 2 == 0)) ∈ t.out ∧
       t.mem.pages = s.mem.pages ∧ t.bars = s.bars ∧ t.coll = s.coll ∧ t.hif.committed = s.hif.committed ∧ t.var = s.var))) ∧
    (∀ id ms est g dom keys, Heard s m [0] →
      let v := if s.leadsOn m.port = true then s.wakeUp.emit (.setup (.but m.port) m.tag id g dom keys) else s.wakeUp
      let u := v.notePassing m.tag dom (decide (ms.length ≤ 32))
      (s.lnk.node ∈ ms → (∀ j ∈ s.jobs.list, j.d.jobId = id → j.phase ≠ .held ∧ (j.phase = .setup → j.stop ≠ none)) →
        exec (.setup m id ms est g dom keys bad) s =
          .next { u with jobs := { u.jobs with setups := s.jobs.setups ++ [⟨m.tag, id, m.src, ms, est, g, keys⟩] } }) ∧
      (s.lnk.node ∉ ms → exec (.setup m id ms est g dom keys bad) s = .next u)) ∧
    (∀ id u, s.jobs.setups = [u] → u.jobId = id → (∀ j ∈ s.jobs.list, ¬ (j.phase = .held ∧ j.d.jobId = id)) →
      (s.route u.origin).isSome = true → exec (.setupHoldTimeout id) s =
        .next ({ s with jobs := { s.jobs with setups := [] } }.emit
          (.refuse u.origin u.tag s.lnk.node Stat.notReady))) ∧
    (∀ n origin st, Heard s m [0] → origin ≠ s.lnk.node → s.lnk.left = false →
      exec (.accept m n origin) s = .next (s.wakeUp.sendTo origin m.tag (.accept origin m.tag n)) ∧
      exec (.refuse m n origin st) s = .next (s.wakeUp.sendTo origin m.tag (.refuse origin m.tag n st))) ∧
    ∀ j, Heard s m [0] → s.job m.tag = some j → j.stop = none →
      (∀ n, j.phase = .setup → s.jobs.list.find? (·.asks m.tag) = some j → n ∈ j.members → n ≠ s.lnk.node →
        (∀ r ∈ j.replies, r.1 ≠ n) →
        (j.replies.length + 2 = j.members.length → (∀ r ∈ j.replies, r.2 = 0) → exec (.accept m n s.lnk.node) s =
          .next ((s.wakeUp.modJob m.tag fun k => { k with replies := j.replies ++ [(n, 0)], phase := .input }).emit
            (.go .all m.tag)))
        ∧ (∀ st, j.replies.length + 2 = j.members.length → (∀ r ∈ j.replies, r.2 = 0) → 0 < st → st < 256 →
          ∃ t, exec (.refuse m n s.lnk.node st) s = .next t ∧ Out.abort .all m.tag st 0 ∈ t.out ∧
            ∀ k, t.job m.tag = some k → k.stop = some (st, 0))) ∧
      (j.phase = .accepted → s.leadsOn m.port = false → ∃ t, exec (.go m) s = .next t ∧
        t.job m.tag = some { j with phase := .input } ∧ t.mem = s.mem ∧ t.evt = s.evt) ∧
      (∀ st, ∃ t, exec (.jobAbort m st 0) s = .next t ∧ (∀ k, t.job m.tag = some k → k.stop = some (st, 0)) ∧
        t.mem = s.mem ∧ t.evt = s.evt)

/-- 09 Table 9.8; 12 R330, R331; 05 R103, R105: the input list writes the job's memory, the streams start with every register of
their slots at its start value, and a slot with a null pointer is held and runs nothing; the output list writes the host's memory;
the completion status goes to a request that has none, and the completion record into the slot reserved for it. -/
def Obligations.JobRunResult : Prop :=
  ∀ (s : State) (j : Job), s.job j.tag = some j → j.stop = none →
    (∀ l, j.phase = .input → j.d.inList = 0 → exec (.inputDmaDone j.tag l) s =
      .next (s.modJob j.tag fun k => { k with phase := .waiting })) ∧
    (∀ (l : DmaList) e a, j.phase = .input → j.d.inList ≠ 0 → dmaEntries l.bytes = some [e] → e.sealed' = false →
      ptrAddr e.ptr.toNat = some a → (a.dev = true ∨ a.a + e.len ≤ 2 ^ 33) →
      ∃ t, exec (.inputDmaDone j.tag l) s = .next t ∧
        (∀ k, t.job j.tag = some k → k.phase = .waiting) ∧
        ∀ n, n < e.len → t.rawByte (a.plus n) =
          if s.mayAccess j.who.req (a.plus n) true then (l.data.getD 0 []).getD n 0 else s.rawByte (a.plus n)) ∧
    (∀ l, j.phase = .input → j.d.inList ≠ 0 → dmaEntries l.bytes = none → exec (.inputDmaDone j.tag l) s =
      .next (s.faultJob j.tag Ev.hifDescBad)) ∧
    (j.phase = .waiting → slotTaken j s.jobs.list = false →
      (∀ a, ptrAddr j.d.streams.toNat = some a → poisonAll s j.who.req [(a, 8 * (s.streams j).length)] = .ok ()) → (∀ p ∈ s.streams j, s.streamOk j p.2.2 = true) →
      ((s.streams j).map fun p => (p.1, p.2.1)).Nodup →
      ∃ t, exec (.jobStart j.tag []) s = .next t ∧
        (∀ k, t.job j.tag = some k → k.phase = .running ∧
          k.live = ((s.streams j).filter fun p => ptrSet p.2.2).map fun p => (p.1, p.2.1)) ∧
        ∀ p ∈ s.streams j,
          let y := t.slot p.1.val p.2.1.val
          (ptrSet p.2.2 = true → y.state = .running ∧ y.tag = j.tag) ∧ (ptrSet p.2.2 = false → y.state = .idle) ∧
          y.pc = p.2.2.truncate 48 ∧ (∀ i, y.rx i = 0) ∧ (∀ i, y.rp i = decide (i = 0)) ∧
          (∀ i, mget 0 y.t i = 0 ∧ mget 0 y.b i = 0 ∧ mget 0 y.s i = 0) ∧ y.firstUs = none ∧ y.loops = [] ∧ y.out = [] ∧
          y.strict = (s.slot p.1.val p.2.1.val).strict ∧ y.weight = (s.slot p.1.val p.2.1.val).weight ∧
          t.vctx p.1.val p.2.1.val = {}) ∧
    (j.phase = .running → j.live = [] → j.d.evidence = false →
      (∀ l bad, j.d.outList = 0 → exec (.jobOutput j.tag l bad) s =
        .next (s.modJob j.tag fun k => { k with phase := .output })) ∧
      ∀ (l : DmaList) e a, j.d.outList ≠ 0 → dmaEntries l.bytes = some [e] → e.sealed' = false → ptrAddr e.ptr.toNat = some a →
        poisonAll s j.who.req [(a, e.len)] = .ok () → ∃ t, exec (.jobOutput j.tag l []) s = .next t ∧
          t.out = s.out ++ [.hostWrite e.host (s.read j.who.req a e.len)] ∧ (∀ k, t.job j.tag = some k → k.phase = .output) ∧
          ∀ b, t.rawByte b = s.rawByte b) ∧
    (j.phase = .output → j.live = [] → s.groupsBusy j.tag = false → j.training = false → j.ctx = none → j.cfgFence = false →
      let x := s.queue j.fn j.q
      ∃ t, exec (.jobComplete j.tag) s = .next t ∧
        Out.completion j.fn j.q x.cqTail (j.record Stat.ok 0 (x.cqTail.toNat / 2 ^ x.cqLog2 % 2 == 0)) ∈ t.out ∧
        (t.queue j.fn j.q).cqTail = x.cqTail + 1 ∧ (t.queue j.fn j.q).cqReserved = x.cqReserved - 1 ∧
        (ptrAddr j.reqBase.toNat = none → t.mem = s.mem) ∧
        (∀ a r, ptrAddr j.reqBase.toNat = some a → (a.dev = true ∨ a.a + 73 ≤ 2 ^ 33) → j.reqs = [r] → r.status = 0 →
          ∀ b, realAddr b → t.rawByte b = if b = a.plus 72 ∧ s.mayAccess j.who.req b true = true then BitVec.ofNat 8 Stat.ok
            else s.rawByte b) ∧
        ∀ o ∈ t.jobs.list, o.fn = j.fn → o.q = j.q → o.sqIndex = j.sqIndex → o.phase = .ended)

/-- 12 R334, R338, R339: a function's reset, its D3hot entry, the clearing of its bus master and of VF Enable fence its queues:
they stop, its held descriptors go, its live jobs end with ABORTED, and a reset clears its vectors; once none is left the queues are as
after reset but for their binding, one that was fenced alone by itself. That the vectors go, and which functions are enabled, is PRESUMED
from PCI Express and SR-IOV (log 19). Evidence records and checkpoints go to the host's rings as these have space. -/
def Obligations.FenceAndEvidenceResult : Prop :=
  ∀ (s : State) (f : FnId),
    (∀ cmd pick, (cmd, pick) ∈ [(Instr.functionLevelReset f, fun g : FnId => f = 0 ∨ g = f), (.d3hotEntry f, fun g => g = f),
        (.busMasterClear f, fun g => g = f), (.vfEnableClear, fun g => g ≠ 0)] →
      (cmd = .vfEnableClear ∨ s.fnOn f = true) → ∃ t, exec cmd s = .next t ∧ t.mem = s.mem ∧ t.evt = s.evt ∧
        (∀ g v, v < 32 → (pick g → cmd = .functionLevelReset f ∨ cmd = .vfEnableClear → t.vector g v = {}) ∧
          (¬ pick g → t.vector g v = s.vector g v)) ∧
        (cmd = .vfEnableClear → t.hif.vfs = 0) ∧
        (∀ g q, pick g → (t.queue g q).state = .fenced ∧ (t.queue g q).fencing = true) ∧
        (∀ g q, ¬ pick g → t.queue g q = s.queue g q) ∧
        (∀ j ∈ t.jobs.list, pick j.fn → j.admitted = true) ∧
        ∀ j ∈ s.jobs.list, pick j.fn → j.admitted = true → j.phase ≠ .ended → ∀ k0, s.job j.tag = some k0 → ∀ k, t.job j.tag = some k →
          k.stop = some (k0.stop.getD (Stat.aborted, Ev.hifFence))) ∧
    (s.fnOn f = false → ∀ cmd ∈ [Instr.functionLevelReset f, .d3hotEntry f, .busMasterClear f], exec cmd s = .next s) ∧
    (∀ p, (∀ q, (s.queue f q).fencing = decide (q = p)) → (s.queue f p).alone = true →
      (∀ j ∈ s.jobs.list, j.fn ≠ f ∨ j.q ≠ p ∨ j.phase = .ended) → Does (.fenceRelease f) s [.hif, .evt, .out] fun t =>
        t.queue f p = { bindValid := (s.queue f p).bindValid, bindDomain := (s.queue f p).bindDomain } ∧
        (∀ g q, (g, q) ≠ (f, p) → t.queue g q = s.queue g q) ∧ t.evt = (s.raise Ev.hifFence).evt) ∧
    ((∃ q, (s.queue f q).fencing = true) → (∀ q, (s.queue f q).fencing = true → (s.queue f q).alone = false) →
      (∀ j ∈ s.jobs.list, j.fn ≠ f ∨ j.phase = .ended) →
      Does (.fenceRelease f) s [.hif, .evt, .out] fun t =>
        (∀ q, t.queue f q = if (s.queue f q).fencing = true
          then { bindValid := (s.queue f q).bindValid, bindDomain := (s.queue f q).bindDomain } else s.queue f q) ∧
        (∀ g q, g ≠ f → t.queue g q = s.queue g q) ∧ t.evt = (s.raise Ev.hifFence).evt ∧
        t.out = if f.val = 0 then s.out else (s.signalVector f 16).out) ∧
    (∀ b l, s.hif.evidBuf = b :: l → s.up = true → s.hif.evidEn = true →
      (s.hif.evidTail - s.hif.evidHead).toNat < 2 ^ s.hif.evidLog2 → exec .evidenceWrite s =
        .next ({ s with hif := { s.hif with evidBuf := l, evidTail := s.hif.evidTail + 1 } }.emit (.hostWrite
          (s.hif.evidBase + BitVec.ofNat 64 (4096 * (s.hif.evidTail.toNat % 2 ^ s.hif.evidLog2))) b))) ∧
    (2 ^ s.hif.evidLog2 ≤ (s.hif.evidTail - s.hif.evidHead).toNat → exec .evidenceWrite s = .next s) ∧
    (∀ k, s.sec.attKey = some k → s.up = true → s.hif.evidEn = true → s.sec.attReady = true → s.sec.entropyOk = true →
      ((s.hif.ckptTail - s.hif.ckptHead).toNat < 2 ^ s.hif.ckptLog2 →
        Does .checkpoint s [.hif, .sec, .out] fun t => t.hif = { s.hif with ckptTail := s.hif.ckptTail + 1 } ∧
          ∃ l, t.out = s.out ++ [.hostWrite
            (s.hif.ckptBase + BitVec.ofNat 64 (65536 * (s.hif.ckptTail.toNat % 2 ^ s.hif.ckptLog2))) l] ∧
            l.take 4 = [0x4B, 0x43, 0x56, 0x45] ∧ l.length = 65536) ∧
      (2 ^ s.hif.ckptLog2 ≤ (s.hif.ckptTail - s.hif.ckptHead).toNat → exec .checkpoint s = .next (s.raise Ev.hifCkptMissed)))

/-! ### Security -/

/-- 13 R348, R349, R353: a session opens in a free slot with a new pair and memory key, is provisioned when the confirmation
fits, and holds or clears an export key; a slot in another state is refused with 0x01, an open at debug level 3 with 0x0A, a
confirmation that does not fit with 0x02; an open without randomness waits (R342). -/
def Obligations.SessionCommandsResult : Prop :=
  ∀ (s : State) (v : W64) (arg key : Bytes),
    let d : Dom := BitVec.ofNat 12 (bitsOf v 59 48)
    let x := s.session d.toNat
    let told (c : W16) : Evt := (s.raise c { domain := d }).evt
    let noWait : State := { s with sec := { s.sec with openWait := none } }
    s.up = true → s.sec.cmdState ≠ .busy →
    (bitsOf v 63 60 = 1 →
      (x.state ≠ .free → exec (.secOpen v) s = .next (noWait.secRefuse 0x01)) ∧
      (x.state = .free → s.sec.debugLevel = 3 → exec (.secOpen v) s = .next (noWait.secRefuse 0x0A)) ∧
      (x.state = .free → s.sec.debugLevel ≠ 3 → s.sec.entropyOk = false → exec (.secOpen v) s =
        .next { s with sec := { s.sec with cmdState := .busy, reason := 0, openWait := some d } }) ∧
      (x.state = .free → s.sec.debugLevel ≠ 3 → s.sec.entropyOk = true → Does (.secOpen v) s [.sec, .evt] fun t =>
        let y := t.session d.toNat
        y.state = .opened ∧ y.sess = x.sess + 1 ∧ y.epoch = x.epoch ∧ y.seed.isSome = true ∧ y.memKey.isSome = true ∧
        y.dataKey = none ∧ y.exportKey = none ∧ y.outCtr = 0 ∧ t.sec.cmdState = .done ∧ t.sec.sessionSinceCold = true ∧
        t.evt = told Ev.secSessionOpen ∧ ∀ k, k ≠ d.toNat → t.session k = s.session k)) ∧
    (bitsOf v 63 60 = 2 →
      (x.state ≠ .opened → exec (.secProvision v arg) s = .next (s.secRefuse 0x01)) ∧
      ∀ seed, x.state = .opened → x.seed = some seed → arg.length = 1600 →
        let given := Config.kemDecap seed (arg.take 1568) ++ s.idd ++ leBytes 2 d.toNat ++ leBytes 4 x.sess.toNat
        (Config.shake256 (given ++ [2]) 32 ≠ arg.drop 1568 → exec (.secProvision v arg) s = .next (s.secRefuse 0x02)) ∧
        (Config.shake256 (given ++ [2]) 32 = arg.drop 1568 → Does (.secProvision v arg) s [.sec, .evt] fun t =>
          t.session d.toNat =
            { x with state := .provisioned, dataKey := some (Config.shake256 (given ++ [1]) 32), outCtr := 0 } ∧
          t.sec.cmdState = .done ∧ t.evt = told Ev.secProvisioned ∧ ∀ k, k ≠ d.toNat → t.session k = s.session k)) ∧
    (s.liveSession d = true →
      (bitsOf v 63 60 = 3 → kemKeyOk key = true →
        exec (.secExport v key) s = .next (s.setSession d.toNat { x with exportKey := some key }).secDone) ∧
      (bitsOf v 63 60 = 4 →
        exec (.secClearExport v) s = .next (s.setSession d.toNat { x with exportKey := none }).secDone)) ∧
    (s.liveSession d = false →
      (bitsOf v 63 60 = 3 → exec (.secExport v key) s = .next (s.secRefuse 0x01)) ∧
      (bitsOf v 63 60 = 4 → exec (.secClearExport v) s = .next (s.secRefuse 0x01)))

/-- 13 R357, R358 Table 13.5: a removal makes the slot and the domain's variants Removing, fences its queues and ends its jobs;
once they have ended every key of the domain is gone, its pages and parcels are free and its variants are unknown here, and a member
that has none left to scrub tells the coordinator; the release goes down the tree and frees the slot under the next epoch. -/
def Obligations.TenantRemovalResult : Prop :=
  ∀ (s : State) (d : Dom) (m : Msg) (v : W64),
    (∀ cmd, (cmd = .secRemove v ∧ s.up = true ∧ s.sec.cmdState ≠ .busy ∧ bitsOf v 63 60 = 5 ∧
        BitVec.ofNat 12 (bitsOf v 59 48) = d ∧ s.isCoord = true ∧ s.lnk.lost = [] ∨ cmd = .revoke m d ∧ Heard s m [0]) →
      s.liveSession d = true → s.removal d = none →
      ∃ t, exec cmd s = .next t ∧ (t.session d.toNat).state = .removing ∧
        t.removal d = some ⟨d, 1, (s.jobsOf d).map (·.tag), []⟩ ∧
        ((∀ n ∈ s.variantsOf d, s.parkedOn n = false) → t.mem = s.mem ∧ t.evt = s.evt) ∧
        (Out.revoke d ∈ t.out ∨ s.childEdges = [] ∨ s.lnk.members.length ≤ 1) ∧
        (∀ f q, (t.queue f q).fencing = ((s.queue f q).fencing ||
          (s.queue f q).bindValid && (s.queue f q).bindDomain == d)) ∧
        (∀ n x, s.variant n = some x → x.domain = d → ∃ y, t.variant n = some y ∧ y.state = .removing) ∧
        (∀ j ∈ s.jobsOf d, ∀ k, t.job j.tag = some k → k.stop ≠ none) ∧
        ∀ k, k ≠ d.toNat → t.session k = s.session k) ∧
    (∀ r, s.removal d = some r → r.step = 1 → s.jobsOf d = [] →
      (s.hif.queues.any fun e => e.2.fencing && e.2.bindValid && e.2.bindDomain == d) = false →
      ∃ t, exec (.tenantRetire d) s = .next t ∧
        (let y := t.session d.toNat
         y.seed = none ∧ y.memKey = none ∧ y.dataKey = none ∧ y.exportKey = none ∧ y.state = (s.session d.toNat).state) ∧
        d ∈ t.sec.retiredDoms ∧ (∀ g ∈ r.tags, g ∈ t.sec.retiredTags) ∧ t.sec.fuseSvn = s.sec.fuseSvn ∧
        (∀ n x, s.variant n = some x → x.domain = d → t.variant n = none) ∧
        (s.runsOf d = [] → s.isCoord = false → Out.removalDone d ∈ t.out) ∧
        (∀ e ∈ s.jobs.passing, e.2.1 = d → e.1 ∈ t.sec.retiredTags) ∧
        (∀ p, (s.page p).mode = .priv → (s.page p).domain = d → (t.page p).mode = .free) ∧
        ∀ c p, ((s.clu c).parcel p).mode = .priv → ((s.clu c).parcel p).domain = d → (t.clu c).parcel p = {}) ∧
    (∀ r, s.removal d = some r → r.step = 5 → Does (.removalRelease d) s [.sec, .evt, .out] fun t =>
      t.session d.toNat = { s.session d.toNat with state := .free, epoch := (s.session d.toNat).epoch + 1 } ∧
      t.removal d = none ∧ d ∉ t.sec.retiredDoms ∧ (∀ g ∈ r.tags, g ∉ t.sec.retiredTags) ∧
      t.out = (if s.childEdges = [] then s.out else s.out ++ [.released d]) ∧ t.evt = (s.raise Ev.secRemoved { domain := d }).evt)

/-- 13 R346, R364: the attestation key is certified once randomness is there; a report goes to the request's host address, is
refused with 0x09 when it is longer than the room there, and waits for key and randomness; in the ROM's modes the command is
not taken (15 R403).
13 R360, R362: staging goes into the slot that does not run, from the host address in SEC_ARG, and is refused during a staging or a trial;
what has been written is in that slot, and is verified when its length is the one given, both images verify and its svn reaches the fuses,
and fails with SEC_STAGE_FAIL otherwise; cancel drops it. That a cancel during a staging or a trial is refused with 0x07 is the model's
choice (DESIGN CHOICE, log 20). -/
def Obligations.AttestationAndStagingResult : Prop :=
  (∀ (s : State) (v : W64) (req : Bytes), s.rst.held = .none →
     (s.sec.attReady = false → s.sec.entropyOk = true → 0 < s.glb.phase → s.glb.phase < 8 → s.sec.attestWait = none →
       Does .attKeyReady s [.sec] fun t =>
         t.sec.attReady = true ∧ t.sec.attKey.isSome = true ∧ t.sec.attCert ≠ []) ∧
     (8 ≤ s.glb.phase → exec (.secAttest v req) s = .next s) ∧
     (s.glb.phase < 8 → s.sec.cmdState ≠ .busy → bitsOf v 63 60 = 6 → req.length = 64 → (∀ b ∈ req.drop 46, b = 0) →
       let d := leAt req 44 2
       (d = 0xFFFF ∨ d ≤ 0xFFF) → ∀ k, s.sec.attKey = some k →
       (s.sec.attReady = true → s.sec.entropyOk = true → bitOf s.rst.blockAct 16 = false →
         let pk := if d ≠ 0xFFFF ∧ s.liveSession (BitVec.ofNat 12 d) = true then ((s.session d).pk.getD []) else []
         let b := s.report req pk k (s.random 32).1
         (b.length ≤ leAt req 40 4 → Does (.secAttest v req) s [.sec, .out] fun t =>
           t.sec.cmdState = .done ∧ t.sec.written = b.length ∧ t.sec.attestWait = none ∧
           t.out = s.out ++ [.hostWrite (BitVec.ofNat 64 (leAt req 32 8)) b]) ∧
         (leAt req 40 4 < b.length → Does (.secAttest v req) s [.sec] fun t =>
           t.sec.cmdState = .refused ∧ t.sec.reason = 0x09)) ∧
       (s.sec.attReady = false → exec (.secAttest v req) s = .next { s with sec := { s.sec with
         cmdState := .busy, reason := 0, attestWait := some req } }))) ∧
  (∀ (s : State) (v : W64) (x : ImageSet),
     (s.up = true → s.sec.cmdState ≠ .busy →
       ((s.sec.staged = .writing ∨ s.sec.staged = .trial) →
         (bitsOf v 63 60 = 7 → exec (.secStage v) s = .next (s.secRefuse 0x07)) ∧
         (bitsOf v 63 60 = 8 → exec (.secCancel v) s = .next (s.secRefuse 0x07))) ∧
       (s.sec.staged ≠ .writing → s.sec.staged ≠ .trial →
         (bitsOf v 63 60 = 7 → s.glb.phase < 8 →
           let y : Sec := { s.sec with stageAt := s.sec.arg, stageLen := bitsOf v 31 0 }
           exec (.secStage v) s = .next ({ s with sec := { y.setFlash (!s.sec.runningSlot) none with
             staged := .writing, stagedSlot := !s.sec.runningSlot } } : State).secDone) ∧
         (bitsOf v 63 60 = 8 → exec (.secCancel v) s = .next ({ s with sec := { s.sec with staged := .none } }).secDone))) ∧
     (s.sec.staged = .writing →
       let y := s.sec.setFlash s.sec.stagedSlot (some x)
       let good := setOk s.sec.fuseSvn x = true ∧ setSize x = s.sec.stageLen
       (good → exec (.stageVerifyDone x) s =
         .next { s with sec := { y with staged := .verified, stagedSvn := setSvn x, stagedImg := setHash x } }) ∧
       (¬ good → exec (.stageVerifyDone x) s =
         .next (({ s with sec := { y with staged := .failed } } : State).raise Ev.secStageFail))))

/-- 13 R363: commit_svn makes the fuse count equal to the running svn; nothing lowers the count; it stays in 0 to 64; the
command is refused during a trial, and when the running svn exceeds 64. -/
def Obligations.CommitSvnBlowsFuses : Prop :=
  ∀ (s : State) (v : W64),
    (∀ c t, exec c s = .next t → s.sec.fuseSvn ≤ t.sec.fuseSvn ∧ (s.sec.fuseSvn ≤ 64 → t.sec.fuseSvn ≤ 64)) ∧
    (s.up = true → s.sec.cmdState ≠ .busy → bitsOf v 63 60 = 9 →
      (s.sec.trial = true → exec (.secCommitSvn v) s = .next (s.secRefuse 0x07)) ∧
      (s.sec.trial = false → 64 < s.sec.runningSvn → exec (.secCommitSvn v) s = .next (s.secRefuse 0x08)) ∧
      (s.sec.trial = false → s.sec.runningSvn ≤ 64 → Does (.secCommitSvn v) s [.sec] fun t =>
        t.sec.cmdState = .done ∧ (s.sec.fuseSvn ≤ s.sec.runningSvn → t.sec.fuseSvn = s.sec.runningSvn) ∧
        t.sec.sessions = s.sec.sessions))

/-- 13 R342: a failed health test stops the random output, one that lasts is device fatal and ends every job; recovery resumes
it and serves the open and the challenge that wait, the open after its slot and the debug level have been looked at again (R348, R367);
a reseed starts the count of requests again.
13 R366, R367: the debug port answers its identity and a fresh challenge; a token for that challenge and this part, signed
with debug allowed, sets the level; level 3 is denied after a session since the last cold start; any other token is denied. -/
def Obligations.EntropyAndDebugResult : Prop :=
  (∀ s : State,
     (s.sec.entropyOk = true → exec .drbgReseed s = .next { s with sec := { s.sec with drbgRequests := 0 } }) ∧
     (s.rst.held ≠ .cold → exec .trngHealthFail s =
       .next { s with sec := { s.sec with entropyOk := false, healthFail := true } }) ∧
     (s.sec.healthFail = true →
       (∃ t, exec .trngFailTimeout s = .next t ∧ t.glb.fatal = true ∧ t.glb.faultN = true ∧
         t.evt = (s.raise Ev.secTrngFail).evt ∧ t.mem = s.mem ∧
         ∀ j ∈ s.jobs.list, j.admitted = true → j.phase ≠ .ended → ∀ k, t.job j.tag = some k → k.stop ≠ none) ∧
       (s.sec.attestWait = none → (∀ p : PortId, (s.port p.val).peerExchange = []) →
         (s.sec.openWait = none → s.sec.challengeWait = true → Does .healthTestRecovery s [.sec, .out] fun t =>
           t.sec.entropyOk = true ∧ t.sec.challengeWait = false ∧
           ∃ b, b.length = 32 ∧ t.sec.challenge = some b ∧ t.out = s.out ++ [.jtag b]) ∧
         (s.sec.challengeWait = false → s.sec.openWait = none → exec .healthTestRecovery s =
           .next { s with sec := { s.sec with entropyOk := true, healthFail := false } }) ∧
         ∀ d, s.sec.challengeWait = false → s.sec.openWait = some d →
           ((s.session d.toNat).state = .free → s.sec.debugLevel ≠ 3 → Does .healthTestRecovery s [.sec, .evt] fun t =>
             (t.session d.toNat).state = .opened ∧ t.sec.openWait = none ∧ t.sec.entropyOk = true ∧ t.sec.cmdState = .done) ∧
           ((s.session d.toNat).state ≠ .free ∨ s.sec.debugLevel = 3 → Does .healthTestRecovery s [.sec] fun t =>
             t.session d.toNat = s.session d.toNat ∧ t.sec.openWait = none ∧ t.sec.cmdState = .refused ∧
             t.sec.reason = if (s.session d.toNat).state ≠ .free then 0x01 else 0x0A))) ∧
     (s.sec.healthFail = false → exec .trngFailTimeout s = .next s ∧ exec .healthTestRecovery s = .next s)) ∧
  (∀ s : State,
     (exec .jtagIdcode s = .next (({ s with sec := { s.sec with
       jtag := 1, jtagOut := leBytes 4 Config.idcode.toNat } } : State).emit (.jtag (leBytes 4 Config.idcode.toNat)))) ∧
     exec .jtagBypass s = .next { s with sec := { s.sec with jtag := 0, jtagOut := [] } } ∧
     exec .jtagLevelClear s = .next { s with sec := { s.sec with debugLevel := 0 } } ∧
     (s.rst.held = .none →
       (s.sec.entropyOk = true → Does .jtagChallenge s [.sec, .out] fun t =>
         ∃ b, b.length = 32 ∧ t.sec.challenge = some b ∧ t.out = s.out ++ [.jtag b] ∧ t.sec.debugLevel = s.sec.debugLevel) ∧
       (s.sec.entropyOk = false → exec .jtagChallenge s = .next { s with sec := { s.sec with
         jtag := 2, jtagOut := [], challenge := none, challengeWait := true } }) ∧
       ∀ (l : Byte) (ch idd : Bytes) (signer : Signer),
         let signed := signerOk 2 0 (l :: ch ++ idd) signer
         (1 ≤ l.toNat → l.toNat ≤ 3 → s.sec.challenge = some ch → idd = s.idd → signed = true →
           (l.toNat = 3 → s.sec.sessionSinceCold = false) → Does (.jtagToken l ch idd signer) s [.sec, .evt] fun t =>
             t.sec.debugLevel = l.toNat ∧ t.evt = (s.raise Ev.secDebugUnlock).evt) ∧
         ((l.toNat = 0 ∨ 3 < l.toNat ∨ s.sec.challenge ≠ some ch ∨ idd ≠ s.idd ∨ signed = false ∨ l.toNat = 3 ∧ s.sec.sessionSinceCold = true) →
           Does (.jtagToken l ch idd signer) s [.sec, .evt] fun t =>
             t.sec.debugLevel = s.sec.debugLevel ∧ t.evt = (s.raise Ev.secDebugDenied).evt)))

/-! ### Configuration -/

/-- 14 R378 to R383, Table 14.6: a staged table replaces the earlier copy of its kind, a kind that no commit may replace is
refused with 0x09 and a failed DMA with 0x0D; a check names the first check that fails; a commit of a checked set under the
current generation writes the life record with the next, and then all the staged tables are live at one instant. -/
def Obligations.StagedCommitResult : Prop :=
  ∀ (s : State) (v : W64) (w : W32),
    let cfg (y : Cfg) : State := { s with cfg := y }
    (s.up = true →
      (s.cfg.state ≠ .loading → s.cfg.state ≠ .committing →
        (bitsOf v 63 60 = 1 → bitsOf v 31 0 ≤ 2 ^ 20 →
          (committable (bitsOf v 47 32) = true → exec (.cfgStageLoad v) s = .next (cfg { s.cfg with
            state := .loading, reason := 0, loading := some (bitsOf v 47 32, bitsOf v 31 0) })) ∧
          (committable (bitsOf v 47 32) = false → exec (.cfgStageLoad v) s = .next (s.cfgRefuse 0x09))) ∧
        (bitOf w 0 = true →
          (s.checkReason = 0 → exec (.cfgCheck w) s = .next (cfg { s.cfg with state := .checked, reason := 0 })) ∧
          (s.checkReason ≠ 0 → exec (.cfgCheck w) s = .next (s.cfgRefuse s.checkReason)))) ∧
      (s.cfg.state ≠ .committing → bitsOf v 63 60 = 2 → exec (.cfgStageDiscard v) s =
        .next (cfg { s.cfg with staged := [], loading := none, state := .none, reason := 0 })) ∧
      (w ≠ s.cfg.gen → exec (.cfgCommit w) s = .next (s.cfgRefuse 0x0B)) ∧
      (s.cfg.state ≠ .checked → exec (.cfgCommit s.cfg.gen) s = .next (s.cfgRefuse 0x0C)) ∧
      (s.cfg.state = .checked → s.oldCfgLive = true → exec (.cfgCommit s.cfg.gen) s = .next (s.cfgRefuse 0x08)) ∧
      (s.cfg.state = .checked → s.oldCfgLive = false → Does (.cfgCommit s.cfg.gen) s [.cfg, .life] fun t =>
        t.cfg = { s.cfg with state := .committing, reason := 0 } ∧ t.life.saveBusy = true ∧
        ∃ r, t.life.writing = some r ∧ r.lastCfgGen = nextGen s.cfg.gen ∧ r.counters = s.life.counters)) ∧
    (∀ k n, s.cfg.loading = some (k, n) →
      (∀ b : Bytes, b.length = n → exec (.cfgStageDmaDone (some b)) s = .next (cfg { s.cfg with
        state := .staged, reason := 0, loading := none, staged := minsert k b (merase k s.cfg.staged) })) ∧
      exec (.cfgStageDmaDone none) s = .next ((cfg { s.cfg with loading := none }).cfgRefuse 0x0D)) ∧
    (∀ r, s.cfg.state = .committing → s.life.writing = none → s.life.record = some r → r.lastCfgGen = nextGen s.cfg.gen →
      ∃ t, exec .cfgCommitInstant s = .next t ∧ t.cfg.gen = nextGen s.cfg.gen ∧ t.cfg.live = s.stagedTables ∧
        t.cfg.staged = [] ∧ t.cfg.state = .none ∧ t.mem.prio = s.stagedTables.prio ∧ t.jobs = s.jobs ∧
        ∀ (c : CId) (k : SId), (t.slot c.val k.val).strict = (s.stagedTables.slotArb.getD k.val (false, 4)).1 ∧
          (t.slot c.val k.val).weight = (s.stagedTables.slotArb.getD k.val (false, 4)).2)

/-- 00 R7, R8, R449; 01 R21; 12 R317, R318; 15 R409; 17 Table 17.6: writes of the registers without a row of their own: a field takes
its value and reads it back, a W1C bit clears, reserved bits are ignored and read as zero, a reserved ring size leaves the register
as it was; an offset that names none, a write before ready (SEC_ARG apart) and one by a virtual function to BAR0 are ignored; a
write-only register and an offset without a register read as zero; the SR-IOV capability sets the virtual functions. That a function
which is not enabled has no registers, and how the SR-IOV capability and the mask of an MSI-X vector act, is presumed (PRESUMED, log 19).
13 R367: the debugger reads control space from level 1 on and writes it from level 2 on, as the physical function does; 02 R29: a run
register reads as its value under eight zeros. -/
def Obligations.RegisterWriteResult : Prop :=
  ∀ (s : State) (f : FnId) (v : W64) (off : Nat),
    (s.rst.held = .none → exec (.registerWrite 0 .bar0 0x004_0010 v) s = .next { s with sec := { s.sec with arg := v } }) ∧
    (s.rst.held ≠ .none → exec (.registerWrite 0 .bar0 0x004_0010 v) s = .next s) ∧
    (f ≠ 0 → exec (.registerWrite f .bar0 off v) s = .next s ∧ s.readReg f .bar0 off = 0) ∧
    (s.fnOn f = false → exec (.registerWrite f .bar2 off v) s = .next s ∧ s.readReg f .bar2 off = 0) ∧
    (bar0Reg off = none → exec (.registerWrite 0 .bar0 off v) s = .next s) ∧
    (bar2Reg off = none → exec (.registerWrite f .bar2 off v) s = .next s) ∧
    (s.up = false → off ≠ 0x004_0010 → exec (.registerWrite 0 .bar0 off v) s = .next s ∧
      exec (.registerWrite f .bar2 off v) s = .next s) ∧
    (s.rst.held = .none → s.hif.vfs = 0 → v.toNat ≤ 63 → exec (.registerWrite 0 .sriov off v) s =
      .next { s with hif := { s.hif with vfs := v.toNat } }) ∧
    ((f ≠ 0 ∨ 63 < v.toNat) → exec (.registerWrite f .sriov off v) s = .next s) ∧
    (s.sec.debugLevel < 2 → exec (.registerWrite f .debug off v) s = .next s) ∧
    (2 ≤ s.sec.debugLevel → exec (.registerWrite f .debug off v) s = exec (.registerWrite 0 .bar0 off v) s) ∧
    s.readReg f .debug off = (if 1 ≤ s.sec.debugLevel then s.readReg 0 .bar0 off else 0) ∧
    (1 ≤ s.sec.debugLevel → ∀ (c : CId) (cell : Nat), ∃ w, s.debugRun c cell true = some w ∧ bitsOf w 31 24 = 0 ∧
      bitsOf w 23 0 = (mget 0 (s.clu c.val).runs cell).toNat % 2 ^ 24) ∧
    (∀ o ∈ [0x001_0008, 0x002_0010, 0x004_0008, 0x018_0008, 0x020_0020, 0x020_8000, 0x030_0100], s.readReg 0 .bar0 o = 0) ∧
    (∀ c : CId, s.readReg 0 .bar0 (0x100_0000 + 0x4_0000 * c.val + 0x50) = 0 ∧
      s.readReg 0 .bar0 (0x100_0000 + 0x4_0000 * c.val + 0x40) = (s.clu c.val).paceWord) ∧
    (s.up = true →
      (∀ e ∈ [(0x002_0018, 6), (0x008_4000, 16), (0x008_4008, 16), (0x020_8008, 12), (0x030_0110, 12)],
        ∃ t, exec (.registerWrite 0 .bar0 e.1 v) s = .next t ∧ t.readReg 0 .bar0 e.1 = v >>> e.2 <<< e.2) ∧
      exec (.registerWrite 0 .bar0 0x080_0028 v) s =
        .next { s with evt := { s.evt with lostSat := s.evt.lostSat && !bitOf v 0 } } ∧
      ((bitsOf v 30 26 < 8 ∨ 20 < bitsOf v 30 26) → s.evt.gathered = 0 →
        exec (.registerWrite 0 .bar0 0x080_0010 v) s = .next s) ∧
      (8 ≤ bitsOf v 30 26 → bitsOf v 30 26 ≤ 20 → exec (.registerWrite 0 .bar0 0x080_0010 v) s =
        .next ({ s with evt := { s.evt with
          enable := bitOf v 31, hostLog2 := if s.evt.enable then s.evt.hostLog2 else bitsOf v 30 26
          irqSev := bitsOf v 25 24, coalCount := bitsOf v 23 16, coalUs := bitsOf v 15 6 } } : State).mirrorDue) ∧
      exec (.registerWrite 0 .bar0 0x020_8010 v) s =
        .next { s with var := { s.var with pFirst := bitsOf v 63 46, pCount := bitsOf v 45 28 + 1 } } ∧
      (s.fnOn f = true →
        (∀ q : QId, exec (.registerWrite f .bar2 (0x800 * q.val) v) s =
          .next (s.setQueue f q { s.queue f q with sqBase := v >>> 12 <<< 12 })) ∧
        ∀ k : Fin 17, exec (.registerWrite f .bar2 (0x8000 + 16 * k.val + 12) v) s =
          .next (s.maskVector f k.val (bitOf v 0))) ∧
      ∀ c : CId, exec (.registerWrite 0 .bar0 (0x100_0000 + 0x4_0000 * c.val + 0x3_1010) v) s =
        .next (s.modClu c.val fun x => { x with semDropSat := x.semDropSat && !bitOf v 0 }))

/-! ### Resets and starts -/

/-- 15 R392 to R398, R415 to R417, Table 15.2; 11 R311: a cold reset clears all but fuses, Firn store, life record, flash and
queue; a warm reset keeps memory, keys, life block, event ring, evidence records and bindings, holds the pins (R401), shows no
configuration (14 R391), stops every job and starts again from cold before the device has been ready once; a cold reset that is held
outlasts a warm one; of two sources the lower code is recorded; the release of a trip releases the cold reset that the trip alone holds
at the same moment. That the evidence ring's registers stay through a warm reset (log 19), and that a trip before the life record has been
restored adds to the one in force (log 8), is read from the spec (DEDUCED). -/
def Obligations.ResetReachResult : Prop :=
  ∀ (s : State) (m : Msg) (w : W32),
    let cold (t : State) : Prop := t.rst.held = .cold ∧ t.glb.ready = false ∧ t.mem = {} ∧ t.cl = [] ∧ t.jobs = {} ∧
      t.lnk = { cut := s.out.length } ∧ t.var = {} ∧ t.upd = [] ∧ t.hif = {} ∧ t.sec.sessions = [] ∧ t.sec.attKey = none ∧ t.evt = {} ∧
      t.sec.fuseSvn = s.sec.fuseSvn ∧ t.sec.activeSlot = s.sec.activeSlot ∧ t.firn.current = none ∧
      t.firn.greatest = s.firn.greatest ∧ t.firn.retired = s.firn.retired ∧ t.firn.slots = s.firn.slots ∧
      t.sec.flashA = s.sec.flashA ∧ t.sec.flashB = s.sec.flashB ∧ t.out = s.out ∧ t.pending = s.pending
    let warm (src : Nat) (t : State) : Prop := t.rst.held = .warm ∧ t.rst.source = src ∧ t.glb.ready = false ∧ t.jobs = {} ∧
      t.cl = [] ∧ t.bars = [] ∧ t.upd = [] ∧ t.coll = [] ∧ t.life = s.life ∧ t.sec.sessions = s.sec.sessions ∧
      t.sec.debugLevel = 0 ∧ t.sec.fuseSvn = s.sec.fuseSvn ∧ t.firn.current = s.firn.current ∧ t.cfg.live = s.cfg.live ∧
      t.cfg.gen = 0 ∧ t.cfg.image = 0 ∧ t.evt.enable = false ∧ t.glb.alertN = s.glb.alertN ∧ t.glb.faultN = s.glb.faultN ∧
      t.hif.evidBuf = s.hif.evidBuf ∧ t.hif.evidEn = s.hif.evidEn ∧ t.hif.evidBase = s.hif.evidBase ∧
      (mwf {} s.hif.queues = true → ∀ f q, t.queue f q =
        { bindValid := (s.queue f q).bindValid, bindDomain := (s.queue f q).bindDomain }) ∧
      ((∀ e ∈ s.var.reg, e.2.state ≠ .loading ∧ e.2.cacheParcels = [] ∧ e.2.stateWait = none) →
        t.mem.bytes = s.mem.bytes ∧ t.mem.pages = s.mem.pages ∧ t.evt.ring = s.evt.ring)
    let warms (cmd : Instr) (src : Nat) : Prop :=
      (s.rst.held = .none → s.rst.readyOnce = true → ∃ t, exec cmd s = .next t ∧ warm src t) ∧
      (s.rst.held = .none → s.rst.readyOnce = false →
        ∃ t, exec cmd s = .next t ∧ t.rst.held = .warm ∧ t.rst.source = src ∧ t.mem = {} ∧ t.life = s.life ∧
          t.evt.ring = s.evt.ring ∧ t.evt.lost = s.evt.lost ∧ t.glb.alertN = s.glb.alertN ∧ t.glb.faultN = s.glb.faultN) ∧
      (s.rst.held = .cold → exec cmd s = .next s)
    (s.rst.held ≠ .cold →
      (∃ t, exec .powerOnReset s = .next t ∧ cold t ∧ t.rst.source = 1 ∧ t.rst.trip = false ∧ t.life.record = s.life.record) ∧
      (∃ t, exec .perstAssert s = .next t ∧ cold t ∧ t.rst.source = 2 ∧ t.life.record = s.life.record) ∧
      ∃ t r, exec .thermalTrip s = .next t ∧ cold t ∧ t.rst.source = 3 ∧ t.rst.trip = true ∧ t.glb.tripN = true ∧
        t.life.record = some r ∧
        let now := (if s.life.excursion then s else s.bumpLife 3).life.counters
        (s.rst.fromCold = false ∨ s.life.newest = none → r.counters = now) ∧
        ∀ q, s.rst.fromCold = true → s.life.newest = some q → r.counters = (q.counters.zip now).map fun e => add48 e.1 e.2) ∧
    (s.rst.held = .cold → exec .perstAssert s = .next { s with rst := { s.rst with source := min 2 s.rst.source } }) ∧
    (let alone := s.rst.trip = true ∧ s.rst.held = .cold ∧ s.rst.source = 3
     (¬ alone → exec .tripRelease s = .next { s with
       rst := { s.rst with trip := false }, glb := { s.glb with tripN := false } }) ∧
     (alone → ∃ t, exec .tripRelease s = .next t ∧ t.rst.trip = false ∧ t.glb.tripN = false ∧ t.rst.held = .none ∧ t.rst.cause = 3 ∧
       t.rst.romStart = true ∧ t.glb.alertN = s.life.excursion ∧ t.mem = s.mem)) ∧
    warms .warmRstAssert 4 ∧ warms .watchdogExpiry 6 ∧
    (bitsOf w 31 16 = 0x5752 → bitOf w 0 = true → warms (.softwareReset w) 5) ∧
    ((bitsOf w 31 16 ≠ 0x5752 ∨ bitOf w 0 = false) → exec (.softwareReset w) s = .next s) ∧
    (Heard s m [0] → s.rst.held = .none →
      (m.src = s.lnk.coordinator → s.cfg.live.dev.chainReset = true → s.rst.readyOnce = true →
        ∃ t, exec (.resetMsg m) s = .next t ∧ warm 7 t ∧ t.rst.srcNode = m.src) ∧
      ((m.src ≠ s.lnk.coordinator ∨ s.cfg.live.dev.chainReset = false) → exec (.resetMsg m) s =
        .next (s.wakeUp.raise Ev.lnkResetDenied (lnkInfo s.wakeUp m.port m.vc.toNat))))

/-- 13 R361, 14 R370 to R377, 15 R402 to R408: once its images, tables, memory and topology are good, a node that is alone in its
chain, whose ports stay down and which has no base image to thaw comes to ready: after a cold start, a warm start and a boot from
the host. A start whose entropy test fails waits, one without an image that verifies stops in phase 0xA, host download mode in 8,
recovery in 9, and the boot from a neighbour asks the first port that trains for its image; a cold start does not leave a trip or the
factory-test clock mode. -/
def Obligations.StartReachesReady : Prop :=
  ∀ (s : State) (b : Boot),
    let tables (x : ImageSet) : Tables := (bootTables x.cfg.body).foldl (fun (t : Tables) e => t.apply e.1 e.2.1 e.2.2)
      { defServePct := Config.romServePct.val, defBulkJobs := Config.romBulkJobs.val, topo := b.topo }
    let good (x : ImageSet) : Prop := kindsOk x.cfg.body b.topo = true ∧
      (∀ e ∈ bootTables x.cfg.body, tableOk e.1 e.2.1 e.2.2 = true) ∧ s.tablesReason (tables x) = 0 ∧
      (tables x).dev.codesOk = true ∧
      topoOk b.topo (tables x).dev.position ((tableOf 8 (bootTable x.cfg.body 3)).map routeOf) (bootMode x.cfg.body) = true ∧
      b.topo.nodes.length ≤ 1
    let fresh (x : ImageSet) : Prop := s.rst.readyOnce = false ∧ s.glb.ready = false ∧ s.glb.fatal = false ∧ b.memFail = [] ∧
      b.ports = [] ∧ 8 ≤ (tables x).dev.defaultSlot
    let image (x : ImageSet) : Prop := ∃ slot trial, s.rejectTrial.pickSlot = some (slot, trial, x)
    let ready (cmd : Instr) (x : ImageSet) : Prop := ∃ t, exec cmd s = .next t ∧ t.glb.ready = true ∧ t.glb.phase = 7 ∧
      t.rst.held = .none ∧ t.rst.readyOnce = true ∧ t.cfg.live = tables x ∧ t.cfg.image = bootCfgId x.cfg.body ∧
      t.lnk.member = true ∧ t.sec.fuseSvn = s.sec.fuseSvn ∧ t.sec.trial = false ∧ t.sec.runningSvn = setSvn x ∧
      t.sec.runningImg = setHash x
    (s.rst.held = .cold → s.rst.trip = false → b.clkMode ≠ 3 →
      (b.entropy = true → b.bootSrc = 0 →
        (∀ x, image x → good x → fresh x → ready (.coldStart b) x) ∧
        (s.rejectTrial.pickSlot = none → ∃ t, exec (.coldStart b) s = .next t ∧ t.glb.phase = 0xA ∧ t.glb.fatal = true ∧
          t.glb.ready = s.glb.ready)) ∧
      (b.entropy = true → b.bootSrc = 1 → ∃ t, exec (.coldStart b) s = .next t ∧ t.glb.phase = 8 ∧ t.rst.held = .none ∧
        t.rst.cause = s.rst.source ∧ t.mem = s.mem) ∧
      (b.entropy = true → b.bootSrc = 2 → s.rst.bootPort = none → s.rst.bootTried = [] → ∀ p : PortId, p ∈ b.ports →
        (∀ q : PortId, q.val < p.val → q ∉ b.ports) → ∃ t, exec (.coldStart b) s = .next t ∧ t.rst.bootPort = some p ∧
          t.rst.startWait = true ∧ Out.imageRequest p ∈ t.out) ∧
      (b.entropy = true → b.bootSrc = 3 → ∃ t, exec (.coldStart b) s = .next t ∧ t.glb.phase = 9 ∧ t.rst.held = .none ∧
        t.mem = s.mem) ∧
      (b.entropy = false → ∃ t, exec (.coldStart b) s = .next t ∧ t.rst.startWait = true ∧ t.sec.entropyOk = false ∧
        t.mem = s.mem)) ∧
    (s.rst.held = .cold → (s.rst.trip = true ∨ b.clkMode = 3) → exec (.coldStart b) s = .next s) ∧
    (s.rst.held = .warm → s.rst.readyOnce = true → s.glb.bootSrc = 0 → s.firn.current = none → s.firn.old = none →
      s.firn.swap = none → s.sec.entropyOk = true → ∀ x, image x → good x → ready (.warmStart b) x) ∧
    (s.rst.held ≠ .warm → exec (.warmStart b) s = .next s) ∧
    (s.rst.held = .none → s.glb.phase = 8 → s.sec.download = true → s.sec.entropyOk = true →
      (∀ x, b.set = some x → slotOk s.sec.fuseSvn x = true → setSize x = s.sec.stageLen → good x → fresh x →
        ready (.hostDownloadBoot b) x) ∧
      ((∀ x, b.set = some x → slotOk s.sec.fuseSvn x = false ∨ setSize x ≠ s.sec.stageLen) → exec (.hostDownloadBoot b) s =
        .next { s with sec := { s.sec with download := false } }))

/-- 15 R399, R400: all the blocks named are reset when every one is idle, none otherwise, RST_BLOCK_BUSY naming the first that is
not; the reset of a field clears its clusters, that of the host port its queues and link, HIF_DB_DROP staying (17 R446); a reset that
completes is told and lets an enabled port train. -/
def Obligations.BlockResetResult : Prop :=
  ∀ (s : State) (v : W64) (k : Fin 22),
    (s.up = true →
      let ready (n : Nat) : Prop := s.blockIdle n = true ∧ bitOf s.rst.blockAct n = false
      (bitOf v k.val = true → ¬ ready k.val → (∀ n, n < k.val → bitOf v n = true → ready n) →
        exec (.rstBlockCtl v) s = .next (s.raise Ev.rstBlockBusy (argReason k.val))) ∧
      ((∀ n, n < 22 → bitOf v n = true → ready n) → ∃ t, exec (.rstBlockCtl v) s = .next t ∧
        t.rst.blockAct = s.rst.blockAct ||| BitVec.ofNat 22 (bitsOf v 21 0) ∧ t.jobs = s.jobs ∧ t.sec = s.sec ∧
        (bitOf v 16 = true → t.hif.queues = [] ∧ t.hif.rate = 0 ∧ t.hif.width = 0) ∧ t.hif.dbDrop = s.hif.dbDrop ∧
        ∀ (f : FieldId) (c : CId), bitOf v (12 + f.val) = true → c.val / 16 = f.val →
          (t.clu c.val).sems = [] ∧ (t.clu c.val).parcels = [] ∧ (t.clu c.val).bytes = [])) ∧
    (bitOf s.rst.blockAct k.val = false → exec (.blockResetDone k) s = .next s) ∧
    (bitOf s.rst.blockAct k.val = true → ∃ t, exec (.blockResetDone k) s = .next t ∧
      bitOf t.rst.blockAct k.val = false ∧ bitOf t.rst.block k.val = true ∧
      (k.val < 12 → t.evt = (s.raise Ev.rstBlockDone { arg := BitVec.ofNat 64 k.val }).evt ∧
        t.port k.val = if (s.port k.val).enabled = true then { s.port k.val with state := .training } else s.port k.val))
end

