-- ==== Sys2Proof/Laws/Crypt.lean ====
section
/-! SUPPORT. Sys2Proof/Laws/Crypt.lean: what the sealed and signed values of 13 R343 do, said once: a seal opens, a signature verifies, both have their sizes. -/

namespace Sys2Proof.Laws

open Sys2Proof

/-- AES-GCM opens what it seals. -/
theorem gcm_opens (k n a p : Bytes) : Config.gcmOpen k n a (Config.gcmSeal k n a p) = some p := by
  have hl (l : Bytes) : (Config.gcmXor k n l).length = l.length := by simp [Config.gcmXor, Config.gcmXorAt]
  have hx (l : Bytes) : Config.gcmXor k n (Config.gcmXor k n l) = l := by
    apply List.ext_getElem (by rw [hl, hl])
    intro i h1 h2
    simp [Config.gcmXor, Config.gcmXorAt]
  have ht (c : Bytes) : (Config.gcmTagBytes k n a c).length = 16 := by simp [Config.gcmTagBytes]
  simp [Config.gcmOpen, Config.gcmSeal, ht, hx]

/-- Sizing twice is sizing once. -/
theorem sized_sized (n : Nat) (l : Bytes) : Config.sized n (Config.sized n l) = Config.sized n l := by
  have h : (Config.sized n l).length = n := by simp [Config.sized]; omega
  rw [show Config.sized n (Config.sized n l) = (Config.sized n l ++ List.replicate (n - (Config.sized n l).length) 0).take n from rfl, h]
  simp [h]

/-- A sized string has its size. -/
theorem sized_length (n : Nat) (l : Bytes) : (Config.sized n l).length = n := by simp [Config.sized]; omega

/-- What a key's holder signs verifies (13 R343). -/
theorem slhVerify_make (n : Nat) (key msg r : Bytes) : Config.slhVerify n key msg (Config.slhMake n key msg r) = true := by
  have h : (Config.slhMake n key msg r).take 32 = Config.sized 32 r := by
    rw [Config.slhMake, List.take_left' (sized_length 32 r)]
  rw [Config.slhVerify, h, beq_iff_eq, Config.slhMake, Config.slhMake, sized_sized]

/-- A signature has the length of its parameter set. -/
theorem slhMake_length (n : Nat) (key msg r : Bytes) (h : 32 ≤ n) : (Config.slhMake n key msg r).length = n := by
  simp [Config.slhMake, sized_length]; omega

end Sys2Proof.Laws
end

