-- ==== Sys2Proof/Laws/Maps.lean ====
section
/-! SUPPORT. Sys2Proof/Laws/Maps.lean: the laws of the sparse maps: a lookup after an update, an update after an update, the canonical form, equal maps of equal contents. -/

namespace Sys2Proof.Machine

open Sys2Proof

variable {α : Type}

/-- Looking up an erased key gives the default. -/
theorem mget_merase_same (d : α) (m : SMap α) (i : Nat) : mget d (merase i m) i = d := by
  induction m with
  | nil => rfl
  | cons e r ih =>
    obtain ⟨k, v⟩ := e
    by_cases h : k = i <;> simp [merase, mget, h, ih]

/-- Erasing another key changes no lookup. -/
theorem mget_merase_ne (d : α) (m : SMap α) {i j : Nat} (h : j ≠ i) : mget d (merase i m) j = mget d m j := by
  induction m with
  | nil => rfl
  | cons e r ih =>
    obtain ⟨k, v⟩ := e
    by_cases hk : k = i
    · subst hk; simp [merase, mget, ih, Ne.symm h]
    · by_cases hj : k = j
      · subst hj; simp [merase, mget, hk]
      · simp [merase, mget, hk, hj, ih]

/-- An insertion is what its key looks up. -/
theorem mget_minsert_same (d : α) (m : SMap α) (i : Nat) (x : α) : mget d (minsert i x (merase i m)) i = x := by
  induction m with
  | nil => simp [merase, minsert, mget]
  | cons e r ih =>
    obtain ⟨k, v⟩ := e
    by_cases hk : k = i
    · simp [merase, hk, ih]
    · by_cases hl : i < k <;> simp [merase, minsert, mget, hk, hl, ih]

/-- An insertion changes no other lookup. -/
theorem mget_minsert_ne (d : α) (m : SMap α) {i j : Nat} (x : α) (h : j ≠ i) :
    mget d (minsert i x m) j = mget d m j := by
  induction m with
  | nil => simp [minsert, mget, Ne.symm h]
  | cons e r ih =>
    obtain ⟨k, v⟩ := e
    by_cases hl : i < k
    · simp [minsert, mget, hl, Ne.symm h]
    · by_cases hj : k = j
      · subst hj; simp [minsert, mget, hl]
      · simp [minsert, mget, hl, hj, ih]

/-- Erasing after inserting the same key erases. -/
theorem merase_minsert_same (m : SMap α) (i : Nat) (x : α) : merase i (minsert i x m) = merase i m := by
  induction m with
  | nil => simp [minsert, merase]
  | cons e r ih =>
    obtain ⟨k, v⟩ := e
    by_cases hl : i < k
    · simp [minsert, merase, hl]
    · by_cases hk : k = i <;> simp [minsert, merase, hl, hk, ih]

theorem merase_idem (m : SMap α) (i : Nat) : merase i (merase i m) = merase i m := by
  induction m with
  | nil => rfl
  | cons e r ih =>
    obtain ⟨k, v⟩ := e
    by_cases hk : k = i <;> simp [merase, hk, ih]

@[simp] theorem mget_mset_same [DecidableEq α] (d : α) (m : SMap α) (i : Nat) (x : α) : mget d (mset d m i x) i = x := by
  unfold mset
  split
  · rename_i h; rw [mget_merase_same, h]
  · exact mget_minsert_same d m i x

/-- An update changes no other lookup, whatever default that lookup has. -/
theorem mget_mset_ne [DecidableEq α] (d d' : α) (m : SMap α) {i j : Nat} (x : α) (h : j ≠ i) :
    mget d' (mset d m i x) j = mget d' m j := by
  unfold mset
  split
  · exact mget_merase_ne d' m h
  · rw [mget_minsert_ne d' _ x h, mget_merase_ne d' m h]

/-- A lookup after an update. -/
theorem mget_mset [DecidableEq α] (d : α) (m : SMap α) (i j : Nat) (x : α) : mget d (mset d m i x) j = if j = i then x else mget d m j := by
  by_cases h : j = i
  · subst h; simp
  · simp [h, mget_mset_ne d d m x h]

/-- The later update of a key wins. -/
@[simp] theorem mset_mset [DecidableEq α] (d : α) (m : SMap α) (i : Nat) (x y : α) : mset d (mset d m i x) i y = mset d m i y := by
  have h : merase i (mset d m i x) = merase i m := by
    unfold mset
    split
    · exact merase_idem m i
    · rw [merase_minsert_same, merase_idem]
  show (if y = d then merase i (mset d m i x) else minsert i y (merase i (mset d m i x))) = _
  rw [h]; rfl

/-! ### The canonical form -/

/-- Keys rising from above `n`, no entry equal to the default. -/
def mfrom (d : α) (n : Nat) : SMap α → Prop
  | [] => True
  | (k, v) :: r => n ≤ k ∧ v ≠ d ∧ mfrom d (k + 1) r

theorem mfrom_mono (d : α) {a b : Nat} (h : a ≤ b) : ∀ m : SMap α, mfrom d b m → mfrom d a m
  | [], _ => trivial
  | (_, _) :: _, hm => ⟨Nat.le_trans h hm.1, hm.2⟩

theorem mfrom_iff [DecidableEq α] (d : α) (n : Nat) (m : SMap α) : mfrom d n m ↔ mwf d m = true ∧ ∀ e ∈ m.head?, n ≤ e.1 := by
  induction m generalizing n with
  | nil => simp [mfrom, mwf]
  | cons e r ih =>
    obtain ⟨k, v⟩ := e
    cases r with
    | nil => simp [mfrom, mwf, and_comm]
    | cons e' r' =>
      obtain ⟨k', v'⟩ := e'
      rw [mfrom, ih]
      simp only [mwf, Bool.and_eq_true, decide_eq_true_eq, List.head?_cons, Option.mem_def, Option.some.injEq,
        forall_eq']
      constructor
      · rintro ⟨h1, h2, h3, h4⟩; exact ⟨⟨⟨h2, h4⟩, h3⟩, h1⟩
      · rintro ⟨⟨⟨h2, h4⟩, h3⟩, h1⟩; exact ⟨h1, h2, h3, h4⟩

theorem mwf_iff [DecidableEq α] (d : α) (m : SMap α) : mwf d m = true ↔ mfrom d 0 m := by simp [mfrom_iff]

theorem merase_from (d : α) (i n : Nat) (m : SMap α) (h : mfrom d n m) : mfrom d n (merase i m) := by
  induction m generalizing n with
  | nil => exact h
  | cons e r ih =>
    obtain ⟨k, v⟩ := e
    by_cases hk : k = i
    · simp only [merase, hk, if_true]
      exact mfrom_mono d (by have := h.1; omega) _ (ih _ h.2.2)
    · simp only [merase, hk, if_false]
      exact ⟨h.1, h.2.1, ih _ h.2.2⟩

theorem merase_above (d : α) (i n : Nat) (m : SMap α) (hn : i < n) (h : mfrom d n m) : merase i m = m := by
  induction m generalizing n with
  | nil => rfl
  | cons e r ih =>
    obtain ⟨k, v⟩ := e
    have : k ≠ i := by have := h.1; omega
    simp only [merase, this, if_false]
    rw [ih (k + 1) (by have := h.1; omega) h.2.2]

theorem minsert_from (d : α) (i n : Nat) (x : α) (m : SMap α) (hx : x ≠ d) (hn : n ≤ i) (h : mfrom d n m)
    (hi : ∀ e ∈ m, e.1 ≠ i) : mfrom d n (minsert i x m) := by
  induction m generalizing n with
  | nil => exact ⟨hn, hx, trivial⟩
  | cons e r ih =>
    obtain ⟨k, v⟩ := e
    by_cases hl : i < k
    · simp only [minsert, hl, if_true]
      exact ⟨hn, hx, by omega, h.2.1, h.2.2⟩
    · simp only [minsert, hl, if_false]
      have hk : k ≠ i := hi (k, v) (by simp)
      exact ⟨h.1, h.2.1, ih (k + 1) (by omega) h.2.2 (fun e he => hi e (by simp [he]))⟩

theorem merase_not_mem (i : Nat) (m : SMap α) : ∀ e ∈ merase i m, e.1 ≠ i := by
  induction m with
  | nil => simp [merase]
  | cons e r ih =>
    obtain ⟨k, v⟩ := e
    by_cases hk : k = i
    · simpa [merase, hk] using ih
    · intro e he
      simp only [merase, hk, if_false, List.mem_cons] at he
      rcases he with rfl | he
      · exact hk
      · exact ih e he

/-- An update keeps the canonical form. -/
theorem mset_wf [DecidableEq α] (d : α) (m : SMap α) (i : Nat) (x : α) (h : mwf d m = true) : mwf d (mset d m i x) = true := by
  rw [mwf_iff] at h ⊢
  unfold mset
  split
  · exact merase_from d i 0 m h
  · rename_i hx
    exact minsert_from d i 0 x _ hx (Nat.zero_le _) (merase_from d i 0 m h) (merase_not_mem i m)

/-- A selection of entries keeps the canonical form. -/
theorem filter_wf [DecidableEq α] (d : α) (m : SMap α) (p : Nat × α → Bool) (h : mwf d m = true) : mwf d (m.filter p) = true := by
  rw [mwf_iff] at h ⊢
  suffices ∀ n, mfrom d n m → mfrom d n (m.filter p) from this 0 h
  clear h
  induction m with
  | nil => intro n h; exact h
  | cons e r ih =>
    obtain ⟨k, v⟩ := e
    intro n h
    by_cases hp : p (k, v)
    · simp only [List.filter_cons, hp, if_true]; exact ⟨h.1, h.2.1, ih _ h.2.2⟩
    · simp only [List.filter_cons, hp]; exact mfrom_mono d (by have := h.1; omega) _ (ih _ h.2.2)

/-- A lookup below every key gives the default. -/
theorem mget_below (d : α) (i n : Nat) (m : SMap α) (hn : i < n) (h : mfrom d n m) : mget d m i = d := by
  induction m generalizing n with
  | nil => rfl
  | cons e r ih =>
    obtain ⟨k, v⟩ := e
    have : k ≠ i := by have := h.1; omega
    simp only [mget, this, if_false]
    exact ih (k + 1) (by have := h.1; omega) h.2.2

/-- Maps in canonical form with the same lookups are the same data. -/
theorem mext [DecidableEq α] (d : α) (m m' : SMap α) (h : mwf d m = true) (h' : mwf d m' = true) (he : ∀ i, mget d m i = mget d m' i) :
    m = m' := by
  rw [mwf_iff] at h h'
  suffices ∀ n, mfrom d n m → mfrom d n m' → (∀ i, mget d m i = mget d m' i) → m = m' from this 0 h h' he
  clear h h' he
  induction m generalizing m' with
  | nil =>
    intro n _ h' he
    cases m' with
    | nil => rfl
    | cons e r => exact absurd (he e.1).symm (by simp [mget, h'.2.1])
  | cons e r ih =>
    obtain ⟨k, v⟩ := e
    intro n h h' he
    cases m' with
    | nil => exact absurd (he k) (by simp [mget, h.2.1])
    | cons e' r' =>
      obtain ⟨k', v'⟩ := e'
      have hk : k = k' := by
        rcases Nat.lt_trichotomy k k' with hl | hl | hl
        · have := he k
          rw [mget_below d k k' ((k', v') :: r') hl ⟨Nat.le_refl _, h'.2⟩] at this
          exact absurd this (by simp [mget, h.2.1])
        · exact hl
        · have := he k'
          rw [mget_below d k' k ((k, v) :: r) hl ⟨Nat.le_refl _, h.2⟩] at this
          exact absurd this.symm (by simp [mget, h'.2.1])
      subst hk
      have hv : v = v' := by simpa [mget] using he k
      subst hv
      have : r = r' := by
        apply ih r' (k + 1) h.2.2 h'.2.2
        intro i
        by_cases hi : k = i
        · subst hi
          rw [mget_below d k (k + 1) r (by omega) h.2.2, mget_below d k (k + 1) r' (by omega) h'.2.2]
        · simpa [mget, hi] using he i
      rw [this]

end Sys2Proof.Machine
end

