-- ==== Sys2Proof/Laws/State.lean ====
section
/-! SUPPORT. Sys2Proof/Laws/State.lean: what each update of a part of State leaves alone: one lemma for each field and update. -/

namespace Sys2Proof.Machine

open Sys2Proof

variable (s : State)

@[simp] theorem State.setClu_pending (c : Nat) (x : Cluster) : (s.setClu c x).pending = s.pending := rfl
@[simp] theorem State.setClu_free (c : Nat) (x : Cluster) : (s.setClu c x).free = s.free := rfl
@[simp] theorem State.setClu_glb (c : Nat) (x : Cluster) : (s.setClu c x).glb = s.glb := rfl
@[simp] theorem State.setClu_evt (c : Nat) (x : Cluster) : (s.setClu c x).evt = s.evt := rfl
@[simp] theorem State.setClu_rst (c : Nat) (x : Cluster) : (s.setClu c x).rst = s.rst := rfl
@[simp] theorem State.setClu_life (c : Nat) (x : Cluster) : (s.setClu c x).life = s.life := rfl
@[simp] theorem State.setClu_cfg (c : Nat) (x : Cluster) : (s.setClu c x).cfg = s.cfg := rfl
@[simp] theorem State.setClu_sec (c : Nat) (x : Cluster) : (s.setClu c x).sec = s.sec := rfl
@[simp] theorem State.setClu_hif (c : Nat) (x : Cluster) : (s.setClu c x).hif = s.hif := rfl
@[simp] theorem State.setClu_jobs (c : Nat) (x : Cluster) : (s.setClu c x).jobs = s.jobs := rfl
@[simp] theorem State.setClu_lnk (c : Nat) (x : Cluster) : (s.setClu c x).lnk = s.lnk := rfl
@[simp] theorem State.setClu_mem (c : Nat) (x : Cluster) : (s.setClu c x).mem = s.mem := rfl
@[simp] theorem State.setClu_bars (c : Nat) (x : Cluster) : (s.setClu c x).bars = s.bars := rfl
@[simp] theorem State.setClu_firn (c : Nat) (x : Cluster) : (s.setClu c x).firn = s.firn := rfl
@[simp] theorem State.setClu_var (c : Nat) (x : Cluster) : (s.setClu c x).var = s.var := rfl
@[simp] theorem State.setClu_upd (c : Nat) (x : Cluster) : (s.setClu c x).upd = s.upd := rfl
@[simp] theorem State.setClu_coll (c : Nat) (x : Cluster) : (s.setClu c x).coll = s.coll := rfl
@[simp] theorem State.setClu_out (c : Nat) (x : Cluster) : (s.setClu c x).out = s.out := rfl
@[simp] theorem State.modClu_pending (c : Nat) (f : Cluster → Cluster) : (s.modClu c f).pending = s.pending := rfl
@[simp] theorem State.modClu_free (c : Nat) (f : Cluster → Cluster) : (s.modClu c f).free = s.free := rfl
@[simp] theorem State.modClu_glb (c : Nat) (f : Cluster → Cluster) : (s.modClu c f).glb = s.glb := rfl
@[simp] theorem State.modClu_evt (c : Nat) (f : Cluster → Cluster) : (s.modClu c f).evt = s.evt := rfl
@[simp] theorem State.modClu_rst (c : Nat) (f : Cluster → Cluster) : (s.modClu c f).rst = s.rst := rfl
@[simp] theorem State.modClu_life (c : Nat) (f : Cluster → Cluster) : (s.modClu c f).life = s.life := rfl
@[simp] theorem State.modClu_cfg (c : Nat) (f : Cluster → Cluster) : (s.modClu c f).cfg = s.cfg := rfl
@[simp] theorem State.modClu_sec (c : Nat) (f : Cluster → Cluster) : (s.modClu c f).sec = s.sec := rfl
@[simp] theorem State.modClu_hif (c : Nat) (f : Cluster → Cluster) : (s.modClu c f).hif = s.hif := rfl
@[simp] theorem State.modClu_jobs (c : Nat) (f : Cluster → Cluster) : (s.modClu c f).jobs = s.jobs := rfl
@[simp] theorem State.modClu_lnk (c : Nat) (f : Cluster → Cluster) : (s.modClu c f).lnk = s.lnk := rfl
@[simp] theorem State.modClu_mem (c : Nat) (f : Cluster → Cluster) : (s.modClu c f).mem = s.mem := rfl
@[simp] theorem State.modClu_bars (c : Nat) (f : Cluster → Cluster) : (s.modClu c f).bars = s.bars := rfl
@[simp] theorem State.modClu_firn (c : Nat) (f : Cluster → Cluster) : (s.modClu c f).firn = s.firn := rfl
@[simp] theorem State.modClu_var (c : Nat) (f : Cluster → Cluster) : (s.modClu c f).var = s.var := rfl
@[simp] theorem State.modClu_upd (c : Nat) (f : Cluster → Cluster) : (s.modClu c f).upd = s.upd := rfl
@[simp] theorem State.modClu_coll (c : Nat) (f : Cluster → Cluster) : (s.modClu c f).coll = s.coll := rfl
@[simp] theorem State.modClu_out (c : Nat) (f : Cluster → Cluster) : (s.modClu c f).out = s.out := rfl
@[simp] theorem State.setSlot_pending (c k : Nat) (y : Slot) : (s.setSlot c k y).pending = s.pending := rfl
@[simp] theorem State.setSlot_free (c k : Nat) (y : Slot) : (s.setSlot c k y).free = s.free := rfl
@[simp] theorem State.setSlot_glb (c k : Nat) (y : Slot) : (s.setSlot c k y).glb = s.glb := rfl
@[simp] theorem State.setSlot_evt (c k : Nat) (y : Slot) : (s.setSlot c k y).evt = s.evt := rfl
@[simp] theorem State.setSlot_rst (c k : Nat) (y : Slot) : (s.setSlot c k y).rst = s.rst := rfl
@[simp] theorem State.setSlot_life (c k : Nat) (y : Slot) : (s.setSlot c k y).life = s.life := rfl
@[simp] theorem State.setSlot_cfg (c k : Nat) (y : Slot) : (s.setSlot c k y).cfg = s.cfg := rfl
@[simp] theorem State.setSlot_sec (c k : Nat) (y : Slot) : (s.setSlot c k y).sec = s.sec := rfl
@[simp] theorem State.setSlot_hif (c k : Nat) (y : Slot) : (s.setSlot c k y).hif = s.hif := rfl
@[simp] theorem State.setSlot_jobs (c k : Nat) (y : Slot) : (s.setSlot c k y).jobs = s.jobs := rfl
@[simp] theorem State.setSlot_lnk (c k : Nat) (y : Slot) : (s.setSlot c k y).lnk = s.lnk := rfl
@[simp] theorem State.setSlot_mem (c k : Nat) (y : Slot) : (s.setSlot c k y).mem = s.mem := rfl
@[simp] theorem State.setSlot_bars (c k : Nat) (y : Slot) : (s.setSlot c k y).bars = s.bars := rfl
@[simp] theorem State.setSlot_firn (c k : Nat) (y : Slot) : (s.setSlot c k y).firn = s.firn := rfl
@[simp] theorem State.setSlot_var (c k : Nat) (y : Slot) : (s.setSlot c k y).var = s.var := rfl
@[simp] theorem State.setSlot_upd (c k : Nat) (y : Slot) : (s.setSlot c k y).upd = s.upd := rfl
@[simp] theorem State.setSlot_coll (c k : Nat) (y : Slot) : (s.setSlot c k y).coll = s.coll := rfl
@[simp] theorem State.setSlot_out (c k : Nat) (y : Slot) : (s.setSlot c k y).out = s.out := rfl
@[simp] theorem State.modSlot_pending (c k : Nat) (f : Slot → Slot) : (s.modSlot c k f).pending = s.pending := rfl
@[simp] theorem State.modSlot_free (c k : Nat) (f : Slot → Slot) : (s.modSlot c k f).free = s.free := rfl
@[simp] theorem State.modSlot_glb (c k : Nat) (f : Slot → Slot) : (s.modSlot c k f).glb = s.glb := rfl
@[simp] theorem State.modSlot_evt (c k : Nat) (f : Slot → Slot) : (s.modSlot c k f).evt = s.evt := rfl
@[simp] theorem State.modSlot_rst (c k : Nat) (f : Slot → Slot) : (s.modSlot c k f).rst = s.rst := rfl
@[simp] theorem State.modSlot_life (c k : Nat) (f : Slot → Slot) : (s.modSlot c k f).life = s.life := rfl
@[simp] theorem State.modSlot_cfg (c k : Nat) (f : Slot → Slot) : (s.modSlot c k f).cfg = s.cfg := rfl
@[simp] theorem State.modSlot_sec (c k : Nat) (f : Slot → Slot) : (s.modSlot c k f).sec = s.sec := rfl
@[simp] theorem State.modSlot_hif (c k : Nat) (f : Slot → Slot) : (s.modSlot c k f).hif = s.hif := rfl
@[simp] theorem State.modSlot_jobs (c k : Nat) (f : Slot → Slot) : (s.modSlot c k f).jobs = s.jobs := rfl
@[simp] theorem State.modSlot_lnk (c k : Nat) (f : Slot → Slot) : (s.modSlot c k f).lnk = s.lnk := rfl
@[simp] theorem State.modSlot_mem (c k : Nat) (f : Slot → Slot) : (s.modSlot c k f).mem = s.mem := rfl
@[simp] theorem State.modSlot_bars (c k : Nat) (f : Slot → Slot) : (s.modSlot c k f).bars = s.bars := rfl
@[simp] theorem State.modSlot_firn (c k : Nat) (f : Slot → Slot) : (s.modSlot c k f).firn = s.firn := rfl
@[simp] theorem State.modSlot_var (c k : Nat) (f : Slot → Slot) : (s.modSlot c k f).var = s.var := rfl
@[simp] theorem State.modSlot_upd (c k : Nat) (f : Slot → Slot) : (s.modSlot c k f).upd = s.upd := rfl
@[simp] theorem State.modSlot_coll (c k : Nat) (f : Slot → Slot) : (s.modSlot c k f).coll = s.coll := rfl
@[simp] theorem State.modSlot_out (c k : Nat) (f : Slot → Slot) : (s.modSlot c k f).out = s.out := rfl
@[simp] theorem State.setVctx_pending (c k : Nat) (y : VCtx) : (s.setVctx c k y).pending = s.pending := rfl
@[simp] theorem State.setVctx_free (c k : Nat) (y : VCtx) : (s.setVctx c k y).free = s.free := rfl
@[simp] theorem State.setVctx_glb (c k : Nat) (y : VCtx) : (s.setVctx c k y).glb = s.glb := rfl
@[simp] theorem State.setVctx_evt (c k : Nat) (y : VCtx) : (s.setVctx c k y).evt = s.evt := rfl
@[simp] theorem State.setVctx_rst (c k : Nat) (y : VCtx) : (s.setVctx c k y).rst = s.rst := rfl
@[simp] theorem State.setVctx_life (c k : Nat) (y : VCtx) : (s.setVctx c k y).life = s.life := rfl
@[simp] theorem State.setVctx_cfg (c k : Nat) (y : VCtx) : (s.setVctx c k y).cfg = s.cfg := rfl
@[simp] theorem State.setVctx_sec (c k : Nat) (y : VCtx) : (s.setVctx c k y).sec = s.sec := rfl
@[simp] theorem State.setVctx_hif (c k : Nat) (y : VCtx) : (s.setVctx c k y).hif = s.hif := rfl
@[simp] theorem State.setVctx_jobs (c k : Nat) (y : VCtx) : (s.setVctx c k y).jobs = s.jobs := rfl
@[simp] theorem State.setVctx_lnk (c k : Nat) (y : VCtx) : (s.setVctx c k y).lnk = s.lnk := rfl
@[simp] theorem State.setVctx_mem (c k : Nat) (y : VCtx) : (s.setVctx c k y).mem = s.mem := rfl
@[simp] theorem State.setVctx_bars (c k : Nat) (y : VCtx) : (s.setVctx c k y).bars = s.bars := rfl
@[simp] theorem State.setVctx_firn (c k : Nat) (y : VCtx) : (s.setVctx c k y).firn = s.firn := rfl
@[simp] theorem State.setVctx_var (c k : Nat) (y : VCtx) : (s.setVctx c k y).var = s.var := rfl
@[simp] theorem State.setVctx_upd (c k : Nat) (y : VCtx) : (s.setVctx c k y).upd = s.upd := rfl
@[simp] theorem State.setVctx_coll (c k : Nat) (y : VCtx) : (s.setVctx c k y).coll = s.coll := rfl
@[simp] theorem State.setVctx_out (c k : Nat) (y : VCtx) : (s.setVctx c k y).out = s.out := rfl
@[simp] theorem State.modVctx_pending (c k : Nat) (f : VCtx → VCtx) : (s.modVctx c k f).pending = s.pending := rfl
@[simp] theorem State.modVctx_free (c k : Nat) (f : VCtx → VCtx) : (s.modVctx c k f).free = s.free := rfl
@[simp] theorem State.modVctx_glb (c k : Nat) (f : VCtx → VCtx) : (s.modVctx c k f).glb = s.glb := rfl
@[simp] theorem State.modVctx_evt (c k : Nat) (f : VCtx → VCtx) : (s.modVctx c k f).evt = s.evt := rfl
@[simp] theorem State.modVctx_rst (c k : Nat) (f : VCtx → VCtx) : (s.modVctx c k f).rst = s.rst := rfl
@[simp] theorem State.modVctx_life (c k : Nat) (f : VCtx → VCtx) : (s.modVctx c k f).life = s.life := rfl
@[simp] theorem State.modVctx_cfg (c k : Nat) (f : VCtx → VCtx) : (s.modVctx c k f).cfg = s.cfg := rfl
@[simp] theorem State.modVctx_sec (c k : Nat) (f : VCtx → VCtx) : (s.modVctx c k f).sec = s.sec := rfl
@[simp] theorem State.modVctx_hif (c k : Nat) (f : VCtx → VCtx) : (s.modVctx c k f).hif = s.hif := rfl
@[simp] theorem State.modVctx_jobs (c k : Nat) (f : VCtx → VCtx) : (s.modVctx c k f).jobs = s.jobs := rfl
@[simp] theorem State.modVctx_lnk (c k : Nat) (f : VCtx → VCtx) : (s.modVctx c k f).lnk = s.lnk := rfl
@[simp] theorem State.modVctx_mem (c k : Nat) (f : VCtx → VCtx) : (s.modVctx c k f).mem = s.mem := rfl
@[simp] theorem State.modVctx_bars (c k : Nat) (f : VCtx → VCtx) : (s.modVctx c k f).bars = s.bars := rfl
@[simp] theorem State.modVctx_firn (c k : Nat) (f : VCtx → VCtx) : (s.modVctx c k f).firn = s.firn := rfl
@[simp] theorem State.modVctx_var (c k : Nat) (f : VCtx → VCtx) : (s.modVctx c k f).var = s.var := rfl
@[simp] theorem State.modVctx_upd (c k : Nat) (f : VCtx → VCtx) : (s.modVctx c k f).upd = s.upd := rfl
@[simp] theorem State.modVctx_coll (c k : Nat) (f : VCtx → VCtx) : (s.modVctx c k f).coll = s.coll := rfl
@[simp] theorem State.modVctx_out (c k : Nat) (f : VCtx → VCtx) : (s.modVctx c k f).out = s.out := rfl
@[simp] theorem State.setGroup_pending (c g : Nat) (y : Group) : (s.setGroup c g y).pending = s.pending := rfl
@[simp] theorem State.setGroup_free (c g : Nat) (y : Group) : (s.setGroup c g y).free = s.free := rfl
@[simp] theorem State.setGroup_glb (c g : Nat) (y : Group) : (s.setGroup c g y).glb = s.glb := rfl
@[simp] theorem State.setGroup_evt (c g : Nat) (y : Group) : (s.setGroup c g y).evt = s.evt := rfl
@[simp] theorem State.setGroup_rst (c g : Nat) (y : Group) : (s.setGroup c g y).rst = s.rst := rfl
@[simp] theorem State.setGroup_life (c g : Nat) (y : Group) : (s.setGroup c g y).life = s.life := rfl
@[simp] theorem State.setGroup_cfg (c g : Nat) (y : Group) : (s.setGroup c g y).cfg = s.cfg := rfl
@[simp] theorem State.setGroup_sec (c g : Nat) (y : Group) : (s.setGroup c g y).sec = s.sec := rfl
@[simp] theorem State.setGroup_hif (c g : Nat) (y : Group) : (s.setGroup c g y).hif = s.hif := rfl
@[simp] theorem State.setGroup_jobs (c g : Nat) (y : Group) : (s.setGroup c g y).jobs = s.jobs := rfl
@[simp] theorem State.setGroup_lnk (c g : Nat) (y : Group) : (s.setGroup c g y).lnk = s.lnk := rfl
@[simp] theorem State.setGroup_mem (c g : Nat) (y : Group) : (s.setGroup c g y).mem = s.mem := rfl
@[simp] theorem State.setGroup_bars (c g : Nat) (y : Group) : (s.setGroup c g y).bars = s.bars := rfl
@[simp] theorem State.setGroup_firn (c g : Nat) (y : Group) : (s.setGroup c g y).firn = s.firn := rfl
@[simp] theorem State.setGroup_var (c g : Nat) (y : Group) : (s.setGroup c g y).var = s.var := rfl
@[simp] theorem State.setGroup_upd (c g : Nat) (y : Group) : (s.setGroup c g y).upd = s.upd := rfl
@[simp] theorem State.setGroup_coll (c g : Nat) (y : Group) : (s.setGroup c g y).coll = s.coll := rfl
@[simp] theorem State.setGroup_out (c g : Nat) (y : Group) : (s.setGroup c g y).out = s.out := rfl
@[simp] theorem State.modGroup_pending (c g : Nat) (f : Group → Group) : (s.modGroup c g f).pending = s.pending := rfl
@[simp] theorem State.modGroup_free (c g : Nat) (f : Group → Group) : (s.modGroup c g f).free = s.free := rfl
@[simp] theorem State.modGroup_glb (c g : Nat) (f : Group → Group) : (s.modGroup c g f).glb = s.glb := rfl
@[simp] theorem State.modGroup_evt (c g : Nat) (f : Group → Group) : (s.modGroup c g f).evt = s.evt := rfl
@[simp] theorem State.modGroup_rst (c g : Nat) (f : Group → Group) : (s.modGroup c g f).rst = s.rst := rfl
@[simp] theorem State.modGroup_life (c g : Nat) (f : Group → Group) : (s.modGroup c g f).life = s.life := rfl
@[simp] theorem State.modGroup_cfg (c g : Nat) (f : Group → Group) : (s.modGroup c g f).cfg = s.cfg := rfl
@[simp] theorem State.modGroup_sec (c g : Nat) (f : Group → Group) : (s.modGroup c g f).sec = s.sec := rfl
@[simp] theorem State.modGroup_hif (c g : Nat) (f : Group → Group) : (s.modGroup c g f).hif = s.hif := rfl
@[simp] theorem State.modGroup_jobs (c g : Nat) (f : Group → Group) : (s.modGroup c g f).jobs = s.jobs := rfl
@[simp] theorem State.modGroup_lnk (c g : Nat) (f : Group → Group) : (s.modGroup c g f).lnk = s.lnk := rfl
@[simp] theorem State.modGroup_mem (c g : Nat) (f : Group → Group) : (s.modGroup c g f).mem = s.mem := rfl
@[simp] theorem State.modGroup_bars (c g : Nat) (f : Group → Group) : (s.modGroup c g f).bars = s.bars := rfl
@[simp] theorem State.modGroup_firn (c g : Nat) (f : Group → Group) : (s.modGroup c g f).firn = s.firn := rfl
@[simp] theorem State.modGroup_var (c g : Nat) (f : Group → Group) : (s.modGroup c g f).var = s.var := rfl
@[simp] theorem State.modGroup_upd (c g : Nat) (f : Group → Group) : (s.modGroup c g f).upd = s.upd := rfl
@[simp] theorem State.modGroup_coll (c g : Nat) (f : Group → Group) : (s.modGroup c g f).coll = s.coll := rfl
@[simp] theorem State.modGroup_out (c g : Nat) (f : Group → Group) : (s.modGroup c g f).out = s.out := rfl
@[simp] theorem State.setBar_pending (b : Nat) (y : Bar) : (s.setBar b y).pending = s.pending := rfl
@[simp] theorem State.setBar_free (b : Nat) (y : Bar) : (s.setBar b y).free = s.free := rfl
@[simp] theorem State.setBar_glb (b : Nat) (y : Bar) : (s.setBar b y).glb = s.glb := rfl
@[simp] theorem State.setBar_evt (b : Nat) (y : Bar) : (s.setBar b y).evt = s.evt := rfl
@[simp] theorem State.setBar_rst (b : Nat) (y : Bar) : (s.setBar b y).rst = s.rst := rfl
@[simp] theorem State.setBar_life (b : Nat) (y : Bar) : (s.setBar b y).life = s.life := rfl
@[simp] theorem State.setBar_cfg (b : Nat) (y : Bar) : (s.setBar b y).cfg = s.cfg := rfl
@[simp] theorem State.setBar_sec (b : Nat) (y : Bar) : (s.setBar b y).sec = s.sec := rfl
@[simp] theorem State.setBar_hif (b : Nat) (y : Bar) : (s.setBar b y).hif = s.hif := rfl
@[simp] theorem State.setBar_jobs (b : Nat) (y : Bar) : (s.setBar b y).jobs = s.jobs := rfl
@[simp] theorem State.setBar_lnk (b : Nat) (y : Bar) : (s.setBar b y).lnk = s.lnk := rfl
@[simp] theorem State.setBar_mem (b : Nat) (y : Bar) : (s.setBar b y).mem = s.mem := rfl
@[simp] theorem State.setBar_cl (b : Nat) (y : Bar) : (s.setBar b y).cl = s.cl := rfl
@[simp] theorem State.setBar_firn (b : Nat) (y : Bar) : (s.setBar b y).firn = s.firn := rfl
@[simp] theorem State.setBar_var (b : Nat) (y : Bar) : (s.setBar b y).var = s.var := rfl
@[simp] theorem State.setBar_upd (b : Nat) (y : Bar) : (s.setBar b y).upd = s.upd := rfl
@[simp] theorem State.setBar_coll (b : Nat) (y : Bar) : (s.setBar b y).coll = s.coll := rfl
@[simp] theorem State.setBar_out (b : Nat) (y : Bar) : (s.setBar b y).out = s.out := rfl
@[simp] theorem State.setPage_pending (p : Nat) (y : Page) : (s.setPage p y).pending = s.pending := rfl
@[simp] theorem State.setPage_free (p : Nat) (y : Page) : (s.setPage p y).free = s.free := rfl
@[simp] theorem State.setPage_glb (p : Nat) (y : Page) : (s.setPage p y).glb = s.glb := rfl
@[simp] theorem State.setPage_evt (p : Nat) (y : Page) : (s.setPage p y).evt = s.evt := rfl
@[simp] theorem State.setPage_rst (p : Nat) (y : Page) : (s.setPage p y).rst = s.rst := rfl
@[simp] theorem State.setPage_life (p : Nat) (y : Page) : (s.setPage p y).life = s.life := rfl
@[simp] theorem State.setPage_cfg (p : Nat) (y : Page) : (s.setPage p y).cfg = s.cfg := rfl
@[simp] theorem State.setPage_sec (p : Nat) (y : Page) : (s.setPage p y).sec = s.sec := rfl
@[simp] theorem State.setPage_hif (p : Nat) (y : Page) : (s.setPage p y).hif = s.hif := rfl
@[simp] theorem State.setPage_jobs (p : Nat) (y : Page) : (s.setPage p y).jobs = s.jobs := rfl
@[simp] theorem State.setPage_lnk (p : Nat) (y : Page) : (s.setPage p y).lnk = s.lnk := rfl
@[simp] theorem State.setPage_cl (p : Nat) (y : Page) : (s.setPage p y).cl = s.cl := rfl
@[simp] theorem State.setPage_bars (p : Nat) (y : Page) : (s.setPage p y).bars = s.bars := rfl
@[simp] theorem State.setPage_firn (p : Nat) (y : Page) : (s.setPage p y).firn = s.firn := rfl
@[simp] theorem State.setPage_var (p : Nat) (y : Page) : (s.setPage p y).var = s.var := rfl
@[simp] theorem State.setPage_upd (p : Nat) (y : Page) : (s.setPage p y).upd = s.upd := rfl
@[simp] theorem State.setPage_coll (p : Nat) (y : Page) : (s.setPage p y).coll = s.coll := rfl
@[simp] theorem State.setPage_out (p : Nat) (y : Page) : (s.setPage p y).out = s.out := rfl
@[simp] theorem State.setCtl_pending (m : Nat) (y : MemCtl) : (s.setCtl m y).pending = s.pending := rfl
@[simp] theorem State.setCtl_free (m : Nat) (y : MemCtl) : (s.setCtl m y).free = s.free := rfl
@[simp] theorem State.setCtl_glb (m : Nat) (y : MemCtl) : (s.setCtl m y).glb = s.glb := rfl
@[simp] theorem State.setCtl_evt (m : Nat) (y : MemCtl) : (s.setCtl m y).evt = s.evt := rfl
@[simp] theorem State.setCtl_rst (m : Nat) (y : MemCtl) : (s.setCtl m y).rst = s.rst := rfl
@[simp] theorem State.setCtl_life (m : Nat) (y : MemCtl) : (s.setCtl m y).life = s.life := rfl
@[simp] theorem State.setCtl_cfg (m : Nat) (y : MemCtl) : (s.setCtl m y).cfg = s.cfg := rfl
@[simp] theorem State.setCtl_sec (m : Nat) (y : MemCtl) : (s.setCtl m y).sec = s.sec := rfl
@[simp] theorem State.setCtl_hif (m : Nat) (y : MemCtl) : (s.setCtl m y).hif = s.hif := rfl
@[simp] theorem State.setCtl_jobs (m : Nat) (y : MemCtl) : (s.setCtl m y).jobs = s.jobs := rfl
@[simp] theorem State.setCtl_lnk (m : Nat) (y : MemCtl) : (s.setCtl m y).lnk = s.lnk := rfl
@[simp] theorem State.setCtl_cl (m : Nat) (y : MemCtl) : (s.setCtl m y).cl = s.cl := rfl
@[simp] theorem State.setCtl_bars (m : Nat) (y : MemCtl) : (s.setCtl m y).bars = s.bars := rfl
@[simp] theorem State.setCtl_firn (m : Nat) (y : MemCtl) : (s.setCtl m y).firn = s.firn := rfl
@[simp] theorem State.setCtl_var (m : Nat) (y : MemCtl) : (s.setCtl m y).var = s.var := rfl
@[simp] theorem State.setCtl_upd (m : Nat) (y : MemCtl) : (s.setCtl m y).upd = s.upd := rfl
@[simp] theorem State.setCtl_coll (m : Nat) (y : MemCtl) : (s.setCtl m y).coll = s.coll := rfl
@[simp] theorem State.setCtl_out (m : Nat) (y : MemCtl) : (s.setCtl m y).out = s.out := rfl
@[simp] theorem State.setCtx_pending (x : Nat) (y : Ctx) : (s.setCtx x y).pending = s.pending := rfl
@[simp] theorem State.setCtx_free (x : Nat) (y : Ctx) : (s.setCtx x y).free = s.free := rfl
@[simp] theorem State.setCtx_glb (x : Nat) (y : Ctx) : (s.setCtx x y).glb = s.glb := rfl
@[simp] theorem State.setCtx_evt (x : Nat) (y : Ctx) : (s.setCtx x y).evt = s.evt := rfl
@[simp] theorem State.setCtx_rst (x : Nat) (y : Ctx) : (s.setCtx x y).rst = s.rst := rfl
@[simp] theorem State.setCtx_life (x : Nat) (y : Ctx) : (s.setCtx x y).life = s.life := rfl
@[simp] theorem State.setCtx_cfg (x : Nat) (y : Ctx) : (s.setCtx x y).cfg = s.cfg := rfl
@[simp] theorem State.setCtx_sec (x : Nat) (y : Ctx) : (s.setCtx x y).sec = s.sec := rfl
@[simp] theorem State.setCtx_hif (x : Nat) (y : Ctx) : (s.setCtx x y).hif = s.hif := rfl
@[simp] theorem State.setCtx_jobs (x : Nat) (y : Ctx) : (s.setCtx x y).jobs = s.jobs := rfl
@[simp] theorem State.setCtx_lnk (x : Nat) (y : Ctx) : (s.setCtx x y).lnk = s.lnk := rfl
@[simp] theorem State.setCtx_mem (x : Nat) (y : Ctx) : (s.setCtx x y).mem = s.mem := rfl
@[simp] theorem State.setCtx_cl (x : Nat) (y : Ctx) : (s.setCtx x y).cl = s.cl := rfl
@[simp] theorem State.setCtx_bars (x : Nat) (y : Ctx) : (s.setCtx x y).bars = s.bars := rfl
@[simp] theorem State.setCtx_firn (x : Nat) (y : Ctx) : (s.setCtx x y).firn = s.firn := rfl
@[simp] theorem State.setCtx_var (x : Nat) (y : Ctx) : (s.setCtx x y).var = s.var := rfl
@[simp] theorem State.setCtx_coll (x : Nat) (y : Ctx) : (s.setCtx x y).coll = s.coll := rfl
@[simp] theorem State.setCtx_out (x : Nat) (y : Ctx) : (s.setCtx x y).out = s.out := rfl
@[simp] theorem State.modCtx_pending (x : Nat) (f : Ctx → Ctx) : (s.modCtx x f).pending = s.pending := rfl
@[simp] theorem State.modCtx_free (x : Nat) (f : Ctx → Ctx) : (s.modCtx x f).free = s.free := rfl
@[simp] theorem State.modCtx_glb (x : Nat) (f : Ctx → Ctx) : (s.modCtx x f).glb = s.glb := rfl
@[simp] theorem State.modCtx_evt (x : Nat) (f : Ctx → Ctx) : (s.modCtx x f).evt = s.evt := rfl
@[simp] theorem State.modCtx_rst (x : Nat) (f : Ctx → Ctx) : (s.modCtx x f).rst = s.rst := rfl
@[simp] theorem State.modCtx_life (x : Nat) (f : Ctx → Ctx) : (s.modCtx x f).life = s.life := rfl
@[simp] theorem State.modCtx_cfg (x : Nat) (f : Ctx → Ctx) : (s.modCtx x f).cfg = s.cfg := rfl
@[simp] theorem State.modCtx_sec (x : Nat) (f : Ctx → Ctx) : (s.modCtx x f).sec = s.sec := rfl
@[simp] theorem State.modCtx_hif (x : Nat) (f : Ctx → Ctx) : (s.modCtx x f).hif = s.hif := rfl
@[simp] theorem State.modCtx_jobs (x : Nat) (f : Ctx → Ctx) : (s.modCtx x f).jobs = s.jobs := rfl
@[simp] theorem State.modCtx_lnk (x : Nat) (f : Ctx → Ctx) : (s.modCtx x f).lnk = s.lnk := rfl
@[simp] theorem State.modCtx_mem (x : Nat) (f : Ctx → Ctx) : (s.modCtx x f).mem = s.mem := rfl
@[simp] theorem State.modCtx_cl (x : Nat) (f : Ctx → Ctx) : (s.modCtx x f).cl = s.cl := rfl
@[simp] theorem State.modCtx_bars (x : Nat) (f : Ctx → Ctx) : (s.modCtx x f).bars = s.bars := rfl
@[simp] theorem State.modCtx_firn (x : Nat) (f : Ctx → Ctx) : (s.modCtx x f).firn = s.firn := rfl
@[simp] theorem State.modCtx_var (x : Nat) (f : Ctx → Ctx) : (s.modCtx x f).var = s.var := rfl
@[simp] theorem State.modCtx_coll (x : Nat) (f : Ctx → Ctx) : (s.modCtx x f).coll = s.coll := rfl
@[simp] theorem State.modCtx_out (x : Nat) (f : Ctx → Ctx) : (s.modCtx x f).out = s.out := rfl
@[simp] theorem State.setSession_pending (d : Nat) (y : Session) : (s.setSession d y).pending = s.pending := rfl
@[simp] theorem State.setSession_free (d : Nat) (y : Session) : (s.setSession d y).free = s.free := rfl
@[simp] theorem State.setSession_glb (d : Nat) (y : Session) : (s.setSession d y).glb = s.glb := rfl
@[simp] theorem State.setSession_evt (d : Nat) (y : Session) : (s.setSession d y).evt = s.evt := rfl
@[simp] theorem State.setSession_rst (d : Nat) (y : Session) : (s.setSession d y).rst = s.rst := rfl
@[simp] theorem State.setSession_life (d : Nat) (y : Session) : (s.setSession d y).life = s.life := rfl
@[simp] theorem State.setSession_cfg (d : Nat) (y : Session) : (s.setSession d y).cfg = s.cfg := rfl
@[simp] theorem State.setSession_hif (d : Nat) (y : Session) : (s.setSession d y).hif = s.hif := rfl
@[simp] theorem State.setSession_jobs (d : Nat) (y : Session) : (s.setSession d y).jobs = s.jobs := rfl
@[simp] theorem State.setSession_lnk (d : Nat) (y : Session) : (s.setSession d y).lnk = s.lnk := rfl
@[simp] theorem State.setSession_mem (d : Nat) (y : Session) : (s.setSession d y).mem = s.mem := rfl
@[simp] theorem State.setSession_cl (d : Nat) (y : Session) : (s.setSession d y).cl = s.cl := rfl
@[simp] theorem State.setSession_bars (d : Nat) (y : Session) : (s.setSession d y).bars = s.bars := rfl
@[simp] theorem State.setSession_firn (d : Nat) (y : Session) : (s.setSession d y).firn = s.firn := rfl
@[simp] theorem State.setSession_var (d : Nat) (y : Session) : (s.setSession d y).var = s.var := rfl
@[simp] theorem State.setSession_upd (d : Nat) (y : Session) : (s.setSession d y).upd = s.upd := rfl
@[simp] theorem State.setSession_coll (d : Nat) (y : Session) : (s.setSession d y).coll = s.coll := rfl
@[simp] theorem State.setSession_out (d : Nat) (y : Session) : (s.setSession d y).out = s.out := rfl
@[simp] theorem State.setQueue_pending (f : FnId) (q : QId) (y : Queue) : (s.setQueue f q y).pending = s.pending := rfl
@[simp] theorem State.setQueue_free (f : FnId) (q : QId) (y : Queue) : (s.setQueue f q y).free = s.free := rfl
@[simp] theorem State.setQueue_glb (f : FnId) (q : QId) (y : Queue) : (s.setQueue f q y).glb = s.glb := rfl
@[simp] theorem State.setQueue_evt (f : FnId) (q : QId) (y : Queue) : (s.setQueue f q y).evt = s.evt := rfl
@[simp] theorem State.setQueue_rst (f : FnId) (q : QId) (y : Queue) : (s.setQueue f q y).rst = s.rst := rfl
@[simp] theorem State.setQueue_life (f : FnId) (q : QId) (y : Queue) : (s.setQueue f q y).life = s.life := rfl
@[simp] theorem State.setQueue_cfg (f : FnId) (q : QId) (y : Queue) : (s.setQueue f q y).cfg = s.cfg := rfl
@[simp] theorem State.setQueue_sec (f : FnId) (q : QId) (y : Queue) : (s.setQueue f q y).sec = s.sec := rfl
@[simp] theorem State.setQueue_jobs (f : FnId) (q : QId) (y : Queue) : (s.setQueue f q y).jobs = s.jobs := rfl
@[simp] theorem State.setQueue_lnk (f : FnId) (q : QId) (y : Queue) : (s.setQueue f q y).lnk = s.lnk := rfl
@[simp] theorem State.setQueue_mem (f : FnId) (q : QId) (y : Queue) : (s.setQueue f q y).mem = s.mem := rfl
@[simp] theorem State.setQueue_cl (f : FnId) (q : QId) (y : Queue) : (s.setQueue f q y).cl = s.cl := rfl
@[simp] theorem State.setQueue_bars (f : FnId) (q : QId) (y : Queue) : (s.setQueue f q y).bars = s.bars := rfl
@[simp] theorem State.setQueue_firn (f : FnId) (q : QId) (y : Queue) : (s.setQueue f q y).firn = s.firn := rfl
@[simp] theorem State.setQueue_var (f : FnId) (q : QId) (y : Queue) : (s.setQueue f q y).var = s.var := rfl
@[simp] theorem State.setQueue_upd (f : FnId) (q : QId) (y : Queue) : (s.setQueue f q y).upd = s.upd := rfl
@[simp] theorem State.setQueue_coll (f : FnId) (q : QId) (y : Queue) : (s.setQueue f q y).coll = s.coll := rfl
@[simp] theorem State.setQueue_out (f : FnId) (q : QId) (y : Queue) : (s.setQueue f q y).out = s.out := rfl
@[simp] theorem State.modQueue_pending (f : FnId) (q : QId) (g : Queue → Queue) : (s.modQueue f q g).pending = s.pending := rfl
@[simp] theorem State.modQueue_free (f : FnId) (q : QId) (g : Queue → Queue) : (s.modQueue f q g).free = s.free := rfl
@[simp] theorem State.modQueue_glb (f : FnId) (q : QId) (g : Queue → Queue) : (s.modQueue f q g).glb = s.glb := rfl
@[simp] theorem State.modQueue_evt (f : FnId) (q : QId) (g : Queue → Queue) : (s.modQueue f q g).evt = s.evt := rfl
@[simp] theorem State.modQueue_rst (f : FnId) (q : QId) (g : Queue → Queue) : (s.modQueue f q g).rst = s.rst := rfl
@[simp] theorem State.modQueue_life (f : FnId) (q : QId) (g : Queue → Queue) : (s.modQueue f q g).life = s.life := rfl
@[simp] theorem State.modQueue_cfg (f : FnId) (q : QId) (g : Queue → Queue) : (s.modQueue f q g).cfg = s.cfg := rfl
@[simp] theorem State.modQueue_sec (f : FnId) (q : QId) (g : Queue → Queue) : (s.modQueue f q g).sec = s.sec := rfl
@[simp] theorem State.modQueue_jobs (f : FnId) (q : QId) (g : Queue → Queue) : (s.modQueue f q g).jobs = s.jobs := rfl
@[simp] theorem State.modQueue_lnk (f : FnId) (q : QId) (g : Queue → Queue) : (s.modQueue f q g).lnk = s.lnk := rfl
@[simp] theorem State.modQueue_mem (f : FnId) (q : QId) (g : Queue → Queue) : (s.modQueue f q g).mem = s.mem := rfl
@[simp] theorem State.modQueue_cl (f : FnId) (q : QId) (g : Queue → Queue) : (s.modQueue f q g).cl = s.cl := rfl
@[simp] theorem State.modQueue_bars (f : FnId) (q : QId) (g : Queue → Queue) : (s.modQueue f q g).bars = s.bars := rfl
@[simp] theorem State.modQueue_firn (f : FnId) (q : QId) (g : Queue → Queue) : (s.modQueue f q g).firn = s.firn := rfl
@[simp] theorem State.modQueue_var (f : FnId) (q : QId) (g : Queue → Queue) : (s.modQueue f q g).var = s.var := rfl
@[simp] theorem State.modQueue_upd (f : FnId) (q : QId) (g : Queue → Queue) : (s.modQueue f q g).upd = s.upd := rfl
@[simp] theorem State.modQueue_coll (f : FnId) (q : QId) (g : Queue → Queue) : (s.modQueue f q g).coll = s.coll := rfl
@[simp] theorem State.modQueue_out (f : FnId) (q : QId) (g : Queue → Queue) : (s.modQueue f q g).out = s.out := rfl
@[simp] theorem State.setPort_pending (p : Nat) (y : Port) : (s.setPort p y).pending = s.pending := rfl
@[simp] theorem State.setPort_free (p : Nat) (y : Port) : (s.setPort p y).free = s.free := rfl
@[simp] theorem State.setPort_glb (p : Nat) (y : Port) : (s.setPort p y).glb = s.glb := rfl
@[simp] theorem State.setPort_evt (p : Nat) (y : Port) : (s.setPort p y).evt = s.evt := rfl
@[simp] theorem State.setPort_rst (p : Nat) (y : Port) : (s.setPort p y).rst = s.rst := rfl
@[simp] theorem State.setPort_life (p : Nat) (y : Port) : (s.setPort p y).life = s.life := rfl
@[simp] theorem State.setPort_cfg (p : Nat) (y : Port) : (s.setPort p y).cfg = s.cfg := rfl
@[simp] theorem State.setPort_sec (p : Nat) (y : Port) : (s.setPort p y).sec = s.sec := rfl
@[simp] theorem State.setPort_hif (p : Nat) (y : Port) : (s.setPort p y).hif = s.hif := rfl
@[simp] theorem State.setPort_jobs (p : Nat) (y : Port) : (s.setPort p y).jobs = s.jobs := rfl
@[simp] theorem State.setPort_mem (p : Nat) (y : Port) : (s.setPort p y).mem = s.mem := rfl
@[simp] theorem State.setPort_cl (p : Nat) (y : Port) : (s.setPort p y).cl = s.cl := rfl
@[simp] theorem State.setPort_bars (p : Nat) (y : Port) : (s.setPort p y).bars = s.bars := rfl
@[simp] theorem State.setPort_firn (p : Nat) (y : Port) : (s.setPort p y).firn = s.firn := rfl
@[simp] theorem State.setPort_var (p : Nat) (y : Port) : (s.setPort p y).var = s.var := rfl
@[simp] theorem State.setPort_upd (p : Nat) (y : Port) : (s.setPort p y).upd = s.upd := rfl
@[simp] theorem State.setPort_coll (p : Nat) (y : Port) : (s.setPort p y).coll = s.coll := rfl
@[simp] theorem State.setPort_out (p : Nat) (y : Port) : (s.setPort p y).out = s.out := rfl
@[simp] theorem State.modPort_pending (p : Nat) (f : Port → Port) : (s.modPort p f).pending = s.pending := rfl
@[simp] theorem State.modPort_free (p : Nat) (f : Port → Port) : (s.modPort p f).free = s.free := rfl
@[simp] theorem State.modPort_glb (p : Nat) (f : Port → Port) : (s.modPort p f).glb = s.glb := rfl
@[simp] theorem State.modPort_evt (p : Nat) (f : Port → Port) : (s.modPort p f).evt = s.evt := rfl
@[simp] theorem State.modPort_rst (p : Nat) (f : Port → Port) : (s.modPort p f).rst = s.rst := rfl
@[simp] theorem State.modPort_life (p : Nat) (f : Port → Port) : (s.modPort p f).life = s.life := rfl
@[simp] theorem State.modPort_cfg (p : Nat) (f : Port → Port) : (s.modPort p f).cfg = s.cfg := rfl
@[simp] theorem State.modPort_sec (p : Nat) (f : Port → Port) : (s.modPort p f).sec = s.sec := rfl
@[simp] theorem State.modPort_hif (p : Nat) (f : Port → Port) : (s.modPort p f).hif = s.hif := rfl
@[simp] theorem State.modPort_jobs (p : Nat) (f : Port → Port) : (s.modPort p f).jobs = s.jobs := rfl
@[simp] theorem State.modPort_mem (p : Nat) (f : Port → Port) : (s.modPort p f).mem = s.mem := rfl
@[simp] theorem State.modPort_cl (p : Nat) (f : Port → Port) : (s.modPort p f).cl = s.cl := rfl
@[simp] theorem State.modPort_bars (p : Nat) (f : Port → Port) : (s.modPort p f).bars = s.bars := rfl
@[simp] theorem State.modPort_firn (p : Nat) (f : Port → Port) : (s.modPort p f).firn = s.firn := rfl
@[simp] theorem State.modPort_var (p : Nat) (f : Port → Port) : (s.modPort p f).var = s.var := rfl
@[simp] theorem State.modPort_upd (p : Nat) (f : Port → Port) : (s.modPort p f).upd = s.upd := rfl
@[simp] theorem State.modPort_coll (p : Nat) (f : Port → Port) : (s.modPort p f).coll = s.coll := rfl
@[simp] theorem State.modPort_out (p : Nat) (f : Port → Port) : (s.modPort p f).out = s.out := rfl
@[simp] theorem State.setFslot_pending (k : Nat) (y : FSlot) : (s.setFslot k y).pending = s.pending := rfl
@[simp] theorem State.setFslot_free (k : Nat) (y : FSlot) : (s.setFslot k y).free = s.free := rfl
@[simp] theorem State.setFslot_glb (k : Nat) (y : FSlot) : (s.setFslot k y).glb = s.glb := rfl
@[simp] theorem State.setFslot_evt (k : Nat) (y : FSlot) : (s.setFslot k y).evt = s.evt := rfl
@[simp] theorem State.setFslot_rst (k : Nat) (y : FSlot) : (s.setFslot k y).rst = s.rst := rfl
@[simp] theorem State.setFslot_life (k : Nat) (y : FSlot) : (s.setFslot k y).life = s.life := rfl
@[simp] theorem State.setFslot_cfg (k : Nat) (y : FSlot) : (s.setFslot k y).cfg = s.cfg := rfl
@[simp] theorem State.setFslot_sec (k : Nat) (y : FSlot) : (s.setFslot k y).sec = s.sec := rfl
@[simp] theorem State.setFslot_hif (k : Nat) (y : FSlot) : (s.setFslot k y).hif = s.hif := rfl
@[simp] theorem State.setFslot_jobs (k : Nat) (y : FSlot) : (s.setFslot k y).jobs = s.jobs := rfl
@[simp] theorem State.setFslot_lnk (k : Nat) (y : FSlot) : (s.setFslot k y).lnk = s.lnk := rfl
@[simp] theorem State.setFslot_mem (k : Nat) (y : FSlot) : (s.setFslot k y).mem = s.mem := rfl
@[simp] theorem State.setFslot_cl (k : Nat) (y : FSlot) : (s.setFslot k y).cl = s.cl := rfl
@[simp] theorem State.setFslot_bars (k : Nat) (y : FSlot) : (s.setFslot k y).bars = s.bars := rfl
@[simp] theorem State.setFslot_var (k : Nat) (y : FSlot) : (s.setFslot k y).var = s.var := rfl
@[simp] theorem State.setFslot_upd (k : Nat) (y : FSlot) : (s.setFslot k y).upd = s.upd := rfl
@[simp] theorem State.setFslot_coll (k : Nat) (y : FSlot) : (s.setFslot k y).coll = s.coll := rfl
@[simp] theorem State.setFslot_out (k : Nat) (y : FSlot) : (s.setFslot k y).out = s.out := rfl
@[simp] theorem State.setVariant_pending (v : Nat) (y : Variant) : (s.setVariant v y).pending = s.pending := rfl
@[simp] theorem State.setVariant_free (v : Nat) (y : Variant) : (s.setVariant v y).free = s.free := rfl
@[simp] theorem State.setVariant_glb (v : Nat) (y : Variant) : (s.setVariant v y).glb = s.glb := rfl
@[simp] theorem State.setVariant_evt (v : Nat) (y : Variant) : (s.setVariant v y).evt = s.evt := rfl
@[simp] theorem State.setVariant_rst (v : Nat) (y : Variant) : (s.setVariant v y).rst = s.rst := rfl
@[simp] theorem State.setVariant_life (v : Nat) (y : Variant) : (s.setVariant v y).life = s.life := rfl
@[simp] theorem State.setVariant_cfg (v : Nat) (y : Variant) : (s.setVariant v y).cfg = s.cfg := rfl
@[simp] theorem State.setVariant_sec (v : Nat) (y : Variant) : (s.setVariant v y).sec = s.sec := rfl
@[simp] theorem State.setVariant_hif (v : Nat) (y : Variant) : (s.setVariant v y).hif = s.hif := rfl
@[simp] theorem State.setVariant_jobs (v : Nat) (y : Variant) : (s.setVariant v y).jobs = s.jobs := rfl
@[simp] theorem State.setVariant_lnk (v : Nat) (y : Variant) : (s.setVariant v y).lnk = s.lnk := rfl
@[simp] theorem State.setVariant_mem (v : Nat) (y : Variant) : (s.setVariant v y).mem = s.mem := rfl
@[simp] theorem State.setVariant_cl (v : Nat) (y : Variant) : (s.setVariant v y).cl = s.cl := rfl
@[simp] theorem State.setVariant_bars (v : Nat) (y : Variant) : (s.setVariant v y).bars = s.bars := rfl
@[simp] theorem State.setVariant_firn (v : Nat) (y : Variant) : (s.setVariant v y).firn = s.firn := rfl
@[simp] theorem State.setVariant_upd (v : Nat) (y : Variant) : (s.setVariant v y).upd = s.upd := rfl
@[simp] theorem State.setVariant_coll (v : Nat) (y : Variant) : (s.setVariant v y).coll = s.coll := rfl
@[simp] theorem State.setVariant_out (v : Nat) (y : Variant) : (s.setVariant v y).out = s.out := rfl
@[simp] theorem State.dropVariant_pending (v : Nat) : (s.dropVariant v).pending = s.pending := rfl
@[simp] theorem State.dropVariant_free (v : Nat) : (s.dropVariant v).free = s.free := rfl
@[simp] theorem State.dropVariant_glb (v : Nat) : (s.dropVariant v).glb = s.glb := rfl
@[simp] theorem State.dropVariant_evt (v : Nat) : (s.dropVariant v).evt = s.evt := rfl
@[simp] theorem State.dropVariant_rst (v : Nat) : (s.dropVariant v).rst = s.rst := rfl
@[simp] theorem State.dropVariant_life (v : Nat) : (s.dropVariant v).life = s.life := rfl
@[simp] theorem State.dropVariant_cfg (v : Nat) : (s.dropVariant v).cfg = s.cfg := rfl
@[simp] theorem State.dropVariant_sec (v : Nat) : (s.dropVariant v).sec = s.sec := rfl
@[simp] theorem State.dropVariant_hif (v : Nat) : (s.dropVariant v).hif = s.hif := rfl
@[simp] theorem State.dropVariant_jobs (v : Nat) : (s.dropVariant v).jobs = s.jobs := rfl
@[simp] theorem State.dropVariant_lnk (v : Nat) : (s.dropVariant v).lnk = s.lnk := rfl
@[simp] theorem State.dropVariant_mem (v : Nat) : (s.dropVariant v).mem = s.mem := rfl
@[simp] theorem State.dropVariant_cl (v : Nat) : (s.dropVariant v).cl = s.cl := rfl
@[simp] theorem State.dropVariant_bars (v : Nat) : (s.dropVariant v).bars = s.bars := rfl
@[simp] theorem State.dropVariant_firn (v : Nat) : (s.dropVariant v).firn = s.firn := rfl
@[simp] theorem State.dropVariant_upd (v : Nat) : (s.dropVariant v).upd = s.upd := rfl
@[simp] theorem State.dropVariant_coll (v : Nat) : (s.dropVariant v).coll = s.coll := rfl
@[simp] theorem State.dropVariant_out (v : Nat) : (s.dropVariant v).out = s.out := rfl
@[simp] theorem State.modJobs_pending (f : Job → Job) : (s.modJobs f).pending = s.pending := rfl
@[simp] theorem State.modJobs_free (f : Job → Job) : (s.modJobs f).free = s.free := rfl
@[simp] theorem State.modJobs_glb (f : Job → Job) : (s.modJobs f).glb = s.glb := rfl
@[simp] theorem State.modJobs_evt (f : Job → Job) : (s.modJobs f).evt = s.evt := rfl
@[simp] theorem State.modJobs_rst (f : Job → Job) : (s.modJobs f).rst = s.rst := rfl
@[simp] theorem State.modJobs_life (f : Job → Job) : (s.modJobs f).life = s.life := rfl
@[simp] theorem State.modJobs_cfg (f : Job → Job) : (s.modJobs f).cfg = s.cfg := rfl
@[simp] theorem State.modJobs_sec (f : Job → Job) : (s.modJobs f).sec = s.sec := rfl
@[simp] theorem State.modJobs_hif (f : Job → Job) : (s.modJobs f).hif = s.hif := rfl
@[simp] theorem State.modJobs_lnk (f : Job → Job) : (s.modJobs f).lnk = s.lnk := rfl
@[simp] theorem State.modJobs_mem (f : Job → Job) : (s.modJobs f).mem = s.mem := rfl
@[simp] theorem State.modJobs_cl (f : Job → Job) : (s.modJobs f).cl = s.cl := rfl
@[simp] theorem State.modJobs_bars (f : Job → Job) : (s.modJobs f).bars = s.bars := rfl
@[simp] theorem State.modJobs_firn (f : Job → Job) : (s.modJobs f).firn = s.firn := rfl
@[simp] theorem State.modJobs_var (f : Job → Job) : (s.modJobs f).var = s.var := rfl
@[simp] theorem State.modJobs_upd (f : Job → Job) : (s.modJobs f).upd = s.upd := rfl
@[simp] theorem State.modJobs_coll (f : Job → Job) : (s.modJobs f).coll = s.coll := rfl
@[simp] theorem State.modJobs_out (f : Job → Job) : (s.modJobs f).out = s.out := rfl
@[simp] theorem State.modJob_pending (t : Tag) (f : Job → Job) : (s.modJob t f).pending = s.pending := rfl
@[simp] theorem State.modJob_free (t : Tag) (f : Job → Job) : (s.modJob t f).free = s.free := rfl
@[simp] theorem State.modJob_glb (t : Tag) (f : Job → Job) : (s.modJob t f).glb = s.glb := rfl
@[simp] theorem State.modJob_evt (t : Tag) (f : Job → Job) : (s.modJob t f).evt = s.evt := rfl
@[simp] theorem State.modJob_rst (t : Tag) (f : Job → Job) : (s.modJob t f).rst = s.rst := rfl
@[simp] theorem State.modJob_life (t : Tag) (f : Job → Job) : (s.modJob t f).life = s.life := rfl
@[simp] theorem State.modJob_cfg (t : Tag) (f : Job → Job) : (s.modJob t f).cfg = s.cfg := rfl
@[simp] theorem State.modJob_sec (t : Tag) (f : Job → Job) : (s.modJob t f).sec = s.sec := rfl
@[simp] theorem State.modJob_hif (t : Tag) (f : Job → Job) : (s.modJob t f).hif = s.hif := rfl
@[simp] theorem State.modJob_lnk (t : Tag) (f : Job → Job) : (s.modJob t f).lnk = s.lnk := rfl
@[simp] theorem State.modJob_mem (t : Tag) (f : Job → Job) : (s.modJob t f).mem = s.mem := rfl
@[simp] theorem State.modJob_cl (t : Tag) (f : Job → Job) : (s.modJob t f).cl = s.cl := rfl
@[simp] theorem State.modJob_bars (t : Tag) (f : Job → Job) : (s.modJob t f).bars = s.bars := rfl
@[simp] theorem State.modJob_firn (t : Tag) (f : Job → Job) : (s.modJob t f).firn = s.firn := rfl
@[simp] theorem State.modJob_var (t : Tag) (f : Job → Job) : (s.modJob t f).var = s.var := rfl
@[simp] theorem State.modJob_upd (t : Tag) (f : Job → Job) : (s.modJob t f).upd = s.upd := rfl
@[simp] theorem State.modJob_coll (t : Tag) (f : Job → Job) : (s.modJob t f).coll = s.coll := rfl
@[simp] theorem State.modJob_out (t : Tag) (f : Job → Job) : (s.modJob t f).out = s.out := rfl
@[simp] theorem State.emit_pending (o : Out) : (s.emit o).pending = s.pending := rfl
@[simp] theorem State.emit_free (o : Out) : (s.emit o).free = s.free := rfl
@[simp] theorem State.emit_glb (o : Out) : (s.emit o).glb = s.glb := rfl
@[simp] theorem State.emit_evt (o : Out) : (s.emit o).evt = s.evt := rfl
@[simp] theorem State.emit_rst (o : Out) : (s.emit o).rst = s.rst := rfl
@[simp] theorem State.emit_life (o : Out) : (s.emit o).life = s.life := rfl
@[simp] theorem State.emit_cfg (o : Out) : (s.emit o).cfg = s.cfg := rfl
@[simp] theorem State.emit_sec (o : Out) : (s.emit o).sec = s.sec := rfl
@[simp] theorem State.emit_hif (o : Out) : (s.emit o).hif = s.hif := rfl
@[simp] theorem State.emit_jobs (o : Out) : (s.emit o).jobs = s.jobs := rfl
@[simp] theorem State.emit_lnk (o : Out) : (s.emit o).lnk = s.lnk := rfl
@[simp] theorem State.emit_mem (o : Out) : (s.emit o).mem = s.mem := rfl
@[simp] theorem State.emit_cl (o : Out) : (s.emit o).cl = s.cl := rfl
@[simp] theorem State.emit_bars (o : Out) : (s.emit o).bars = s.bars := rfl
@[simp] theorem State.emit_firn (o : Out) : (s.emit o).firn = s.firn := rfl
@[simp] theorem State.emit_var (o : Out) : (s.emit o).var = s.var := rfl
@[simp] theorem State.emit_upd (o : Out) : (s.emit o).upd = s.upd := rfl
@[simp] theorem State.emit_coll (o : Out) : (s.emit o).coll = s.coll := rfl

@[simp] theorem State.emit_out (o : Out) : (s.emit o).out = s.out ++ [o] := rfl

end Sys2Proof.Machine
end

