-- ==== Sys2Proof/Laws/Issue.lean ====
section
/-! SUPPORT. Sys2Proof/Laws/Issue.lean: reading a part of State after it was set, and what the issue of a stream instruction comes to. -/

namespace Sys2Proof.Machine

open Sys2Proof Sys2Proof.Safety

variable (s : State)

/-! ### A part after its update -/

@[simp] theorem State.clu_setClu (c : Nat) (x : Cluster) : (s.setClu c x).clu c = x := by
  simp [State.clu, State.setClu]
theorem State.clu_setClu_ne {c c' : Nat} (x : Cluster) (h : c' ≠ c) : (s.setClu c x).clu c' = s.clu c' := by
  simp [State.clu, State.setClu, mget_mset_ne _ _ _ _ h]
@[simp] theorem State.setClu_setClu (c : Nat) (x y : Cluster) : (s.setClu c x).setClu c y = s.setClu c y := by
  simp [State.setClu]
@[simp] theorem Cluster.slot_setSlot (x : Cluster) (k : Nat) (y : Slot) : (x.setSlot k y).slot k = y := by
  simp [Cluster.slot, Cluster.setSlot]
theorem Cluster.slot_setSlot_ne (x : Cluster) {k k' : Nat} (y : Slot) (h : k' ≠ k) : (x.setSlot k y).slot k' = x.slot k' := by
  simp [Cluster.slot, Cluster.setSlot, mget_mset_ne _ _ _ _ h]
@[simp] theorem Cluster.setSlot_setSlot (x : Cluster) (k : Nat) (y z : Slot) :
    (x.setSlot k y).setSlot k z = x.setSlot k z := by simp [Cluster.setSlot]
@[simp] theorem State.slot_setSlot (c k : Nat) (y : Slot) : (s.setSlot c k y).slot c k = y := by
  simp [State.slot, State.setSlot, State.modClu]
@[simp] theorem State.setSlot_setSlot (c k : Nat) (y z : Slot) : (s.setSlot c k y).setSlot c k z = s.setSlot c k z := by
  simp [State.setSlot, State.modClu]
@[simp] theorem State.vctx_setVctx (c k : Nat) (y : VCtx) : (s.setVctx c k y).vctx c k = y := by
  simp [State.vctx, State.setVctx, State.modClu]
@[simp] theorem State.group_setGroup (c g : Nat) (y : Group) : (s.setGroup c g y).group c g = y := by
  simp [State.group, State.setGroup, State.modClu]
@[simp] theorem State.bar_setBar (b : Nat) (y : Bar) : (s.setBar b y).bar b = y := by simp [State.bar, State.setBar]
@[simp] theorem State.page_setPage (p : Nat) (y : Page) : (s.setPage p y).page p = y := by simp [State.page, State.setPage]
theorem State.page_setPage_ne {p p' : Nat} (y : Page) (h : p' ≠ p) : (s.setPage p y).page p' = s.page p' := by
  simp [State.page, State.setPage, mget_mset_ne _ _ _ _ h]
@[simp] theorem State.ctl_setCtl (m : Nat) (y : MemCtl) : (s.setCtl m y).ctl m = y := by simp [State.ctl, State.setCtl]
@[simp] theorem State.ctx_setCtx (x : Nat) (y : Ctx) : (s.setCtx x y).ctx x = y := by simp [State.ctx, State.setCtx]
@[simp] theorem State.session_setSession (d : Nat) (y : Session) : (s.setSession d y).session d = y := by
  simp [State.session, State.setSession]
@[simp] theorem State.queue_setQueue (f : FnId) (q : QId) (y : Queue) : (s.setQueue f q y).queue f q = y := by
  simp [State.queue, State.setQueue]
@[simp] theorem State.port_setPort (p : Nat) (y : Port) : (s.setPort p y).port p = y := by simp [State.port, State.setPort]
@[simp] theorem State.fslot_setFslot (k : Nat) (y : FSlot) : (s.setFslot k y).fslot k = y := by
  simp [State.fslot, State.setFslot]
/-- A vector context is untouched by a slot update. -/
@[simp] theorem State.vctx_setSlot (c k k' : Nat) (y : Slot) : (s.setSlot c k y).vctx c k' = s.vctx c k' := by
  simp [State.vctx, State.setSlot, State.modClu, Cluster.setSlot]
@[simp] theorem State.slot_setVctx (c k k' : Nat) (y : VCtx) : (s.setVctx c k y).slot c k' = s.slot c k' := by
  simp [State.slot, State.setVctx, State.modClu, Cluster.slot]

/-! ### The issue of an instruction -/

/-- A slot that may issue is not idle. -/
theorem Slot.ready_not_idle (y : Slot) (h : y.ready = true) : y.state ≠ .idle := by
  intro hi; simp [Slot.ready, hi] at h

/-- Once fetched, an instruction whose word spells its row reaches `State.run`. -/
theorem issue_fetched {s : State} {i : Issue} {j : Job} {cls op sub : Nat} (body : Env → State → Ans)
    (h : Fetched s i j) (hw : i.spells cls op sub = true) :
    s.issue i (rowCode cls op sub) body = s.run (envOf s i j) body := by
  obtain ⟨hj, hr, ⟨a, ha, hin, hf, hq⟩, hb, hp⟩ := h
  simp only [Issue.spells, Bool.and_eq_true, beq_iff_eq] at hw
  obtain ⟨⟨h1, h2⟩, h3⟩ := hw
  simp only [slotOf] at hj hr ha
  simp [State.issue, poisonCheck, hj, hr, ha, hin, hf, hq, hb, hp, h1, h2, h3, envOf, slotOf]

/-- An instruction that issues does what its own part answers. -/
theorem issue_issues {s : State} {i : Issue} {j : Job} {cls op sub : Nat} (body : Env → State → Ans)
    (h : Issues s i j) (hw : i.spells cls op sub = true) :
    s.issue i (rowCode cls op sub) body =
      match body (envOf s i j) s with
      | .ok t => t.advance i.cluster i.slot (slotOf s i).pc.toNat
      | .jump t => t
      | .stall => s.setSlot i.cluster.val i.slot.val (slotOf s i).stall
      | .fail f => s.failJob i.cluster i.slot j.tag f
      | .failIn t f => t.failJob i.cluster i.slot j.tag f := by
  rw [issue_fetched body h.1 hw]
  have ho : ¬ ((wf i.word 115 115 = 1 ∧ (slotOf s i).out ≠ []) ∨ (slotOf s i).full = true) := by
    rintro (x | x)
    · exact x.2 (h.2.2.2 x.1)
    · simp [h.2.2.1] at x
  have hs : selected (slotOf s i) i.word = true := h.2.1
  unfold State.run
  split
  · rename_i hc; exact absurd hc ho
  · split
    · rename_i hc; exact absurd hc (by simp [envOf, hs])
    · rfl

/-- Going on after a change of the issuing slot alone. -/
theorem advance_modSlot {s : State} {i : Issue} (f : Slot → Slot) (hf : (f (slotOf s i)).state ≠ .idle) :
    (s.modSlot i.cluster.val i.slot.val f).advance i.cluster i.slot (slotOf s i).pc.toNat = after s i f := by
  simp only [State.advance, State.modSlot, State.slot_setSlot, State.setSlot_setSlot, after, goesOn]
  rw [if_neg (by simpa [slotOf] using hf)]
  rfl

/-- Going on with nothing changed. -/
theorem advance_self {s : State} {i : Issue} (hf : (slotOf s i).state ≠ .idle) :
    s.advance i.cluster i.slot (slotOf s i).pc.toNat = after s i id := by
  simp only [State.advance, State.modSlot, after, goesOn]
  rw [if_neg (by simpa [slotOf] using hf)]
  rfl

end Sys2Proof.Machine
end

