-- ==== Sys2Proof/Laws/Keeps.lean ====
section
/-! SUPPORT. Sys2Proof/Laws/Keeps.lean: no shared operation touches the queue or the anti-rollback fuses. -/

namespace Sys2Proof.Machine

open Sys2Proof

/-- What no shared operation changes: the queue and the fuse count. -/
def kept (s : State) : List Instr × Nat := (s.pending, s.sec.fuseSvn)

@[simp] theorem kept_ite (c : Prop) [Decidable c] (a b : State) : kept (if c then a else b) = if c then kept a else kept b := by
  split <;> rfl

/-- A fold of updates that each keep them keeps them. -/
@[simp] theorem kept_foldS {α : Type} (s : State) (l : List α) (f : State → α → State) (h : ∀ s a, kept (f s a) = kept s) :
    kept (foldS s l f) = kept s := by
  induction l generalizing s with
  | nil => rfl
  | cons a l ih => exact (ih (f s a)).trans (h s a)

@[simp] theorem kept_setClu (s : State) (c : Nat) (x : Cluster) : kept (State.setClu s c x) = kept s := rfl
@[simp] theorem kept_modClu (s : State) (c : Nat) (f : Cluster → Cluster) : kept (State.modClu s c f) = kept s := rfl
@[simp] theorem kept_setSlot (s : State) (c k : Nat) (y : Slot) : kept (State.setSlot s c k y) = kept s := rfl
@[simp] theorem kept_modSlot (s : State) (c k : Nat) (f : Slot → Slot) : kept (State.modSlot s c k f) = kept s := rfl
@[simp] theorem kept_setVctx (s : State) (c k : Nat) (y : VCtx) : kept (State.setVctx s c k y) = kept s := rfl
@[simp] theorem kept_modVctx (s : State) (c k : Nat) (f : VCtx → VCtx) : kept (State.modVctx s c k f) = kept s := rfl
@[simp] theorem kept_setGroup (s : State) (c g : Nat) (y : Group) : kept (State.setGroup s c g y) = kept s := rfl
@[simp] theorem kept_modGroup (s : State) (c g : Nat) (f : Group → Group) : kept (State.modGroup s c g f) = kept s := rfl
@[simp] theorem kept_setBar (s : State) (b : Nat) (y : Bar) : kept (State.setBar s b y) = kept s := rfl
@[simp] theorem kept_setPage (s : State) (p : Nat) (y : Page) : kept (State.setPage s p y) = kept s := rfl
@[simp] theorem kept_setCtl (s : State) (m : Nat) (y : MemCtl) : kept (State.setCtl s m y) = kept s := rfl
@[simp] theorem kept_setCtx (s : State) (x : Nat) (y : Ctx) : kept (State.setCtx s x y) = kept s := rfl
@[simp] theorem kept_modCtx (s : State) (x : Nat) (f : Ctx → Ctx) : kept (State.modCtx s x f) = kept s := rfl
@[simp] theorem kept_setSession (s : State) (d : Nat) (y : Session) : kept (State.setSession s d y) = kept s := rfl
@[simp] theorem kept_setQueue (s : State) (f : FnId) (q : QId) (y : Queue) : kept (State.setQueue s f q y) = kept s := rfl
@[simp] theorem kept_modQueue (s : State) (f : FnId) (q : QId) (g : Queue → Queue) :
    kept (State.modQueue s f q g) = kept s := rfl
@[simp] theorem kept_setPort (s : State) (p : Nat) (y : Port) : kept (State.setPort s p y) = kept s := rfl
@[simp] theorem kept_modPort (s : State) (p : Nat) (f : Port → Port) : kept (State.modPort s p f) = kept s := rfl
@[simp] theorem kept_setFslot (s : State) (k : Nat) (y : FSlot) : kept (State.setFslot s k y) = kept s := rfl
@[simp] theorem kept_setVariant (s : State) (v : Nat) (y : Variant) : kept (State.setVariant s v y) = kept s := rfl
@[simp] theorem kept_dropVariant (s : State) (v : Nat) : kept (State.dropVariant s v) = kept s := rfl
@[simp] theorem kept_modVariant (s : State) (v : Nat) (f : Variant → Variant) :
    kept (State.modVariant s v f) = kept s := by unfold State.modVariant; split <;> simp
@[simp] theorem kept_modJobs (s : State) (f : Job → Job) : kept (State.modJobs s f) = kept s := rfl
@[simp] theorem kept_modJob (s : State) (t : Tag) (f : Job → Job) : kept (State.modJob s t f) = kept s := rfl
@[simp] theorem kept_emit (s : State) (o : Out) : kept (State.emit s o) = kept s := rfl
@[simp] theorem kept_raise (s : State) (code : W16) (i : EvInfo) : kept (State.raise s code i) = kept s := by
  unfold State.raise; dsimp only
  repeat' split
  all_goals rfl
@[simp] theorem kept_satEvent (s : State) (just : Bool) (block off : Nat) :
    kept (State.satEvent s just block off) = kept s := by simp [State.satEvent]
@[simp] theorem kept_bumpLife (s : State) (i : Nat) : kept (State.bumpLife s i) = kept s := rfl
@[simp] theorem kept_putByte (s : State) (a : Addr) (b : Byte) : kept (State.putByte s a b) = kept s := by
  unfold State.putByte; dsimp only
  repeat' split
  all_goals rfl
@[simp] theorem kept_makeValid (s : State) (a : Addr) : kept (State.makeValid s a) = kept s := by simp [State.makeValid]
@[simp] theorem kept_writeByte (s : State) (r : Req) (a : Addr) (b : Byte) :
    kept (State.writeByte s r a b) = kept s := by simp [State.writeByte]
@[simp] theorem kept_write (s : State) (r : Req) (a : Addr) (l : Bytes) : kept (s.write r a l) = kept s := by
  induction l generalizing s a with
  | nil => rfl
  | cons b l ih => exact (ih (s.writeByte r a b) (a.plus 1)).trans (kept_writeByte s r a b)
@[simp] theorem kept_countMiss (s : State) (a : Addr) : kept (State.countMiss s a) = kept s := by simp [State.countMiss]
@[simp] theorem kept_noteMiss (s : State) (w : Who) (a : Addr) (n : Nat) (write : Bool) :
    kept (State.noteMiss s w a n write) = kept s := by
  unfold State.noteMiss; dsimp only
  repeat' split
  all_goals first | rfl | simp
@[simp] theorem kept_unpoison (s : State) (r : Req) (a : Addr) (n : Nat) :
    kept (State.unpoison s r a n) = kept s := by simp [State.unpoison]
@[simp] theorem kept_rewrite (s : State) (r : Req) (a : Addr) (l : Bytes) : kept (State.rewrite s r a l) = kept s := by
  simp [State.rewrite]
@[simp] theorem kept_store (s : State) (w : Who) (a : Addr) (l : Bytes) : kept (State.store s w a l) = kept s := by
  simp [State.store]
@[simp] theorem kept_retag (s : State) (c p : Nat) (y : Parcel) : kept (State.retag s c p y) = kept s := rfl
@[simp] theorem kept_scrubPages (s : State) (first count : Nat) (byCmd : Bool) :
    kept (State.scrubPages s first count byCmd) = kept s := by
  unfold State.scrubPages
  split
  · rfl
  · exact kept_foldS _ _ _ fun s i => kept_setPage s _ _
@[simp] theorem kept_assignPages (s : State) (first count : Nat) (mode : MemMode) (d : Dom) :
    kept (State.assignPages s first count mode d) = kept s := kept_foldS _ _ _ fun s _ => kept_setPage s _ _
@[simp] theorem kept_slotIdle (s : State) (c : CId) (k : SId) : kept (State.slotIdle s c k) = kept s := rfl
@[simp] theorem kept_abortSlot (s : State) (c : CId) (k : SId) :
    kept (State.abortSlot s c k) = kept s := by simp [State.abortSlot]
@[simp] theorem kept_freeBars (s : State) (t : Tag) : kept (State.freeBars s t) = kept s := rfl
@[simp] theorem kept_abortBars (s : State) (t : Tag) : kept (State.abortBars s t) = kept s := rfl
@[simp] theorem kept_freeGroups (s : State) (t : Tag) : kept (State.freeGroups s t) = kept s :=
  kept_foldS _ _ _ fun _ _ => rfl
@[simp] theorem kept_grantArrays (s : State) (c : Nat) : kept (State.grantArrays s c) = kept s := rfl
@[simp] theorem kept_haltJob (s : State) (t : Tag) (status : Nat) (event : W16) (tell : Out) :
    kept (State.haltJob s t status event tell) = kept s := by
  unfold State.haltJob
  split
  · rfl
  · rename_i j _
    have h (u : State) : kept (foldS (foldS u j.live fun s e => s.abortSlot e.1 e.2) (clustersOf j.d.clusters)
        fun s c => s.grantArrays c.val) = kept u :=
      (kept_foldS _ _ _ fun s (c : CId) => kept_grantArrays s c.val).trans
        (kept_foldS _ _ _ fun s (e : CId × SId) => kept_abortSlot s e.1 e.2)
    simp [h]
@[simp] theorem kept_stopJob (s : State) (t : Tag) (status : Nat) (event : W16) :
    kept (State.stopJob s t status event) = kept s := by simp [State.stopJob]
@[simp] theorem kept_raiseJob (s : State) (t : Tag) (code : W16) (i : EvInfo) :
    kept (State.raiseJob s t code i) = kept s := by simp [State.raiseJob]
@[simp] theorem kept_faultJob (s : State) (t : Tag) (code : W16) (i : EvInfo) :
    kept (State.faultJob s t code i) = kept s := by simp [State.faultJob]
@[simp] theorem kept_faultBar (s : State) (t : Tag) (b : BarId) (code : W16) (i : EvInfo) :
    kept (State.faultBar s t b code i) = kept s := by simp [State.faultBar]
@[simp] theorem kept_deviceFatal (s : State) (code : W16) (i : EvInfo) : kept (State.deviceFatal s code i) = kept s := by
  refine (kept_foldS _ _ _ fun s (j : Job) => kept_stopJob s j.tag _ _).trans ?_
  exact kept_raise s code i
@[simp] theorem kept_countAuthDrop (s : State) (p : PortId) :
    kept (State.countAuthDrop s p) = kept s := by simp [State.countAuthDrop]
@[simp] theorem kept_countAuthFail (s : State) (p : PortId) :
    kept (State.countAuthFail s p) = kept s := by simp [State.countAuthFail]
@[simp] theorem kept_countNoRoute (s : State) (p : PortId) :
    kept (State.countNoRoute s p) = kept s := by simp [State.countNoRoute]
@[simp] theorem kept_countBadMsg (s : State) (p : PortId) : kept (State.countBadMsg s p) = kept s := by simp [State.countBadMsg]
@[simp] theorem kept_sendTo (s : State) (dst : NodeId) (t : Tag) (o : Out) :
    kept (State.sendTo s dst t o) = kept s := by simp [State.sendTo]
@[simp] theorem kept_dropSignal (s : State) (t : Tag) (c i : Nat) (sub : Byte) :
    kept (State.dropSignal s t c i sub) = kept s := by simp [State.dropSignal]
@[simp] theorem kept_signalSem (s : State) (t : Tag) (c i : Nat) (n : W32) (sub : Byte) :
    kept (State.signalSem s t c i n sub) = kept s := by unfold State.signalSem; split <;> simp
@[simp] theorem kept_signalTo (s : State) (t : Tag) (r : SemRef) (n : W32) (sub : Byte) :
    kept (State.signalTo s t r n sub) = kept s := by simp [State.signalTo]
@[simp] theorem kept_wakeUp (s : State) : kept (State.wakeUp s) = kept s := by
  unfold State.wakeUp; dsimp only
  repeat' split
  all_goals rfl
@[simp] theorem kept_lifeNow (s : State) (g : W32) : kept (State.lifeNow s g) = kept s := rfl
@[simp] theorem kept_lifeWrite (s : State) : kept (State.lifeWrite s) = kept s := by
  unfold State.lifeWrite
  dsimp only
  split <;> rfl
@[simp] theorem kept_putRow (s : State) (w : Who) (t : Tile) (i : Nat) (l : List Nat) :
    kept (State.putRow s w t i l) = kept s := by simp [State.putRow]
@[simp] theorem kept_advance (s : State) (c : CId) (k : SId) (pc : Nat) : kept (State.advance s c k pc) = kept s := rfl
@[simp] theorem kept_cacheBad (s : State) (a : Addr) : kept (State.cacheBad s a) = kept s := rfl
@[simp] theorem kept_cacheFault (s : State) (f : Fail) : kept (State.cacheFault s f) = kept s := by
  unfold State.cacheFault; split <;> simp
@[simp] theorem kept_failJob (s : State) (c : CId) (k : SId) (t : Tag) (f : Fail) :
    kept (State.failJob s c k t f) = kept s := by simp [State.failJob]
@[simp] theorem kept_addOut (s : State) (e : Env) (kind : OutKind) (rs : List Rng) (sem : Option SemRef) (g : Option GId) :
    kept (State.addOut s e kind rs sem g) = kept s := rfl
@[simp] theorem kept_noteReads (s : State) (w : Who) (l : List (Addr × Nat)) :
    kept (State.noteReads s w l) = kept s := by simp [State.noteReads]
@[simp] theorem kept_sendWrite (s : State) (node : NodeId) (t : Tag) (a : Addr) (l : Bytes) :
    kept (State.sendWrite s node t a l) = kept s := by simp [State.sendWrite]
@[simp] theorem kept_put (s : State) (w : Who) (node : Option NodeId) (a : Addr) (l : Bytes) :
    kept (State.put s w node a l) = kept s := by unfold State.put; split <;> simp
@[simp] theorem kept_badMsg (s : State) (p : PortId) (vc : Nat) : kept (State.badMsg s p vc) = kept s := by simp [State.badMsg]
@[simp] theorem kept_authFail (s : State) (m : Msg) : kept (State.authFail s m) = kept s := by simp [State.authFail]
@[simp] theorem kept_fresh (s : State) : kept s.fresh.2 = kept s := rfl
@[simp] theorem kept_freeBytes (s : State) (n : Nat) : kept (s.freeBytes n).2 = kept s := by
  induction n generalizing s with
  | zero => rfl
  | succ n ih => exact ih s.fresh.2
@[simp] theorem kept_random (s : State) (n : Nat) : kept (s.random n).2 = kept s := kept_freeBytes s _
@[simp] theorem kept_load (s : State) (w : Who) (a : Addr) (n : Nat) : kept (s.load w a n).2 = kept s := kept_noteMiss s w a n false

/-! ### What waits for the device, or for a message of its own -/

@[simp] theorem kept_hostReg (s : State) (k : State → State) (h : ∀ s, kept (k s) = kept s) : kept (s.hostReg k) = kept s := by
  unfold State.hostReg; split <;> simp [h]
@[simp] theorem kept_hostEarly (s : State) (k : State → State) (h : ∀ s, kept (k s) = kept s) :
    kept (s.hostEarly k) = kept s := by unfold State.hostEarly; split <;> simp [h]
@[simp] theorem kept_receive (s : State) (m : Msg) (vcs : List Nat) (k : State → State) (h : ∀ s, kept (k s) = kept s) :
    kept (s.receive m vcs k) = kept s := by simp [State.receive, State.checked, h]
@[simp] theorem kept_forward (s : State) (m : Msg) : kept (s.forward m) = kept s := by
  unfold State.forward
  repeat' split
  all_goals first | rfl | simp
@[simp] theorem kept_receiveTo (s : State) (m : Msg) (vcs : List Nat) (k : State → State) (h : ∀ s, kept (k s) = kept s) :
    kept (s.receiveTo m vcs k) = kept s := by
  unfold State.receiveTo
  split
  · exact kept_receive s m vcs k h
  · repeat' split
    all_goals simp

/-! ### The issue of an instruction -/

/-- An answer of a meaning keeps what its state keeps. -/
def Ans.keeps (s : State) : Ans → Prop
  | .ok t => kept t = kept s
  | .jump t => kept t = kept s
  | .failIn t _ => kept t = kept s
  | _ => True

theorem kept_run (s : State) (e : Env) (body : Env → State → Ans) (h : (body e s).keeps s) : kept (s.run e body) = kept s := by
  unfold State.run
  split
  · simp
  · split
    · simp
    · split <;> rename_i hb <;> rw [hb] at h
      · rw [kept_advance]; exact h
      · exact h
      · simp
      · simp
      · rw [kept_failJob]; exact h

/-- An instruction whose own part keeps the queue and the fuses keeps them. -/
theorem kept_issue (s : State) (i : Issue) (row : Nat) (body : Env → State → Ans) (h : ∀ e s, (body e s).keeps s) :
    kept (s.issue i row body) = kept s := by
  unfold State.issue
  dsimp only
  repeat' split
  all_goals first | rfl | exact kept_run _ _ _ (h _ _) | exact (kept_run _ _ _ (h _ _)).trans (kept_bumpLife _ _) | simp

@[simp] theorem kept_mergeAmax (s : State) (w : Who) (a : Addr) (row : Option Nat) (l : List AmaxIn) :
    kept (s.mergeAmax w a row l) = kept s := by
  unfold State.mergeAmax
  dsimp only
  repeat' split
  all_goals simp
@[simp] theorem kept_mergeTop (s : State) (w : Who) (rec : Addr) (i k : Nat) (int : Bool) (cand : List TopEntry) :
    kept (s.mergeTop w rec i k int cand) = kept s := by simp [State.mergeTop]

end Sys2Proof.Machine
end

