-- ==== Sys2Proof/Laws/Memory.lean ====
section
/-! SUPPORT. Sys2Proof/Laws/Memory.lean: reads after writes, what a write leaves alone, and that every memory operation keeps the canonical form. -/

namespace Sys2Proof.Machine

open Sys2Proof Sys2Proof.Safety

variable {s : State}

/-! ### Sparse maps, by their entries -/

theorem mem_merase {α : Type} {i : Nat} {m : SMap α} {e : Nat × α} (h : e ∈ merase i m) : e ∈ m := by
  induction m with
  | nil => exact h
  | cons a r ih =>
    simp only [merase] at h
    split at h
    · exact List.mem_cons_of_mem _ (ih h)
    · rcases List.mem_cons.mp h with h | h
      · exact h ▸ List.mem_cons_self
      · exact List.mem_cons_of_mem _ (ih h)

theorem mem_minsert {α : Type} {i : Nat} {x : α} {m : SMap α} {e : Nat × α} (h : e ∈ minsert i x m) : e = (i, x) ∨ e ∈ m := by
  induction m with
  | nil => exact .inl (List.mem_singleton.mp h)
  | cons a r ih =>
    simp only [minsert] at h
    split at h
    · exact List.mem_cons.mp h
    · rcases List.mem_cons.mp h with h | h
      · exact .inr (h ▸ List.mem_cons_self)
      · rcases ih h with h | h
        · exact .inl h
        · exact .inr (List.mem_cons_of_mem _ h)

theorem mem_mset {α : Type} [DecidableEq α] {d x : α} {m : SMap α} {i : Nat} {e : Nat × α} (h : e ∈ mset d m i x) :
    e = (i, x) ∨ e ∈ m := by
  unfold mset at h
  split at h
  · exact .inr (mem_merase h)
  · rcases mem_minsert h with h | h
    · exact .inl h
    · exact .inr (mem_merase h)

/-- What a map gives is its default or one of its entries. -/
theorem mget_cases {α : Type} (d : α) (m : SMap α) (i : Nat) : mget d m i = d ∨ ∃ e ∈ m, e.2 = mget d m i := by
  induction m with
  | nil => exact .inl rfl
  | cons a r ih =>
    simp only [mget]
    split
    · exact .inr ⟨a, List.mem_cons_self, rfl⟩
    · rcases ih with h | ⟨e, he, h⟩
      · exact .inl h
      · exact .inr ⟨e, List.mem_cons_of_mem _ he, h⟩

/-! ### One cluster changed -/

theorem State.clu_modClu (c c' : Nat) (f : Cluster → Cluster) :
    (s.modClu c f).clu c' = if c' = c then f (s.clu c) else s.clu c' := by
  simp [State.modClu, State.setClu, State.clu, mget_mset]

/-- The cluster of a canonical memory is canonical. -/
theorem canonical_clu (h : memoryCanonical s) (c : Nat) : mwf 0 (s.clu c).bytes = true ∧ mwf {} (s.clu c).parcels = true := by
  rcases mget_cases ({} : Cluster) s.cl c with hd | ⟨e, he, hv⟩
  · rw [State.clu, hd]; exact ⟨rfl, rfl⟩
  · rw [State.clu, ← hv]; exact h.2.2.2 e he

/-- A change of one cluster that keeps its two maps canonical. -/
theorem canonical_modClu (h : memoryCanonical s) (c : Nat) (f : Cluster → Cluster)
    (hb : mwf 0 (f (s.clu c)).bytes = true) (hp : mwf {} (f (s.clu c)).parcels = true) : memoryCanonical (s.modClu c f) := by
  refine ⟨h.1, h.2.1, mset_wf _ _ _ _ h.2.2.1, fun e he => ?_⟩
  rcases mem_mset he with he | he
  · rw [he]; exact ⟨hb, hp⟩
  · exact h.2.2.2 e he

/-- Canonical form depends on the memories alone. -/
theorem canonical_congr {t : State} (h : memoryCanonical s) (hb : t.mem.bytes = s.mem.bytes) (hp : t.mem.pages = s.mem.pages)
    (hc : t.cl = s.cl) : memoryCanonical t := by
  unfold memoryCanonical
  rw [hb, hp, hc]
  exact h

/-- A fold of updates that each keep a property keeps it. -/
theorem foldS_keeps {α : Type} {p : State → Prop} (f : State → α → State) (hf : ∀ s a, p s → p (f s a)) :
    ∀ (l : List α) {s : State}, p s → p (foldS s l f)
  | [], _, h => h
  | a :: l, s, h => foldS_keeps f hf l (s := f s a) (hf s a h)

/-! ### One byte -/

/-- Two addresses name one byte. -/
def sameByte (a b : Addr) : Prop := if a.dev then b.dev = true ∧ b.a = a.a
  else b.dev = false ∧ spdCluster b.a = spdCluster a.a ∧ spdOff b.a = spdOff a.a

/-- A scratchpad address that exists is its cluster and offset (07 R153). -/
theorem spd_inj {a b : Nat} (ha : a < 2 ^ 33) (hb : b < 2 ^ 33) (hc : spdCluster a = spdCluster b) (ho : spdOff a = spdOff b) :
    a = b := by
  simp only [spdCluster, spdOff] at hc ho
  omega

theorem sameByte_iff {a b : Addr} (ha : realAddr a) (hb : realAddr b) : sameByte a b ↔ b = a := by
  obtain ⟨da, xa⟩ := a
  obtain ⟨db, xb⟩ := b
  cases da <;> cases db <;> simp_all [sameByte, realAddr]
  exact ⟨fun h => spd_inj hb ha h.1 h.2, fun h => by subst h; exact ⟨rfl, rfl⟩⟩

theorem rawByte_putByte_same (a : Addr) (b : Byte) : (s.putByte a b).rawByte a = b := by
  unfold State.putByte State.rawByte
  split
  · simp
  · simp [State.clu_modClu]

theorem rawByte_putByte_ne {a c : Addr} (b : Byte) (h : ¬ sameByte a c) : (s.putByte a b).rawByte c = s.rawByte c := by
  obtain ⟨da, xa⟩ := a
  obtain ⟨dc, xc⟩ := c
  cases da <;> cases dc <;> simp_all [sameByte, State.putByte, State.rawByte, State.clu_modClu]
  · split
    · rename_i hc
      exact (mget_mset_ne _ _ _ _ (fun e => h hc e)).trans (by rw [hc])
    · rfl
  · rfl
  · exact mget_mset_ne _ _ _ _ h

theorem rawByte_makeValid (a c : Addr) : (s.makeValid a).rawByte c = s.rawByte c := by
  unfold State.makeValid
  split
  · rfl
  · unfold State.rawByte
    split
    · rfl
    · rw [State.clu_modClu]; split
      · rename_i h; rw [h]
      · rfl

theorem mayAccess_putByte (a : Addr) (b : Byte) (r : Req) (c : Addr) (w : Bool) :
    (s.putByte a b).mayAccess r c w = s.mayAccess r c w := by
  unfold State.putByte
  split
  · rfl
  · unfold State.mayAccess
    split
    · rfl
    · rw [State.clu_modClu]; split
      · rename_i h; rw [h]; rfl
      · rfl

theorem mayAccess_makeValid (a : Addr) (r : Req) (c : Addr) (w : Bool) :
    (s.makeValid a).mayAccess r c w = s.mayAccess r c w := by
  unfold State.makeValid
  split
  · rfl
  · unfold State.mayAccess
    split
    · rfl
    · simp only [State.clu_modClu]
      split
      · rename_i h
        simp only [Cluster.parcel, mget_mset, h]
        split
        · rename_i hk; rw [hk]
        · rfl
      · rfl

/-- A write changes no right of access. -/
@[simp] theorem mayAccess_writeByte (q : Req) (a : Addr) (b : Byte) (r : Req) (c : Addr) (w : Bool) :
    (s.writeByte q a b).mayAccess r c w = s.mayAccess r c w := by
  unfold State.writeByte
  split
  · rw [mayAccess_putByte, mayAccess_makeValid]
  · rfl

theorem rawByte_writeByte_same (r : Req) (a : Addr) (b : Byte) :
    (s.writeByte r a b).rawByte a = if s.mayAccess r a true then b else s.rawByte a := by
  unfold State.writeByte
  split
  · exact rawByte_putByte_same a b
  · rfl

theorem rawByte_writeByte_ne (r : Req) {a c : Addr} (b : Byte) (h : ¬ sameByte a c) :
    (s.writeByte r a b).rawByte c = s.rawByte c := by
  unfold State.writeByte
  split
  · rw [rawByte_putByte_ne b h, rawByte_makeValid]
  · rfl

theorem bitOf_or_pow (v : BitVec 64) {k : Nat} (hk : k < 64) : bitOf (v ||| BitVec.ofNat 64 (2 ^ k)) k = true := by
  have h : (2 ^ k) % 2 ^ 64 = 2 ^ k := Nat.mod_eq_of_lt (Nat.pow_lt_pow_right (by decide) hk)
  have : (v ||| BitVec.ofNat 64 (2 ^ k)).toNat.testBit k = true := by
    rw [BitVec.toNat_or, BitVec.toNat_ofNat, h, Nat.testBit_or, Nat.testBit_two_pow_self, Bool.or_true]
  rw [Nat.testBit_eq_decide_div_mod_eq] at this
  simpa [bitOf, bitsOf] using this

/-- A line that a write touches is valid afterwards (07 R157). -/
theorem lineValid_makeValid (a : Addr) : (s.makeValid a).lineValid a = true := by
  unfold State.makeValid State.lineValid
  by_cases hd : a.dev
  · simp [hd]
  · have hk : spdOff a.a % 65536 / 1024 < 64 := by omega
    simp only [hd, Bool.false_eq_true, if_false, Bool.false_or, State.clu_modClu, if_true, Cluster.parcel, mget_mset_same]
    exact bitOf_or_pow _ hk

theorem lineValid_putByte (a : Addr) (b : Byte) (c : Addr) : (s.putByte a b).lineValid c = s.lineValid c := by
  unfold State.putByte
  split
  · rfl
  · unfold State.lineValid
    rw [State.clu_modClu]; split
    · rename_i h; rw [h]; rfl
    · rfl

/-- Read after write: who may write and read a byte reads what it wrote. -/
theorem readByte_writeByte (r : Req) (a : Addr) (b : Byte) (hw : s.mayAccess r a true = true) (hr : s.mayAccess r a false = true) :
    (s.writeByte r a b).readByte r a = b := by
  have hv : (s.writeByte r a b).lineValid a = true := by
    unfold State.writeByte
    rw [if_pos hw, lineValid_putByte, lineValid_makeValid]
  unfold State.readByte
  rw [mayAccess_writeByte, hr, hv, rawByte_writeByte_same, if_pos hw]
  rfl

/-! ### Strings of bytes -/

@[simp] theorem mayAccess_write (q : Req) (l : Bytes) (a : Addr) (r : Req) (c : Addr) (w : Bool) :
    (s.write q a l).mayAccess r c w = s.mayAccess r c w := by
  induction l generalizing s a with
  | nil => rfl
  | cons b l ih => rw [State.write, ih, mayAccess_writeByte]

/-- A write leaves every byte outside it. -/
theorem rawByte_write_out (r : Req) (l : Bytes) (a c : Addr) (h : ∀ n, n < l.length → ¬ sameByte (a.plus n) c) :
    (s.write r a l).rawByte c = s.rawByte c := by
  induction l generalizing s a with
  | nil => rfl
  | cons b l ih =>
    have h0 := h 0 (by simp)
    rw [State.write, ih, rawByte_writeByte_ne r b (by simpa [Addr.plus] using h0)]
    intro n hn
    have := h (n + 1) (by simp; omega)
    simpa [Addr.plus, Nat.add_assoc, Nat.add_comm 1 n] using this

/-- What a write leaves at a byte it covers: its byte where the requester may write, else what was there. The extent lies in
its space, so that no two of its bytes are one (07 R153). -/
theorem rawByte_write_in (r : Req) (l : Bytes) (a : Addr) (ha : a.dev = true ∨ a.a + l.length ≤ 2 ^ 33) (n : Nat)
    (hn : n < l.length) :
    (s.write r a l).rawByte (a.plus n) = if s.mayAccess r (a.plus n) true then l.getD n 0 else s.rawByte (a.plus n) := by
  induction l generalizing s a n with
  | nil => simp at hn
  | cons b l ih =>
    have hl : (a.plus 1).dev = true ∨ (a.plus 1).a + l.length ≤ 2 ^ 33 := by
      rcases ha with h | h
      · exact .inl h
      · exact .inr (by simp only [Addr.plus, List.length_cons] at *; omega)
    rw [State.write]
    cases n with
    | zero =>
      rw [rawByte_write_out]
      · simpa [Addr.plus] using rawByte_writeByte_same r a b
      · intro k hk hs
        have hk' : (a.plus 1).plus k = a.plus (k + 1) := by simp [Addr.plus]; omega
        rw [hk', sameByte_iff] at hs
        · exact absurd (congrArg Addr.a hs) (by simp [Addr.plus])
        · rcases ha with h | h
          · exact .inl h
          · exact .inr (by simp only [Addr.plus, List.length_cons] at *; omega)
        · rcases ha with h | h
          · exact .inl h
          · exact .inr (by simp only [Addr.plus, List.length_cons] at *; omega)
    | succ n =>
      have hp : a.plus (n + 1) = (a.plus 1).plus n := by simp [Addr.plus]; omega
      rw [hp, ih (a.plus 1) hl n (by simpa using hn), mayAccess_writeByte, rawByte_writeByte_ne]
      · simp
      · rw [← hp, sameByte_iff]
        · exact fun h => absurd (congrArg Addr.a h) (by simp [Addr.plus])
        · rcases ha with h | h
          · exact .inl h
          · exact .inr (by simp only [List.length_cons] at *; omega)
        · rcases ha with h | h
          · exact .inl h
          · exact .inr (by simp only [Addr.plus, List.length_cons] at *; omega)

/-! ### Counts and poison leave the bytes -/

/-- Bytes and rights depend on the memories alone. -/
theorem rawByte_congr {t : State} (hm : t.mem.bytes = s.mem.bytes) (hc : t.cl = s.cl) (c : Addr) : t.rawByte c = s.rawByte c := by
  unfold State.rawByte State.clu
  rw [hm, hc]

theorem mayAccess_congr {t : State} (hm : t.mem.pages = s.mem.pages) (hc : t.cl = s.cl) (r : Req) (c : Addr) (w : Bool) :
    t.mayAccess r c w = s.mayAccess r c w := by
  unfold State.mayAccess State.page State.clu
  rw [hm, hc]

/-- The bytes and the rights of access are the same in two states. -/
def SameStore (s t : State) : Prop :=
  (∀ c, t.rawByte c = s.rawByte c) ∧ ∀ r c w, t.mayAccess r c w = s.mayAccess r c w

theorem SameStore.trans {u v w : State} (h : SameStore u v) (k : SameStore v w) : SameStore u w :=
  ⟨fun c => (k.1 c).trans (h.1 c), fun r c b => (k.2 r c b).trans (h.2 r c b)⟩

theorem SameStore.of_mem {t : State} (hb : t.mem.bytes = s.mem.bytes) (hp : t.mem.pages = s.mem.pages) (hc : t.cl = s.cl) :
    SameStore s t := ⟨rawByte_congr hb hc, mayAccess_congr hp hc⟩

theorem foldS_sameStore {α : Type} (f : State → α → State) (hf : ∀ s a, SameStore s (f s a)) :
    ∀ (l : List α) (s : State), SameStore s (foldS s l f)
  | [], _ => ⟨fun _ => rfl, fun _ _ _ => rfl⟩
  | a :: l, s => (hf s a).trans (foldS_sameStore f hf l (f s a))

theorem sameStore_raise (s : State) (c : W16) (i : EvInfo) : SameStore s (s.raise c i) := by
  unfold State.raise
  dsimp only
  split <;> exact SameStore.of_mem rfl rfl rfl

theorem sameStore_satEvent (s : State) (b : Bool) (k o : Nat) : SameStore s (s.satEvent b k o) := by
  unfold State.satEvent
  split
  · exact sameStore_raise _ _ _
  · exact SameStore.of_mem rfl rfl rfl

/-- A change of one cluster that leaves its bytes and parcels. -/
theorem sameStore_modClu (s : State) (c : Nat) (f : Cluster → Cluster) (hb : (f (s.clu c)).bytes = (s.clu c).bytes)
    (hp : (f (s.clu c)).parcels = (s.clu c).parcels) : SameStore s (s.modClu c f) := by
  constructor
  · intro a
    unfold State.rawByte
    split
    · rfl
    · rw [State.clu_modClu]; split
      · rename_i h; rw [h, hb]
      · rfl
  · intro r a w
    unfold State.mayAccess
    split
    · rfl
    · simp only [State.clu_modClu]; split
      · rename_i h; simp only [Cluster.parcel, h, hp]
      · rfl

theorem sameStore_countMiss (s : State) (a : Addr) : SameStore s (s.countMiss a) := by
  unfold State.countMiss
  split
  · exact (SameStore.of_mem (t := s.setCtl _ _) rfl rfl rfl).trans (sameStore_satEvent _ _ _ _)
  · exact (sameStore_modClu s (spdCluster a.a) (fun x => { s.clu (spdCluster a.a) with
      miss := (bump (s.clu (spdCluster a.a)).miss).1
      missSat := (s.clu (spdCluster a.a)).missSat || (bump (s.clu (spdCluster a.a)).miss).2 }) rfl rfl).trans
      (sameStore_satEvent _ _ _ _)

theorem sameStore_noteMiss (s : State) (w : Who) (a : Addr) (n : Nat) (wr : Bool) : SameStore s (s.noteMiss w a n wr) := by
  unfold State.noteMiss
  split
  · exact SameStore.of_mem rfl rfl rfl
  · rename_i k l _
    have h := foldS_sameStore (fun s k => State.countMiss s ⟨a.dev, 64 * k⟩) (fun s _ => sameStore_countMiss s _) (k :: l) s
    dsimp only
    split
    · split
      · exact h
      · exact (h.trans (SameStore.of_mem (t := State.modJob _ _ _) rfl rfl rfl)).trans (sameStore_raise _ _ _)
    · exact h.trans (foldS_sameStore _ (fun _ _ => sameStore_raise _ _ _) _ _)

theorem sameStore_unpoison (s : State) (r : Req) (a : Addr) (n : Nat) : SameStore s (s.unpoison r a n) := by
  unfold State.unpoison
  split
  · refine foldS_sameStore _ (fun s k => ?_) _ s
    split <;> exact SameStore.of_mem rfl rfl rfl
  · exact SameStore.of_mem rfl rfl rfl

/-- A unit's write leaves every byte outside it. -/
theorem rawByte_rewrite_out (r : Req) (l : Bytes) (a c : Addr) (h : ∀ n, n < l.length → ¬ sameByte (a.plus n) c) :
    (s.rewrite r a l).rawByte c = s.rawByte c := by
  unfold State.rewrite
  rw [(sameStore_unpoison _ _ _ _).1, rawByte_write_out _ _ _ _ h]

/-- What a unit's write leaves at a byte it covers. -/
theorem rawByte_rewrite_in (r : Req) (l : Bytes) (a : Addr) (ha : a.dev = true ∨ a.a + l.length ≤ 2 ^ 33) (n : Nat)
    (hn : n < l.length) :
    (s.rewrite r a l).rawByte (a.plus n) = if s.mayAccess r (a.plus n) true then l.getD n 0 else s.rawByte (a.plus n) := by
  unfold State.rewrite
  rw [(sameStore_unpoison _ _ _ _).1, rawByte_write_in _ _ _ ha _ hn]

/-- A unit's write changes no right of access. -/
theorem mayAccess_rewrite (q : Req) (l : Bytes) (a : Addr) (r : Req) (c : Addr) (b : Bool) :
    (s.rewrite q a l).mayAccess r c b = s.mayAccess r c b := by
  unfold State.rewrite
  rw [(sameStore_unpoison _ _ _ _).2, mayAccess_write]

/-- A store leaves every byte outside it. -/
theorem rawByte_store_out (w : Who) (l : Bytes) (a c : Addr) (h : ∀ n, n < l.length → ¬ sameByte (a.plus n) c) :
    (s.store w a l).rawByte c = s.rawByte c := by
  unfold State.store
  rw [rawByte_rewrite_out _ _ _ _ h, (sameStore_noteMiss _ _ _ _ _).1]

/-- What a store leaves at a byte it covers. -/
theorem rawByte_store_in (w : Who) (l : Bytes) (a : Addr) (ha : a.dev = true ∨ a.a + l.length ≤ 2 ^ 33) (n : Nat)
    (hn : n < l.length) :
    (s.store w a l).rawByte (a.plus n) = if s.mayAccess w.req (a.plus n) true then l.getD n 0 else s.rawByte (a.plus n) := by
  unfold State.store
  rw [rawByte_rewrite_in _ _ _ ha _ hn, (sameStore_noteMiss _ _ _ _ _).1,
    (sameStore_noteMiss _ _ _ _ _).2]

/-- A store changes no right of access. -/
theorem mayAccess_store (w : Who) (l : Bytes) (a : Addr) (r : Req) (c : Addr) (b : Bool) :
    (s.store w a l).mayAccess r c b = s.mayAccess r c b := by
  unfold State.store
  rw [mayAccess_rewrite, (sameStore_noteMiss _ _ _ _ _).2]

/-! ### The canonical form -/

theorem canonical_putByte (h : memoryCanonical s) (a : Addr) (b : Byte) : memoryCanonical (s.putByte a b) := by
  unfold State.putByte
  split
  · exact ⟨mset_wf _ _ _ _ h.1, h.2⟩
  · exact canonical_modClu h _ _ (mset_wf _ _ _ _ (canonical_clu h _).1) (canonical_clu h _).2

theorem canonical_makeValid (h : memoryCanonical s) (a : Addr) : memoryCanonical (s.makeValid a) := by
  unfold State.makeValid
  split
  · exact h
  · exact canonical_modClu h _ _ (canonical_clu h _).1 (mset_wf _ _ _ _ (canonical_clu h _).2)

theorem canonical_writeByte (h : memoryCanonical s) (r : Req) (a : Addr) (b : Byte) : memoryCanonical (s.writeByte r a b) := by
  unfold State.writeByte
  split
  · exact canonical_putByte (canonical_makeValid h a) a b
  · exact h

theorem canonical_write (h : memoryCanonical s) (r : Req) (a : Addr) (l : Bytes) : memoryCanonical (s.write r a l) := by
  induction l generalizing s a with
  | nil => exact h
  | cons b l ih => exact ih (canonical_writeByte h r a b) (a.plus 1)

theorem canonical_raise (h : memoryCanonical s) (c : W16) (i : EvInfo) : memoryCanonical (s.raise c i) := by
  unfold State.raise
  dsimp only
  split <;> exact h

theorem canonical_satEvent (h : memoryCanonical s) (b : Bool) (k o : Nat) : memoryCanonical (s.satEvent b k o) := by
  unfold State.satEvent
  split
  · exact canonical_raise h _ _
  · exact h

theorem canonical_countMiss (h : memoryCanonical s) (a : Addr) : memoryCanonical (s.countMiss a) := by
  unfold State.countMiss
  split
  · exact canonical_satEvent (s := s.setCtl _ _) (canonical_congr h rfl rfl rfl) _ _ _
  · exact canonical_satEvent (canonical_modClu h (spdCluster a.a) (fun x => { x with
      miss := (bump (s.clu (spdCluster a.a)).miss).1, missSat := x.missSat || (bump (s.clu (spdCluster a.a)).miss).2 })
      (canonical_clu h _).1 (canonical_clu h _).2) _ _ _

theorem canonical_noteMiss (h : memoryCanonical s) (w : Who) (a : Addr) (n : Nat) (wr : Bool) :
    memoryCanonical (s.noteMiss w a n wr) := by
  unfold State.noteMiss
  split
  · exact h
  · rename_i k l _
    have h' : memoryCanonical (foldS s (k :: l) fun s k => s.countMiss ⟨a.dev, 64 * k⟩) :=
      foldS_keeps (p := memoryCanonical) _ (fun s _ hs => canonical_countMiss hs _) (k :: l) h
    dsimp only
    split
    · split
      · exact h'
      · refine canonical_raise (s := State.modJob _ _ _) ?_ _ _
        exact canonical_congr h' rfl rfl rfl
    · exact foldS_keeps (p := memoryCanonical) _ (fun _ _ hs => canonical_raise hs _ _) _ h'

theorem canonical_unpoison (h : memoryCanonical s) (r : Req) (a : Addr) (n : Nat) : memoryCanonical (s.unpoison r a n) := by
  unfold State.unpoison
  split
  · refine foldS_keeps (p := memoryCanonical) _ (fun s k hs => ?_) _ h
    split
    · exact canonical_congr hs rfl rfl rfl
    · exact hs
  · exact h

theorem canonical_rewrite (h : memoryCanonical s) (r : Req) (a : Addr) (l : Bytes) : memoryCanonical (s.rewrite r a l) :=
  canonical_unpoison (canonical_write h _ _ _) _ _ _

/-- A write with its misses counted keeps the canonical form. -/
theorem canonical_store (h : memoryCanonical s) (w : Who) (a : Addr) (l : Bytes) : memoryCanonical (s.store w a l) :=
  canonical_rewrite (canonical_noteMiss h _ _ _ _) _ _ _

theorem canonical_retag (h : memoryCanonical s) (c p : Nat) (y : Parcel) : memoryCanonical (s.retag c p y) :=
  canonical_modClu h _ _ (filter_wf _ _ _ (canonical_clu h _).1) (mset_wf _ _ _ _ (canonical_clu h _).2)

theorem canonical_setPage (h : memoryCanonical s) (p : Nat) (y : Page) : memoryCanonical (s.setPage p y) :=
  ⟨h.1, mset_wf _ _ _ _ h.2.1, h.2.2⟩

theorem canonical_scrubPages (h : memoryCanonical s) (first n : Nat) (cmd : Bool) :
    memoryCanonical (s.scrubPages first n cmd) := by
  unfold State.scrubPages
  split
  · exact h
  · have h' := foldS_keeps (p := memoryCanonical) (fun s i => State.setPage s (first + i) ⟨.free, 0, true⟩)
      (fun s i hs => canonical_setPage hs _ _) (List.range n) h
    exact ⟨filter_wf _ _ _ h'.1, h'.2⟩

theorem canonical_assignPages (h : memoryCanonical s) (first n : Nat) (m : MemMode) (d : Dom) :
    memoryCanonical (s.assignPages first n m d) :=
  foldS_keeps (p := memoryCanonical) _ (fun _ _ hs => canonical_setPage hs _ _) _ h

end Sys2Proof.Machine
end

