-- ==== Sys2Proof/Laws/Stop.lean ====
section
/-! SUPPORT. Sys2Proof/Laws/Stop.lean: everything that raising an event, releasing waiters, signalling and stopping a job can change. -/

namespace Sys2Proof.Machine

open Sys2Proof Sys2Proof.Safety

/-! ### Events -/

/-- Raising an event changes the event block alone. -/
theorem raise_only (s : State) (c : W16) (i : EvInfo) : ∃ e, s.raise c i = { s with evt := e } := by
  unfold State.raise
  dsimp only
  split <;> exact ⟨_, rfl⟩

theorem raiseJob_only (s : State) (t : Tag) (c : W16) (i : EvInfo) : ∃ e, s.raiseJob t c i = { s with evt := e } :=
  raise_only s c _

theorem satEvent_only (s : State) (b : Bool) (k o : Nat) : ∃ e, s.satEvent b k o = { s with evt := e } := by
  unfold State.satEvent
  split
  · exact raise_only _ _ _
  · exact ⟨s.evt, rfl⟩

/-- Counting an unroutable message changes the chain and the events. -/
theorem countNoRoute_only (s : State) (p : PortId) : ∃ e l, s.countNoRoute p = { s with evt := e, lnk := l } := by
  unfold State.countNoRoute
  dsimp only
  obtain ⟨e, h⟩ := satEvent_only (s.modPort p.val fun x => { x with
    noRoute := (bump (s.port p.val).noRoute).1, routeSat := x.routeSat || (bump (s.port p.val).noRoute).2 })
    (bump (s.port p.val).noRoute).2 6 (portOff p.val 0x30)
  exact ⟨e, _, h⟩

/-- A message of this node's own goes to the outbox, or is counted as unroutable with its event. -/
theorem sendTo_only (s : State) (d : NodeId) (t : Tag) (o : Out) :
    s.sendTo d t o = s.emit o ∨ ∃ e l, s.sendTo d t o = { s with evt := e, lnk := l } := by
  unfold State.sendTo
  split
  · exact .inl rfl
  · obtain ⟨e, l, h⟩ := countNoRoute_only s 0
    rw [h]
    obtain ⟨e', h'⟩ := raise_only { s with evt := e, lnk := l } Ev.lnkNoRoute { aux := d, tag := t }
    exact .inr ⟨e', l, h'⟩

/-! ### Semaphores of a cluster -/

/-- Waking a slot leaves everything of the cluster but its slots. -/
theorem Cluster.wake_only (x : Cluster) (k : Nat) : ∃ l, x.wake k = { x with slots := l } := ⟨_, rfl⟩

theorem foldl_wake_only (l : List Waiter) (x : Cluster) :
    ∃ m, (l.foldl (fun (y : Cluster) (w : Waiter) => y.wake w.slot.val) x) = { x with slots := m } := by
  induction l generalizing x with
  | nil => exact ⟨x.slots, rfl⟩
  | cons w l ih =>
    obtain ⟨m, h⟩ := ih (x.wake w.slot.val)
    exact ⟨m, h⟩

/-- Releasing the waiters of a semaphore changes its count, the waiters and the slots. -/
theorem Cluster.release_only (x : Cluster) (i : Nat) :
    ∃ m w l, x.release i = { x with sems := m, waiters := w, slots := l } := by
  unfold Cluster.release
  obtain ⟨m, h⟩ := foldl_wake_only
    ((x.waiters.filter (·.sem == i)).filter (fun w => !w.take && decide (w.n.toNat ≤ (x.sem i).toNat)) ++
      (takePass (x.sem i).toNat ((x.waiters.filter (·.sem == i)).filter (·.take))).2.1) _
  exact ⟨_, _, m, h⟩

theorem Cluster.setSem_only (x : Cluster) (i : Nat) (v : W32) :
    ∃ m w l, x.setSem i v = { x with sems := m, waiters := w, slots := l } := by
  obtain ⟨m, w, l, h⟩ := Cluster.release_only { x with sems := mset 0 x.sems i v } i
  exact ⟨m, w, l, h⟩

theorem foldl_release_only (l : List Waiter) (x : Cluster) :
    ∃ m w k, (l.foldl (fun (x : Cluster) (w : Waiter) => x.release w.sem) x) = { x with sems := m, waiters := w, slots := k } := by
  induction l generalizing x with
  | nil => exact ⟨x.sems, x.waiters, x.slots, rfl⟩
  | cons a l ih =>
    obtain ⟨m, w, k, h⟩ := Cluster.release_only x a.sem
    obtain ⟨m', w', k', h'⟩ := ih (x.release a.sem)
    exact ⟨m', w', k', by rw [List.foldl_cons, h', h]⟩

/-! ### Stopping a job -/

theorem modClu_only (s : State) (c : Nat) (f : Cluster → Cluster) : ∃ m, s.modClu c f = { s with cl := m } := ⟨_, rfl⟩

theorem slotIdle_only (s : State) (c : CId) (k : SId) : ∃ m j, s.slotIdle c k = { s with cl := m, jobs := j } := ⟨_, _, rfl⟩

/-- A slot that an abort stops: the clusters and the jobs alone change. -/
theorem abortSlot_only (s : State) (c : CId) (k : SId) : ∃ m l, s.abortSlot c k = { s with cl := m, jobs := l } := by
  unfold State.abortSlot
  dsimp only
  generalize hu : State.modClu s _ _ = u
  obtain ⟨m, hm⟩ := modClu_only s c.val _
  rw [hm] at hu
  clear hm
  generalize hv : State.modClu u _ _ = v
  obtain ⟨n, hn⟩ := modClu_only u c.val _
  rw [hn] at hv
  clear hn
  subst hu hv
  split
  · obtain ⟨m', j, h⟩ := slotIdle_only { s with cl := n } c k
    exact ⟨m', j, h⟩
  · exact ⟨_, s.jobs, rfl⟩

theorem foldS_abort_only (l : List (CId × SId)) (s : State) :
    ∃ m j, foldS s l (fun s e => s.abortSlot e.1 e.2) = { s with cl := m, jobs := j } := by
  induction l generalizing s with
  | nil => exact ⟨s.cl, s.jobs, rfl⟩
  | cons e l ih =>
    obtain ⟨m, j, h⟩ := abortSlot_only s e.1 e.2
    obtain ⟨m', j', h'⟩ := ih (s.abortSlot e.1 e.2)
    refine ⟨m', j', h'.trans ?_⟩
    rw [h]

theorem foldS_grant_only (l : List CId) (s : State) : ∃ m, foldS s l (fun s c => s.grantArrays c.val) = { s with cl := m } := by
  induction l generalizing s with
  | nil => exact ⟨s.cl, rfl⟩
  | cons c l ih =>
    obtain ⟨m, h⟩ := ih (s.grantArrays c.val)
    exact ⟨m, h⟩

/-- Stopping a job changes the clusters, the jobs, the barrier objects and the outbox alone. -/
theorem haltJob_only (s : State) (t : Tag) (st : Nat) (ev : W16) (tell : Out) :
    ∃ m j b o, s.haltJob t st ev tell = { s with cl := m, jobs := j, bars := b, out := o } := by
  unfold State.haltJob
  split
  · exact ⟨s.cl, s.jobs, s.bars, s.out, rfl⟩
  · rename_i j _
    split
    · exact ⟨s.cl, s.jobs, s.bars, s.out, rfl⟩
    · obtain ⟨m, l, h⟩ := foldS_abort_only j.live (s.modJob t fun j => { j with stop := some (st, ev) })
      obtain ⟨n, h'⟩ := foldS_grant_only (clustersOf j.d.clusters)
        ({ s.modJob t (fun j => { j with stop := some (st, ev) }) with cl := m, jobs := l } : State)
      dsimp only
      rw [h, h']
      split <;> exact ⟨_, _, _, _, rfl⟩

theorem stopJob_only (s : State) (t : Tag) (st : Nat) (ev : W16) :
    ∃ m j b o, s.stopJob t st ev = { s with cl := m, jobs := j, bars := b, out := o } := haltJob_only _ _ _ _ _

theorem raise_stopJob_only (s : State) (c : W16) (i : EvInfo) (t : Tag) (st : Nat) :
    ∃ e m j b o, (s.raise c i).stopJob t st c = { s with evt := e, cl := m, jobs := j, bars := b, out := o } := by
  obtain ⟨e, h⟩ := raise_only s c i
  obtain ⟨m, j, b, o, h'⟩ := stopJob_only (s.raise c i) t st c
  exact ⟨e, m, j, b, o, by rw [h', h]⟩

/-- A job fault changes what stopping a job changes, and the event block. -/
theorem faultJob_only (s : State) (t : Tag) (c : W16) (i : EvInfo) :
    ∃ e m j b o, s.faultJob t c i = { s with evt := e, cl := m, jobs := j, bars := b, out := o } :=
  raise_stopJob_only s c _ t Stat.fault

/-- A signal changes clusters, events and, where the count reaches its limit, what a job fault changes. -/
theorem signalSem_only (s : State) (t : Tag) (c i : Nat) (n : W32) (sub : Byte) :
    ∃ e m j b o, s.signalSem t c i n sub = { s with evt := e, cl := m, jobs := j, bars := b, out := o } := by
  have drop : ∃ e m j b o, s.dropSignal t c i sub = { s with evt := e, cl := m, jobs := j, bars := b, out := o } := by
    unfold State.dropSignal
    dsimp only
    obtain ⟨e, h⟩ := satEvent_only (s.setClu c { s.clu c with
      semDrop := (bump (s.clu c).semDrop).1, semDropSat := (s.clu c).semDropSat || (bump (s.clu c).semDrop).2 })
      (bump (s.clu c).semDrop).2 0xD (winOff c 0x3_1008)
    rw [h]
    generalize hu : ({ s.setClu c { s.clu c with
      semDrop := (bump (s.clu c).semDrop).1, semDropSat := (s.clu c).semDropSat || (bump (s.clu c).semDrop).2 } with evt := e } : State) = u
    obtain ⟨e', h'⟩ := raiseJob_only u t Ev.semStray _
    rw [h', ← hu]
    exact ⟨e', _, s.jobs, s.bars, s.out, rfl⟩
  unfold State.signalSem
  split
  · exact drop
  · split
    · exact drop
    · dsimp only
      split
      · exact ⟨s.evt, s.cl, s.jobs, s.bars, s.out, rfl⟩
      · split
        · obtain ⟨e, m, j, b, o, h⟩ := faultJob_only
            (s.setClu c (({ s.clu c with stuck := i :: (s.clu c).stuck } : Cluster).setSem i (BitVec.allOnes 32))) t Ev.semSat
            { unit := BitVec.ofNat 8 c, sub := sub, aux := BitVec.ofNat 16 i
              arg := BitVec.ofNat 64 (((s.clu c).sem i).toNat * 2 ^ 32 + 0xFFFF_FFFF) }
          exact ⟨e, m, j, b, o, h⟩
        · exact ⟨s.evt, _, s.jobs, s.bars, s.out, rfl⟩

end Sys2Proof.Machine
end

