-- ==== Sys2Proof/Laws/Send.lean ====
section
/-! SUPPORT. Sys2Proof/Laws/Send.lean: everything that sending on the chain ports can change: the ports, the outbox, the counts of messages under job keys, the event of a count that ends its epoch and the count of free values used. -/

namespace Sys2Proof.Machine

open Sys2Proof

/-- `t` is `s` but for what sending changes. -/
def SentFrom (s t : State) : Prop :=
  ∃ f l o k e, t = { s with evt := e, free := f, lnk := l, out := o, sec := { s.sec with jobCounts := k } }

theorem SentFrom.refl (s : State) : SentFrom s s := ⟨_, _, _, _, _, rfl⟩

theorem SentFrom.trans {s t u : State} (h : SentFrom s t) (k : SentFrom t u) : SentFrom s u := by
  obtain ⟨_, _, _, _, _, rfl⟩ := h
  obtain ⟨_, _, _, _, _, rfl⟩ := k
  exact ⟨_, _, _, _, _, rfl⟩

theorem sentFrom_setLnk (s : State) (f : Lnk → Lnk) : SentFrom s (s.setLnk f) := ⟨_, _, _, _, _, rfl⟩
theorem sentFrom_setPort (s : State) (p : Nat) (y : Port) : SentFrom s (s.setPort p y) := ⟨_, _, _, _, _, rfl⟩
theorem sentFrom_modPort (s : State) (p : Nat) (f : Port → Port) : SentFrom s (s.modPort p f) := ⟨_, _, _, _, _, rfl⟩
theorem sentFrom_emit (s : State) (o : Out) : SentFrom s (s.emit o) := ⟨_, _, _, _, _, rfl⟩

theorem sentFrom_foldS {α : Type} (f : State → α → State) (hf : ∀ s a, SentFrom s (f s a)) (l : List α) (s : State) :
    SentFrom s (foldS s l f) := by
  induction l generalizing s with
  | nil => exact .refl s
  | cons a l ih => exact (hf s a).trans (ih (f s a))

theorem sentFrom_freshPayload (s : State) : SentFrom s s.freshPayload.2 := ⟨_, _, _, _, _, rfl⟩
theorem sentFrom_freeData (s : State) : SentFrom s s.freeData.2 := ⟨_, _, _, _, _, rfl⟩

theorem sentFrom_raise (s : State) (c : W16) (i : EvInfo) : SentFrom s (s.raise c i) := by
  obtain ⟨e, h⟩ := raise_only s c i
  exact ⟨_, _, _, _, e, h⟩

theorem sentFrom_useKey (s : State) (p : Packet) (key : Bytes) : SentFrom s (s.useKey p key).2.2 := by
  unfold State.useKey
  dsimp only
  have h : SentFrom s (({ s with sec := { s.sec with jobCounts := countOn s.sec.jobCounts p.tag p.dst } } : State).jobEpoch s.sec.jobCounts p.tag p.dst) := by
    have hc : SentFrom s { s with sec := { s.sec with jobCounts := countOn s.sec.jobCounts p.tag p.dst } } :=
      ⟨_, _, _, _, _, rfl⟩
    refine hc.trans ?_
    unfold State.jobEpoch
    split
    · exact sentFrom_raise _ _ _
    · exact .refl _
  split
  · exact h.trans (sentFrom_emit _ _)
  · exact h

theorem sentFrom_dataOf (s : State) (p : Packet) : SentFrom s (s.dataOf p).2 := by
  unfold State.dataOf
  split
  · exact .refl s
  · exact sentFrom_freeData s

theorem sentFrom_protect (s : State) (p : Packet) (hs : List Nat) (l : Bytes) : SentFrom s (s.protect p hs l).2.2 := by
  unfold State.protect
  split
  · exact .refl s
  · cases s.jobKeyFor p with
    | none => exact sentFrom_freshPayload s
    | some u => exact sentFrom_useKey s p u

theorem sentFrom_sendPacket (s : State) (p : Packet) : SentFrom s (s.sendPacket p) := by
  unfold State.sendPacket
  exact (((sentFrom_dataOf s p).trans (sentFrom_protect _ _ _ _)).trans (sentFrom_freshPayload _)).trans (sentFrom_modPort _ _ _)

theorem sentFrom_cutOut (l : List Out) (s : State) : SentFrom s (s.cutOut l) := by
  induction l generalizing s with
  | nil => exact .refl s
  | cons o l ih =>
    exact ((sentFrom_foldS _ (fun t p => sentFrom_sendPacket t p) _ _).trans (sentFrom_setLnk _ _)).trans (ih _)

theorem sentFrom_sealing (s : State) (p : PortId) (e : TxFlit) : SentFrom s (s.sealing p e).2 := by
  unfold State.sealing
  split
  · exact .refl s
  · split
    · unfold State.beginSeal
      dsimp only
      split
      · exact .refl s
      · exact sentFrom_setPort _ _ _
    · exact .refl s

theorem sentFrom_sealAt (s : State) (p : PortId) (e : TxFlit) : SentFrom s (s.sealAt p e).2 := by
  have h := sentFrom_sealing s p e
  unfold State.sealAt
  split <;> rename_i hs <;> simp only [hs] at h
  · exact h
  · dsimp only
    exact h.trans (sentFrom_modPort _ _ _)

theorem sentFrom_leave (s : State) (p : PortId) (e : TxFlit) : SentFrom s (s.leave p e) := by
  unfold State.leave
  exact (((sentFrom_modPort _ _ _).trans (sentFrom_sealAt _ _ _)).trans (sentFrom_setPort _ _ _)).trans (sentFrom_emit _ _)

theorem sentFrom_freeSrc (s : State) (e : TxFlit) : SentFrom s (s.freeSrc e) := by
  unfold State.freeSrc
  split
  · exact sentFrom_modPort _ _ _
  · exact .refl s

theorem sentFrom_drain (p : PortId) (n : Nat) (s : State) : SentFrom s (s.drain p n) := by
  induction n generalizing s with
  | zero => exact .refl s
  | succ n ih =>
    unfold State.drain
    split
    · exact .refl s
    · exact (((sentFrom_modPort _ _ _).trans (sentFrom_freeSrc _ _)).trans (sentFrom_leave _ _ _)).trans (ih _)

/-- A drain of a port with nothing queued changes nothing. -/
@[simp] theorem drainAll_empty (s : State) (p : PortId) (h : (s.port p.val).txQ = []) : s.drainAll p = s := by
  simp [State.drainAll, h, State.drain]

theorem sentFrom_idlePort (s : State) (p : PortId) : SentFrom s (s.idlePort p) := by
  unfold State.idlePort
  refine SentFrom.trans ?_ (sentFrom_modPort _ _ _)
  split
  · exact (sentFrom_setPort _ _ _).trans (sentFrom_emit _ _)
  · exact .refl _

/-- What the chain ports do in one microsecond leaves every block but the chain, the events, the outbox and the counts under job keys. -/
theorem sentFrom_sendTick (s : State) : SentFrom s s.sendTick := by
  unfold State.sendTick
  dsimp only
  exact (sentFrom_cutOut _ _).trans
    ((sentFrom_foldS _ (fun t p => sentFrom_drain p _ t) _ _).trans (sentFrom_foldS _ (fun t p => sentFrom_idlePort t p) _ _))

/-- Sending touches neither the queue nor the anti-rollback fuses. -/
theorem SentFrom.kept_eq {s t : State} (h : SentFrom s t) : kept t = kept s := by
  obtain ⟨_, _, _, _, _, rfl⟩ := h
  rfl

/-- Nor does a step on an empty queue. -/
@[simp] theorem kept_tick (s : State) : kept s.tick = kept s := by
  unfold State.tick
  split
  · rfl
  · exact (sentFrom_sendTick _).kept_eq

end Sys2Proof.Machine
end

