-- ==== Sys2Proof/Tests/Slice0.lean ====
section
/-! SUPPORT. Sys2Proof/Tests/Slice0.lean: the well-formedness smoke tests, the spec's worked examples, and for every statement with hypotheses a state and operands that meet them. -/

set_option Elab.async false

namespace Sys2Proof.Tests

open Sys2Proof Sys2Proof.Machine Sys2Proof.Safety Sys2Proof.Laws

/-! ### Small states -/

/-- A word from pairs of a value and its lowest bit. -/
def fw (l : List (Nat × Nat)) : Nat := l.foldl (fun n e => n + e.1 * 2 ^ e.2) 0

/-- An instruction word of a class and op. -/
def wd (cls op : Nat) (l : List (Nat × Nat)) : W128 := BitVec.ofNat 128 (fw ((cls, 124) :: (op, 120) :: l))

/-- A word of the vector engine with a func and a format. -/
def vw (func fmt : Nat) (l : List (Nat × Nat)) : W128 := wd 3 0 ((func, 104) :: (fmt, 100) :: l)

/-- A pointer to device memory, and one to a scratchpad. -/
def dp (a : Nat) : Nat := 2 ^ 47 + 2 ^ 46 + a
def sp (a : Nat) : Nat := 2 ^ 47 + a

/-- A descriptor of domain 5 on clusters 0 and 1, with semaphores 0 to 7 and barrier 0. -/
def jd : JobDesc :=
  { jobId := 9, domain := 5, mode := 0, semFirst := 0, semCount := 8, barriers := 1, origin := 1, memberCount := 0, vid := 0
    est := 0, collCount := 0, evidCount := 0, clusters := 3, streams := 0, members := 0, barDesc := 0, admRecord := 0
    requestTable := 0, training := 0, collTable := 0, evidList := 0, inList := 0, outList := 0 }

/-- Its job, live on this node under tag 0x11. -/
def job : Job := { tag := 0x11, fn := 0, q := 0, sqIndex := 0, d := jd, phase := .running, admitted := true, live := [(0, 0)] }

/-- A slot that runs it at device address 0x100. -/
def slot : Slot := { state := .running, tag := 0x11, pc := BitVec.ofNat 48 (dp 0x100) }

/-- Cluster 0: the slot, and the first parcel private to domain 5 with every line valid. -/
def clu0 : Cluster := { slots := [(0, slot)], parcels := [(0, { mode := .priv, domain := 5, valid := BitVec.allOnes 64 })] }

/-- A device that is ready. -/
def up : State := { State.reset with rst := { held := .none }, glb := { ready := true } }

/-- Node 1, ready, with page 0 private to domain 5 and the job running. -/
def run : State :=
  { up with
    lnk := { node := 1, coordinator := 1, members := [1], member := true }
    mem := { usablePages := 1024, pages := [(0, ⟨.priv, 5, false⟩)] }
    cl := [(0, clu0)]
    jobs := { list := [job] } }

/-- The same with another slot 0 of cluster 0, or another cluster 0. -/
def runWith (y : Slot) : State := { run with cl := [(0, { clu0 with slots := [(0, y)] })] }
def runClu (x : Cluster) : State := { run with cl := [(0, x)] }

/-- An issue in slot 0 of cluster 0. -/
def iss (w : W128) : Issue := { cluster := 0, slot := 0, word := w }

/-- Does a command answer a next state that has `p`? -/
def gives (c : Instr) (s : State) (p : State → Bool) : Bool :=
  match exec c s with
  | .next t => p t
  | _ => false

/-- What `Fetched` asks, as a test. -/
def fetched (s : State) (i : Issue) (j : Job) : Bool :=
  decide (s.job (slotOf s i).tag = some j) && (slotOf s i).ready &&
    (match ptrAddr (slotOf s i).pc.toNat with
      | some a => s.inSpace a 16 && s.fetchable j a && decide (s.poisonIn a 16 = none)
      | none => false) &&
    i.fetchBad == 0 && s.rst.pwr != .waking

theorem fetched_iff {s : State} {i : Issue} {j : Job} (h : fetched s i j = true) : Fetched s i j := by
  simp only [fetched, Bool.and_eq_true, decide_eq_true_eq, beq_iff_eq, bne_iff_ne] at h
  obtain ⟨⟨⟨⟨h1, h2⟩, h3⟩, h4⟩, h5⟩ := h
  refine ⟨h1, h2, ?_, h4, h5⟩
  revert h3
  cases ptrAddr (slotOf s i).pc.toNat with
  | none => exact fun h => absurd h (by simp)
  | some a => exact fun h => ⟨a, rfl, by simpa [and_assoc] using h⟩

/-- What `Issues` asks, as a test. -/
def issues (s : State) (i : Issue) (j : Job) : Bool :=
  fetched s i j && selected (slotOf s i) i.word && !(slotOf s i).full && (wf i.word 115 115 != 1 || (slotOf s i).out.isEmpty)

theorem issues_iff {s : State} {i : Issue} {j : Job} (h : issues s i j = true) : Issues s i j := by
  simp only [issues, Bool.and_eq_true, Bool.or_eq_true, bne_iff_ne, List.isEmpty_iff, Bool.not_eq_true'] at h
  exact ⟨fetched_iff h.1.1.1, h.1.1.2, h.1.2, fun e => h.2.resolve_left (fun n => n e)⟩

/-! ### Signed images -/

/-- An image of a kind and svn that the root signs (13 R359, R360). -/
def image (kind : Byte) (svn : Nat) (body : Bytes) : Image :=
  let x (sig : Bytes) : Image := ⟨kind, svn, ⟨Config.rootKey, Config.rootKey, none, sig⟩, body⟩
  x (Config.slhMake Config.slhS Config.rootKey (imageSigned (x [])) [])

theorem rootKey_length : Config.rootKey.length = 64 := sized_length 64 _

theorem signerOk_root (bit svn : Nat) (m : Bytes) :
    signerOk bit svn m ⟨Config.rootKey, Config.rootKey, none, Config.slhMake Config.slhS Config.rootKey m []⟩ = true := by
  simp [signerOk, rootKey_length, Config.rootDigest, slhVerify_make]

theorem imageOk_image (kind fuse svn : Nat) (body : Bytes) (k : kind < 256) :
    imageOk kind fuse (image (BitVec.ofNat 8 kind) svn body) = decide (fuse ≤ svn) := by
  have h : imageSigned (image (BitVec.ofNat 8 kind) svn body) =
    imageSigned ⟨BitVec.ofNat 8 kind, svn, ⟨Config.rootKey, Config.rootKey, none, []⟩, body⟩ := rfl
  rw [imageOk, h]
  simp [image, signerOk_root, Nat.mod_eq_of_lt k]
  rfl

/-- The same signed by a key that the root endorses for its kind up to an svn. -/
def endorsed (kind : Byte) (svn : Nat) (body : Bytes) (svnMax : Nat) : Image :=
  let key : Bytes := List.replicate 64 7
  let bits : Byte := BitVec.ofNat 8 (2 ^ (kind.toNat - 1))
  let e : Endorsement := ⟨bits, svnMax, Config.slhMake Config.slhS Config.rootKey (key ++ endorseHead ⟨bits, svnMax, []⟩) []⟩
  let x (sig : Bytes) : Image := ⟨kind, svn, ⟨Config.rootKey, key, some e, sig⟩, body⟩
  x (Config.slhMake Config.slhS key (imageSigned (x [])) [])

theorem imageOk_endorsed (fuse svn svnMax : Nat) (body : Bytes) :
    imageOk 2 fuse (endorsed 2 svn body svnMax) = (decide (svn ≤ svnMax) && decide (fuse ≤ svn)) := by
  have h : imageSigned (endorsed 2 svn body svnMax) = imageSigned { endorsed 2 svn body svnMax with
    signer := { (endorsed 2 svn body svnMax).signer with sig := [] } } := rfl
  have g (k m r : Bytes) : (Config.slhVerify Config.slhS k m (Config.slhMake Config.slhS k m r)) = true := slhVerify_make _ _ _ _
  rw [imageOk, h]
  simp only [endorsed, signerOk, g, rootKey_length, Config.rootDigest, endorseHead]
  simp
  rfl

/-- A firmware body of one section (14 R371), and a configuration body of the tables 1, 2, 4 and 0xD (14 R372). -/
def fwBody : Bytes := leBytes 128 (fw [(0x5746_4B59, 0), (1, 32), (1, 48), (128, 64), (16, 544), (112, 576)])
def cfgBody : Bytes :=
  leBytes 384 (fw [(0x4746_434B, 0), (1, 32), (4, 48), (384, 64), (1, 128), (1, 512), (192, 544), (64, 576), (2, 768), (256, 800), (4, 1024),
    (256, 1056), (48, 1088), (0xD, 1280), (320, 1312), (16, 1344), (0xFF, 1560), (32, 1584), (2000, 1600), (600, 1632), (50, 1664)])
theorem body_lengths : fwBody.length = 128 ∧ cfgBody.length = 384 := by decide +kernel

/-- An image set of these svns, the configuration image signed by an endorsed key. -/
def set (fwSvn cfgSvn : Nat) : ImageSet := { fw := image 1 fwSvn fwBody, cfg := endorsed 2 cfgSvn cfgBody 64 }

theorem setOk_set (fuse a b : Nat) : setOk fuse (set a b) = (decide (fuse ≤ a) && (decide (b ≤ 64) && decide (fuse ≤ b))) := by
  have h1 : imageFits 0x20_0000 (set a b).fw = true := by
    simp [imageFits, imageSize, trailerLen, set, image, body_lengths.1]
  have h2 : imageFits 0x60_0000 (set a b).cfg = true := by
    simp [imageFits, imageSize, trailerLen, set, endorsed, body_lengths.2]
  rw [setOk, h1, h2, Bool.and_true, Bool.and_true]
  exact congr (congrArg _ (imageOk_image 1 fuse a fwBody (by decide))) (imageOk_endorsed fuse b 64 cfgBody)

/-! ### Streams -/

theorem test_reserved_word_hyps :
    fetched run (iss (wd 0 0 [])) job = true ∧ rowOf (iss (wd 0 0 [])).word = none ∧
    fetched run (iss (wd 5 0 [(1, 0)])) job = true ∧ reservedOk (iss (wd 5 0 [(1, 0)])).word = false ∧
    moveConvOk (iss (wd 1 1 [(0xF, 88)])).word = false := by decide

/-- A word whose fetch is denied, one that fails parity once, and one that fails twice. -/
theorem test_fetch_hyps :
    let i := iss (wd 5 0 [])
    let denied : State := { run with mem := { run.mem with pages := [(0, ⟨.priv, 6, false⟩)] } }
    denied.job (slotOf denied i).tag = some job ∧ (slotOf denied i).ready = true ∧ denied.rst.pwr ≠ .waking ∧
    ptrAddr (slotOf denied i).pc.toNat = some ⟨true, 0x100⟩ ∧ denied.inSpace ⟨true, 0x100⟩ 16 = true ∧
    denied.fetchable job ⟨true, 0x100⟩ = false ∧ i.fetchBad = 0 ∧ run.fetchable job ⟨true, 0x100⟩ = true ∧
    2 ≤ ({ i with fetchBad := 2 } : Issue).fetchBad ∧ ({ i with fetchBad := 1 } : Issue).fetchBad = 1 ∧
    (Instr.nop { i with fetchBad := 1 }).wf = true := by decide

theorem test_predicate_hyps :
    let i := iss (wd 5 4 [(1, 117), (3, 108)])
    fetched run i job = true ∧ selected (slotOf run i) i.word = false ∧ (Instr.setx i).wf = true ∧
    wf i.word 115 115 ≠ 1 ∧ (slotOf run i).full = false := by decide

theorem test_ord_hyps :
    let i := iss (wd 5 4 [(1, 115), (3, 108)])
    let s := runWith { slot with out := [⟨0, .move, [], none, none⟩] }
    let r : Rng := ⟨⟨false, 0⟩, 1, 1, 1, true⟩
    let f := runWith { slot with out := [⟨0, .move, List.replicate 32 r, none, none⟩] }
    fetched s i job = true ∧ wf i.word 115 115 = 1 ∧ (slotOf s i).out ≠ [] ∧ (Instr.setx i).wf = true ∧
    fetched f i job = true ∧ (slotOf f i).full = true ∧
    (slotOf (runWith { slot with out := [⟨0, .move, List.replicate 31 r, none, none⟩] }) i).full = false := by decide

theorem test_scalar_hyps :
    ([(Instr.nop, wd 5 0 []), (.endOp, wd 5 1 []), (.setx, wd 5 4 [(15, 108), (2 ^ 32 - 1, 64)]), (.addx, wd 5 5 [(0, 108)]),
      (.mulx, wd 5 6 [(1, 108), (1, 104)]), (.ptestBelow, wd 5 7 [(1, 109), (2, 106)]), (.ptestEqual, wd 5 7 [(7, 109), (3, 106)]),
      (.ptestAnd, wd 5 7 [(1, 109), (4, 106)]), (.ptestOr, wd 5 7 [(1, 109), (5, 106)])] : List ((Issue → Instr) × W128)).all
      (fun e => issues run (iss e.2) job && (e.1 (iss e.2)).wf) = true := by decide

theorem test_control_flow_hyps :
    let body := runWith { slot with loops := [⟨dp 0x100, 2, 3, 0, 1⟩] }
    let full := runWith { slot with x := [(1, 5)], loops := List.replicate 4 ⟨dp 0x100, 2, 3, 0, 1⟩ }
    let loop (n : Nat) := iss (wd 5 3 [(1, 108), (2, 104), (n, 88)])
    issues run (iss (wd 5 2 [(2 ^ 32 - 1, 80)])) job = true ∧ (Instr.br (iss (wd 5 2 [(2 ^ 32 - 1, 80)]))).wf = true ∧
    issues body (iss (wd 5 2 [(1, 80)])) job = true ∧
    ((dp 0x100 : Int) ≤ dp 0x100 + 16 * 1 ∧ (dp 0x100 : Int) + 16 * 1 < (dp 0x100 + 16 * 2 : Nat)) ∧
    ¬ ((dp 0x100 : Int) + 16 * 2 < (dp 0x100 + 16 * 2 : Nat)) ∧
    issues run (loop 1) job = true ∧ (Instr.loopOp (loop 1)).wf = true ∧ (slotOf run (loop 1)).rx 1 = 0 ∧
    issues (runWith { slot with x := [(1, 1)] }) (loop 0xFFFF) job = true ∧ (Instr.loopOp (loop 0xFFFF)).wf = true ∧
    (slotOf (runWith { slot with x := [(1, 1)] }) (loop 1)).rx 1 = 1 ∧
    issues full (loop 1) job = true ∧ (slotOf full (loop 1)).rx 1 = 5 ∧ (slotOf full (loop 1)).loops.length = 4 ∧
    issues body (loop 2) job = true ∧ ¬ (dp 0x100 + 16 + 16 * 2 ≤ dp 0x100 + 16 * 2) ∧
    issues run (iss (wd 4 3 [])) job = true ∧ (Instr.syncSet (iss (wd 4 3 []))).wf = true := by decide

theorem test_register_load_hyps :
    ([(Instr.ldtd, wd 5 8 [(63, 106)], 8), (.ldbase, wd 5 9 [(7, 109)], 8), (.ldscl, wd 5 10 [(31, 107)], 8),
      (.ldx, wd 5 11 [(15, 108), (1, 32)], 4), (.ptestOccupancy, wd 5 7 [(1, 109), (31, 0)], 4),
      (.ptestRouterCount, wd 5 7 [(1, 109), (1, 106), (5, 0)], 4)] : List ((Issue → Instr) × W128 × Nat)).all
      (fun e =>
        let i := iss e.2.1
        let a : Addr := ⟨false, 16 * wf e.2.1 63 32⟩
        issues run i job && (e.1 i).wf && decide (mAddr run 0 slot (wf e.2.1 63 32) e.2.2 e.2.2 = .ok a) &&
          !slot.hazard [a.rng e.2.2 false] none && decide (poisonCheck run job.who.req a e.2.2 = .ok ())) = true := by decide

/-! ### The vector engine -/

/-- A context whose operations have one active element of 4 bytes. -/
def one : VCtx := { vl := 4 }
def runV : State := runClu { clu0 with vec := [(0, one)] }

/-- No slot but the one that issues has a vector operation ready, and with a second slot at a VEC_ADD one has: it is that slot's turn. -/
theorem test_vector_unit_hyps :
    let i := iss (vw 0x00 0 [])
    let two : State := { runClu { clu0 with
      slots := [(0, { slot with pc := BitVec.ofNat 48 (dp 0x300) }), (1, slot)], vecTurn := ⟨0, 4⟩ } with
        mem := { run.mem with bytes := mputBytes [] 0x100 (leBytes 16 (vw 0x00 0 []).toNat) } }
    runV.vecRivals i = [] ∧ run.vecRivals i = [] ∧ issues two i job = true ∧ two.vecRivals i = [1] ∧ (Instr.vecAdd i).wf = true ∧
    chooseSlot (two.clu 0).slot (0 :: two.vecRivals i) (two.clu 0).vecTurn = some (1, ⟨1, 1⟩) := by decide +kernel

theorem test_elementwise_hyps :
    let i := iss (vw 0x00 0 [(1, 95), (2, 90), (3, 85)])
    issues runV i job = true ∧ (Instr.vecAdd i).wf = true ∧ i.regBad = false ∧ Fmt.ofCode (wf i.word 103 100) = some .fp32 ∧
    okFloat .fp32 = true ∧ (envOf runV i job).actives runV 4 = [0] := by decide

theorem test_elementwise_refusal_hyps :
    let i := iss (vw 0x20 0 [])
    issues runV i job = true ∧ (Instr.vecIadd i).wf = true ∧ Fmt.ofCode (wf i.word 103 100) = some .fp32 ∧ okI32 .fp32 = false ∧
    issues runV { iss (vw 0x00 0 []) with regBad := true } job = true := by decide

theorem test_reduction_hyps :
    ([(Instr.vecRsum, 0x38), (.vecRmax, 0x39), (.vecRmin, 0x3A)] : List ((Issue → Instr) × Nat)).all (fun e =>
      issues run (iss (vw e.2 1 [])) job && (e.1 (iss (vw e.2 1 []))).wf &&
        decide (Fmt.ofCode (wf (vw e.2 1 []) 103 100) = some .bf16)) = true := by decide

theorem test_conversion_and_random_hyps :
    ([(Instr.vecBcast, 0x45, 1), (.vecRraw, 0x48, 8), (.vecRuni, 0x49, 0), (.vecRbern, 0x4A, 0)] :
        List ((Issue → Instr) × Nat × Nat)).all (fun e =>
      issues run (iss (vw e.2.1 e.2.2 [])) job && (e.1 (iss (vw e.2.1 e.2.2 []))).wf) = true ∧
    Fmt.ofCode 1 = some .bf16 ∧ Fmt.okVector .bf16 = true ∧ Fmt.ofCode 8 = some .int32 ∧ Fmt.ofCode 0 = some .fp32 ∧
    okFloat .fp32 = true := by decide

theorem test_vec_cvt_hyps :
    let i := iss (vw 0x30 0 [(1, 72)])
    let k := iss (vw 0x30 0 [(1, 72), (3, 67), (2, 0)])
    let a : Addr := ⟨false, 0⟩
    issues runV i job = true ∧ (Instr.vecCvt i).wf = true ∧
    ((ConvCtl.decode (wf i.word 75 64)).map fun c => (c.dst, c.amaxEn)) = some (.bf16, false) ∧
    issues runV k job = true ∧ (Instr.vecCvt k).wf = true ∧
    ((ConvCtl.decode (wf k.word 75 64)).map fun c => (c.dst, c.amaxEn, c.amaxRow)) = some (.bf16, true, true) ∧
    (envOf runV k job).vecAddr runV (16 + 4 * 3) 16 = .ok a ∧
    (slotOf runV k).hazard [a.rng 16 true, (a.plus (16 + 4 * 2)).rng 4 true] none = false := by decide

theorem test_vector_memory_hyps :
    ([(Instr.vecLd, 0x40, false), (.vecSt, 0x41, false), (.vecGather, 0x42, true), (.vecScatter, 0x43, true),
      (.vecScatadd, 0x44, true)] : List ((Issue → Instr) × Nat × Bool)).all (fun e =>
      let i := iss (vw e.2.1 0 [])
      let v := envOf runV i job
      let a : Addr := ⟨false, 0⟩
      issues runV i job && (e.1 i).wf && decide (mAddr runV 0 slot (wf i.word 63 32) 1 1 = .ok a) && okGather .fp32 &&
        (v.actives runV 4).all (fun n => (v.elemAddr runV a 4 e.2.2 n).isSome) &&
        !slot.hazard (((v.actives runV 4).filterMap (v.elemAddr runV a 4 e.2.2)).map fun b => b.rng 4 true) none) = true := by
  decide

theorem test_mask_hyps :
    ([(Instr.vecMand, 0x5B), (.vecMor, 0x5C), (.vecMnot, 0x5D)] : List ((Issue → Instr) × Nat)).all (fun e =>
      issues runV (iss (vw e.2 0 [(7, 95)])) job && (e.1 (iss (vw e.2 0 [(7, 95)]))).wf) = true ∧
    issues runV (iss (vw 0x08 0 [(0, 95), (5, 64)])) job = true ∧ (Instr.vecCmp (iss (vw 0x08 0 [(5, 64)]))).wf = true ∧
    okFloatMove .fp32 = true ∧
    issues runV (iss (vw 0x2D 5 [(1, 95)])) job = true ∧ (Instr.vecIcmp (iss (vw 0x2D 5 [(1, 95)]))).wf = true ∧
    okPacked .int8 = true := by decide

theorem test_length_mask_topk_hyps :
    let a : Addr := ⟨false, 0⟩
    let free (i : Issue) (n : Nat) := (slotOf runV i).hazard [a.rng n true, a.rng n false] none = false
    (issues runV (iss (vw 0x58 0 [(1, 95), (2, 90)])) job = true ∧ (Instr.vecSetvl (iss (vw 0x58 0 [(1, 95), (2, 90)]))).wf = true) ∧
    (issues runV (iss (vw 0x4B 0 [])) job = true ∧ (Instr.vecLdgen (iss (vw 0x4B 0 []))).wf = true ∧
      (envOf runV (iss (vw 0x4B 0 [])) job).vecAddr runV 32 1 = .ok a ∧
      (GenDesc.decode (runV.read job.who.req a 32)).isSome = true ∧ free (iss (vw 0x4B 0 [])) 32) ∧
    (issues runV (iss (vw 0x59 0 [])) job = true ∧ (Instr.vecMld (iss (vw 0x59 0 []))).wf = true ∧
      (envOf runV (iss (vw 0x59 0 [])) job).vecAddr runV 32 1 = .ok a) ∧
    (issues runV (iss (vw 0x5A 0 [])) job = true ∧ (Instr.vecMst (iss (vw 0x5A 0 []))).wf = true ∧
      (envOf runV (iss (vw 0x5A 0 [])) job).vecAddr runV 32 1 = .ok a ∧
      (envOf runV (iss (vw 0x5A 0 [])) job).actives runV 4 ≠ []) ∧
    (issues runV (iss (vw 0x50 0 [(63, 64)])) job = true ∧ (Instr.vecTopk (iss (vw 0x50 0 [(63, 64)]))).wf = true ∧
      okReduce .fp32 = true ∧ (envOf runV (iss (vw 0x50 0 [(63, 64)])) job).vecAddr runV 512 8 = .ok a ∧
      free (iss (vw 0x50 0 [(63, 64)])) 512) := by decide

/-! ### Semaphores and barriers -/

/-- A SYNC word: node 1, cluster and index of the semaphore, count. -/
def sy (op node c i n : Nat) : W128 := wd 4 op [(node, 96), (c, 90), (i, 80), (n, 48)]

theorem test_signal_and_wait_hyps :
    let s := runClu { clu0 with sems := [(7, 3)] }
    let q := runClu { clu0 with sems := [(7, 3)], waiters := [⟨1, 7, true, 9⟩] }
    (issues s (iss (sy 0 1 1 0 0xFFFF_FFFF)) job = true ∧ (Instr.signalOp (iss (sy 0 1 1 0 0xFFFF_FFFF))).wf = true ∧
      job.holdsSem 1 0 = true ∧ ((s.clu 1).sem 0).toNat + 0xFFFF_FFFF < 2 ^ 32 ∧ slot.full = false) ∧
    semRef (BitVec.ofNat 32 (wf (sy 1 1 0 7 3) 111 80)) = ⟨1, 0, 7⟩ ∧ job.holdsSem 0 7 = true ∧ s.lnk.node = 1 ∧
    (issues s (iss (sy 1 1 0 7 3)) job = true ∧ (Instr.waitTake (iss (sy 1 1 0 7 3))).wf = true ∧ ((s.clu 0).sem 7).toNat = 3) ∧
    (issues s (iss (sy 2 1 0 7 3)) job = true ∧ (Instr.waitObs (iss (sy 2 1 0 7 3))).wf = true) ∧
    (issues s (iss (sy 2 1 0 7 4)) job = true ∧ (Instr.waitObs (iss (sy 2 1 0 7 4))).wf = true ∧ ((s.clu 0).sem 7).toNat < 4) ∧
    (issues q (iss (sy 1 1 0 7 3)) job = true ∧ ((q.clu 0).waiters.any fun w => w.take && w.sem == 7) = true) := by decide

theorem test_semaphore_check_hyps :
    let bw := wd 4 4 [(1, 44)]
    (issues run (iss (sy 1 2 0 0 1)) job = true ∧ (Instr.waitTake (iss (sy 1 2 0 0 1))).wf = true) ∧
    (issues run (iss (sy 2 1 1 0 1)) job = true ∧ (Instr.waitObs (iss (sy 2 1 1 0 1))).wf = true) ∧
    (issues run (iss (sy 0 1 0 8 1)) job = true ∧ (Instr.signalOp (iss (sy 0 1 0 8 1))).wf = true ∧ job.holdsSem 0 8 = false) ∧
    (issues run (iss bw) job = true ∧ (Instr.barrier (iss bw)).wf = true ∧ run.holdsBar job.tag 1 = false) := by decide

theorem test_barrier_hyps :
    let s : State := { run with bars := [(0, { state := .armed, tag := 0x11, localArrivals := 2 })] }
    let i := iss (wd 4 4 [(0xFFFF_FFFF, 12)])
    issues s i job = true ∧ (Instr.barrier i).wf = true ∧ s.holdsBar job.tag 0 = true ∧ (slotOf s i).out = [] ∧
    (s.bar 0).state = .armed ∧ (s.bar 0).arrived + 1 ≠ (s.bar 0).localArrivals := by decide

/-! ### MOVE, ROUTE, MMA -/

/-- A tile descriptor of 05 Table 5.4: format, base register, 64 B block, rows, columns. -/
def td (f b k r c : Nat) : W64 := BitVec.ofNat 64 (fw [(f, 60), (b, 57), (k, 41), (r - 1, 31), (c - 1, 17)])

/-- Tile registers: FP32 1 × 4 at blocks 0 and 1, INT32 1 × 8 at block 2, FP32 2 × 4 at block 4, BF16 1 × 4 at block 8. -/
def tiles : Slot := { slot with t := [(0, td 0 0 0 1 4), (1, td 0 0 1 1 4), (2, td 8 0 2 1 8), (3, td 0 0 4 2 4), (4, td 1 0 8 1 4)] }
def runT : State := runWith tiles
def tile (f : Fmt) (k r c : Nat) : Tile := { fmt := f, addr := ⟨false, 64 * k⟩, rows := r, cols := c, pitch := 64, scl := 0 }

theorem test_move_hyps :
    let e (w : W128) := envOf runT (iss w) job
    let a := tile .fp32 0 1 4
    let b := tile .fp32 1 1 4
    let c := tile .bf16 8 1 4
    ([(Instr.moveCopy, wd 1 0 [(16, 102)]), (.moveFill, wd 1 2 [(16, 102), (0xFFFF_FFFF, 0)]),
      (.moveConv, wd 1 1 [(64, 102), (1, 88)])] : List ((Issue → Instr) × W128)).all
      (fun p => issues runT (iss p.2) job && (p.1 (iss p.2)).wf && decide ((e p.2).moveSem runT = none)) = true ∧
    (e (wd 1 0 [(16, 102)])).tile runT 0 = .ok a ∧ (e (wd 1 0 [])).tile runT 16 = .ok b ∧ (e (wd 1 0 [])).tile runT 64 = .ok c ∧
    poisonAll runT job.who.req a.reads = .ok () ∧ tiles.crowded 2 = false ∧ (a.fmt = .fp32 ∧ b.fmt ≠ .run) ∧ tiles.hazard [a.rng false, b.rng true, c.rng true] none = false ∧
    ((ConvCtl.decode (wf (wd 1 1 [(64, 102), (1, 88)]) 91 80)).map fun c => (c.dst, c.amaxEn)) = some (.bf16, false) ∧
    (e (wd 1 0 [])).scaleOf runT a = .ok none := by decide

/-- A CONV to INT8 with channel 1 an outlier, its side tile at block 32. -/
theorem test_quantising_move_hyps :
    let y : Slot := { slot with t := [(0, td 0 0 0 1 4), (1, td 5 0 1 1 4)] }
    let s := runWith y
    let o : Outliers := ⟨1 :: List.replicate 63 0xFFFF, 4, [7], BitVec.ofNat 48 (sp 2048)⟩
    let i : Issue := { iss (wd 1 1 [(16, 102), (5, 88)]) with outliers := some o }
    let e := envOf s i job
    let st : Tile := ⟨.bf16, ⟨false, 2048⟩, 1, 64, 128, 0⟩
    issues s i job = true ∧ (Instr.moveConv i).wf = true ∧ e.tile s 0 = .ok (tile .fp32 0 1 4) ∧ e.tile s 16 = .ok (tile .int8 1 1 4) ∧
    ((ConvCtl.decode (wf i.word 91 80)).map fun c => (c.dst, c.amaxEn)) = some (.int8, false) ∧ e.quantList .int8 = some o ∧
    s.sideTile 1 o = some st ∧ s.sideTile 1 { o with side := 0 } = none ∧
    y.hazard [(tile .fp32 0 1 4).rng false, (tile .int8 1 1 4).rng true, st.rng true] none = false ∧
    gives (.moveConv i) s (fun t => (t.clu 0).bytes == [(65, 7)]) = true := by decide +kernel

/-- A MOVE to node 2 leaves by its route. -/
theorem test_remote_move_hyps :
    let s : State := { runT with lnk := { runT.lnk with routes := [⟨2, 2, 1, true, false, true⟩] } }
    let i := iss (wd 1 0 [(16, 102), (2, 64), (1, 63)])
    issues s i job = true ∧ (Instr.moveCopy i).wf = true ∧ wf i.word 63 63 = 1 ∧ BitVec.ofNat 16 (wf i.word 79 64) ≠ s.lnk.node ∧
    (s.route 2).isSome = true ∧
    gives (.moveCopy i) s (fun t => t.out == [.write 2 0x11 1 (BitVec.ofNat 44 64) (List.replicate 16 0)]) = true := by decide

theorem test_move_refusal_hyps :
    let e := envOf runT (iss (wd 1 0 [])) job
    issues runT (iss (wd 1 0 [(48, 102)])) job = true ∧ (Instr.moveCopy (iss (wd 1 0 [(48, 102)]))).wf = true ∧
    e.tile runT 48 = .ok (tile .fp32 4 2 4) ∧ e.tile runT 0 = .ok (tile .fp32 0 1 4) ∧
    issues runT (iss (wd 1 1 [(16, 102), (1, 88)])) job = true ∧ (Instr.moveConv (iss (wd 1 1 [(16, 102), (1, 88)]))).wf = true := by
  decide

theorem test_route_hyps :
    let rw (op : Nat) (l : List (Nat × Nat)) := wd 6 op ([(0, 92), (16, 32)] ++ l)
    let cmds : List ((Issue → Instr) × W128) := [(.topk, rw 0 []), (.gather, rw 1 [(16, 102), (32, 82)]),
      (.scatter, rw 2 [(16, 102), (32, 82)]), (.dispatch, rw 3 [(16, 102), (32, 82), (1, 16)])]
    let e := envOf runT (iss (rw 1 [])) job
    let src := tile .fp32 0 1 4
    let dst := tile .fp32 1 1 4
    let aux := tile .int32 2 1 8
    let rec' : Addr := ⟨false, 256⟩
    cmds.all (fun p => issues runT (iss p.2) job && (p.1 (iss p.2)).wf && decide ((envOf runT (iss p.2) job).routeSem 1 none = none))
      = true ∧
    e.tile runT 0 = .ok src ∧ e.tile runT 16 = .ok dst ∧ e.tile runT 32 = .ok aux ∧
    mAddr runT 0 tiles 16 8 8 = .ok rec' ∧ poisonAll runT job.who.req ((rec', 8) :: (src.reads ++ aux.reads)) = .ok () ∧
    poisonAll runT job.who.req ((rec', 8) :: (src.reads ++ [])) = .ok () ∧ tiles.crowded 4 = false ∧
    tiles.hazard [src.rng false, rec'.rng 8 true, dst.rng true, aux.rng true] none = false ∧
    ((List.range 1).filter fun n => (recFind runT job.who.req rec' 1 n 0).isSome).length ≤ dst.rows ∧
    runT.elem job.who.req aux 0 0 = 0 := by decide

/-- A group descriptor at scratchpad address 0: an FP32 target of 32 × 32 at block 16, nothing else. -/
def gtile : Tile := { fmt := .fp32, addr := ⟨false, 1024⟩, rows := 32, cols := 32, pitch := 128, scl := 0 }
def gdesc : GrpDesc := ⟨BitVec.ofNat 1024 ((td 0 0 16 32 32).toNat * 2 ^ 960), gtile, none, none, none⟩
def gbytes : SMap Byte := mputBytes [] 120 ((List.range 8).map fun i => BitVec.ofNat 8 ((td 0 0 16 32 32).toNat / 256 ^ i))
def runG : State := runClu { clu0 with bytes := gbytes }

theorem test_mma_open_hyps :
    let i := iss (wd 2 0 [(15, 108)])
    let a : Addr := ⟨false, 0⟩
    issues runG i job = true ∧ (Instr.mmaOpen i).wf = true ∧ mAddr runG 0 slot (wf i.word 107 76) 128 1 = .ok a ∧
    (runG.group 0 15).state = .free ∧ slot.full = false ∧ slot.hazard [a.rng 128 false] none = false ∧
    grpDesc runG (envOf runG i job) (runG.read job.who.req a 128) = some gdesc ∧ gdesc.legal runG 0 (runG.clu 0).targets = true ∧
    a.a % 64 = 0 ∧ spdCluster a.a = 0 ∧ spdCluster (a.a + 127) = 0 ∧ slot.crowded gdesc.openRngs.length = false ∧
    semCheck runG job (gdesc.doneSem 1 0) = .ok () ∧ slot.hazard gdesc.openRngs none = false ∧ gdesc.sideEn = false := by decide +kernel

/-- The group open in slot 0, with BF16 operand tiles of 32 × 64 and 64 × 32. -/
def gslot : Slot := { slot with t := [(0, td 1 0 128 32 64), (1, td 1 0 256 32 64)] }
def runO (g : Group) : State := runClu { clu0 with slots := [(0, gslot)], groups := [(15, g)] }
def opened : Group := { state := .opened, slot := 0, tag := 0x11, desc := some gdesc }
def opA : Tile := { fmt := .bf16, addr := ⟨false, 64 * 128⟩, rows := 32, cols := 64, pitch := 128, scl := 0 }
def opB : Tile := { fmt := .bf16, addr := ⟨false, 64 * 256⟩, rows := 32, cols := 64, pitch := 128, scl := 0 }

theorem test_group_owner : ownerOf (runO opened) (envOf (runO opened) (iss (wd 2 1 [(15, 108)])) job) 15 = .owns gdesc := by rfl

theorem test_mma_acc_hyps :
    let i := iss (wd 2 1 [(15, 108), (0, 98), (16, 88)])
    let e := envOf (runO opened) i job
    issues (runO opened) i job = true ∧ (Instr.mmaAcc i).wf = true ∧ e.tile (runO opened) 0 = .ok opA ∧
    e.tile (runO opened) 16 = .ok opB ∧ e.tile? (runO opened) 0 = .ok none ∧
    accShape gdesc opA opB none none false false = some 64 ∧ gslot.crowded 3 = false ∧
    gslot.hazard [opA.rng false, opB.rng false, gtile.rng true] (some 15) = false := by decide +kernel

theorem test_mma_close_hyps :
    let i := iss (wd 2 3 [(15, 108)])
    let rs := gdesc.closeRngs (zpRec (runO opened) job.who.req gdesc)
    issues (runO opened) i job = true ∧ (Instr.mmaClose i).wf = true ∧ gslot.crowded rs.length = false ∧
    gslot.hazard rs (some 15) = false := by decide +kernel

/-- An integer group with a side pass, its side sum at block 512. -/
def sdesc : GrpDesc :=
  ⟨BitVec.ofNat 1024 (fw [(8, 72), (1, 82), (sp (64 * 512), 384)]), { gtile with fmt := .int32 }, none, none, none⟩

theorem test_mma_side_hyps :
    let i := iss (wd 2 2 [(15, 108), (0, 98), (16, 88)])
    let s := runO { opened with desc := some sdesc }
    issues s i job = true ∧ (Instr.mmaSide i).wf = true ∧ (envOf s i job).tile s 0 = .ok opA ∧ (envOf s i job).tile s 16 = .ok opB ∧
    sdesc.sideTile.isSome = true ∧ aLen sdesc opA false = some 64 ∧ bLen sdesc opB false = some 64 ∧
    (List.all [([] : List W16), [3, 9], [9, 3]] fun l =>
      issues s { i with outliers := some ⟨l ++ List.replicate (64 - l.length) 0xFFFF, 128, [], 0⟩ } job) = true ∧
    outliersOk ⟨3 :: 9 :: List.replicate 62 0xFFFF, 10, [], 0⟩ = true ∧ outliersOk ⟨3 :: 9 :: List.replicate 62 0xFFFF, 9, [], 0⟩ = false ∧
    outliersOk ⟨9 :: 3 :: List.replicate 62 0xFFFF, 10, [], 0⟩ = false ∧ outliersOk ⟨List.replicate 64 0xFFFF, 10, [], 0⟩ = true ∧
    outliersEmpty ⟨List.replicate 64 0xFFFF, 10, [], 0⟩ = true ∧ outliersEmpty ⟨3 :: 9 :: List.replicate 62 0xFFFF, 10, [], 0⟩ = false := by
  decide +kernel

/-- A chunk of the opened group. -/
def chunk : Chunk :=
  { side := false, a := opA, b := opB, metaT := none, occ := none, aK := false, bK := false, k0 := 0, k1 := 32
    passes := [(0, 0)], last := true, id := 0 }

theorem test_group_work_hyps :
    (let x : Cluster := { clu0 with slots := [(0, gslot)], groups := [(15, { opened with chunks := [chunk] })] }
     let s := runClu { x with owners := [15] }
     (s.group 0 15).desc = some gdesc ∧ s.job (s.group 0 15).tag = some job ∧ poisonAll s job.who.req chunk.reads = .ok () ∧
     gtile.rowBytes ≤ gtile.pitch ∧ (15 : GId) ∈ (s.clu 0).owners ∧ (15 : GId) ∉ ((runClu x).clu 0).owners ∧ gdesc.arrays = [0] ∧
     x.grant.owners = [15]) ∧
    (let s := runO { opened with state := .closing }
     poisonAll s job.who.req (gdesc.epiReads (zpRec s job.who.req gdesc)) = .ok () ∧ gdesc.zpEn = false ∧
     gdesc.usesRescale = false ∧ (s.group 0 15).epilogued = false) ∧
    (runO { opened with state := .closing, epilogued := true }).job 0x11 = some job := by decide +kernel

theorem test_chunks_worked :
    (chunksOf chunk 70 32).map (fun c => (c.k0, c.k1, c.last)) = [(0, 32, false), (32, 64, false), (64, 70, true)] := by decide

theorem test_completion_hyps :
    let o : Outst := ⟨3, .move, [], some ⟨1, 0, 7⟩, none⟩
    (o ∈ ((runWith { slot with out := [o] }).slot 0 0).out ∧ ∀ q ∈ ((runWith { slot with out := [o] }).slot 0 0).out, q.id = o.id → q = o) ∧
    ((runWith { slot with state := .draining }).slot 0 0).state = .draining := by decide

theorem test_signal_saturates_hyps :
    let s := runClu { clu0 with sems := [(7, BitVec.allOnes 32)] }
    s.job 0x11 = some job ∧ job.holdsSem 0 7 = true ∧ 7 ∉ (s.clu 0).stuck ∧ 2 ^ 32 ≤ ((s.clu 0).sem 7).toNat + (1 : W32).toNat ∧
    7 ∈ ((runClu { clu0 with stuck := [7] }).clu 0).stuck := by decide

/-! ### Messages, barriers of the chain -/

/-- What `Heard` asks, as a test. -/
def heard (s : State) (m : Msg) (vcs : List Nat) : Bool :=
  s.portCarries m.port m.vc.toNat && vcs.contains m.vc.toNat && decide (m.keyId.toNat = if m.tag = 0 then 0 else 0xFFF) &&
    !s.wakeUp.retiredKey m.tag && m.verifies

theorem heard_iff {s : State} {m : Msg} {vcs : List Nat} (h : heard s m vcs = true) : Heard s m vcs := by
  simp only [heard, Bool.and_eq_true, decide_eq_true_eq, Bool.not_eq_true'] at h
  exact ⟨h.1.1.1.1, h.1.1.1.2, h.1.1.2, h.1.2, h.2⟩

/-- Nodes 1 and 2 in a chain, joined by port 0 of each, with the coordinator at its end or beyond this node. -/
def pair (coordinator : NodeId) : Topo :=
  { nodes := [⟨1, [⟨2, 1⟩], none, 0, 0⟩, ⟨2, [⟨1, 1⟩], some 1, 0, 0⟩], coordinator := coordinator, deputy := 2 }
/-- A state at node 1 of the chain, with node 2 at port 0: a child of the control tree, or (as a leaf) its parent and the
coordinator. -/
def inChain (s : State) : State :=
  { s with
    cfg := { live := { topo := pair 1 } }
    lnk :=
    { node := 1, coordinator := 1, members := [1, 2], member := true, routes := [⟨2, 2, 1, true, false, true⟩]
      ports := [(0, { state := .up, enabled := true, peer := 2, granted := [true, true, true, true] })] } }
def asLeaf (s : State) : State :=
  { s with
    cfg := { live := { topo := pair 2 } }
    lnk := { (inChain s).lnk with coordinator := 2, routes := [⟨2, 2, 1, true, true, false⟩] } }
/-- Node 1 between node 2 at port 0, its child of the control tree, and node 3 at port 1, its parent and the coordinator. -/
def asMid (s : State) : State :=
  { s with
    cfg := { live := { topo :=
      { nodes := [⟨2, [⟨1, 1⟩], some 1, 0, 0⟩, ⟨1, [⟨2, 1⟩, ⟨3, 2⟩], some 3, 0, 0⟩, ⟨3, [⟨1, 1⟩], none, 0, 0⟩], coordinator := 3
        deputy := 1 } } }
    lnk := { (inChain s).lnk with
      coordinator := 3, members := [2, 1, 3], routes := [⟨2, 2, 1, true, false, true⟩, ⟨3, 3, 2, true, true, false⟩]
      ports := [(0, { state := .up, enabled := true, peer := 2, granted := [true, true, true, true] }),
                (1, { state := .up, enabled := true, peer := 3, granted := [true, true, true, true] })] } }
def chain : State := inChain run
def leaf : State := asLeaf run

/-- A message of node 2 for this node, of job 0x11 or of none. -/
def msg (vc : Nat) : Msg := { port := 0, src := 2, dst := 1, tag := 0x11, keyId := 0xFFF, vc := BitVec.ofNat 2 vc, verifies := true }
def msg0 : Msg := { msg 0 with tag := 0, keyId := 0 }

theorem test_semaphore_messages_hyps :
    let s : State := { chain with
      cl := [(0, { clu0 with
        sems := [(7, 3)], slots := [(0, { slot with out := [⟨4, .remoteSignal, [], none, none⟩] })] })]
      jobs := { list := [{ job with remote := [(0, 0, ⟨2, 0, 7⟩, 4)] }] } }
    let sem : W32 := BitVec.ofNat 32 (1 * 2 ^ 16 + 7)
    let j := { job with remote := [(0, 0, ⟨2, 0, 7⟩, 4)] }
    heard s (msg 1) [1, 3] = true ∧ heard s (msg 3) [1, 3] = true ∧ (msg 1).dst = s.lnk.node ∧ (s.route 2).isSome = true ∧
    s.job 0x11 = some j ∧ semRef sem = ⟨1, 0, 7⟩ ∧ j.holdsSem 0 7 = true ∧ 7 ∉ (s.clu 0).stuck ∧
    ((s.clu 0).sem 7).toNat + (2 ^ 32 - 4) < 2 ^ 32 ∧ j.holdsSem (semRef (sem + 1)).cluster.val (semRef (sem + 1)).index = false ∧
    s.job 0x12 = none ∧ heard s (msg 0) [0] = true ∧
    j.remote.find? (fun x => x.2.2.1 == semRef (BitVec.ofNat 32 (2 * 2 ^ 16 + 7))) = some (0, 0, ⟨2, 0, 7⟩, 4) ∧
    (s.slot 0 0).tag = (msg 0).tag ∧
    gives (.signalMsg (msg 1) sem 0xFFFF_FFFC) s (fun t => (t.clu 0).sem 7 == 0xFFFF_FFFF) = true ∧
    gives (.signalAck (msg 0) (BitVec.ofNat 32 (2 * 2 ^ 16 + 7)) true) s (fun t => (t.slot 0 0).out.isEmpty) = true := by decide

theorem test_sem_set_hyps :
    ((false = true ∨ 2 ≤ ({ run with sec := { debugLevel := 2 } } : State).sec.debugLevel) ∧ run.sec.debugLevel < 2) ∧
    gives (.semSet 0 (BitVec.ofNat 64 (7 * 2 ^ 32 + 5)) true) run (fun t => (t.clu 0).sem 7 == 5) = true := by decide

theorem test_barrier_messages_hyps :
    let x : Bar := { state := .armed, tag := 0x11, localArrivals := 2 }
    let at' (s : State) (x : Bar) : State := { s with bars := [(0, x)] }
    let w : Bar := { x with state := .waitRelease, epStep := 5, arrived := 2, blocked := [(0, 0)], realignEn := true, periodLog2 := 1 }
    heard (at' chain x) (msg 0) [0] = true ∧ (at' chain x).job 0x11 = some job ∧ (at' chain x).holdsBar 0x11 0 = true ∧
    chain.isChildPort 0 = true ∧ x.arrived ≠ x.localArrivals ∧
    (heard (at' chain { x with state := .collecting, epStep := 5 }) (msg 0) [0] = true ∧ (4 : W32) ≠ 5) ∧
    (heard (at' leaf w) (msg 0) [0] = true ∧ (at' leaf w).holdsBar 0x11 0 = true ∧ leaf.isParentPort 0 = true ∧
      w.epStep.toNat % 2 ^ w.periodLog2 ≠ 0) ∧
    job.stop = none ∧ (msg 0).tag ≠ 0 ∧ chain.job 0x12 = none ∧ heard chain { msg 0 with tag := 0x12 } [0] = true ∧
    chain.lnk.left = false ∧ chain.jobChildren { job with members := [1, 2] } = 1 ∧ chain.jobChildren job = 0 ∧
    gives (.barrierAbort { msg 0 with tag := 0x12 } 0 false) chain (fun t => t.out == [.barAbort (.but 0) 0x12 0 false]) = true ∧
    gives (.release (msg 0) 0 5 []) (at' leaf w) (fun t => (t.bar 0).state == .armed) = true := by decide

/-! ### Main memory -/

/-- The device with domain 5 open, a second page free and a third private to a domain that is gone. -/
def mems : State :=
  { run with
    jobs := {}
    sec := { sessions := [(5, { state := .opened })] }
    mem := { run.mem with pages := [(0, ⟨.priv, 5, false⟩), (2, ⟨.priv, 6, false⟩)] } }

theorem test_retag_hyps :
    let v : W64 := BitVec.ofNat 64 (fw [(1, 62), (5, 50), (0, 44), (0, 33), (2047, 22)])
    mems.up = true ∧ mems.mem.cmdState ≠ .busy ∧ bitsOf v 63 62 = 1 ∧ mems.inCache 2047 = false ∧
    bitsOf v 43 33 + (bitsOf v 32 22 + 1) = 2048 ∧ mems.liveSession 5 = true ∧
    (mems.clu 0).parcels.all (fun e => e.2.mode == .priv && e.2.domain == 5 && !e.2.cache) = true ∧ mems.liveOn 5 0 = false ∧
    gives (.memRetag (BitVec.ofNat 64 (fw [(1, 62), (5, 50), (0, 44), (2046, 33), (1, 22)]))) mems (fun t =>
      (t.clu 0).parcel 2047 == { mode := .priv, domain := 5 } && (t.clu 0).parcel 0 == (mems.clu 0).parcel 0) = true := by decide

theorem test_page_command_hyps :
    let v (op d first n : Nat) : W64 := BitVec.ofNat 64 (fw [(op, 61), (d, 47), (first, 29), (n - 1, 11)])
    let p (op d first n : Nat) := pageCmd (v op d first n)
    (p 0 5 1023 1).first + (p 0 5 1023 1).n = mems.mem.usablePages ∧ (p 0 5 1023 1).op = 0 ∧
    (mems.page 1023).mode = .free ∧ (mems.page 1023).scrubbing = false ∧ mems.liveSession (p 0 5 1023 1).d = true ∧
    (p 1 0 0 1).op = 1 ∧ (p 1 0 0 1).d = 0 ∧ (mems.page 0).mode = .priv ∧ mems.liveOf 5 = false ∧ mems.parkHolds 0 1 = false ∧
    (p 2 0 2 1).op = 2 ∧ (p 2 0 2 1).n = 1 ∧ (mems.page 2).mode ≠ .free ∧ (p 0 5 2 1).op = 0 ∧
    gives (.pageAssign (v 0 5 1023 1)) mems (fun t => t.page 1023 == ⟨.priv, 5, false⟩) = true ∧
    gives (.pageQuery (v 2 0 2 1)) mems (fun t => t.mem.qdomain == 6) = true ∧
    gives (.pageScrub (v 1 0 0 1)) mems (fun t =>
      t.page 0 == ⟨.free, 0, true⟩ && gives (.scrubDone 0) t fun u => u.page 0 == {} && u.mem.cmdState == .done) = true := by decide

theorem test_parity_hyps :
    let s : State := { mems with mem := { mems.mem with density := 0, pages := [(0, ⟨.priv, 5, false⟩), (1, ⟨.base, 0, false⟩)] } }
    let l : State := { s with mem := { s.mem with ctls := [(ctlOf 64, { poison := [64] })] } }
    64 < s.devBytes ∧ 2 ^ 23 < s.devBytes ∧ 64 ∉ (s.ctl (ctlOf 64)).poison ∧ 64 ∉ (s.ctl (ctlOf 64)).stuck ∧
    (s.page (pageOf 64)).mode = .priv ∧ (s.page (pageOf (2 ^ 23))).mode = .base ∧ s.variantsAt 0 = [] ∧ 64 ∈ (l.ctl (ctlOf 64)).poison ∧
    gives (.lpddrParityFail 70 0x11 2) s (fun t => (t.ctl (ctlOf 64)).replays == 3) = true ∧
    gives (.lpddrParityFail 70 0x11 3) s (fun t => (t.ctl (ctlOf 64)).poison == [64]) = true ∧
    gives (.lpddrParityFail (BitVec.ofNat 41 (2 ^ 23)) 0x11 3) s (fun t => t.mem.refetching == [(2 ^ 23, 0x11)]) = true := by decide

/-! ### Power, thermal, life -/

/-- Every cluster at 1,000 M steps/s but number 7, at 900. -/
def mon : List (BitVec 12 × BitVec 12) := (List.range 64).map fun c => if c = 7 then (900, 950) else (1000, 1000)

theorem test_pace_hyps :
    let j := { job with d := { jd with mode := 4, est := 1 } }
    let s : State := { run with jobs := { list := [j] }, life := { clock := 2 } }
    (Instr.paceUpdate mon).wf = true ∧ up.up = true ∧ up.jobs.list.all (fun j => !j.serving) = true ∧
    s.up = true ∧ j.admitted = true ∧ j.phase = .running ∧ j.serving = true ∧ j.live ≠ [] ∧ j.stop = none ∧
    j.charge + (s.life.clock - j.lastUs).toNat * 900 = 1800 ∧ 1024 < 1800 ∧ 1800 ≤ 2 * 1024 ∧
    gives (.paceUpdate mon) { s with jobs := { list := [{ j with stop := some (Stat.aborted, 0) }] } } (fun t => t.evt == s.evt) = true ∧
    gives (.paceUpdate mon) up (fun t => t.glb.slowest == 7 && t.glb.minMsps == 900 && t.glb.meanMsps == 999) = true ∧
    gives (.paceUpdate mon) s (fun t => (t.job 0x11).all fun k => k.stop == some (Stat.aborted, Ev.hifOverrun)) = true := by decide +kernel

/-- 07 Table 7.9: step k is left upwards at 92 + k °C and downwards below 90 + k °C. -/
theorem test_sram_steps :
    let l (t : Int) : List (List W16) := List.replicate 4 (BitVec.ofInt 16 t :: List.replicate 15 0)
    let s (k : Nat) : State := { up with mem := { up.mem with tierStep := [(0, k)] } }
    (Instr.sramStepSample (l 1472)).wf = true ∧
    gives (.sramStepSample (l 1472)) (s 0) (fun t => mget 0 t.mem.tierStep 0 == 1) = true ∧
    gives (.sramStepSample (l 1471)) (s 0) (fun t => mget 0 t.mem.tierStep 0 == 0) = true ∧
    gives (.sramStepSample (l 1472)) (s 2) (fun t => mget 0 t.mem.tierStep 0 == 2) = true ∧
    gives (.sramStepSample (l 1471)) (s 2) (fun t => mget 0 t.mem.tierStep 0 == 1) = true := by decide +kernel

theorem test_throttle_hyps :
    let x : Sensors := { die := List.replicate 4 [1600, 1000], firn := [1000, 990], powerW := 1000 }
    let h : State := { up with mem := { up.mem with tierHold := [(0, true)] } }
    (Instr.throttleSample x).wf = true ∧ State.reset.up = false ∧ up.up = true ∧ up.rst.avsFail = false ∧ up.rst.pwr = .starting ∧
    mget false h.mem.tierHold 0 = true ∧ mget false up.mem.tierHold 0 = false ∧
    gives (.throttleSample x) up (fun t => t.rst.powerW == 1000 && t.rst.fieldStep.length == 4) = true ∧
    gives (.throttleSample x) h (fun t => t.rst.fieldStep.getD 0 0 == 11) = true := by decide

theorem test_power_hyps :
    let q : State := { up with rst := { up.rst with pwr := .ready } }
    let e : State := { q with rst := { q.rst with pwr := .entering, restReq := true, quietReq := true }, lnk := chain.lnk }
    let w : State := { q with rst := { q.rst with pwr := .waking } }
    q.up = true ∧ q.quietDevice = true ∧ e.quietDevice = true ∧ w.rst.pwr = .waking ∧ run.quietDevice = false ∧
    gives (.pwrCtl 0x8000_0000) q (fun t => t.rst.pwr == .entering) = true ∧
    gives .restEntry e (fun t => t.rst.pwr == .restQuiet && t.out.contains (.quiet 0)) = true ∧
    gives .restWake w (fun t => t.rst.pwr == .ready && t.rst.target == 750) = true ∧
    gives (.powerGovernorTick 1501 1000) q (fun t => t.rst.powerStep == 1 && t.rst.lastRaise == some 0) = true ∧
    gives (.powerGovernorTick 1500 1650) q (fun t => t.rst.powerStep == 0) = true ∧
    gives (.powerGovernorTick 1500 1651) q (fun t => t.rst.powerStep == 2) = true ∧
    gives (.powerGovernorTick 1501 1000) { q with rst := { q.rst with lastRaise := some 5 }, life := { clock := 104 } } (fun t =>
      t.rst.powerStep == 0) = true ∧
    gives (.powerGovernorTick 1399 1000) { q with rst := { q.rst with powerStep := 2, lastFall := some 5 }, life := { clock := 1005 } } (fun t =>
      t.rst.powerStep == 1) = true ∧
    gives (.smbusRequest (.read 0x4C 7)) q (fun t => t.out == [.unavailable]) = true ∧
    gives (.smbusRequest (.read 0x4D 7)) q (fun t => t.out.isEmpty) = true ∧
    gives (.smbusRequest (.assign 0x21)) q (fun t => t.rst.smbAddr == 0x21) = true ∧
    gives .avsTimeout run (fun t => t.glb.fatal && (t.job 0x11).all fun j => j.stop.isSome) = true := by decide

theorem test_life_hyps :
    let r : LifeRecord := { seq := 4, counters := [], lastCfgGen := 0, pe := [] }
    let s : State := { up with life := { record := some r } }
    let x : State := { up with life := { excursion := true }, glb := { up.glb with alertN := true } }
    s.rst.held = .none ∧ s.life.writing = none ∧ s.life.record = some r ∧ 3 < s.life.counters.length ∧ s.life.excursion = false ∧
    x.life.excursion = true ∧ x.glb.alertN = true ∧
    gives .lifeSecond s (fun t => t.life.counters.getD 0 0 == 1) = true ∧
    gives (.lifeSave 1) s (fun t => t.life.writing.all fun r => r.seq == 5) = true ∧
    gives .thermalExcursionStart s (fun t => t.glb.alertN && t.life.counters.getD 3 0 == 1) = true := by decide

/-! ### Events and registers -/

/-- 17 example: a record of code 0x2B07. -/
def evrec : EvRec :=
  { code := 0x2B07, node := 1, lost := false, unit := 3, sub := 1, repeats := 0, lifeUs := 77, tag := 0x11, domain := 5, aux := 9
    arg := 0x1234 }

theorem test_event_ring_hyps :
    let w : EvWindow := ⟨evrec, some { evrec with aux := 10 }, 300⟩
    let s : State := { up with evt := { windows := [w], ringReady := true } }
    let m : State := { up with evt := { ring := [evrec], ringReady := true, enable := true, hostLog2 := 8, head := 0xFFFF_FF01 }, hif := { vectors := [(irqKey 0 16, { masked := false })] } }
    s.evt.windows = [w] ∧ s.evt.ring.length < s.evt.capacity ∧
    m.evt.ring = [evrec] ∧ m.rst.held = .none ∧ bitOf m.rst.blockAct 16 = false ∧ m.evt.enable = true ∧ m.evt.ringReady = true ∧
    (m.evt.tail - m.evt.head).toNat = 255 ∧ 255 < 2 ^ m.evt.hostLog2 ∧
    ({ m with evt := { m.evt with head := 0xFFFF_FF00 } } : State).evt.hostLog2 = 8 ∧
    2 ^ m.evt.hostLog2 ≤ (m.evt.tail - (0xFFFF_FF00 : W32)).toNat ∧
    gives (.eventMergeWindow 0x2B07 3 1 0x11) s (fun t => t.evt.ring.map (fun r => (r.aux, r.repeats)) == [(10, 255)]) = true ∧
    gives .eventMirror m (fun t => t.evt.tail == 1 && t.evt.ring.isEmpty && t.out.length == 2) = true ∧
    gives .eventMirror { m with hif := {} } (fun t => t.out.length == 1 && (t.vector 0 16).pending) = true := by decide +kernel

/-! ### The Firn store -/

/-- A segment of one FP32 element, and a slot whose image holds it (08 Tables 8.2, 8.3). -/
def seg : Segment :=
  ⟨leBytes 64 (fw [(4, 64), (64, 128), (1, 192), (1, 224), (1, 352)]), leBytes 4 0x3F80_0000⟩
def hdr : Bytes :=
  leBytes 64 (fw [(0x4E52_464B, 0), (1, 32), (1, 64), (1, 96), (0xABCD, 128), (3, 256), (65600, 384)]) ++ List.replicate 4032 0
def fslot : FSlot := { state := .valid, imageVersion := 3, chainTag := 0xABCD, header := hdr.take 64, segments := [seg] }

/-- A FIRN_CMD word. -/
def fc (op slot positions frames : Nat) : W64 := BitVec.ofNat 64 (fw [(op, 60), (slot, 57), (positions, 32), (frames, 0)])

/-- The device with slot 1 valid; a coordinator alone in its chain. -/
def store : State := { run with firn := { slots := [(1, fslot)] } }

theorem test_firn_command_hyps :
    let v := fc 1 0 256 16
    let e := fc 2 1 0 0
    let g : Gen := ⟨1, 1, 0, 1, [], [], []⟩
    let live : State := { store with firn := { store.firn with current := some g } }
    store.up = true ∧ store.firnBusy = false ∧
    ((firnCmd v).op = 1 ∧ (firnCmd v).src = false ∧ (firnCmd v).ringFrames = 2 ^ 4 ∧ (firnCmd v).positions.toNat = 256 ∧
      (store.fslot 0).state = .empty) ∧
    ((firnCmd e).op = 2 ∧ (firnCmd e).slot = 1 ∧ (store.fslot 1).state = .valid ∧ store.firn.liveSlot 1 = false ∧
      (store.fslot 1).stripes = [] ∧ store.firn.hotStop = false) ∧
    (live.firnBusy = false ∧ live.firn.liveSlot 1 = true) ∧
    ({ store with firn := { slots := [(1, { fslot with state := .installing })] } } : State).firnBusy = false ∧
    gives (.firnErase e) live (fun t => t.firn.reason == 0x09) = true ∧
    gives (.firnErase e) store (fun t => (t.fslot 1).state == .erasing &&
      gives (.slotEraseDone 1 []) t fun u => (u.fslot 1) == {} && u.firn.cmdState == .done) = true := by decide +kernel

/-- Stripes are free where none is held or retired; with every one retired, none is. -/
theorem test_stripe_hyps :
    (∀ s : State, s.firn.slots.flatMap (fun e => e.2.stripes) = [] → s.firn.retired = [] → s.freeStripes ≠ []) ∧
    store.firn.slots.flatMap (fun e => e.2.stripes) = [] ∧ store.firn.retired = [] ∧ chain.firn.slots = [] ∧
    chain.firn.retired = [] ∧
    ({ store with firn := { retired := (List.range 4091).map (· + 1) } } : State).freeStripes = [] := by
  have ins (f : Nat → Nat) (n : Nat) (l : List Nat) : stripeInsert f n l ≠ [] := by
    cases l with
    | nil => exact List.cons_ne_nil _ _
    | cons y l => simp only [stripeInsert]; split <;> exact List.cons_ne_nil _ _
  have fold (f : Nat → Nat) (l : List Nat) (h : l ≠ []) : l.foldr (stripeInsert f) [] ≠ [] := by
    cases l with
    | nil => exact absurd rfl h
    | cons y l => exact ins _ _ _
  refine ⟨fun s h r => fold _ _ (List.ne_nil_of_mem (a := 1) (List.mem_filter.2 ⟨?_, ?_⟩)), rfl, rfl, rfl, rfl, ?_⟩
  · exact List.mem_map.2 ⟨0, List.mem_range.2 (by decide), rfl⟩
  · simp [h, r]
  · exact congrArg (List.foldr _ _) (List.filter_eq_nil_iff.2 fun n h => by
      rw [Bool.and_eq_true, not_and]
      intro _
      rw [List.contains_iff_mem.2 h]
      exact Bool.false_ne_true)

/-- A frame of the installation ring: number, position, kind, payload (08 R197). -/
def frame (seq pos kind : Nat) (l : Bytes) : Bytes :=
  leBytes 64 (fw [(seq, 0), (pos, 32), (kind, 48), (l.length, 96), (0xABCD, 192), (crc32c l, 256)]) ++ l ++
    List.replicate (4032 - l.length) 0

theorem test_installation_hyps :
    let x : Install := { slot := 1, head := 1, nextSeq := 5 }
    let s : State := { chain with firn := { slots := [(1, { state := .installing })], install := some x } }
    let m : Msg := msg0
    heard chain m [0] = true ∧ chain.wakeUp.firnBusy = false ∧ (chain.fslot 1).state = .empty ∧
    s.firn.install = some x ∧ s.firn.swap = none ∧ x.ended = false ∧
    (match frameOf (frame 5 9 1 [1]) with
     | .ok f => decide (f.seq = x.nextSeq) && f.kind != 5 && decide (f.position ≠ s.lnk.position)
     | .error _ => false) = true ∧
    (match frameOf (frame 6 9 1 [1]) with | .ok f => decide (f.seq ≠ x.nextSeq) | .error _ => false) = true ∧
    (match frameOf [] with | .ok _ => false | .error r => r == 0x05) = true ∧
    heard s m [0] = true ∧ 0 < x.nextSeq ∧ s.up = true ∧ (firnCmd (fc 4 1 0 0)).op = 4 ∧ (firnCmd (fc 4 1 0 0)).slot = 1 ∧
    (x.chainTag = none) ∧ chain.pathNext 1 = some 2 ∧ chain.pathPrev 1 = none ∧ (chain.route 2).isSome = true ∧
    (leaf.pathPrev 2 = some 2 ∧ leaf.pathNext 2 = none) ∧ (2 : NodeId) ≠ chain.lnk.node ∧
    (let y : Install := { x with head := 2 }
     let c (y : Install) : State := { leaf with firn := { slots := [(1, { state := .installing })], install := some y } }
     let b := frame 5 9 1 [1]
     let one : Msg := { msg0 with vc := 1 }
     (c y).firn.install = some y ∧ heard (c y) one [1] = true ∧ one.dst = (c y).lnk.node ∧ (c y).streamPort y 0 = true ∧
     (c y).frameWaits = false ∧ (b.take 4016).length = 4016 ∧ (b.drop 4016).length = 80 ∧
     ({ c y with firn := { (c y).firn with swap := some ⟨1, ⟨1, 1, 1, 1, [], [], []⟩, [], false, false, false, false, false⟩ } } : State).frameWaits
       = true ∧
     gives (.installFrame (some one) (b.take 4016) [] false) (c y) (fun t =>
       gives (.installFrame (some one) (b.drop 4016) [] false) t fun t => (t.firn.install.map (·.nextSeq)) == some 6) = true) ∧
    s.isHead x = true ∧ s.firn.cmd.any (·.src) = false ∧ s.frameWaits = false ∧
    gives (.installFrame none (frame 5 9 1 [1]) [] false) s (fun t => t.firn.cons == 1 && (t.firn.install.map (·.nextSeq)) == some 6) = true ∧
    gives (.installFrame none [] [] false) s (fun t => (t.fslot 1).state == .erasing && t.firn.reason == 0x05) = true := by decide +kernel

theorem test_install_complete_hyps :
    let x (head : NodeId) : Install := { slot := 1, head := head, header := hdr, ended := true }
    let s (head : NodeId) : State := { run with firn := { slots := [(1, { state := .installing })], install := some (x head) } }
    (imgHeader hdr).isSome = true ∧ (x 1).mineDone = false ∧ (s 1).firn.hotStop = false ∧ (s 1).isHead (x 1) = true ∧
    (s 2).isHead (x 2) = false ∧ (s 1).lnk.members = [(s 1).lnk.node] ∧
    (let y : Install := { slot := 1, head := 1, mineDone := true }
     let t : State := inChain { s 1 with firn := { (s 1).firn with install := some y } }
     t.firn.install = some y ∧ t.firn.swap = none ∧ heard t msg0 [0] = true ∧ y.mineDone = true ∧
     (t.lnk.members.all fun d => d == t.lnk.node || d == 2) = true ∧
     gives (.installComplete (some (msg0, 1, 2, 1, 1))) t (fun u => u.firn.install.isNone && u.firn.cmdState == .done) = true) ∧
    gives (.installComplete none) (s 1) (fun t => (t.fslot 1).state == .valid && (t.fslot 1).imageVersion == 3 && t.firn.install.isNone)
      = true := by decide +kernel

theorem test_base_swap_hyps :
    let v := fc 3 1 0 0
    let g : Gen := ⟨1, 1, 1, 1, [], [], []⟩
    let w : Swap := ⟨1, g, [], false, false, false, false, false⟩
    let on (f : State → State) (w : Swap) : State := f { store with firn := { store.firn with swap := some w } }
    let old (n : W32) : State := { store with firn := { store.firn with old := some { g with num := n } } }
    (store.up = true ∧ store.firnBusy = false ∧ (firnCmd v).op = 3 ∧ store.isCoord = true ∧
      (store.fslot 1).state = .valid ∧ store.firn.old = none ∧
      (store.wakeUp.takeGen 1 (nextGen (genMax store.firn.greatest store.firn.seen))).map (·.2) = some g ∧
      leAt (store.fslot 1).header 56 4 = 0) ∧
    (let c := asLeaf store
     heard c msg0 [0] = true ∧ c.lnk.member = true ∧ c.firn.swap = none ∧ c.firn.old = none ∧ (c.fslot 1).state = .valid ∧
     (c.fslot 1).chainTag = 0xABCD ∧ (c.fslot 1).imageVersion = 3 ∧
     ((c.wakeUp.sendDown (.swapPrepare 1 1 0xABCD 3)).takeGen 1 1).map (·.2) = some g) ∧
    ((on asLeaf w).isCoord = false ∧
      (match (on asLeaf w).thawGen g [] [] with | (_, .ok g) => g.num == 1 | _ => false) = true) ∧
    (heard (on inChain w) msg0 [0] = true ∧ (on inChain w).isCoord = true ∧
      (chain.lnk.members.all fun k => k == chain.lnk.node || k == 2) = true) ∧
    (heard (on asLeaf w) msg0 [0] = true ∧ (on asLeaf w).isChildPort 0 = false ∧ (on inChain w).isRoot = true) ∧ (old 1).genRefs 1 = 0 ∧ (old 0).genRefs 0 ≠ 0 ∧
    gives (.firnSwap v) store (fun t => (t.page 1).mode == .base && t.firn.swap == some w) = true ∧
    gives (.swapPrepare msg0 1 1 0xABCD 3) (asLeaf store) (fun t => t.firn.swap == some w) = true ∧
    gives (.thawReady msg0 2 1) (on inChain { w with thawed := true, mineReady := true }) (fun t =>
      t.firn.current == some g && t.firn.swap.isNone) = true ∧
    gives (.commitMsg msg0 1) (on asLeaf { w with thawed := true }) (fun t => t.firn.current == some g && t.firn.greatest == 1) = true ∧
    gives (.swapAbort msg0 1 none) (on asLeaf w) (fun t => t.firn.swap.isNone) = true ∧
    gives (.swapAbort msg0 1 (some 8)) (on inChain w) (fun t => t.firn.swap.isNone) = true ∧
    (let z : Swap := { w with thawed := true, mineReady := true, start := true }
     let c := on asLeaf z
     let st : State := { c with glb := { phase := 5 }, lnk := { c.lnk with member := false, members := [] } }
     st.firn.swap = some z ∧ st.starting = true ∧ heard st msg0 [0] = true ∧ st.lnk.node ∈ topoMembers st.cfg.live.topo ∧
     (on asLeaf w).starting = false ∧
     gives (.commitMsg msg0 4) st (fun t => t.firn.current == some { g with num := 4 } && t.glb.ready && t.lnk.members == [1, 2]) = true) ∧
    gives (.swapSettle false []) (on inChain { w with settle := true }) (fun t => t.firn.swap.isNone) = true ∧
    gives .oldGenFree (old 1) (fun t => t.firn.old.isNone) = true := by decide +kernel

theorem test_copy_check_hyps :
    let g : Gen := ⟨1, 1, 1, 1, [], [], []⟩
    let line := 2 ^ 23 + 65536
    let s : State := { store with
      rst := { store.rst with pwr := .ready }
      firn := { store.firn with current := some g }
      mem := { store.mem with pages := [(1, ⟨.base, 0, false⟩)], refetching := [(line, 0x11)] } }
    s.firn.current = some g ∧ s.rst.held = .none ∧ s.rst.pwr = .ready ∧ (s.fslot g.slot.val).segments.length = 1 ∧
    (s.relay g 0).isSome = true ∧ (s.fslot 1).state = .valid ∧ bitOf s.rst.blockAct 18 = false ∧
    (line, 0x11) ∈ s.mem.refetching ∧ (s.rewriteLine line).isSome = true ∧ line ∉ (s.ctl (ctlOf line)).stuck ∧
    gives (.lineRefetch (BitVec.ofNat 41 line) 0x11 true 0) s (fun t =>
      t.rawByte ⟨true, line + 3⟩ == 0x3F && (t.ctl (ctlOf line)).refetches == 1) = true ∧
    gives (.sweepSegment false 0 false true false) s (fun t => t.glb.fatal) = true ∧
    gives (.sweepSegment false 0 false true true) s (fun t => t.rawByte ⟨true, line + 2⟩ == 0x80) = true := by decide +kernel

/-! ### Variants -/

/-- What `VarAsks` asks, as a test. -/
def varAsks (s : State) (v : W64) (op vid : Nat) : Bool :=
  s.up && s.var.cmdState != .busy && bitsOf v 63 60 == op && bitsOf v 59 44 == vid && vid != 0 &&
    (op == 1 || op == 2 || bitsOf v 43 32 == 0)

theorem varAsks_iff {s : State} {v : W64} {op vid : Nat} (h : varAsks s v op vid = true) : VarAsks s v op vid := by
  simp only [varAsks, Bool.and_eq_true, Bool.or_eq_true, beq_iff_eq, bne_iff_ne] at h
  exact ⟨h.1.1.1.1.1, h.1.1.1.1.2, h.1.1.1.2, h.1.1.2, h.1.2, fun a b => (h.2.resolve_left fun e => e.elim a b)⟩

/-- A VAR_CMD word. -/
def vc (op vid : Nat) : W64 := BitVec.ofNat 64 (fw [(op, 60), (vid, 44)])

/-- Variant 9 of domain 5 in a state, with one tensor of 64 B at page 0; a coordinator alone in its chain. -/
def tensor : DirEntry :=
  { offset := 0, stateOff := noStateOff, layer := 0, kind := 5, slot := 0, baseSeg := 0xFFFF, init := 0, spdCluster := 0, rows := 1
    cols := 1, raw := [] }
def gen0 : ServGen := ⟨1, 0, 64, false⟩
def vrnt (st : VarState) : Variant :=
  { domain := 5, trainable := false, cacheable := true, rule := 0, modelId := 0, baseMask := 0, state := st, pages := 1
    dir := [tensor], weightBytes := 64, cur := some gen0 }
def runR (x : Variant) : State := { run with jobs := {}, var := { reg := [(9, x)] }, sec := { sessions := [(5, { state := .opened })] } }

theorem test_registry_hyps :
    let d : BitVec 512 := BitVec.ofNat 512 (9 * 2 ^ 496 + 5 * 2 ^ 484)
    let v : W64 := BitVec.ofNat 64 (fw [(1, 60), (9, 44), (5, 32)])
    let s : State := { run with
      sec := { sessions := [(5, { state := .provisioned })] }
      firn := { store.firn with current := some ⟨1, 1, 1, 1, [], [], []⟩ } }
    let y := { vrnt .dormant with domain := 5 }
    varAsks s v 1 9 = true ∧ s.isCoord = true ∧ s.variant 9 = none ∧ descOk d = true ∧ bitsOf d 511 496 = 9 ∧
    (descVariant d).domain.toNat = bitsOf v 43 32 ∧ s.liveSession (descVariant d).domain = true ∧
    s.modelId = some (descVariant d).modelId ∧
    ((runR y).variant 9).isSome = true ∧ varAsks (runR y) v 1 9 = true ∧
    varAsks (asLeaf s) v 1 9 = true ∧ (asLeaf s).isCoord = false ∧ heard (asLeaf s) msg0 [0] = true ∧ (asLeaf s).variant 9 = none ∧
    (runR (vrnt .live)).isCoord = true ∧ varAsks (runR (vrnt .live)) (vc 7 9) 7 9 = true ∧ (vrnt .live).state ≠ .dormant ∧
    varAsks (runR y) (vc 7 9) 7 9 = true ∧ (runR y).variant 9 = some y ∧ y.state = .dormant ∧
    varAsks (runR y) (vc 10 9) 10 9 = true ∧ varAsks s (vc 3 9) 3 9 = true ∧
    gives (.varRegister v d) s (fun t => t.variant 9 == some (descVariant d)) = true ∧
    gives (.varUnregister (vc 7 9) true) (runR y) (fun t => (t.variant 9).isNone && t.var.cmdState == .done) = true := by
  decide +kernel

/-- An envelope (13 R352) of a kind for variant 9 of domain 5, generation 1, under the session's seed [7]. -/
def envHead (kind n : Nat) : Bytes :=
  leBytes 24 (fw [(0x4749_4D56, 0), (1, 32), (kind, 48), (9, 64), (5, 80), (1, 96), (n, 128)]) ++
    Config.shake256 (Config.kemPublic [7]) 32 ++ leBytes 8 0
def envCt : Bytes := List.replicate 1568 0
def envelope (kind : Nat) (p : Bytes) : Bytes :=
  envHead kind p.length ++ envCt ++
    Config.gcmSeal (Config.shake256 (Config.kemDecap [7] envCt ++ envHead kind p.length) 32) nonce0 (envHead kind p.length) p

/-- The device with that session, and room for variant 9. -/
def runL (x : Variant) : State :=
  { runR x with
    sec := { sessions := [(5, { state := .opened, seed := some [7] })] }
    cfg := { live := { contracts := [⟨5, 50, 1, 0, 1, 0, []⟩] } } }

theorem unseal_envelope (x : Variant) (kind : Nat) (p : Bytes) (hk : kind < 2) (hp : p.length ∈ [64, 112]) :
    (runL x).unseal kind 9 5 (envelope kind p) = some (1, p) := by
  have hh : (envHead kind p.length).length = 64 := by simp [envHead, Config.shake256, leBytes]
  have hc : envCt.length = 1568 := List.length_replicate
  have e1 : (envelope kind p).take 64 = envHead kind p.length := by
    rw [envelope, List.append_assoc, List.take_left' hh]
  have e2 : ((envelope kind p).drop 64).take 1568 = envCt := by
    rw [envelope, List.append_assoc, List.drop_left' hh, List.take_left' hc]
  have e3 : (envelope kind p).drop 1632 =
      Config.gcmSeal (Config.shake256 (Config.kemDecap [7] envCt ++ envHead kind p.length) 32) nonce0 (envHead kind p.length) p := by
    rw [envelope, List.drop_left' (by simp [hh, hc])]
  have e4 : (envelope kind p).length = 64 + 1568 + p.length + 16 := by
    simp [envelope, hh, hc, Config.gcmSeal, Config.gcmXor, Config.gcmXorAt, Config.gcmTagBytes]; omega
  have e5 : ((envHead kind p.length).drop 24).take 32 = Config.shake256 (Config.kemPublic [7]) 32 := by
    rw [envHead, List.append_assoc, List.drop_left' (by simp [leBytes]), List.take_left' (by simp [Config.shake256])]
  have f : ∀ k < 2, ∀ n ∈ [64, 112],
      leAt (envHead k n) 16 8 = n ∧ leAt (envHead k n) 0 4 = 0x4749_4D56 ∧ leAt (envHead k n) 4 2 = 1 ∧ leAt (envHead k n) 6 1 = k ∧
      leAt (envHead k n) 7 1 = 0 ∧ leAt (envHead k n) 8 2 = 9 ∧ leAt (envHead k n) 10 2 = 5 ∧ leAt (envHead k n) 56 8 = 0 ∧
      leAt (envHead k n) 12 4 = 1 := by decide +kernel
  obtain ⟨a1, a2, a3, a4, a5, a6, a7, a8, a9⟩ := f kind hk p.length hp
  have hs : ((runL x).session (5 : Dom).toNat).seed = some [7] := rfl
  unfold State.unseal
  simp only [hs, e1, e2, e3, e4, e5, a1, a2, a3, a4, a5, a6, a7, a8, a9, gcm_opens]
  simp at hp ⊢; omega

/-- The plaintext of a slice image with the one tensor (09 R243). -/
def slice : Bytes :=
  leBytes 16 (fw [(1, 0), (9, 16), (64, 32)]) ++
    leBytes 32 (fw [(noStateOff, 64), (5, 144), (0xFFFF, 160), (1, 192), (1, 224)]) ++ List.replicate 64 0x3C

theorem test_load_hyps :
    let x := { vrnt .dormant with pages := 0, dir := [], weightBytes := 0, cur := none }
    let v : W64 := BitVec.ofNat 64 (fw [(2, 60), (9, 44), (1, 31)])
    let s := runL x
    varAsks s v 2 9 = true ∧ bitsOf v 43 32 = 0 ∧ bitOf v 31 = true ∧
    varAsks s (BitVec.ofNat 64 (fw [(2, 60), (9, 44), (6, 32)])) 2 9 = true ∧ (6 : Nat) ≠ x.domain.toNat ∧ s.liveCount 5 < (s.contract 5).liveLimit ∧
    s.unseal 0 9 5 (envelope 0 slice) = some (1, slice) ∧ s.pinnedIn 5 9 = false ∧
    ∃ im, sliceImage (s.baseSegs.map fun e => segEntry e.entry) 9 x slice = some im ∧
      s.runOk 5 s.var.pFirst s.var.pCount (areaPages im.weightBytes im.dir.length * (if x.trainable then 3 else 1)) = true ∧
      initWeights s.baseSegs true im.dir im.weights = .ok (List.replicate 64 0x3C) := by
  refine ⟨by decide, by decide, by decide, by decide, by decide, by decide, unseal_envelope _ 0 slice (by decide) (by decide), by decide, ?_⟩
  exact ⟨_, rfl, by decide +kernel, rfl⟩

theorem test_load_done_unload_hyps :
    let s : State := { runR (vrnt .loading) with var := { (runR (vrnt .loading)).var with loading := some 9 } }
    let u := { vrnt .unloading with unloadTo := 0x1000 }
    let w : State := { runR u with sec := { entropyOk := true, sessions := [(5, { state := .opened, exportKey := some [] })] } }
    s.var.loading = some 9 ∧ (vrnt .loading).state = .loading ∧ (vrnt .loading).pinned = false ∧
    varAsks (runR (vrnt .live)) (vc 3 9) 3 9 = true ∧ (vrnt .live).isLive = true ∧ (runR (vrnt .live)).parkedOn 9 = false ∧
    w.variant 9 = some u ∧ w.refsOn 9 = [] ∧ w.up = true ∧ w.sec.entropyOk = true ∧
    (w.sealImage 0 9 u (w.sliceBytes 9 u)).isSome = true ∧
    gives (.varLoadDone 9) s (fun t => t.variant 9 == some (vrnt .live)) = true ∧
    gives (.varImageWrite 9) w (fun t => (t.page 0).mode == .free && (t.variant 9).map (·.state) == some .dormant) = true := by
  decide +kernel

theorem test_cache_state_hyps :
    let x (st : VarState) := { vrnt st with cacheParcels := [(0, 2047)] }
    let e : Variant := { x .live with evicting := true }
    let p : Variant := { e with pinned := true }
    let held (x : Variant) : State := { runR x with jobs := { list := [{ job with bindings := [⟨9, 0, 1, 1, 64, true, 0, 0, false⟩] }] } }
    let f : Variant := { x .live with filling := true }
    let t : Variant := { vrnt .live with trainable := true, stateIn := true, sfirst := 1, spages := 1, stateBytes := 64 }
    let o : Variant := { t with stateOut := true }
    let w : State := { runR o with sec := { entropyOk := true, sessions := [(5, { state := .opened, exportKey := some [] })] } }
    varAsks (runR (x .hot)) (vc 4 9) 4 9 = true ∧ (x .hot).pinned = false ∧ ({ x .hot with pinned := true } : Variant).pinned = true ∧
    (runR e).cacheHeld 9 e.copyNo = false ∧ e.oldCopies = [] ∧ (e.evicting = true ∧ e.pinned = false) ∧
    (runR p).cacheHeld 9 p.copyNo = false ∧ p.pinned = true ∧ p.isLive = true ∧ p.cur = some gen0 ∧
    (held e).cacheHeld 9 e.copyNo = true ∧ varAsks (runR p) (vc 4 9) 4 9 = true ∧ (runR e).var.evictions.toNat + 1 < 2 ^ 64 - 1 ∧
    f.state = .live ∧ f.cur = some gen0 ∧ (runR f).var.fills.toNat + 1 < 2 ^ 64 - 1 ∧
    varAsks (runR t) (vc 8 9) 8 9 = true ∧ t.stateOut = false ∧ t.isLive = true ∧
    w.trainRefs 9 = false ∧ w.up = true ∧ w.variant 9 = some o ∧
    (w.sealImage 1 9 o (w.read (.dom o.domain) o.stateAt o.stateBytes)).isSome = true ∧
    gives (.evictRelease 9) (runR e) (fun u => (u.variant 9).map (·.cacheParcels) == some [] && u.var.evictions == 1) = true ∧
    gives (.evictRelease 9) (runR p) (fun u => (u.variant 9).map (·.state) == some .hot) = true ∧
    gives (.cacheFillDone 9) (runR f) (fun u => (u.variant 9).map (·.state) == some .hot) = true ∧
    gives (.stateOutWrite 9) w (fun u => (u.page 1).mode == .free && (u.variant 9).map (·.stateIn) == some false) = true := by
  decide +kernel

theorem test_state_in_hyps :
    let t : Variant := { vrnt .live with trainable := true, stateBytes := 64, first := 1 }
    let s := runL t
    varAsks s (vc 9 9) 9 9 = true ∧ t.isLive = true ∧ t.stateIn = false ∧ t.stateWait = none ∧
    s.unseal 1 9 t.domain (envelope 1 (List.replicate 64 1)) = some (1, List.replicate 64 1) ∧
    (List.replicate 64 (1 : Byte)).length = t.stateBytes ∧
    s.runOk t.domain s.var.sFirst s.var.sCount (ceilDiv t.stateBytes (2 ^ 23)) = true :=
  ⟨by decide, by decide, by decide, by decide, unseal_envelope _ 1 _ (by decide) (by decide), by decide, by decide +kernel⟩

theorem test_publish_hyps :
    let x : Variant := { vrnt .live with trainable := true, pages := 3 }
    let old : Variant := { x with old := some { gen0 with num := 4 } }
    let b : Binding := ⟨9, 0, 1, 4, 64, false, 0, 0, false⟩
    let held : State := { runR old with jobs := { list := [{ job with bindings := [b] }] } }
    let cp : Variant := { x with copied := true }
    let s (f : State → State) (x : Variant) : State := f { runR x with var := { reg := [(9, x)], publish := some (9, [1]) } }
    varAsks (runR x) (vc 5 9) 5 9 = true ∧ (runR x).isCoord = true ∧ x.isLive = true ∧ x.old = none ∧
    varAsks held (vc 5 9) 5 9 = true ∧ held.isCoord = true ∧ held.genHeld 9 4 = true ∧
    (s asLeaf x).isCoord = false ∧ heard (s asLeaf cp) msg0 [0] = true ∧ cp.pinned = false ∧ cp.cur = some gen0 ∧ (asLeaf held).isCoord = false ∧
    (asLeaf held).genHeld 9 4 = true ∧ old.old = some { gen0 with num := 4 } ∧ (runR cp).genHeld 9 1 = false ∧
    ({ runR cp with jobs := { list := [{ job with bindings := [{ b with gen := 1 }] }] } } : State).genHeld 9 1 = true ∧
    heard (s inChain cp) msg0 [0] = true ∧ (s inChain cp).isCoord = true ∧ (s inChain cp).var.publish = some (9, [1]) ∧
    (asMid run).isCoord = false ∧ (asMid run).isRoot = false ∧ heard (asMid run) msg0 [0] = true ∧
    (chain.lnk.members.all fun k => [(1 : NodeId)].contains k || k == 2) = true ∧
    gives (.varPublish (vc 5 9)) held (fun t => t.var.reason == 0x07) = true ∧
    gives (.publishReady msg0 2 9 false) (s inChain cp) (fun t => t.var.reason == 0x0B && t.var.publish.isNone) = true ∧
    gives (.publishCopyDone 9) (s asLeaf x) (fun t => t.out == [.publishReady 1 9 true]) = true ∧
    gives (.publishCommit msg0 9 2) (s asLeaf cp) (fun t => (t.variant 9).map (·.cur) == some (some ⟨2, 1, (cp.dirAt 1).a, false⟩)) = true ∧
    gives (.publishReady msg0 2 9 true) (s inChain cp) (fun t => (t.variant 9).map (fun y => (y.cur.map (·.num), y.copied)) == some (some 2, false))
      = true := by decide +kernel

theorem test_removal_hyps :
    let x := vrnt .live
    let r := vrnt .removing
    let s (f : State → State) (x : Variant) : State := f { runR x with var := { reg := [(9, x)], removals := [(9, [1])] } }
    varAsks (runR x) (vc 6 9) 6 9 = true ∧ (runR x).isCoord = true ∧ x.state ≠ .removing ∧
    heard (s asLeaf x) msg0 [0] = true ∧ (s asLeaf r).refsOn 9 = [] ∧ (s asLeaf r).isCoord = false ∧
    heard (s inChain r) msg0 [0] = true ∧ (s inChain r).isCoord = true ∧
    heard (asMid (runR r)) msg0 [0] = true ∧ (asMid (runR r)).isCoord = false ∧ (asMid (runR r)).isRoot = false ∧
    (s inChain r).var.removals.find? (fun e => e.1 == 9) = some (9, [1]) ∧
    (chain.lnk.members.all fun k => [(1 : NodeId)].contains k || k == 2) = true ∧
    gives (.varRemove (vc 6 9)) (runR x) (fun t => (t.variant 9).map (·.state) == some .removing) = true ∧
    gives (.removed none 9) (s asLeaf r) (fun t => (t.page 0).mode == .free && t.out == [.varRemoved 1 9]) = true ∧
    gives (.removed (some (msg0, 2)) 9) (asMid (runR r)) (fun t => t.out == [.varRemoved 2 9]) = true ∧
    gives (.removed (some (msg0, 2)) 9) (s inChain r) (fun t => (t.variant 9).isNone) = true := by decide +kernel

/-! ### Training and collectives -/

/-- Variant 9 with one trained tensor of 1 × 1 in layer 0, its entry in the training list, and the context of job 0x11. -/
def tvrnt : Variant := { vrnt .live with trainable := true, rule := 2, dir := [{ tensor with stateOff := 0 }], stateBytes := 320 }
def tvar : TVar :=
  { vid := 9, clipEn := false, lrMul := f32One, beta1 := 0, beta2 := 0, eps := 0, wd := 0, clip := 0, normLimit := 0, rmsClip := 0
    freeze := 0 }
def ctx0 : Ctx :=
  { state := .receiving, tag := 0x11, domain := 5, vars := [tvar], clusters := 1, stepNow := 7, firstStep := 7
    steps := 1, layers := 1, gradArea := BitVec.ofNat 48 (dp 0x4000) }
def tjob : Job := { job with ctx := some 0, members := [1, 2] }
def runTr (x : Ctx) (y : Variant) : State :=
  { run with
    jobs := { list := [tjob] }
    var := { reg := [(9, y)] }
    upd := [(0, x)]
    firn := { slots := [(1, { fslot with header := leBytes 64 (2 ^ 80) })], current := some ⟨1, 1, 1, 1, [], [], []⟩ } }

/-- The row of the layer's one tensor as the collective engine hands it over, for the step that is on and for the next. -/
theorem test_grad_slice_hyps :
    let row (n : W32) : SliceRow := ⟨9, 0, n, 0, 0, [0x3C], f32One⟩
    let s (l : List SliceRow) (v : TVar) := runTr { ctx0 with vars := [v], slice := l } tvrnt
    let f : TVar := { tvar with frozenAll := true }
    let data : Bytes := 0x3C :: List.replicate 63 0 ++ leBytes 4 f32One.toNat ++ List.replicate 60 0
    (s [row 7] tvar).ctxOf 0x11 = some (tjob, 0) ∧ ((s [row 7] tvar).ctx 0).var 9 = some tvar ∧ (s [] tvar).variant 9 = some tvrnt ∧
    (s [row 7] f).ctxOf 0x11 = some (tjob, 0) ∧ ((s [row 7] f).ctx 0).var 9 = some f ∧ f.frozen 0 = true ∧ tvar.frozen 0 = false ∧
    shareRows (tvrnt.gradsOf 0) ([].foldr insertRow []) = none ∧
    (shareRows (tvrnt.gradsOf 0) ([row 7].foldr insertRow [])).map (·.map (·.2.2.2)) = some [data] ∧
    (7 : W32) = ctx0.stepNow.truncate 32 ∧ (8 : W32) ≠ ctx0.stepNow.truncate 32 ∧
    (ctx0.gradAt ((s [] tvar).gradStart 0 9 ctx0.vars) 0).isSome = true ∧
    gives (.gradSlice 0x11 9 0 7) (s [row 7] tvar) (fun t => ((t.ctx 0).var 9).map (·.got) == some [0] && t.rawByte ⟨true, 0x4000⟩ == 0x3C &&
      (t.ctx 0).slice.isEmpty) = true ∧
    gives (.gradSlice 0x11 9 0 8) (s [row 8] tvar) (fun t =>
      ((t.ctx 0).var 9).map (·.skewed) == some [0] && (t.ctx 0).skew == 1) = true ∧
    gives (.gradSlice 0x11 9 0 7) (s [row 7] f) (fun t => (t.ctx 0).frozen == 1) = true := by decide +kernel

theorem test_vote_hyps :
    let got := { ctx0 with vars := [{ tvar with got := [0] }] }
    let s := inChain (runTr got tvrnt)
    let w := asLeaf (runTr { got with state := .voting, voted := true } tvrnt)
    let v : VerdictMsg := ⟨7, true, [⟨false, f32One, 0⟩], 0x3F00_0000⟩
    let other : Msg := { msg 0 with tag := 0x12 }
    s.ctxOf got.tag = some (tjob, 0) ∧ got.state = .receiving ∧ got.stepLeft = true ∧ s.allGot got = true ∧
    got.childVotes.length < s.jobChildren tjob ∧
    (clustersOf got.clusters).all (fun c =>
      decide (got.voteCount ≤ ((s.clu c.val).sem got.voteSem).toNat) && (s.clu c.val).waiters.isEmpty && (s.clu c.val).stuck.isEmpty)
      = true ∧
    heard s (msg 0) [0] = true ∧ s.wakeUp.ctxOf 0x11 = some (tjob, 0) ∧ s.fromChild tjob 0 = true ∧
    [f32One].length = got.vars.length ∧ got.voted = false ∧
    s.job 0x12 = none ∧ s.portCarries other.port other.vc.toNat = true ∧ other.vc.toNat = 0 ∧ s.lnk.left = false ∧
    s.wakeUp.retiredKey 0x12 = false ∧
    heard w (msg 0) [0] = true ∧ w.wakeUp.ctxOf 0x11 = some (tjob, 0) ∧ w.isParentPort 0 = true ∧ (w.ctx 0).state = .voting ∧
    v.step = (w.ctx 0).stepNow ∧ v.parts.length = (w.ctx 0).vars.length ∧ v.skip = true ∧ got.skipped.toNat + 1 < 2 ^ 64 ∧
    ptrAddr got.ctrl.toNat = none ∧
    gives (.stepVote 0 []) s (fun t => (t.ctx 0).state == .voting) = true ∧
    gives (.vote (msg 0) 7 false [f32One] []) s (fun t => (t.ctx 0).childVotes.length == 1) = true ∧
    gives (.vote other 7 false [] []) s (fun t => t.out == [.vote .down 0x12 7 false []]) = true ∧
    gives (.verdict (msg 0) v []) w (fun t => (t.ctx 0).stepNow == 8 && (t.ctx 0).skipped == 1 && (t.ctx 0).scale == 0x3F00_0000) = true := by
  decide +kernel

theorem test_layer_park_hyps :
    let cx := { ctx0 with state := .updating }
    let s := runTr cx tvrnt
    let p : Park := ⟨9, 7, f32One, f32One, 0, 0, [0], 0⟩
    let y := { tvrnt with stateIn := true }
    let k := runTr { ctx0 with parks := [p] } y
    s.layerNow cx = some 0 ∧ tvar.apply = false ∧ k.variant 9 = some y ∧ y.stateIn = true ∧ s.up = true ∧ s.fnOn 0 = true ∧
    s.fnOn 5 = false ∧
    s.jobs.list.find? (fun j => j.admitted && j.phase != .ended && j.fn == 0 && j.q == 0 && j.ctx.isSome) = some tjob ∧
    s.jobs.list.find? (fun j => j.admitted && j.phase != .ended && j.fn == 0 && j.q == 1 && j.ctx.isSome) = none ∧
    gives (.layerUpdateDone 0 0 []) s (fun t => (t.ctx 0).stepNow == 8 && (t.clu 0).sem 0 == 1) = true ∧
    gives (.parkedApply 9) k (fun t => (t.ctx 0).parks.isEmpty) = true ∧
    gives (.wqStepLr 0 0 0x0000_0007_3F80_0000) s (fun t => (t.ctx 0).lrTag == 7 && (t.ctx 0).lr == f32One) = true := by decide +kernel

/-- 04 R94, 10 R260: neighbours are summed first: 2^24 + 1 stays and 1 + 1 counts; in order nothing would be added. -/
theorem test_sum_tree :
    tree fadd 2 [0x4B80_0000, f32One, f32One, f32One] = [0x4B80_0001] ∧ fsum [0x4B80_0000, f32One, f32One, f32One] = 0x4B80_0000 := by
  decide +kernel

/-- Collective 0 of job 0x11: a broadcast of two rows of four BF16. -/
def coll : Coll :=
  { tag := 0x11, entry := 0, kind := 5, fmt := .bf16, bothDirs := false, deliver := false, start := ⟨1, 0, 3⟩, done := ⟨1, 0, 4⟩
    buf := BitVec.ofNat 48 (dp 0x1000), scales := 0, health := 0, rows := 2, cols := 4, vid := 0, layer := 0, baseStep := 7 }

theorem test_collective_hyps :
    let s (ms : List NodeId) : State :=
      { run with jobs := { list := [{ job with members := ms }] }, coll := [coll], cl := [(0, { clu0 with sems := [(3, 1)] })] }
    let x : CollMsg := ⟨7, 0, 5, 1, 0, 1, 0, 4, List.replicate 8 0⟩
    let a := s []
    let b := asLeaf (s [1, 2])
    a.job 0x11 = some { job with members := [] } ∧ a.collOf 0x11 0 = some coll ∧ job.stop = none ∧ coll.busy = false ∧
    0 < ((a.clu 0).sem 3).toNat ∧ ([] : List NodeId).length ≤ 1 ∧ coll.deliver = false ∧
    b.job 0x11 = some { job with members := [1, 2] } ∧ b.collOf 0x11 0 = some coll ∧ 1 < [(1 : NodeId), 2].length ∧ coll.kind = 5 ∧
    b.jobRoot { job with members := [1, 2] } = false ∧ 0 < coll.rows ∧ coll.held = [] ∧
    heard b (msg 2) [2] = true ∧ (msg 2).tag = coll.tag ∧ x.entry = coll.entry ∧ coll.fits x = true ∧ x.step = coll.step ∧
    coll.fits { x with step := 8 } = true ∧ (8 : W32) ≠ coll.step ∧ coll.fits { x with nrows := 3 } = false ∧
    coll.fits { x with firstRow := 1 } = true ∧ coll.fits { x with firstRow := 2 } = false ∧
    collMsg (collBytes x) = some x ∧ collMsg (List.replicate 31 0) = none ∧ collMsg (List.replicate 22 0 ++ List.replicate 10 1) = none ∧
    gives (.collectiveRun 0x11 0 []) a (fun t => (t.collOf 0x11 0).map (·.run) == some 1 && (t.clu 0).sem 3 == 0) = true ∧
    gives (.collectiveRun 0x11 0 []) b (fun t => (t.collOf 0x11 0).map (fun c => (c.busy, c.place)) == some (true, 2) &&
      gives (.collective (msg 2) (collBytes x) []) t fun u => (u.collOf 0x11 0).map (·.place) == some 1) = true := by decide +kernel

/-! ### Chain ports -/

/-- A certificate of key `replicate 64 7` signed by the root, and an offer that passes. -/
def idKey : Bytes := List.replicate 64 7
def tbs : Bytes :=
  [0x30, 0x57, 0xA0, 3, 2, 1, 2, 2, 1, 1, 0x30, 0, 0x30, 0, 0x30, 0, 0x30, 0, 0x30, 0x45, 0x30, 0, 3, 0x41, 0] ++ idKey
def certOf (g : Bytes) : Bytes :=
  [0x30, 0x82, 0x74, 0xC0] ++ (tbs ++ ([0x30, 0] ++ ([3, 0x82, 0x74, 0x61] ++ (0 :: g))))

theorem derItem_long (t a b : Byte) (l r : Bytes) (h : l.length = 256 * a.toNat + b.toNat) :
    derItem ([t, 0x82, a, b] ++ (l ++ r)) = some ([t, 0x82, a, b] ++ l, l, r) := by
  have e : derItem ([t, 0x82, a, b] ++ (l ++ r)) =
    if 256 * a.toNat + b.toNat ≤ (l ++ r).length then some ([t, 0x82, a, b] ++ (l ++ r).take (256 * a.toNat + b.toNat), (l ++ r).take (256 * a.toNat + b.toNat), (l ++ r).drop (256 * a.toNat + b.toNat)) else none := rfl
  rw [e, ← h]
  simp

theorem certParts_of (g : Bytes) (hs : g.length = 29792) : certParts (certOf g) = some (tbs, idKey, g) := by
  have hl : (certOf g).length = 29892 := by
    rw [show certOf g = [0x30, 0x82, 0x74, 0xC0] ++ (tbs ++ ([0x30, 0] ++ ([3, 0x82, 0x74, 0x61] ++ (0 :: g)))) from rfl]
    simp only [List.length_append, List.length_cons, hs]
    rfl
  have h1 : derItem (certOf g) = some (certOf g, (certOf g).drop 4, []) := by
    have := derItem_long 0x30 0x74 0xC0 ((certOf g).drop 4) [] (by rw [List.length_drop, hl]; rfl)
    rw [List.append_nil] at this
    exact this
  have h2 : derItem ((certOf g).drop 4) = some (tbs, tbs.drop 2, ((certOf g).drop 4).drop 89) := by
    have e : derItem ((certOf g).drop 4) = if 87 ≤ (((certOf g).drop 4).drop 2).length then
      some ([0x30, 0x57] ++ (((certOf g).drop 4).drop 2).take 87, (((certOf g).drop 4).drop 2).take 87, (((certOf g).drop 4).drop 2).drop 87)
      else none := rfl
    rw [e, if_pos (by rw [List.length_drop, List.length_drop, hl]; decide)]
    rfl
  have h3 : (derSkip 1 (((certOf g).drop 4).drop 89)).bind derBits = some g := by
    have e : derSkip 1 (((certOf g).drop 4).drop 89) = some ([3, 0x82, 0x74, 0x61] ++ ((0 :: g) ++ [])) := by
      rw [List.append_nil]; rfl
    rw [e]
    simp only [Option.bind_some, derBits]
    rw [derItem_long 3 0x74 0x61 (0 :: g) [] (by rw [List.length_cons, hs]; rfl)]
    rfl
  have h4 : ((derSkip 6 (tbs.drop 2)).bind derItem).bind (fun info => ((derSkip 1 info.2.1).bind derBits).map fun key => (tbs, key, g)) =
      some (tbs, idKey, g) := rfl
  unfold certParts
  rw [if_neg (by omega), h1]
  simp only [Option.bind_some]
  rw [h2]
  simp only [Option.bind_some]
  rw [h3]
  exact h4

def attBody : Bytes :=
  leBytes 4 0x5452_4341 ++ leBytes 2 1 ++ [0, 0] ++ (Config.shake256 idKey 32 ++ (List.replicate 8 0 ++ (idKey ++ List.replicate 80 0)))
def offerOf (root g a x : Bytes) : KeyOffer :=
  { root := root, idCert := certOf g, attCert := attBody ++ a, exchange := List.replicate 1568 0, sig := x }
/-- An offer that passes every check of 13 R354. -/
def offer0 : KeyOffer :=
  offerOf Config.rootKey (Config.slhMake Config.slhS Config.rootKey tbs []) (Config.slhMake Config.slhS idKey attBody [])
    (Config.slhMake Config.slhF idKey (List.replicate 1568 0) [])

theorem offerOk_of (root g a x : Bytes) (hr : Config.shake256 root 32 = Config.rootDigest) (hg : g.length = 29792)
    (ha : a.length = 29792) (v1 : Config.slhVerify Config.slhS root tbs g = true) (v2 : Config.slhVerify Config.slhS idKey attBody a = true)
    (v3 : Config.slhVerify Config.slhF idKey (List.replicate 1568 0) x = true) : offerOk (offerOf root g a x) = true := by
  have hk : certKey (certOf g) = idKey := by rw [certKey, certParts_of g hg]
  have hb : attBody.length = 192 := by
    simp only [attBody, idKey, leBytes, Config.shake256, List.length_append, List.length_map, List.length_range, List.length_replicate, List.length_cons, List.length_nil]
  have h48 : ((attBody ++ a).drop 48).take 64 = idKey := rfl
  have h8 : ((attBody ++ a).drop 8).take 32 = Config.shake256 idKey 32 := rfl
  have h0 : leAt (attBody ++ a) 0 4 = 0x5452_4341 := by
    rw [leAt, show ((attBody ++ a).drop 0).take 4 = [0x41, 0x43, 0x52, 0x54] from rfl]; decide
  have h4 : leAt (attBody ++ a) 4 2 = 1 := by
    rw [leAt, show ((attBody ++ a).drop 4).take 2 = [1, 0] from rfl]; decide
  simp only [offerOk, offerOf, hk, certParts_of g hg, Option.any_some, hr, v1, List.take_left' hb, List.drop_left' hb, v2, h48, h8, v3,
    h0, h4, List.length_append, hb, ha, List.length_replicate, beq_self_eq_true, Bool.and_true]
  rfl

theorem offer0_ok : offerOk offer0 = true :=
  offerOk_of _ _ _ _ rfl (slhMake_length _ _ _ _ (by decide)) (slhMake_length _ _ _ _ (by decide)) (slhVerify_make _ _ _ _)
    (slhVerify_make _ _ _ _) (slhVerify_make _ _ _ _)

/-- 11 R286: a flit whose words are even passes; one flipped bit of word 40 makes its group fail, and no other. -/
theorem test_flit_parity :
    let f : BitVec 2048 := 1#2048 <<< 1280 ||| 1#2048 <<< 1281
    let g : BitVec 2048 := f ||| 1#2048 <<< 1290
    ((List.range 4).map fun i => groupOk f i) = [true, true, true, true] ∧
    ((List.range 4).map fun i => groupOk g i) = [true, true, false, true] := by decide +kernel

theorem test_port_hyps :
    let s (x : Port) : State := { chain with
      lnk := { chain.lnk with ports := [(0, x)] }, sec := { entropyOk := true, exchangeSeed := some [1], runningSet := some (set 0 0) } }
    let u := s { state := .untrained, enabled := true }
    let t := s { state := .training, trained := true, enabled := true }
    let k := s { state := .training, trained := true, enabled := true, peerExchange := [1] }
    let g := s { state := .up, agreed := true, peerExchange := [1] }
    let o := s { state := .up, agreed := true, peerIdd := [] }
    let q := s { state := .up, quiet := true }
    let r := s { state := .retraining, agreed := true, replayBuf := [0] }
    let v : W64 := BitVec.ofNat 64 (3 * 2 ^ 60)
    (u.port 0).enabled = true ∧ (u.port 0).state = .untrained ∧ u.rst.held = .none ∧ u.glb.phase ≠ 3 ∧
    (t.port 0).state = .training ∧ (t.port 0).agreed = false ∧ (t.port 0).trained = true ∧ t.sec.entropyOk = true ∧
    offerOk offer0 = true ∧ offerOk { offer0 with exchange := [] } = false ∧
    (k.port 0).peerExchange ≠ [] ∧ k.lower (k.port 0) = false ∧ k.sec.exchangeSeed = some [1] ∧
    (g.port 0).peerExchange ≠ [] ∧ g.lower (g.port 0) = false ∧ g.portRuns 0 = true ∧
    o.portRuns 0 = true ∧ (o.port 0).quiet = false ∧ (o.port 0).agreed = true ∧ 0 ∉ (o.port 0).stopped ∧ o.lower (o.port 0) = false ∧
    o.up = true ∧ o.lnk.cmdState ≠ .busy ∧ bitsOf v 63 60 = 3 ∧ bitsOf v 59 56 = 0 ∧ o.sec.runningSet.isSome = true ∧
    chain.sec.runningSet = none ∧ (q.port 0).quiet = true ∧ q.portRuns 0 = true ∧ (r.port 0).state = .retraining ∧
    (r.port 0).agreed = true ∧ (r.port 0).txQ = [] ∧ (r.port 0).missing = [] ∧ (r.port 0).restart = false ∧
    gives (.portTrained 0 true) u (fun t => (t.port 0).state == .training && t.out.length == 1) = true ∧
    gives (.keyCiphertext 0 []) k (fun t => (t.port 0).agreed && (t.port 0).state == .up) = true ∧
    gives (.keyCiphertext 0 []) g (fun t => (t.port 0).epoch == 1) = true ∧
    gives (.laneLockLoss 0) o (fun t => (t.port 0).state == .retraining && (t.port 0).retrains == 1) = true ∧
    gives (.retrainDone 0 true) r (fun t => t.out.length == 1) = true := by
  have low (n : Nat) : decide (n < leNat ([] : Bytes)) = false := decide_eq_false (Nat.not_lt_zero n)
  intro s u t k g o q r v
  refine ⟨rfl, rfl, rfl, by decide, rfl, rfl, rfl, rfl, offer0_ok, ?_, List.cons_ne_nil _ _, low _, rfl, List.cons_ne_nil _ _, low _, rfl, rfl, rfl, rfl,
    List.not_mem_nil, low _, rfl, nofun, ?_, ?_, rfl, rfl, rfl, rfl, rfl, rfl, rfl, rfl, rfl, ?_⟩
  · simp [offerOk]
  · decide
  · decide
  · clear low
    revert s u t k g o q r v
    decide +kernel

/-- A flit with one byte of data whose header goes to a node, with a type, channel and job tag, and correct parity; `link` is its link
word. -/
def flit (dst type vc tag : Nat) (first last : Bool) (link : Nat) : BitVec 2048 :=
  let f : BitVec 2048 := BitVec.ofNat 2048
    (fw [(dst, 112), (2, 96), (tag, 72), (if tag = 0 then 0 else 0xFFF, 60), (vc, 58), (type, 54), (b2n first, 53), (b2n last, 52), (1, 44), (link, 128)])
  f ||| (BitVec.ofNat 2048 (parityField f)) <<< 192

theorem test_flit_hyps :
    let f := flit 1 3 0 0x11 false false 0
    let e := flit 1 3 0 0x11 false true 0
    let g := flit 3 1 1 0x11 true true 0
    let c := flit 3 3 0 0 true false 0
    let i := flit 0 0 0 0 false false (2 ^ 37)
    let s : State := { asMid run with lnk := { (asMid run).lnk with
      ports := [(0, { state := .up, enabled := true, peer := 2, granted := [true, true, true, true], partialMsg := [f], secret := some [1] }),
        (1, { state := .up, enabled := true, peer := 3, credit := [1, 1, 1, 1], secret := some [1] })] } }
    let sound (f : BitVec 2048) : Bool := (List.range 4).all (fun i => groupOk f i) && !linkRst f && !linkNak f &&
      linkSeq f == (s.port 0).rxSeq && !linkIdle f && (typeVcs (hdrType f)).contains (hdrVc f) &&
      (s.port 0).granted.getD (hdrVc f) false && headerOk f
    s.portRuns 0 = true ∧ s.rst.held = .none ∧ (s.port 0).naks + 1 < 8 ∧ (s.port 0).replays.toNat + 1 < 2 ^ 64 - 1 ∧
    groupOk (f ^^^ 1) 0 = false ∧ (s.port 0).txQ = [] ∧ (s.port 0).cut = none ∧
    ((List.range 4).all (fun k => groupOk i k) = true ∧ linkRst i = false ∧ linkNak i = false ∧ linkSeq i = (s.port 0).rxSeq ∧
      linkIdle i = true) ∧
    sound f = true ∧ hdrLast f = false ∧ s.egress f = none ∧ ((s.port 0).partialMsg.filter fun g => hdrVc g == 0).length < 18 ∧
    sound e = true ∧ hdrLast e = true ∧ s.egress e = none ∧
    sound g = true ∧ s.egress g = some (some 1) ∧ s.lnk.left = false ∧ (s.port 1).txQ = [] ∧ s.mayLeave 1 (hdrVc g) = true ∧
    s.job (hdrTag g) = some job ∧ job.members.length ≤ 32 ∧ hdrTag g ≠ 0 ∧ s.wakeUp.rst.pwr ≠ .waking ∧
    (s.port 1).mid.getD (hdrVc g) none = none ∧ hdrVc g ≠ 3 ∧ hdrFirst g = true ∧ (s.port 1).restart = false ∧ s.portRuns 1 = true ∧
    hdrFirst f = false ∧ hdrType e ≠ 6 ∧ sound c = true ∧ s.egress c = some (some 1) ∧ hdrFirst c = true ∧ hdrLast c = false ∧
    s.linkNo (hdrTag c) = some 0 ∧ hdrType c ≠ 8 ∧ s.retiredKey (hdrTag c) = false ∧ (s.port 0).secret.isSome = true ∧
    (s.port 1).secret.isSome = true ∧ 0 ∉ (s.port 1).stopped ∧ s.mayLeave 1 (hdrVc c) = true ∧
    (s.port 1).mid.getD (hdrVc c) none = none ∧
    gives (.flitReceive 0 f false) s (fun t => (t.port 0).partialMsg.length == 2 && (t.port 0).rxSeq == 1) = true ∧
    gives (.flitReceive 0 e false) s (fun t => (t.port 0).partialMsg.isEmpty && (t.port 0).freed.getD 0 0 == 2) = true ∧
    gives (.flitReceive 0 i false) s (fun t => (t.port 0).rxSeq == 0) = true ∧
    gives (.flitReceive 0 (f ^^^ 1) false) s (fun t => (t.port 0).nakNext && (t.port 0).naks == 1) = true ∧
    gives (.flitReceive 0 g false) s (fun t => (t.port 1).replayBuf.length == 1) = true := by decide +kernel

theorem test_write_hyps :
    let a : BitVec 44 := BitVec.ofNat 44 (2 ^ 43 + 64)
    heard chain (msg 1) [1, 3] = true ∧ (msg 1).dst = chain.lnk.node ∧ chain.job 0x11 = some job ∧ bitsOf a 42 41 = 0 ∧
    bitOf a 43 = true ∧ bitsOf (2 ^ 33 : BitVec 44) 40 0 ≥ 2 ^ 33 ∧ bitOf (2 ^ 33 : BitVec 44) 43 = false ∧
    gives (.writeMsg (msg 1) a [1, 2]) chain (fun t => t.rawByte ⟨true, 65⟩ == 2) = true := by decide +kernel

theorem test_membership_hyps :
    let s : State := { asMid run with lnk := { (asMid run).lnk with node := 3, members := [1, 3], routes := [⟨2, 2, 1, true, false, false⟩] } }
    let m : State := { asMid run with lnk := { (asMid run).lnk with members := [1, 3] } }
    let out : State := { leaf with lnk := { leaf.lnk with member := false, members := [] } }
    let st : State := { s with
      glb := { phase := 5 }, lnk := { s.lnk with member := false, members := [] }
      firn := { s.firn with swap := some ⟨1, ⟨0, 1, 0, 0, [], [], []⟩, [], false, true, false, true, false⟩ } }
    (heard st msg0 [0] = true ∧ st.coordStarts = true ∧ 2 ∉ st.lnk.members ∧ 2 ∈ topoMembers st.cfg.live.topo ∧ (st.route 2).isSome = true) ∧
    (heard out msg0 [0] = true ∧ out.placedOn 0 2 = true ∧ out.placedOn 1 2 = false ∧ msg0.src ∉ out.lnk.members ∧
      (out.port 0).txQ = [] ∧ (out.port 0).idleOnly = false ∧ out.isParentPort 0 = true) ∧
    (heard s msg0 [0] = true ∧ s.isCoord = true ∧ 2 ∉ s.lnk.members ∧ 2 ∈ topoMembers s.cfg.live.topo ∧
      joinPlace s.cfg.live.topo s.lnk.members 2 = true ∧ joinPlace s.cfg.live.topo [2, 3] 1 = false ∧ (s.route 2).isSome = true) ∧
    (heard m msg0 [0] = true ∧ 2 ∉ m.lnk.members ∧ m.isCoord = false ∧ m.isRoot = false ∧ m.isChildPort 0 = true ∧ m.lnk.member = true ∧
      m.isChildPort 1 = false ∧ heard m { msg0 with port := 1, src := 3 } [0] = true) ∧
    (heard out msg0 [0] = true ∧ msg0.dst = out.lnk.node ∧ out.lnk.member = false ∧ out.glb.phase ≠ 4 ∧
      (match (out.wakeUp.adoptRegistry []).adoptGen 0 0 [] [] with | (_, .ok ()) => true | _ => false) = true ∧
      (match (out.wakeUp.adoptRegistry []).adoptGen 0 1 [] [] with | (_, .error e) => e == 0x01 | _ => false) = true) ∧
    gives (.hello msg0 5 true 0x77) out (fun t => (t.port 0).peerPort == 5 && (t.port 0).peerGlb == 0x77 && t.out == [.join 1 0 []]) = true ∧
    gives (.join msg0 2 4 [7]) s (fun t => t.out == [.admitOk 2 [1, 3] t.keyList 0 0 [] 4] && t.lnk.memberKeys == [(2, [7])] && t.firn.seen == 4) = true ∧
    gives (.join msg0 2 4 [7]) st (fun t => t.out == [.admitOk 2 [] t.keyList 0 0 [] 4]) = true ∧
    gives (.memberAnnounce { msg0 with port := 1, src := 3 } 2 4 []) m (fun t => t.lnk.members == [2, 1, 3]) = true := by decide +kernel

theorem test_membership_end_hyps :
    let l : State := { asMid run with lnk := { (asMid run).lnk with members := [1, 3, 2] } }
    let out : State := { leaf with lnk := { leaf.lnk with member := false, members := [] } }
    let dn : State := { chain with lnk := { chain.lnk with ports := [(0, { state := .down, enabled := true, peer := 2 })] } }
    let v (op : Nat) : W64 := BitVec.ofNat 64 (op * 2 ^ 60)
    let idle : State := { chain with jobs := {}, lnk := { chain.lnk with leaving := true } }
    (heard l msg0 [0] = true ∧ 2 ∈ l.lnk.members ∧ (2 : NodeId) ≠ l.lnk.node ∧ 2 ≠ l.lnk.coordinator ∧ l.isCoord = false ∧
      l.firn.swap = none ∧ l.firn.install = none ∧ l.jobs.list.all (·.admitted) = true) ∧
    ((0 : PortId) ∈ (List.finRange 12).filter (fun q => (dn.port q.val).enabled && (dn.port q.val).peer == 2) ∧
      (List.finRange 12).all (fun q => !(dn.port q.val).enabled || ((dn.port q.val).state == .down && !(dn.port q.val).quiet)) = true) ∧
    (chain.up = true ∧ chain.lnk.cmdState ≠ .busy ∧ bitsOf (v 1) 63 60 = 1 ∧ bitsOf (v 2) 63 60 = 2) ∧
    (out.up = true ∧ out.lnk.cmdState ≠ .busy) ∧ idle.lnk.leaving = true ∧ idle.anyLive = false ∧ chain.anyLive = true ∧
    gives (.lost msg0 [2] false) l (fun t => !t.lnk.members.contains 2) = true ∧
    gives .leaveSend idle (fun t => t.lnk.left && t.out == [.leave]) = true := by decide +kernel

/-! ### Queues and jobs -/

/-- Queue 0 of function 0 bound to domain 5, with one descriptor posted, on a device with a base generation and a contract. -/
def queue0 : Queue := { enable := true, state := .running, sqTail := 1, bindValid := true, bindDomain := 5 }
def runQ (x : Queue) : State :=
  { run with
    jobs := {}
    hif := { queues := [(Machine.qkey 0 0, x)] }
    firn := { slots := [(1, fslot)], current := some ⟨1, 1, 1, 1, [], [], []⟩ }
    cfg := { live := { contracts := [⟨5, 50, 1, 0, 1, 0, []⟩] } } }

theorem test_queue_hyps :
    let s := runQ queue0
    let dis := runQ { bindValid := true }
    let v : W32 := BitVec.ofNat 32 (2 ^ 31 + 4 * 2 ^ 26 + 12 * 2 ^ 22)
    let g : State := runQ { queue0 with gathered := 1, coalUs := 5 }
    let cold : State := { s with glb := {} }
    cold.rst.held = .none ∧ cold.glb.ready = false ∧ cold.hif.dbDrop.toNat + 1 < 2 ^ 64 - 1 ∧
    s.up = true ∧ (s.queue 0 0).fencing = false ∧ (s.queue 0 0).state ≠ .disabled ∧
    ((runQ { queue0 with fencing := true }).queue 0 0).fencing = true ∧
    (dis.queue 0 0).state = .disabled ∧ (dis.queue 0 0).bindValid = true ∧ bitOf v 31 = true ∧ bitsOf v 29 26 = 4 ∧
    bitsOf v 25 22 = 12 ∧ ((dis.queue 0 0).sqTail - (dis.queue 0 0).sqHead).toNat ≤ 2 ^ 4 ∧
    bitsOf (BitVec.ofNat 32 (3 * 2 ^ 26) : W32) 29 26 < 4 ∧ 12 < bitsOf (BitVec.ofNat 32 (13 * 2 ^ 26) : W32) 29 26 ∧
    0 < (g.queue 0 0).gathered ∧ (g.queue 0 0).coalUs ≠ 0 ∧
    gives (.wqDoorbell 0 0 16) s (fun t => (t.queue 0 0).state == .running && (t.queue 0 0).sqTail == 16) = true ∧
    gives (.wqDoorbell 0 0 17) s (fun t => (t.queue 0 0).state == .error && (t.queue 0 0).error == 3) = true ∧
    gives (.wqCfg 0 0 v) dis (fun t => (t.queue 0 0).state == .running && (t.queue 0 0).cqLog2 == 12) = true ∧
    gives (.wqDoorbell 0 0 9) cold (fun t => t.hif.dbDrop == 1 && (t.queue 0 0).sqTail == 1) = true := by decide +kernel

/-- A descriptor of one member without streams (12 Table 12.5): domain 5, origin node 1. -/
def rawDesc : BitVec 1024 := BitVec.ofNat 1024 (fw [(9, 0), (5, 64), (1, 144), (1, 160)])
/-- The same for domain 6, which the queue is not bound to. -/
def otherDesc : BitVec 1024 := BitVec.ofNat 1024 (fw [(9, 0), (6, 64), (1, 144), (1, 160)])

theorem test_descriptor_hyps :
    let s := runQ queue0
    let x := queue0
    let r := s.wakeUp.setQueue 0 0 { x with sqHead := x.sqHead + 1, cqReserved := x.cqReserved + 1 }
    let j (d : BitVec 1024) : Job := { jobOf 0 0 0 (leBytes 128 d.toNat) with members := [1], tag := s.nextTag.1 }
    let u (d : BitVec 1024) : State × Option Turned := r.admReads (j d) []
    s.queue 0 0 = queue0 ∧ descGood (leBytes 128 rawDesc.toNat) (j rawDesc).d = true ∧ s.up = true ∧ x.sqTail ≠ x.sqHead ∧
    (x.cqTail + BitVec.ofNat 32 x.cqReserved - x.cqHead).toNat < 2 ^ x.cqLog2 ∧ (j rawDesc).d.serial = false ∧
    (j rawDesc).d.memberCount ≤ 1 ∧ s.membersOf (j rawDesc).d = [1] ∧ s.jobs.setups.isEmpty = true ∧ s.glb.fatal = false ∧
    (match (u rawDesc).1.planJob (j rawDesc) (leBytes 128 rawDesc.toNat) none (u rawDesc).2 with | .ok p => p.gen.num == 1 | .error _ => false)
      = true ∧
    (match (u otherDesc).1.planJob (j otherDesc) (leBytes 128 otherDesc.toNat) none (u otherDesc).2 with
     | .ok _ => false
     | .error e => e.event == Ev.hifDescBad) = true ∧
    gives (.descriptorConsume 0 0 rawDesc []) s (fun t => t.jobs.list.any fun j => j.admitted && j.phase == .input && j.gen == 1) = true ∧
    gives (.descriptorConsume 0 0 otherDesc []) s (fun t => t.jobs.list.isEmpty && (t.queue 0 0).cqTail == 1) = true := by decide +kernel

/-- The job at a setup stage of two members, on the origin's or a member's side. -/
def stage (at' : State → State) (p : Phase) : State := { at' run with jobs := { list := [{ job with members := [1, 2], phase := p }] } }

theorem test_setup_hyps :
    let w : State := { leaf with jobs := { setups := [⟨0x11, 9, 2, [1, 2], 0, 1, []⟩] } }
    let c : State := { runQ queue0 with
      lnk := chain.lnk, cfg := { live := { (runQ queue0).cfg.live with topo := pair 1 } }, jobs := { setups := [⟨0x22, 9, 2, [1, 2], 0, 1, []⟩] } }
    let j : Job := jobOf 0 0 0 (leBytes 128 rawDesc.toNat)
    j.d.jobId = 9 ∧ j.d.origin ≠ 2 ∧ j.d.memberCount ≤ 1 ∧ (c.jobs.setups.find? fun w => w.jobId == j.d.jobId) = c.jobs.setups[0]? ∧
    (c.route 2).isSome = true ∧
    gives (.descriptorConsume 0 0 rawDesc []) c (fun t => t.out.contains (.refuse 2 0x22 1 (Stat.fault + 256 * Ev.hifSetupBad.toNat))) = true ∧
    (3 : NodeId) ≠ (asMid run).lnk.node ∧ (asMid run).lnk.left = false ∧ heard (asMid run) (msg 0) [0] = true ∧
    gives (.accept (msg 0) 7 3) (asMid run) (fun t => t.out == [.accept 3 0x11 7]) = true ∧
    heard leaf (msg 0) [0] = true ∧ leaf.leadsOn 0 = false ∧ chain.leadsOn 0 = false ∧ (asMid run).leadsOn 1 = true ∧ leaf.lnk.node ∈ [(1 : NodeId), 2] ∧
    leaf.jobs.list.all (fun j => !(j.phase == .held && j.d.jobId == 9)) = true ∧
    w.jobs.setups.length = 1 ∧ (w.route 2).isSome = true ∧
    gives (.setup (msg 0) 9 [1, 2] 0 1 5 [] []) leaf (fun t => t.jobs.setups.length == 1) = true ∧
    gives (.setupHoldTimeout 9) w (fun t => t.jobs.setups.isEmpty && t.out == [.refuse 2 0x11 1 Stat.notReady]) = true := by
  decide +kernel

theorem test_setup_answer_hyps :
    let o := stage inChain .setup
    let a := stage asLeaf .accepted
    heard o (msg 0) [0] = true ∧ o.job 0x11 = some { job with members := [1, 2], phase := .setup } ∧ job.stop = none ∧
    job.replies = [] ∧ (msg 0).dst = o.lnk.node ∧ (msg 0).src ∈ [(1 : NodeId), 2] ∧ (msg 0).src ≠ o.lnk.node ∧
    heard a (msg 0) [0] = true ∧ a.job 0x11 = some { job with members := [1, 2], phase := .accepted } ∧
    gives (.accept (msg 0) 2 1) o (fun t => (t.job 0x11).map (·.phase) == some .input && t.out == [.go .all 0x11]) = true ∧
    gives (.refuse (msg 0) 2 1 Stat.busy) o (fun t => (t.job 0x11).map (·.stop) == some (some (Stat.busy, 0))) = true ∧
    gives (.go (msg 0)) a (fun t => (t.job 0x11).map (·.phase) == some .input) = true := by decide +kernel

theorem test_job_run_hyps :
    let st (p : Phase) (d : JobDesc) : Job := { job with phase := p, live := [], d := d }
    let s (j : Job) : State := { run with jobs := { list := [j] }, cl := [], mem := { run.mem with bytes := mputBytes [] 0x200 (leBytes 8 (dp 0x100)) } }
    let dma : W64 := BitVec.ofNat 64 0x5000
    let bytes : Bytes := leBytes 48 (fw [(1, 0), (0x9000, 128), (dp 0x400, 192), (4, 256)])
    let e : DmaEntry := ⟨0x9000, BitVec.ofNat 64 (dp 0x400), 4, false⟩
    let q : Job := { st .output jd with reqs := [⟨1, 4, 0, 0, 0⟩], reqBase := BitVec.ofNat 48 (dp 0x600) }
    let w := st .waiting { jd with clusters := 1, streams := BitVec.ofNat 64 (dp 0x200) }
    let i := st .input { jd with inList := dma }
    let r := st .running { jd with outList := dma }
    (s (st .input jd)).job 0x11 = some (st .input jd) ∧ jd.inList = 0 ∧ i.d.inList ≠ 0 ∧ dmaEntries bytes = some [e] ∧ e.sealed' = false ∧ dmaEntries (bytes.take 47) = none ∧
    ptrAddr e.ptr.toNat = some ⟨true, 0x400⟩ ∧ slotTaken w (s w).jobs.list = false ∧
    ((s w).streams w).map (fun p => (p.1, p.2.1, (s w).streamOk w p.2.2, ptrSet p.2.2)) = [(0, 0, true, true)] ∧
    r.d.evidence = false ∧ (st .running jd).d.outList = 0 ∧ poisonAll (s r) r.who.req [(⟨true, 0x400⟩, 4)] = .ok () ∧
    (s (st .output jd)).groupsBusy 0x11 = false ∧ (st .output jd).training = false ∧ job.ctx = none ∧ job.cfgFence = false ∧
    gives (.inputDmaDone 0x11 ⟨bytes, [[1, 2, 3, 4]]⟩) (s i) (fun t => t.rawByte ⟨true, 0x403⟩ == 4 && (t.job 0x11).map (·.phase) == some .waiting)
      = true ∧
    gives (.jobStart 0x11 []) (s w) (fun t => (t.slot 0 0).state == .running && (t.slot 0 0).pc.toNat == dp 0x100) = true ∧
    gives (.jobOutput 0x11 ⟨bytes, []⟩ []) (s r) (fun t => t.out == [.hostWrite 0x9000 [0, 0, 0, 0]]) = true ∧
    ptrAddr q.reqBase.toNat = some ⟨true, 0x600⟩ ∧ (s q).jobs = { list := [q] } ∧
    gives (.jobComplete 0x11) (s (st .output jd)) (fun t => t.jobs.list.isEmpty && (t.queue 0 0).cqTail == 1) = true ∧
    gives (.jobComplete 0x11) { s q with mem := { run.mem with bytes := mputBytes [] 0x648 [9] } } (fun t => t.rawByte ⟨true, 0x648⟩ == 0) = true := by decide +kernel

theorem test_fence_evidence_hyps :
    let f := runQ { queue0 with fencing := true, state := .fenced }
    let g : State := { run with hif := { vfs := 5, vectors := [(irqKey 5 3, { pending := true })] } }
    let v (b : List Bytes) (h t : W32) : State := { up with
      hif := { evidEn := true, evidBuf := b, evidHead := h, evidTail := t, ckptHead := h, ckptTail := t, evidLog2 := 4 }
      sec := { attKey := some [1], attReady := true, entropyOk := true } }
    let one : State := runQ { queue0 with fencing := true, alone := true, state := .fenced }
    (f.queue 0 0).fencing = true ∧ f.jobs.list = [] ∧ (∀ q : QId, (one.queue 0 q).fencing = decide (q = 0)) ∧ (one.queue 0 0).alone = true ∧
    one.jobs.list = [] ∧ (∀ q : QId, (f.queue 0 q).fencing = true → (f.queue 0 q).alone = false) ∧
    (v [[7]] 0 15).up = true ∧ ((v [[7]] 0 15).hif.evidTail - (v [[7]] 0 15).hif.evidHead).toNat < 2 ^ 4 ∧
    2 ^ (v [] 0 16).hif.evidLog2 ≤ ((v [] 0 16).hif.evidTail - (v [] 0 16).hif.evidHead).toNat ∧
    (v [] 0 15).sec.attKey = some [1] ∧ ((v [] 0 15).hif.ckptTail - (v [] 0 15).hif.ckptHead).toNat < 2 ^ (v [] 0 15).hif.ckptLog2 ∧
    2 ^ (v [] 0 16).hif.ckptLog2 ≤ ((v [] 0 16).hif.ckptTail - (v [] 0 16).hif.ckptHead).toNat ∧
    gives (.fenceRelease 0) f (fun t => t.queue 0 0 == { bindValid := true, bindDomain := 5 }) = true ∧
    g.fnOn 5 = true ∧ run.fnOn 5 = false ∧ f.jobs.list.all (fun j => decide (j.fn ≠ (0 : FnId)) || j.phase == .ended) = true ∧
    gives (.functionLevelReset 5) g (fun t => t.hif.vectors.isEmpty &&
      (t.queue 5 0).state == .fenced && (t.queue 4 0).state == .disabled && (t.job 0x11).all fun j => j.stop.isNone) = true ∧
    gives .evidenceWrite (v [[7]] 0 15) (fun t => t.out == [.hostWrite (BitVec.ofNat 64 (4096 * 15)) [7]]) = true := by decide +kernel

/-! ### Security -/

/-- A SEC_CMD word, and a device whose domain 5 has a session in a state. -/
def sc (op d : Nat) : W64 := BitVec.ofNat 64 (fw [(op, 60), (d, 48)])
def sess (st : SessState) : Session := { state := st, epoch := 3, seed := some [7] }
def runS (st : SessState) : State := { run with sec := { entropyOk := true, sessions := [(5, sess st)], removals := [] } }

theorem test_session_hyps :
    let lvl : State := { runS .free with sec := { (runS .free).sec with debugLevel := 3 } }
    let dry : State := { runS .free with sec := { (runS .free).sec with entropyOk := false } }
    let key : Bytes := List.replicate 1568 0
    (runS .free).up = true ∧ (runS .free).sec.cmdState ≠ .busy ∧ bitsOf (sc 1 5) 63 60 = 1 ∧ bitsOf (sc 1 5) 47 32 = 0 ∧
    BitVec.ofNat 12 (bitsOf (sc 1 5) 59 48) = (5 : Dom) ∧
    ((runS .opened).session 5).state ≠ .free ∧ ((runS .free).session 5).state = .free ∧ lvl.sec.debugLevel = 3 ∧
    dry.sec.entropyOk = false ∧ (runS .free).sec.entropyOk = true ∧ (runS .free).sec.debugLevel ≠ 3 ∧
    bitsOf (sc 2 5) 63 60 = 2 ∧ ((runS .opened).session 5).state = .opened ∧ ((runS .opened).session 5).seed = some [7] ∧
    (runS .opened).liveSession 5 = true ∧ (runS .removing).liveSession 5 = false ∧ bitsOf (sc 3 5) 63 60 = 3 ∧
    bitsOf (sc 4 5) 63 60 = 4 ∧ kemKeyOk key = true ∧
    gives (.secOpen (sc 1 5)) (runS .free) (fun t => (t.session 5).state == .opened && (t.session 5).sess == 1) = true ∧
    gives (.secOpen (sc 1 5)) lvl (fun t => t.sec.reason == 0x0A) = true ∧
    gives (.secExport (sc 3 5) key) (runS .opened) (fun t => (t.session 5).exportKey.isSome) = true := by decide +kernel

/-- A provisioning argument whose confirmation fits (13 R349), and one whose confirmation does not. -/
theorem test_provision_hyps (given : Bytes) :
    let good := envCt ++ Config.shake256 given 32
    let bad := envCt ++ (Config.shake256 given 32).map (· + 1)
    good.length = 1600 ∧ good.take 1568 = envCt ∧ Config.shake256 given 32 = good.drop 1568 ∧
    bad.length = 1600 ∧ bad.take 1568 = envCt ∧ Config.shake256 given 32 ≠ bad.drop 1568 := by
  have hc : envCt.length = 1568 := List.length_replicate
  have hs : (Config.shake256 given 32).length = 32 := by simp [Config.shake256]
  refine ⟨?_, List.take_left' hc, (List.drop_left' hc).symm, ?_, List.take_left' hc, ?_⟩
  · rw [List.length_append, hc, hs]
  · rw [List.length_append, hc, List.length_map, hs]
  · rw [List.drop_left' hc]
    intro h
    have h0 := congrArg (fun l => l.headD 0) h
    simp [Config.shake256, List.range_succ_eq_map] at h0

theorem test_removal_steps_hyps :
    let r (n : Nat) : State := { runS .removing with
      jobs := {}, sec := { (runS .removing).sec with removals := [⟨5, n, [0x11], []⟩] } }
    let m := { msg0 with port := 0 }
    let l : State := { leaf with sec := (runS .opened).sec }
    let e : State := { leaf with jobs := {}, mem := {}, cl := [], sec := { (runS .removing).sec with removals := [⟨5, 1, [0x11], []⟩] } }
    (runS .opened).up = true ∧ (runS .opened).sec.cmdState ≠ .busy ∧ bitsOf (sc 5 5) 63 60 = 5 ∧ bitsOf (sc 5 5) 47 32 = 0 ∧
    BitVec.ofNat 12 (bitsOf (sc 5 5) 59 48) = (5 : Dom) ∧ (runS .opened).isCoord = true ∧ (runS .opened).lnk.lost = [] ∧
    heard l m [0] = true ∧ l.liveSession 5 = true ∧ l.removal 5 = none ∧
    (runS .opened).liveSession 5 = true ∧ (runS .opened).removal 5 = none ∧
    (r 1).removal 5 = some ⟨5, 1, [0x11], []⟩ ∧ (r 1).jobsOf 5 = [] ∧
    ((r 1).hif.queues.any fun e => e.2.fencing && e.2.bindValid && e.2.bindDomain == 5) = false ∧
    (r 5).removal 5 = some ⟨5, 5, [0x11], []⟩ ∧
    gives (.secRemove (sc 5 5)) (runS .opened) (fun t =>
      (t.session 5).state == .removing && (t.job 0x11).all fun j => j.stop.isSome) = true ∧
    gives (.tenantRetire 5) (r 1) (fun t => (t.session 5).memKey.isNone && (t.session 5).seed.isNone && (t.page 0).mode == .free) = true ∧
    e.removal 5 = some ⟨5, 1, [0x11], []⟩ ∧ e.jobsOf 5 = [] ∧ e.runsOf 5 = [] ∧ e.isCoord = false ∧
    gives (.tenantRetire 5) e (fun t => t.out.contains (.removalDone 5)) = true ∧
    gives (.removalRelease 5) (r 5) (fun t => (t.session 5).state == .free && (t.session 5).epoch == 4) = true := by decide +kernel

/-- An attestation request (13 R364): host address 0x9000, room `n`, no domain. -/
def request (n : Nat) : Bytes := leBytes 64 (fw [(0x9000, 256), (n, 320), (0xFFFF, 352)])
def runA : State := { up with sec := { entropyOk := true, attReady := true, attKey := some [1] } }

theorem test_attest_hyps :
    let s : State := { up with sec := { entropyOk := true }, glb := { up.glb with phase := 7 } }
    let v := sc 6 0
    s.rst.held = .none ∧ s.sec.attReady = false ∧ s.sec.entropyOk = true ∧ 0 < s.glb.phase ∧ s.glb.phase < 8 ∧ s.sec.attestWait = none ∧
    runA.sec.cmdState ≠ .busy ∧ bitsOf v 63 60 = 6 ∧ bitsOf v 47 32 = 0 ∧ (request 0).length = 64 ∧
    ((request (2 ^ 32 - 1)).drop 46).all (· == 0) = true ∧ leAt (request 0) 44 2 = 0xFFFF ∧ runA.sec.attKey = some [1] ∧
    runA.sec.attReady = true ∧ runA.sec.entropyOk = true ∧ bitOf runA.rst.blockAct 16 = false ∧
    leAt (request 0) 40 4 = 0 ∧ leAt (request (2 ^ 32 - 1)) 40 4 = 2 ^ 32 - 1 := by decide +kernel

/-- A report without session key and certificate is longer than nothing and shorter than the room can be. -/
theorem test_report_length (req rnd : Bytes) (h : req.length = 64) :
    0 < (runA.report req [] [1] rnd).length ∧ (runA.report req [] [1] rnd).length ≤ 2 ^ 32 - 1 := by
  have fb (n : Nat) (l : Bytes) : (fitBytes n l).length = n := by simp [fitBytes]; omega
  have hi : (pad64 Config.identityCert).length ≤ 32832 := by
    have hb := Config.identityCertLen.isLt
    simp only [pad64, List.length_append, List.length_replicate, Config.identityCert, List.length_map, List.length_range, alignUp]
    omega
  have hf : runA.firn.idCert = Config.identityCert := rfl
  have hg (m : Bytes) : (slhSign [1] rnd m).length = 49856 := slhMake_length _ _ _ _ (by decide)
  have ha : runA.sec.attCert = [] := rfl
  have hp : pad64 [] = [] := rfl
  have hc : runA.life.counters = [0, 0, 0, 0, 0, 0] := rfl
  unfold State.report
  simp only [ha, hp, hc, hf, hg, List.length_append, fb, List.length_replicate, List.length_take, h]
  have hl : ∀ n v, (leBytes n v).length = n := by
    intro n
    induction n with
    | zero => intro v; rfl
    | succ n ih => intro v; simp [leBytes, ih]
  simp only [hl, List.length_nil, List.length_flatMap, List.map_cons, List.map_nil, List.sum_cons, List.sum_nil]
  split <;> simp only [fb, List.length_replicate] <;> omega

theorem test_staging_hyps :
    let s (st : StagedState) : State := { up with sec := { staged := st, fuseSvn := 3, stageLen := 90168 } }
    let ph : State := { s .none with glb := { up.glb with phase := 7 } }
    ph.up = true ∧ ph.sec.cmdState ≠ .busy ∧ bitsOf (sc 7 0) 63 60 = 7 ∧ bitsOf (sc 8 0) 63 60 = 8 ∧
    (s .writing).sec.staged = .writing ∧ (s .trial).sec.staged = .trial ∧ ph.sec.staged = .none ∧ ph.glb.phase < 8 ∧
    gives (.secStage (sc 7 0)) ph (fun t => t.sec.staged == .writing && t.sec.stagedSlot) = true ∧
    setOk 3 (set 4 3) = true ∧ setOk 3 (set 4 2) = false ∧ setSize (set 4 3) = (s .writing).sec.stageLen := by
  refine ⟨rfl, by decide, by decide, by decide, rfl, rfl, rfl, by decide, by decide, by rw [setOk_set]; rfl, by rw [setOk_set]; rfl, ?_⟩
  simp [setSize, imageSize, trailerLen, set, image, endorsed, body_lengths]

theorem test_commit_svn_hyps :
    let s (n : Nat) (trial : Bool) : State := { up with sec := { runningSvn := n, fuseSvn := 3, trial := trial } }
    let v := sc 9 0
    (s 64 false).up = true ∧ (s 64 false).sec.cmdState ≠ .busy ∧ bitsOf v 63 60 = 9 ∧ bitsOf v 47 32 = 0 ∧
    (s 64 true).sec.trial = true ∧ (s 65 false).sec.trial = false ∧ 64 < (s 65 false).sec.runningSvn ∧
    (s 64 false).sec.runningSvn ≤ 64 ∧ (s 64 false).sec.fuseSvn ≤ (s 64 false).sec.runningSvn ∧
    gives (.secCommitSvn v) (s 64 false) (fun t => t.sec.fuseSvn == 64) = true ∧
    gives (.secCommitSvn v) (s 65 false) (fun t => t.sec.fuseSvn == 3 && t.sec.reason == 0x08) = true ∧
    gives (.secCommitSvn v) (s 64 true) (fun t => t.sec.fuseSvn == 3 && t.sec.reason == 0x07) = true := by decide +kernel

/-- The root's own signature over a message (13 Table 13.6, R367). -/
def rootSigner (m : Bytes) : Signer := ⟨Config.rootKey, Config.rootKey, none, Config.slhMake Config.slhS Config.rootKey m []⟩
/-- The token for challenge [9] and this part. -/
def token (l : Byte) : Bytes := l :: [9] ++ up.idd

theorem test_token_signers :
    signerOk 2 0 (token 2) (rootSigner (token 2)) = true ∧ signerOk 2 0 (token 2) { rootSigner (token 2) with sig := [] } = false ∧
    signerOk 2 0 (token 2) { rootSigner (token 2) with endorse := some ⟨2, 64, []⟩ } = false := by
  refine ⟨signerOk_root _ _ _, ?_, ?_⟩ <;> simp only [signerOk, rootSigner, Config.slhVerify]
  · have h : Config.slhMake Config.slhS Config.rootKey (token 2) [] ≠ [] := fun h => by
      have l := slhMake_length Config.slhS Config.rootKey (token 2) [] (by decide)
      rw [h] at l
      exact absurd l (by decide)
    simp; exact fun _ _ => h
  · simp

theorem test_entropy_debug_hyps :
    let f : State := { run with sec := { healthFail := true } }
    let w : State := { run with sec := { healthFail := true, openWait := some 5 } }
    let c : State := { up with sec := { entropyOk := true, challenge := some [9] } }
    let o : State := { c with sec := { c.sec with sessionSinceCold := true } }
    let ch : State := { run with sec := { healthFail := true, challengeWait := true } }
    let x : State := { run with sec := { healthFail := true, openWait := some 5, sessions := [(5, { state := .removing })] } }
    ch.sec.healthFail = true ∧ ch.sec.openWait = none ∧ ch.sec.challengeWait = true ∧ w.sec.challengeWait = false ∧ f.sec.entropyOk = false ∧
    (w.session 5).state = .free ∧ w.sec.debugLevel ≠ 3 ∧ (x.session 5).state ≠ .free ∧ x.sec.openWait = some 5 ∧
    gives .healthTestRecovery x (fun t => t.sec.reason == 1 && (t.session 5).state == .removing) = true ∧
    gives .healthTestRecovery ch (fun t => t.sec.challenge.isSome && !t.sec.challengeWait) = true ∧
    f.sec.healthFail = true ∧ f.rst.held ≠ .cold ∧ f.sec.attestWait = none ∧
    (List.finRange 12).all (fun p => (f.port p.val).peerExchange.isEmpty) = true ∧ f.sec.openWait = none ∧
    w.sec.openWait = some 5 ∧ c.sec.entropyOk = true ∧ c.rst.held = .none ∧ c.sec.challenge = some [9] ∧
    c.sec.sessionSinceCold = false ∧ o.sec.sessionSinceCold = true ∧ c.sec.challenge ≠ some [8] ∧ up.sec.healthFail = false ∧
    gives .trngFailTimeout f (fun t => t.glb.fatal && (t.job 0x11).all fun j => j.stop.isSome) = true ∧
    gives .healthTestRecovery w (fun t => (t.session 5).state == .opened && t.sec.openWait.isNone) = true := by decide +kernel

theorem raise_sec (s : State) (c : W16) (i : EvInfo) : (s.raise c i).sec = s.sec := by
  obtain ⟨e, h⟩ := raise_only s c i
  rw [h]

/-- The token for the device's own identity sets the level; for a wrong challenge it does not. -/
theorem test_debug_token :
    let c : State := { up with sec := { challenge := some [9], sessionSinceCold := true } }
    (∃ t, exec (.jtagToken 2 [9] up.idd (rootSigner (token 2))) c = .next t ∧ t.sec.debugLevel = 2) ∧
    (∃ t, exec (.jtagToken 3 [9] up.idd (rootSigner (token 3))) c = .next t ∧ t.sec.debugLevel = 0) ∧
    ∃ t, exec (.jtagToken 2 [8] up.idd (rootSigner (token 2))) c = .next t ∧ t.sec.debugLevel = 0 := by
  refine ⟨?_, ?_, ?_⟩ <;>
    exact ⟨_, rfl, by simp [jtagToken, signerOk_root, rootSigner, token, State.idd, raise_sec, State.setSec, up, State.reset]⟩

/-! ### Configuration, registers -/

theorem test_commit_hyps :
    let l (k n : Nat) : W64 := BitVec.ofNat 64 (fw [(1, 60), (k, 32), (n, 0)])
    let c (st : CfgState) (r : List (Nat × Bytes)) : State := { up with cfg := { state := st, gen := 1, staged := r } }
    let vc := leBytes 4 (fw [(40, 0), (1, 8), (1, 16)])
    let m : State := { c .committing [(0xC, vc)] with life := { record := some ⟨1, [], 2, []⟩ } }
    let old : State := { c .checked [(0xC, vc)] with jobs := { list := [{ job with cfgGen := 0 }] } }
    (c .none []).up = true ∧ bitsOf (l 0xC 1) 63 60 = 1 ∧ bitsOf (l 0xC 1) 59 48 = 0 ∧ bitsOf (l 0xC (2 ^ 20)) 31 0 ≤ 2 ^ 20 ∧
    committable 0xC = true ∧ committable 4 = false ∧ (c .none []).checkReason = 0x0A ∧
    (c .staged [(0xC, vc)]).cfg.state ≠ .committing ∧ (2 : W32) ≠ (c .checked []).cfg.gen ∧ (c .staged []).cfg.state ≠ .checked ∧
    old.cfg.state = .checked ∧ old.oldCfgLive = true ∧ (c .checked [(0xC, vc)]).oldCfgLive = false ∧
    m.cfg.state = .committing ∧ m.life.writing = none ∧ (2 : W32) = nextGen m.cfg.gen ∧
    gives (.cfgStageLoad (l 4 8)) (c .none []) (fun t => t.cfg.reason == 0x09) = true ∧
    gives .cfgCommitInstant m (fun t => t.cfg.gen == 2 && t.cfg.live.vc3Ceiling == 40 && t.cfg.staged.isEmpty) = true := by
  decide +kernel

/-- A staged table of 14 Table 14.3 that passes every check. -/
theorem test_check_passes :
    ({ up with cfg := { state := .staged, staged := [(0xC, leBytes 4 (fw [(40, 0), (1, 8), (1, 16)]))] } } : State).checkReason = 0 := by
  decide +kernel

theorem test_register_hyps :
    let vf : State := { up with hif := { vfs := 5 } }
    let size (n : Nat) : W64 := BitVec.ofNat 64 (n * 2 ^ 26)
    let dbg : State := { up with sec := { debugLevel := 2 }, cl := [(0, { runs := [(7, 0xABCDEF)] })] }
    up.rst.held = .none ∧ State.reset.rst.held ≠ .none ∧ bar0Reg 0x080_002C = none ∧ bar2Reg 0x7FFC = none ∧ State.reset.up = false ∧
    up.up = true ∧ up.hif.vfs = 0 ∧ up.fnOn 1 = false ∧ vf.fnOn 5 = true ∧ vf.fnOn 6 = false ∧ up.evt.gathered = 0 ∧
    bitsOf (size 7) 30 26 < 8 ∧ 20 < bitsOf (size 21) 30 26 ∧ 8 ≤ bitsOf (size 8) 30 26 ∧ bitsOf (size 20) 30 26 ≤ 20 ∧
    (63 : W64).toNat ≤ 63 ∧ 63 < (64 : W64).toNat ∧
    up.sec.debugLevel < 2 ∧ 2 ≤ dbg.sec.debugLevel ∧ dbg.debugRun 0 7 true = some 0xABCDEF ∧
    gives (.registerWrite 3 .debug 0x004_0010 7) dbg (fun t => t.sec.arg == 7) = true ∧
    gives (.registerWrite 0 .bar0 0x004_0010 7) up (fun t => t.sec.arg == 7) = true ∧
    gives (.registerWrite 0 .bar0 0x030_0110 0x1FFF) up (fun t => t.readReg 0 .bar0 0x030_0110 == 0x1000) = true ∧
    gives (.registerWrite 0 .sriov 0 63) up (fun t => t.hif.vfs == 63 && t.readReg 0 .bar0 0x008_0000 != up.readReg 0 .bar0 0x008_0000) = true ∧
    gives (.registerWrite 5 .bar2 0x80FC 1) vf (fun t => (t.vector 5 15).masked) = true ∧
    gives (.registerWrite 0 .bar0 0x080_0010 (BitVec.ofNat 64 (2 ^ 31 + 8 * 2 ^ 26))) up (fun t => t.evt.enable && t.evt.hostLog2 == 8)
      = true := by decide +kernel

/-! ### Resets and starts -/

theorem test_reset_hyps :
    let r : State := { run with rst := { held := .none, readyOnce := true } }
    let l : State := { leaf with rst := { leaf.rst with readyOnce := true }, cfg := { live := { leaf.cfg.live with dev := { chainReset := true } } } }
    let w : W32 := 0x5752_FFFF
    let q : LifeRecord := { seq := 4, counters := [1, 2, 3, 4, 5, 6], lastCfgGen := 7, pe := [] }
    let early : State := { run with rst := { held := .none }, life := { record := some q, counters := [10, 0, 0, 0, 0, 0] } }
    let trip (src : Nat) : State := { State.reset with rst := { trip := true, source := src }, glb := { tripN := true } }
    r.rst.held ≠ .cold ∧ r.rst.readyOnce = true ∧ up.rst.readyOnce = false ∧ State.reset.rst.held = .cold ∧
    r.var.reg.all (fun e => e.2.state != .loading && e.2.cacheParcels.isEmpty && e.2.stateWait.isNone) = true ∧
    mwf {} r.hif.queues = true ∧ r.life.newest = none ∧ early.rst.fromCold = true ∧ early.life.newest = some q ∧
    (trip 3).rst.held = .cold ∧ (trip 3).rst.source = 3 ∧ (trip 1).rst.source ≠ 3 ∧
    bitsOf w 31 16 = 0x5752 ∧ bitOf w 0 = true ∧ bitsOf (1 : W32) 31 16 ≠ 0x5752 ∧
    heard l msg0 [0] = true ∧ l.rst.held = .none ∧ msg0.src = l.lnk.coordinator ∧ l.cfg.live.dev.chainReset = true ∧
    heard chain msg0 [0] = true ∧ msg0.src ≠ chain.lnk.coordinator ∧
    gives (.softwareReset w) r (fun t => t.rst.held == .warm && t.rst.source == 5 && t.jobs.list.isEmpty) = true ∧
    gives .thermalTrip r (fun t => t.rst.held == .cold && t.rst.trip && t.life.record.isSome) = true ∧
    gives .thermalTrip early (fun t => t.life.record.map (fun x => (x.seq, x.counters, x.lastCfgGen)) == some (5, [11, 2, 3, 5, 5, 6], 7)) = true ∧
    gives .tripRelease (trip 3) (fun t => t.rst.held == .none && t.rst.cause == 3 && t.rst.romStart && !t.glb.tripN) = true ∧
    gives .tripRelease (trip 1) (fun t => t.rst.held == .cold && !t.rst.trip) = true ∧
    gives (.resetMsg msg0) l (fun t => t.rst.held == .warm && t.rst.srcNode == 2) = true := by decide +kernel

/-- A boot of a node alone in its chain, whose tables are those of `cfgBody`, without a default slot. -/
def boot (src : Nat) : Boot :=
  { bootSrc := BitVec.ofNat 2 src, clkMode := 0, entropy := true, set := some (set 0 0)
    topo := { nodes := [⟨1, [], none, 0, 0⟩], coordinator := 1, deputy := 1 }, lifeBad := [], catOk := (false, false), memFail := []
    ports := [], members := [], gen := 0, slot := 0, registry := [], firnBad := [], firnUnread := [], reFirnBad := [] }

/-- The tables that the boot brings. -/
def booted : Tables :=
  (bootTables cfgBody).foldl (fun (t : Tables) e => t.apply e.1 e.2.1 e.2.2)
    { defServePct := Config.romServePct.val, defBulkJobs := Config.romBulkJobs.val, topo := (boot 0).topo }

/-- A set whose images verify boots, and the slot that it stands in is picked. -/
theorem slotOk_set : slotOk 0 (set 0 0) = true := by
  rw [slotOk, setOk_set, show firmwareOk (set 0 0).fw.body = true by decide +kernel]; rfl

theorem pickSlot_active (s : State) (h : s.sec.staged = .none) (k : s.sec.activeSlot = false) (f : s.sec.fuseSvn = 0)
    (a : s.sec.flashA = some (set 0 0)) : s.pickSlot = some (false, false, set 0 0) := by
  have e : s.bootable false = some (set 0 0) := by simp [State.bootable, Sec.flash, a, f, slotOk_set]
  simp [State.pickSlot, h, k, e]

theorem pickSlot_none (s : State) (a : s.sec.flashA = none) (b : s.sec.flashB = none) : s.pickSlot = none := by
  have e (k : Bool) : s.bootable k = none := by cases k <;> simp [State.bootable, Sec.flash, a, b]
  simp [State.pickSlot, e]

/-- The device after reset with a good set in slot A of the flash. -/
def flashed : State := { State.reset with sec := { flashA := some (set 0 0) } }
/-- The same in a warm reset, and in host download mode. -/
def warmed : State := { State.reset with rst := { held := .warm, readyOnce := true }, sec := { flashA := some (set 0 0), entropyOk := true } }
def hosted : State :=
  { State.reset with
    rst := { held := .none }, glb := { phase := 8 }, sec := { download := true, entropyOk := true, stageLen := setSize (set 0 0) } }

theorem test_start_hyps :
    kindsOk cfgBody (boot 0).topo = true ∧ (bootTables cfgBody).length = 4 ∧
    (bootTables cfgBody).all (fun e => tableOk e.1 e.2.1 e.2.2) = true ∧ booted.dev.codesOk = true ∧
    State.reset.tablesReason booted = 0 ∧ flashed.tablesReason booted = 0 ∧ warmed.tablesReason booted = 0 ∧ hosted.tablesReason booted = 0 ∧
    topoOk (boot 0).topo booted.dev.position ((tableOf 8 (bootTable cfgBody 3)).map routeOf) (bootMode cfgBody) = true ∧
    (boot 0).topo.nodes.length ≤ 1 ∧ 8 ≤ booted.dev.defaultSlot ∧
    flashed.rst.held = .cold ∧ flashed.rst.trip = false ∧ (boot 0).clkMode ≠ 3 ∧ (boot 0).entropy = true ∧
    flashed.rst.readyOnce = false ∧ flashed.glb.ready = false ∧ flashed.glb.fatal = false ∧ (boot 0).memFail = [] ∧ (boot 0).ports = [] ∧
    (boot 0).bootSrc = 0 ∧ (boot 1).bootSrc = 1 ∧ (boot 2).bootSrc = 2 ∧ (boot 3).bootSrc = 3 ∧
    flashed.rst.bootPort = none ∧ flashed.rst.bootTried = [] ∧
    warmed.glb.bootSrc = 0 ∧ warmed.firn.current = none ∧ warmed.firn.old = none ∧ warmed.firn.swap.isNone = true ∧
    warmed.sec.entropyOk = true ∧ hosted.glb.phase = 8 ∧ hosted.sec.download = true ∧ hosted.sec.entropyOk = true ∧
    hosted.rst.readyOnce = false ∧ hosted.glb.ready = false ∧ hosted.glb.fatal = false ∧ hosted.rst.held = .none := by decide +kernel

/-- What the booted sets must be, and that a trial which the reset ended picks the active slot again. -/
theorem test_start_images :
    flashed.rejectTrial.pickSlot = some (false, false, set 0 0) ∧ warmed.rejectTrial.pickSlot = some (false, false, set 0 0) ∧
    ({ flashed with sec := { flashed.sec with staged := .trial, stagedSlot := true } } : State).rejectTrial.sec.staged = .rejected ∧
    State.reset.rejectTrial.pickSlot = none ∧ (boot 1).set = some (set 0 0) ∧ slotOk hosted.sec.fuseSvn (set 0 0) = true ∧
    setSize (set 0 0) = hosted.sec.stageLen ∧ slotOk 1 (set 0 0) = false :=
  ⟨pickSlot_active _ rfl rfl rfl rfl, pickSlot_active _ rfl rfl rfl rfl, rfl, pickSlot_none _ rfl rfl, rfl, slotOk_set, rfl, by
    rw [slotOk, setOk_set]; rfl⟩

/-- 14 R371: sections that overlap, or that pass 1.5 MiB, fail the slot. -/
theorem test_firmware_sections :
    let two (a b : Nat) : Bytes := leBytes 128 (fw [(0x5746_4B59, 0), (1, 32), (2, 48), (128, 64), (a, 512), (16, 544), (96, 576), (b, 640), (16, 672),
      (112, 704)])
    firmwareOk fwBody = true ∧ firmwareOk (two 0 16) = true ∧ firmwareOk (two 0 15) = false ∧ firmwareOk (two 0 0x17_FFF0) = true ∧
    firmwareOk (two 0 0x17_FFF1) = false := by decide +kernel

/-- A node alone in its chain comes to ready from the state after reset, once a set stands in the flash (15 R406). -/
theorem test_cold_start_ready :
    gives (.coldStart (boot 0)) flashed (fun t => t.glb.ready && t.glb.phase == 7 && t.lnk.node == 1 && t.lnk.member) = true := by
  have e : coldStart (boot 0) flashed = (flashed.released.romBegins (boot 0)) := rfl
  let t : State := (({ flashed.released with
    glb := { flashed.released.glb with bootSrc := 0, clkMode := 0 }
    rst := { flashed.released.rst with romStart := false } } : State).trainHost).setSec fun x => { x with entropyOk := true, healthFail := false }
  have p : t.pickSlot = some (false, false, set 0 0) := pickSlot_active t rfl rfl rfl rfl
  have h : flashed.released.romBegins (boot 0) = (t.setSec fun x => { x with
      noImage := false, runningSlot := false, trial := false, staged := x.staged }).startImage (boot 0) (set 0 0) := by
    have : flashed.released.romBegins (boot 0) =
      match t.pickSlot with
      | none => ((t.setSec fun x => { x with noImage := true }).deviceFatal Ev.secImageBad).inPhase 0xA
      | some (slot, trial, x) =>
        (t.setSec fun x => { x with
          noImage := false, runningSlot := slot, trial := trial, staged := if trial then .trial else x.staged }).startImage (boot 0) x := rfl
    rw [this, p]
    rfl
  unfold gives
  rw [show exec (.coldStart (boot 0)) flashed = .next (coldStart (boot 0) flashed) from rfl, e, h]
  clear h e p
  decide +kernel

/-- 14 Table 14.9, 15 Table 15.7: a boot from the host waits in phase 8, a recovery in phase 9, one from a neighbour for its image. -/
theorem test_boot_phases :
    gives (.coldStart (boot 1)) State.reset (fun t => t.glb.phase == 8 && !t.glb.ready) = true ∧
    gives (.coldStart (boot 3)) State.reset (fun t => t.glb.phase == 9 && !t.glb.ready) = true ∧
    gives (.coldStart { boot 2 with ports := [4, 2] }) State.reset (fun t => t.rst.bootPort == some 2 && t.rst.startWait) = true := by
  decide +kernel

theorem test_block_reset_hyps :
    let v (k : Nat) : W64 := BitVec.ofNat 64 (2 ^ k)
    let a : State := { up with rst := { up.rst with blockAct := 1 }, lnk := { ports := [(0, { enabled := true })] } }
    up.up = true ∧ bitsOf (v 21) 63 22 = 0 ∧ bitOf (v 12) 12 = true ∧ run.blockIdle 12 = false ∧ bitOf run.rst.blockAct 12 = false ∧
    (List.range 22).all (fun n => up.blockIdle n && !bitOf up.rst.blockAct n) = true ∧
    bitOf a.rst.blockAct 0 = true ∧ bitOf a.rst.blockAct 21 = false ∧
    gives (.rstBlockCtl (v 12)) run (fun t => t.rst.blockAct == 0 && t.cl == run.cl) = true ∧
    gives (.rstBlockCtl (v 16)) up (fun t => bitOf t.rst.blockAct 16) = true ∧
    gives (.blockResetDone 0) a (fun t => (t.port 0).state == .training && bitOf t.rst.block 0) = true := by decide +kernel

/-! ### Well-formedness: an ill-formed term for each check -/

theorem test_wf_word_of_another_row :
    (Instr.wf (.nop (iss (wd 5 0 []))) = true) ∧ Instr.wf (.nop (iss (wd 5 1 []))) = false ∧ Instr.wf (.vecAdd (iss (vw 1 0 []))) = false := by
  decide +kernel

/-- 05 R107: a field that a row leaves unused must be zero. -/
theorem test_wf_reserved_field :
    Instr.wf (.vecAdd (iss (vw 0 0 []))) = true ∧ Instr.wf (.vecAdd (iss (vw 0 0 [(1, 64)]))) = false ∧
    Instr.wf (.endOp (iss (wd 5 1 [(1, 5)]))) = false := by decide +kernel

theorem test_wf_lengths :
    Instr.wf (.paceUpdate (List.replicate 64 (1600, 1600))) = true ∧ Instr.wf (.paceUpdate (List.replicate 63 (1600, 1600))) = false ∧
    Instr.wf (.installFrame none (List.replicate 4096 0) [] false) = true ∧ Instr.wf (.installFrame none (List.replicate 4095 0) [] false) = false ∧
    Instr.wf (.installFrame (some msg0) (List.replicate 80 0) [] false) = true ∧
    Instr.wf (.sramStepSample (List.replicate 4 (List.replicate 16 1))) = true ∧
    Instr.wf (.sramStepSample (List.replicate 4 (List.replicate 15 1))) = false ∧
    Instr.wf (.throttleSample ⟨List.replicate 4 [1], [1], 1⟩) = true ∧ Instr.wf (.throttleSample ⟨List.replicate 3 [1], [1], 1⟩) = false := by decide +kernel

/-- 07 Table 7.4: MEM_CMD's ops 3 to 7 are reserved, and the device refuses them; op 1 is a scrub and no assignment. -/
theorem test_wf_page_op :
    let v (k : Nat) : W64 := BitVec.ofNat 64 (k * 2 ^ 61)
    Instr.wf (.pageAssign (v 0)) = true ∧ Instr.wf (.pageAssign (v 1)) = false ∧ Instr.wf (.pageAssign (v 5)) = true ∧
    Instr.wf (.pageScrub (v 2)) = false ∧ Instr.wf (.pageQuery (v 0)) = false := by decide +kernel

theorem test_wf_other_op :
    Instr.wf (.firnInstall (sc 1 0)) = true ∧ Instr.wf (.firnInstall (sc 2 0)) = false ∧ Instr.wf (.varEvict (sc 5 0)) = false ∧
    Instr.wf (.lnkLeave (sc 2 0)) = false ∧ Instr.wf (.secStage (sc 8 0)) = false ∧ Instr.wf (.cfgStageDiscard (sc 1 0)) = false := by
  decide +kernel

/-! ### No word spells a command -/

theorem test_no_word : decodeTableWord 128 7 = none ∧ run.withFetchWord 128 7 = run := ⟨rfl, rfl⟩

/-! ### The spec's worked examples -/

/-- 02 Table 2.7: 300, 304, 464 and 500 to E4M3, saturating and not. -/
theorem test_e4m3_table :
    let c (nonsat : Bool) (x : Int) : Nat := (convert ⟨.e4m3, false, nonsat, false, false, false⟩ (FVal.ofInt x) 0 0).bits
    (c false 300, c false 304, c false 464, c false 500) = (0x79, 0x7A, 0x7E, 0x7E) ∧
    (c true 300, c true 304, c true 464, c true 500) = (0x79, 0x7A, 0x7E, 0x7F) := by decide +kernel

/-- 02 R35: 1 + 2^-8 to BF16 goes up below 32,768 and stays from there. -/
theorem test_stochastic :
    let c (g : Nat) : Nat := (convert ⟨.bf16, true, false, false, false, false⟩ (.fin false 257 (-8)) g 0).bits
    c 32767 = 0x3F81 ∧ c 32768 = 0x3F80 := by decide +kernel

/-- 02, one quantised output: p = −22 × 1,789,569,707 with n = 30 gives −37, stored as 91. -/
theorem test_quantised_output :
    rescaleShift (-22 * 1789569707) 30 = -37 ∧ (convert ⟨.uint8, false, false, false, false, true⟩ (FVal.ofInt (-37)) 0 128).bits = 91 := by
  decide +kernel

/-- 05, one expert projection: the two tile descriptors. -/
theorem test_tile_descriptors :
    let t (d x : Nat) : Option (Fmt × Addr × Nat × Nat × Nat) :=
      match tileOf (runClu {}) 0 slot d x with
      | .ok t => some (t.fmt, t.addr, t.rows, t.cols, t.pitch)
      | .error _ => none
    t 0x3008_003F_BFFE_0000 0 = some (.e4m3, ⟨false, 0x1_0000⟩, 128, 8192, 8192) ∧
    t 0x3100_007F_BFFE_0000 0 = some (.e4m3, ⟨false, 0x20_0000⟩, 256, 8192, 8192) := by decide +kernel

/-- 05, one expert projection: the accumulate's word: its row, group 3, references 0x040 and 0x050. -/
theorem test_accumulate_word :
    let w : W128 := 0x2100_3100_5000_0000_0000_0000_0000_0000
    Instr.wf (.mmaAcc (iss w)) = true ∧ rowOf w = some (rowCode 2 1 0) ∧ (wf w 111 108, wf w 107 98, wf w 97 88) = (3, 0x040, 0x050) := by decide +kernel

/-- 04, regenerating one dropout decision: element 1,234,567 draws word 3 of block 308,641. -/
theorem test_dropout_counter :
    let d : GenDesc := { GenDesc.zero with purpose := 1, layer := 37, step := 90210, streamId := 0x4C1D, posBase := 1234567 }
    d.pos 0 / 4 = 308641 ∧ d.pos 0 % 4 = 3 ∧
    d.draw32 0 = word4 (philoxRounds 10 (308641, 0x0001_0025, 90210, 0x4C1D) 0 0) 3 := by decide +kernel

/-- 07, where two addresses land: the controller and page; the cluster, parcel and line. -/
theorem test_addresses :
    ctlOf 0x4001_2345 = 4 ∧ pageOf 0x4001_2345 = 128 ∧ spdCluster 0x2823_4567 = 5 ∧ spdOff 0x2823_4567 = 0x23_4567 := by decide

/-- 08, one coded plane: eleven bits in 0x1A and 0x60. -/
theorem test_coded_plane :
    let table : Bytes := List.replicate 31 0 ++ [0x20, 0x21] ++ List.replicate 95 0
    decodePlane 8 (table ++ leBytes 4 11 ++ [0x1A, 0x60]) = some ([0x40, 0x40, 0x40, 0x41, 0x40, 0x3F, 0x40, 0x41], []) := by
  decide +kernel

/-- 08, one row to E4M3: (2.5, 0.69921875, 112, −13.3125) in BF16. -/
theorem test_row_to_e4m3 :
    let r := scaleRow .bf16 .e4m3 448 [] [0x4020, 0x3F33, 0x42E0, 0xC155]
    r.elems = [0x52, 0x43, 0x7E, 0xE5] ∧ r.scale = 0x3E80_0000 := by decide +kernel

/-- 10, one AdamW element: w′ = 16,775,011 × 2^-25. -/
theorem test_adamw_element :
    let v : TVar := { vid := 1, clipEn := false, lrMul := 0x3F80_0000, beta1 := 0x3F66_6666, beta2 := 0x3F7F_BE77, eps := 0x322B_CC77
                      wd := 0x3C23_D70A, clip := 0, normLimit := 0, rmsClip := 0, freeze := 0 }
    let a : UpdArgs := { vid := 1, rule := 2, v := v, invL := 0x3A80_0000, c := 0x3F80_0000, eta := 0x38D1_B717, step := 90210, seed := 0
                         t := 1000, wsq := 0, usq := 0, rsum := 0, n := 1, k := 1 }
    (a.elem 0x3F00_0000 0x3B20_0000 0x3B00_0000 0x3B20_0000 0 0).w = toF32 (.fin false 16775011 (-25)) := by decide +kernel

/-- 11, a gradient reduce-scatter: the sums 1.5, −0.25, 0.09375 and −0.75 in E5M2. -/
theorem test_reduce_scatter_row :
    let cv : Coll := { tag := 0x11, entry := 0, kind := 0, fmt := .e5m2, bothDirs := true, deliver := true, start := ⟨1, 0, 0⟩, done := ⟨1, 0, 0⟩
                       buf := 0, scales := 0, health := 0, rows := 1, cols := 4, vid := 1, layer := 0, baseStep := 0 }
    let e5 (x : Int) : Nat := encSat .e5m2 (FVal.ofInt x)
    let a : CollRow := ⟨0x3A80_0000, [1024, -512, 96, 0].map e5⟩
    let b : CollRow := ⟨0x3980_0000, [2048, 1024, 0, -3072].map e5⟩
    let r := (cv.encode (((cv.widen a).zip (cv.widen b)).map fun e => fadd e.1 e.2)).1
    r.elems = [0x78, 0xED, 0x68, 0xF4] ∧ r.scale = toF32 (.fin false 3 (-16)) := by decide +kernel

/-- 12, admission under a tight pool: the job of 150 passes, then one of 10 does not. -/
theorem test_tight_pool :
    let d (e : Nat) : JobDesc := { jd with mode := 4, est := e }
    let s (mine sum : Nat) : State :=
      { up with
        glb := { up.glb with minMsps := 1600 }, hif := { committed := sum }
        cfg := { live := { dev := { horizonUs := 2000 }, contracts := [⟨5, 40, 8, 0, 0, 0, []⟩] } }
        jobs := { list := [{ job with d := d mine }] } }
    (s 1100 2900).cap = 3125 ∧ (s 1100 2900).creditOk (d 150) = true ∧ (s 1250 3050).creditOk (d 10) = false := by decide +kernel

/-- 14, a commit: P0 at 30 % leaves P2 879.2 × 6 / 13 GB/s, and the check passes. -/
theorem test_class_check :
    let l : List Prio := [⟨true, 0, 30, 0, 0⟩, ⟨false, 6, 100, 0, 0⟩, ⟨false, 6, 100, 3, 1⟩, ⟨false, 1, 80, 1, 1⟩]
    prioOk l = true ∧ p2Share l = (8792 * 6 : Rat) / 130 := by decide +kernel

/-- 15, steps on a hot field: 100.5 °C, k = 1, power step 4 and floor 3 give step 5; 96 °C and k = 0 give step 4, 720 mV. -/
theorem test_hot_field :
    let s : State := { run with rst := { up.rst with powerStep := 4, floorStep := 3 }, mem := { run.mem with tierStep := [(1, 1)] } }
    let p (t : Int) : Option Nat := thermalPoint s.cfg.live.thermal none t
    s.fieldStepOf 1 (p 1608) = 5 ∧ s.fieldStepOf 0 (p 1536) = 4 ∧ s.cfg.live.throttle[4]?.map (·.1) = some 720 := by decide +kernel

/-- 17, one poisoned group: the code and the argument. -/
theorem test_poison_record : Ev.accPoison = 0x2B07 ∧ Addr.ptr ⟨false, 0x6001_2340⟩ = 0x0000_8000_6001_2340 := by decide

/-- 17 Table 17.2: the bytes of a record. -/
theorem test_event_bytes :
    let r : EvRec := { code := 0x2B07, node := 3, lost := false, unit := 0x0C, sub := 5, repeats := 0, lifeUs := 0, tag := 0x3041
                       domain := 0x11A, aux := 0, arg := 0x0000_8000_6001_2340 }
    r.bytes true = [0x07, 0x2B, 3, 0, 1, 0x0C, 5, 0, 0, 0, 0, 0, 0, 0, 0, 0, 0x41, 0x30, 0, 0, 0x1A, 1, 0, 0, 0x40, 0x23, 1, 0x60, 0, 0x80, 0, 0] := by
  decide +kernel

end Sys2Proof.Tests
end

section
/-! PROOFS. Scope (chapter 00), stream words: what the issue of an instruction comes to when its word or its fetch is bad. -/

namespace Sys2Proof.Machine

open Sys2Proof Sys2Proof.Safety

/-! ### The commands of the stream instructions -/

/-- Whenever `p` holds, the command's meaning is the issue of the row that its well-formedness names. -/
def IssuesRowWhen (p : State → Issue → Prop) (cmd : Issue → Instr) : Prop :=
  ∃ cls op sub body, ∀ i, (cmd i).wf = i.spells cls op sub ∧
    ∀ s, p s i → exec (cmd i) s = .next (s.issue i (rowCode cls op sub) body)

/-- MOVE, MMA, SYNC, CTRL and ROUTE issue at once. -/
theorem scalar_issuesRow : ∀ cmd ∈ scalarCommands, IssuesRowWhen (fun _ _ => True) cmd := by
  simp only [scalarCommands, List.forall_mem_cons, List.not_mem_nil, false_implies, implies_true, and_true]
  and_intros
  all_goals exact ⟨_, _, _, _, fun _ => ⟨rfl, fun _ _ => rfl⟩⟩

/-- VEC issues through the arbiter of the vector unit (05 R127). -/
theorem vector_vecIssue : ∀ cmd ∈ vectorCommands, ∃ func body, ∀ i,
    (cmd i).wf = i.spells 3 0 func ∧ ∀ s, exec (cmd i) s = vecIssue i func body s := by
  simp only [vectorCommands, elemOps, List.map_cons, List.map_nil, List.cons_append, List.nil_append, List.forall_mem_cons,
    List.not_mem_nil, false_implies, implies_true, and_true]
  and_intros
  all_goals exact ⟨_, _, fun _ => ⟨rfl, fun _ => rfl⟩⟩

/-- The word spells no row, or sets a field that its row reserves, or carries a reserved conversion. -/
def Reserved (w : W128) : Prop := rowOf w = none ∨ reservedOk w = false ∨ moveConvOk w = false

/-- A slot whose word is reserved has no vector operation ready. -/
theorem vecWants_of_reserved {s : State} {c : CId} {k : SId} {j : Job} {w : W128} (h : Reserved w) : s.vecWants c k j w = false := by
  rcases h with h | h | h
  · simp [State.vecWants, h]
  · simp [State.vecWants, h]
  · have hm : wf w 127 124 = 1 := by
      by_contra hc
      simp [moveConvOk, hc] at h
    simp [State.vecWants, hm]

/-- Nothing competes for the vector unit: no rival is ready, or the word itself is no operation of it. -/
def Uncontested (s : State) (i : Issue) : Prop := Alone s i ∨ Reserved i.word

/-- An uncontested VEC instruction issues at once. -/
theorem vecIssue_uncontested {s : State} {i : Issue} (h : Uncontested s i) (func : Nat) (body : Env → State → Ans) :
    vecIssue i func body s = .next (s.issue i (rowCode 3 0 func) body) := by
  unfold vecIssue
  refine if_pos ?_
  rcases h with h | h
  · simp [show s.vecRivals i = [] from h]
  · cases s.job (s.slot i.cluster.val i.slot.val).tag <;> simp [vecWants_of_reserved h]

theorem vector_issuesRow (cmd : Issue → Instr) (h : cmd ∈ vectorCommands) : IssuesRowWhen Uncontested cmd := by
  obtain ⟨func, body, hv⟩ := vector_vecIssue cmd h
  exact ⟨3, 0, func, body, fun i => ⟨(hv i).1, fun s hu => ((hv i).2 s).trans (vecIssue_uncontested hu func body)⟩⟩

/-- A stream instruction that is scalar or uncontested issues the row that its well-formedness names. -/
theorem stream_issuesRow {cmd : Issue → Instr} (h : cmd ∈ scalarCommands ++ vectorCommands) :
    IssuesRowWhen (fun s i => cmd ∈ scalarCommands ∨ Uncontested s i) cmd := by
  by_cases hs : cmd ∈ scalarCommands
  · obtain ⟨cls, op, sub, body, hi⟩ := scalar_issuesRow cmd hs
    exact ⟨cls, op, sub, body, fun i => ⟨(hi i).1, fun s _ => (hi i).2 s trivial⟩⟩
  · obtain ⟨cls, op, sub, body, hi⟩ := vector_issuesRow cmd ((List.mem_append.mp h).resolve_left hs)
    exact ⟨cls, op, sub, body, fun i => ⟨(hi i).1, fun s hu => (hi i).2 s (hu.resolve_left hs)⟩⟩

/-! ### The fetch of a word (05 R104, 07 R156, R162, R174) -/

/-- The job found under a tag carries it. -/
theorem State.job_tag {s : State} {t : Tag} {j : Job} (h : s.job t = some j) : j.tag = t := by
  have hp := List.find?_some h
  simp only [Bool.and_eq_true, beq_iff_eq] at hp
  exact hp.1.2

/-- What a word that was fetched again leaves: in scratchpad one replay counted (07 R162). -/
def State.refetched (s : State) (a : Addr) : State := if a.dev then s else s.bumpLife 5

/-- An instruction of job `j` that may issue, its pc at the address `a` of its space. -/
structure Fetches (s : State) (i : Issue) (j : Job) (a : Addr) : Prop where
  job : s.job (slotOf s i).tag = some j
  ready : (slotOf s i).ready = true
  awake : s.rst.pwr ≠ .waking
  addr : ptrAddr (slotOf s i).pc.toNat = some a
  space : s.inSpace a 16 = true

/-- The part of the issue once the fetch itself has succeeded, on the state `u` that the fetch left. -/
def State.decoded (s u : State) (i : Issue) (j : Job) (row : Nat) (body : Env → State → Ans) : State :=
  match rowOf i.word with
  | none => u.failJob i.cluster i.slot j.tag { code := Ev.seqDecode }
  | some r =>
    if !reservedOk i.word || !moveConvOk i.word then u.failJob i.cluster i.slot j.tag { code := Ev.seqDecode }
    else if r ≠ row then s
    else u.run (envOf s i j) body

variable {s : State} {i : Issue} {j : Job} {a : Addr}

/-- The issue of an instruction whose pc is good, by what its fetch meets. -/
theorem issue_eq_fetch (h : Fetches s i j a) (row : Nat) (body : Env → State → Ans) :
    s.issue i row body =
      let u := if i.fetchBad = 0 then s else s.refetched a
      if 2 ≤ i.fetchBad then u.failJob i.cluster i.slot j.tag { code := Ev.seqFetch }
      else if s.fetchable j a = false then
        (u.noteMiss (envOf s i j).who a 16 false).failJob i.cluster i.slot j.tag { code := Ev.seqDecode }
      else
        match poisonCheck s j.who.req a 16 with
        | .error f => u.failJob i.cluster i.slot j.tag f
        | .ok _ => s.decoded u i j row body := by
  obtain ⟨hj, hr, hw, ha, hs⟩ := h
  have ht := State.job_tag hj
  simp only [slotOf] at hj hr ha ht
  have hu : (if i.fetchBad = 0 ∨ a.dev = true then s else s.bumpLife 5) = if i.fetchBad = 0 then s else s.refetched a := by
    unfold State.refetched
    split_ifs <;> simp_all
  simp [State.issue, State.decoded, hj, hr, hw, ha, hs, ht, hu, envOf, slotOf, Env.who] <;> rfl


/-- A reserved word ends the job (05 R107). -/
theorem decoded_reserved (h : Reserved i.word) (u : State) (row : Nat) (body : Env → State → Ans) :
    s.decoded u i j row body = u.failJob i.cluster i.slot j.tag { code := Ev.seqDecode } := by
  unfold State.decoded
  cases hr : rowOf i.word with
  | none => rfl
  | some r => exact if_pos (by rcases h with h | h | h <;> simp_all)

/-- A word of the row goes on to the predicate and the instruction's own part. -/
theorem decoded_spelled {cls op sub : Nat} (h : i.spells cls op sub = true) (u : State) (body : Env → State → Ans) :
    s.decoded u i j (rowCode cls op sub) body = u.run (envOf s i j) body := by
  simp only [Issue.spells, Bool.and_eq_true, beq_iff_eq] at h
  obtain ⟨⟨hr, hf⟩, hm⟩ := h
  simp [State.decoded, hr, hf, hm]

/-- 00 R9: a reserved word that was fetched well ends the job, whatever its predicate and the row of the command. -/
theorem issue_reserved (h : Fetched s i j) (hw : Reserved i.word) (row : Nat) (body : Env → State → Ans) :
    s.issue i row body = s.failJob i.cluster i.slot j.tag { code := Ev.seqDecode } := by
  obtain ⟨hj, hr, ⟨a, ha, hs, hf, hq⟩, hb, hp⟩ := h
  simp [issue_eq_fetch ⟨hj, hr, hp, ha, hs⟩, hf, hb, poisonCheck, hq, decoded_reserved hw]

/-- 05 R104, 07 R159: a fetch that the job may not make reads zeros, and its miss counts. -/
theorem issue_denied (h : Fetches s i j a) (hf : s.fetchable j a = false) (hb : i.fetchBad = 0) (row : Nat) (body : Env → State → Ans) :
    s.issue i row body =
      (s.noteMiss (envOf s i j).who a 16 false).failJob i.cluster i.slot j.tag { code := Ev.seqDecode } := by
  simp [issue_eq_fetch h, hf, hb]

/-- 07 R174: a fetch that meets a poisoned line. -/
theorem issue_poisoned {f : Fail} (h : Fetches s i j a) (hf : s.fetchable j a = true) (hb : i.fetchBad = 0)
    (hp : poisonCheck s j.who.req a 16 = .error f) (row : Nat) (body : Env → State → Ans) :
    s.issue i row body = s.failJob i.cluster i.slot j.tag f := by
  simp [issue_eq_fetch h, hf, hb, hp]

/-- 05 R107: a word whose parity fails twice. -/
theorem issue_parity_twice (h : Fetches s i j a) (hb : 2 ≤ i.fetchBad) (row : Nat) (body : Env → State → Ans) :
    s.issue i row body = (s.refetched a).failJob i.cluster i.slot j.tag { code := Ev.seqFetch } := by
  simp [issue_eq_fetch h, hb, show i.fetchBad ≠ 0 by omega]

/-! ### A word that is fetched again (07 R162) -/

/-- The second fetch is made in the same slot, by the same job, at the same address. -/
theorem Fetches.refetched (h : Fetches s i j a) : Fetches (s.refetched a) { i with fetchBad := 0 } j a := by
  obtain ⟨hj, hr, hw, ha, hs⟩ := h
  unfold State.refetched
  split <;> exact ⟨hj, hr, hw, ha, hs⟩

theorem envOf_refetched : envOf (s.refetched a) { i with fetchBad := 0 } j = envOf s i j := by
  unfold State.refetched
  split <;> rfl

theorem fetchable_refetched : (s.refetched a).fetchable j a = s.fetchable j a := by
  unfold State.refetched
  split <;> rfl

theorem poisonCheck_refetched (r : Req) (n : Nat) : poisonCheck (s.refetched a) r a n = poisonCheck s r a n := by
  unfold State.refetched
  split <;> rfl

theorem alone_refetched (h : Alone s i) : Alone (s.refetched a) { i with fetchBad := 0 } := by
  unfold State.refetched
  split <;> exact h

/-- A word whose parity fails once does what the same word does when it is fetched well, on the state with the replay counted. -/
theorem issue_parity_once {cls op sub : Nat} (h : Fetches s i j a) (hf : s.fetchable j a = true) (hb : i.fetchBad = 1)
    (hw : i.spells cls op sub = true) (body : Env → State → Ans) :
    s.issue i (rowCode cls op sub) body = (s.refetched a).issue { i with fetchBad := 0 } (rowCode cls op sub) body := by
  have hw' : ({ i with fetchBad := 0 } : Issue).spells cls op sub = true := hw
  rw [issue_eq_fetch h, issue_eq_fetch h.refetched]
  simp [hb, hf, fetchable_refetched, poisonCheck_refetched, decoded_spelled hw, decoded_spelled hw', envOf_refetched]

/-! ### The obligation -/

/-- Settles O5: the word's row and its reserved fields are looked at before the predicate and before the vector unit's arbiter,
and what a fetch meets is looked at before the word. -/
theorem reservedWordEndsJob : Obligations.ReservedWordEndsJob := by
  refine ⟨fun s i j hi hw cmd hc => ?_, fun s i j a hj hr hp ha hs cmd hc => ?_⟩
  · obtain ⟨cls, op, sub, body, hx⟩ := stream_issuesRow hc
    rw [(hx i).2 s (.inr (.inr hw)), issue_reserved hi hw]
  · have hF : Fetches s i j a := ⟨hj, hr, hp, ha, hs⟩
    have hm : cmd ∈ scalarCommands ++ vectorCommands := List.mem_append.mpr (hc.imp_right And.left)
    have hd : cmd ∈ scalarCommands ∨ Alone s i := hc.imp_right And.right
    obtain ⟨cls, op, sub, body, hx⟩ := stream_issuesRow hm
    have hone := (hx i).2 s (hd.imp_right .inl)
    have htwo := (hx { i with fetchBad := 0 }).2 (s.refetched a) (hd.imp_right fun h => .inl (alone_refetched h))
    refine ⟨fun hf hb => ?_, fun f hf hb hq => ?_, fun hb => ?_, fun hb hf hwf => ?_⟩
    · rw [hone, issue_denied hF hf hb]
    · rw [hone, issue_poisoned hF hf hb hq]
    · rw [hone, issue_parity_twice hF hb]
      rfl
    · rw [hone, issue_parity_once hF hf hb ((hx i).1.symm.trans hwf), ← htwo]
      rfl

end Sys2Proof.Machine
end

section
/-! PROOFS. Scope (chapter 00), registers: what a host write does to the registers that have no command row of their own, and what a
read of a register returns. -/

namespace Sys2Proof.Machine

open Sys2Proof Sys2Proof.Safety

/-! ### Which register an offset names -/

theorem bar2Reg_ne_secArg (o : Nat) : bar2Reg o ≠ some .secArg := by
  unfold bar2Reg
  dsimp only
  split_ifs <;> simp

theorem windowReg_ne_secArg (c : CId) (o : Nat) : windowReg c o ≠ some .secArg := by
  unfold windowReg
  split_ifs <;> simp

theorem ite_ne_of {α : Type} {p : Prop} [Decidable p] {x y z : α} (hx : x ≠ z) (hy : y ≠ z) : (if p then x else y) ≠ z := by
  split <;> assumption

theorem dite_ne_of {α : Type} {p : Prop} [Decidable p] {x : p → α} {y : ¬p → α} {z : α} (hx : ∀ h, x h ≠ z) (hy : ∀ h, y h ≠ z) :
    dite p x y ≠ z := by
  split
  · exact hx _
  · exact hy _

/-- SEC_ARG has one offset. -/
theorem bar0Reg_ne_secArg {o : Nat} (h : o ≠ 0x004_0010) : bar0Reg o ≠ some .secArg := by
  unfold bar0Reg
  rw [if_neg h]
  iterate 8 refine ite_ne_of (by simp) ?_
  refine dite_ne_of (by simp) fun _ => ?_
  iterate 7 refine ite_ne_of (by simp) ?_
  iterate 2 refine dite_ne_of (by simp) fun _ => ?_
  iterate 3 refine ite_ne_of (by simp) ?_
  exact dite_ne_of (fun _ => windowReg_ne_secArg _ _) (by simp)

theorem bar0Reg_secArg : bar0Reg 0x004_0010 = some .secArg := rfl

/-- The offsets of the cluster windows (01 R21). -/
theorem bar0Reg_window (c : CId) {o : Nat} (h : o < 0x4_0000) : bar0Reg (0x100_0000 + 0x4_0000 * c.val + o) = windowReg c o := by
  have hc := c.isLt
  unfold bar0Reg
  iterate 9 rw [if_neg (by omega)]
  rw [dif_neg (by omega)]
  iterate 7 rw [if_neg (by omega)]
  iterate 2 rw [dif_neg (by omega)]
  iterate 3 rw [if_neg (by omega)]
  rw [dif_pos (by omega)]
  congr 1
  · exact Fin.ext (by dsimp only; omega)
  · omega

theorem bar2Reg_sqBase (q : QId) : bar2Reg (0x800 * q.val) = some (.wqSqBase q) := by
  have hq := q.isLt
  unfold bar2Reg
  rw [dif_pos (by omega)]
  congr 2
  exact Fin.ext (by dsimp only; omega)

theorem bar2Reg_msixMask (k : Fin 17) : bar2Reg (0x8000 + 16 * k.val + 12) = some (.msixMask k) := by
  have hk := k.isLt
  unfold bar2Reg
  iterate 2 rw [dif_neg (by omega)]
  rw [dif_pos (by omega)]
  dsimp only
  iterate 2 rw [if_neg (by omega)]
  rw [if_pos (by omega)]
  congr 2
  exact Fin.ext (by dsimp only; omega)

/-! ### A write of the register that an offset names (00 R449) -/

/-- A write to what an offset of a function names, if anything. -/
def State.writeNamed (s : State) (f : FnId) (r : Option Reg) (v : W64) : State :=
  match r with
  | none => s
  | some .secArg => if s.rst.held = .none then s.writeReg f .secArg v else s
  | some r => s.fnReg f fun s => s.writeReg f r v

variable (s : State) (f : FnId) (off : Nat) (v : W64)

theorem registerWrite_bar0 : exec (.registerWrite 0 .bar0 off v) s = .next (s.writeNamed 0 (bar0Reg off) v) := rfl
theorem registerWrite_bar2 : exec (.registerWrite f .bar2 off v) s = .next (s.writeNamed f (bar2Reg off) v) := rfl
theorem registerWrite_debug : exec (.registerWrite f .debug off v) s =
    .next (if 2 ≤ s.sec.debugLevel then s.writeNamed 0 (bar0Reg off) v else s) := rfl
theorem registerWrite_sriov : exec (.registerWrite f .sriov off v) s = .next (s.enableVfs f v.toNat) := rfl

variable {s f}

theorem writeNamed_none : s.writeNamed f none v = s := rfl

/-- BAR0 is the physical function's alone (12 R318). -/
theorem registerWrite_bar0_virtual (h : f ≠ 0) : exec (.registerWrite f .bar0 off v) s = .next s := by
  have hw : exec (.registerWrite f .bar0 off v) s = .next (s.writeNamed f (if f.val = 0 then bar0Reg off else none) v) := rfl
  rw [hw, if_neg (Fin.val_ne_zero_iff.mpr h), writeNamed_none]

/-- SEC_ARG takes its write whenever no reset is held (15 R409). -/
theorem writeNamed_secArg : s.writeNamed f (some .secArg) v =
    if s.rst.held = .none then { s with sec := { s.sec with arg := v } } else s := rfl

/-- A register other than SEC_ARG takes its write by a function that is enabled, once the device is ready (15 R409, 12 R317). -/
theorem writeNamed_some {r : Reg} (h : r ≠ .secArg) :
    s.writeNamed f (some r) v = if s.fnOn f = true ∧ s.up = true then s.writeReg f r v else s := by
  have hw : s.writeNamed f (some r) v = s.fnReg f fun s => s.writeReg f r v := by
    cases r <;> first | rfl | exact absurd rfl h
  rw [hw, State.fnReg, State.hostReg]
  split_ifs <;> simp_all

/-- Nothing takes a write but SEC_ARG before ready, or by a function that is not enabled. -/
theorem writeNamed_shut {r : Option Reg} (hr : r ≠ some .secArg) (h : s.up = false ∨ s.fnOn f = false) : s.writeNamed f r v = s := by
  cases r with
  | none => rfl
  | some r =>
    rw [writeNamed_some v fun e => hr (congrArg some e), if_neg]
    rcases h with h | h <;> simp [h]

theorem State.fnOn_zero : s.fnOn 0 = true := by simp [State.fnOn]

/-- A write of a register of BAR0 on a ready device. -/
theorem registerWrite_bar0_reg {r : Reg} (hu : s.up = true) (h : bar0Reg off = some r) (hr : r ≠ .secArg) :
    exec (.registerWrite 0 .bar0 off v) s = .next (s.writeReg 0 r v) := by
  rw [registerWrite_bar0, h, writeNamed_some v hr, if_pos ⟨State.fnOn_zero, hu⟩]

/-- A write of a register of BAR2 by an enabled function, on a ready device. -/
theorem registerWrite_bar2_reg {r : Reg} (hu : s.up = true) (hf : s.fnOn f = true) (h : bar2Reg off = some r) :
    exec (.registerWrite f .bar2 off v) s = .next (s.writeReg f r v) := by
  have hr : r ≠ .secArg := fun e => bar2Reg_ne_secArg off (h.trans (congrArg some e))
  rw [registerWrite_bar2, h, writeNamed_some v hr, if_pos ⟨hf, hu⟩]

/-! ### EVT_CFG (17 Table 17.6) -/

/-- Records that have not gathered signal nothing. -/
theorem mirrorDue_none (h : s.evt.gathered = 0) : s.mirrorDue = s := if_neg (by simp [h])

/-- A reserved ring size leaves the register as it was. -/
theorem writeReg_evtCfg_reserved (h : bitsOf v 30 26 < 8 ∨ 20 < bitsOf v 30 26) (hg : s.evt.gathered = 0) :
    s.writeReg f .evtCfg v = s := by
  have hc : s.evt.config v = s.evt := if_pos h
  show ({ s with evt := s.evt.config v } : State).mirrorDue = s
  rw [hc]
  exact mirrorDue_none hg

/-- A ring size that exists is taken with the other fields. -/
theorem writeReg_evtCfg (h1 : 8 ≤ bitsOf v 30 26) (h2 : bitsOf v 30 26 ≤ 20) :
    s.writeReg f .evtCfg v = ({ s with evt := { s.evt with
      enable := bitOf v 31, hostLog2 := if s.evt.enable then s.evt.hostLog2 else bitsOf v 30 26
      irqSev := bitsOf v 25 24, coalCount := bitsOf v 23 16, coalUs := bitsOf v 15 6 } } : State).mirrorDue := by
  have hc : s.evt.config v = { s.evt with
      enable := bitOf v 31, hostLog2 := if s.evt.enable then s.evt.hostLog2 else bitsOf v 30 26
      irqSev := bitsOf v 25 24, coalCount := bitsOf v 23 16, coalUs := bitsOf v 15 6 } := if_neg (by omega)
  exact congrArg (fun e => ({ s with evt := e } : State).mirrorDue) hc

/-! ### Reads -/

/-- The registers of BAR0 that a host only writes read as zero (00 R7). -/
theorem readReg_writeOnly : ∀ o ∈ [0x001_0008, 0x002_0010, 0x004_0008, 0x018_0008, 0x020_0020, 0x020_8000, 0x030_0100],
    s.readReg 0 .bar0 o = 0 := by
  simp only [List.forall_mem_cons, List.not_mem_nil, false_implies, implies_true, and_true]
  and_intros <;> rfl

/-- Reads of the cluster windows (01 R21). -/
theorem readReg_window (c : CId) {o : Nat} (h : o < 0x4_0000) :
    s.readReg 0 .bar0 (0x100_0000 + 0x4_0000 * c.val + o) = s.readWindow c.val o := by
  have hc := c.isLt
  show s.readBar0 _ = _
  unfold State.readBar0
  iterate 12 rw [if_neg (by omega)]
  rw [if_pos (by omega)]
  congr 1 <;> omega

theorem readWindow_pace (c : Nat) : s.readWindow c 0x40 = (s.clu c).paceWord := rfl
theorem readWindow_unnamed (c : Nat) : s.readWindow c 0x50 = 0 := rfl

/-- 02 R29: the run value stands in [23:0] under eight zeros. -/
theorem debugRun_newest (h : 1 ≤ s.sec.debugLevel) (c : CId) (cell : Nat) : ∃ w, s.debugRun c cell true = some w ∧
    bitsOf w 31 24 = 0 ∧ bitsOf w 23 0 = (mget 0 (s.clu c.val).runs cell).toNat % 2 ^ 24 := by
  refine ⟨_, if_pos h, ?_, ?_⟩ <;> simp only [bitsOf, fld, BitVec.toNat_ofNat, if_true] <;> omega

/-- What a write of a register of BAR0 leaves is what its offset reads. -/
theorem write_reads_back {r : Reg} {w : W64} (hu : s.up = true) (h : bar0Reg off = some r) (hr : r ≠ .secArg)
    (hw : (s.writeReg 0 r v).readReg 0 .bar0 off = w) :
    ∃ t, exec (.registerWrite 0 .bar0 off v) s = .next t ∧ t.readReg 0 .bar0 off = w :=
  ⟨_, registerWrite_bar0_reg off v hu h hr, hw⟩

/-- An address register keeps the aligned part of what is written and reads it back (00 R8, log 23). -/
theorem aligned_reads_back (hu : s.up = true) :
    ∀ e ∈ [(0x002_0018, 6), (0x008_4000, 16), (0x008_4008, 16), (0x020_8008, 12), (0x030_0110, 12)],
      ∃ t, exec (.registerWrite 0 .bar0 e.1 v) s = .next t ∧ t.readReg 0 .bar0 e.1 = v >>> e.2 <<< e.2 := by
  simp only [List.forall_mem_cons, List.not_mem_nil, false_implies, implies_true, and_true]
  exact ⟨write_reads_back _ v hu (r := .cfgStageArg) rfl (by simp) rfl, write_reads_back _ v hu (r := .hifEvidBase) rfl (by simp) rfl,
    write_reads_back _ v hu (r := .hifCkptBase) rfl (by simp) rfl, write_reads_back _ v hu (r := .varArg) rfl (by simp) rfl,
    write_reads_back _ v hu (r := .firnRing) rfl (by simp) rfl⟩

/-! ### The obligation -/

/-- Settles O57: each write goes to the register that its offset names, and only by a function and at a time that may write it. -/
theorem registerWriteResult : Obligations.RegisterWriteResult := by
  intro s f v off
  refine ⟨fun hh => ?_, fun hh => ?_, fun hf => ⟨?_, ?_⟩, fun hf => ⟨?_, ?_⟩, fun hn => ?_, fun hn => ?_, fun hu ho => ⟨?_, ?_⟩,
    fun hh hv hn => ?_, fun hn => ?_, fun hd => ?_, fun hd => ?_, rfl, fun hd => debugRun_newest hd, readReg_writeOnly, fun c => ⟨?_, ?_⟩,
    fun hu => ⟨aligned_reads_back v hu, ?_, fun hr hg => ?_, fun h1 h2 => ?_, ?_, fun hf => ⟨fun q => ?_, fun k => ?_⟩, fun c => ?_⟩⟩
  · rw [registerWrite_bar0, bar0Reg_secArg, writeNamed_secArg, if_pos hh]
  · rw [registerWrite_bar0, bar0Reg_secArg, writeNamed_secArg, if_neg hh]
  · exact registerWrite_bar0_virtual off v hf
  · exact if_neg (Fin.val_ne_zero_iff.mpr hf)
  · rw [registerWrite_bar2, writeNamed_shut v (bar2Reg_ne_secArg off) (.inr hf)]
  · exact if_neg (by simp [hf])
  · rw [registerWrite_bar0, hn, writeNamed_none]
  · rw [registerWrite_bar2, hn, writeNamed_none]
  · rw [registerWrite_bar0, writeNamed_shut v (bar0Reg_ne_secArg ho) (.inl hu)]
  · rw [registerWrite_bar2, writeNamed_shut v (bar2Reg_ne_secArg off) (.inl hu)]
  · rw [registerWrite_sriov, State.enableVfs, if_pos ⟨rfl, hh, hv, hn⟩]
  · rw [registerWrite_sriov, State.enableVfs, if_neg]
    rintro ⟨h0, -, -, h63⟩
    exact hn.elim (fun h => h (Fin.ext h0)) (by omega)
  · rw [registerWrite_debug, if_neg (by omega)]
  · rw [registerWrite_debug, if_pos hd]
    rfl
  · rw [readReg_window c (by decide), readWindow_unnamed]
  · rw [readReg_window c (by decide), readWindow_pace]
  · exact registerWrite_bar0_reg (r := .evtStatus) _ v hu rfl (by simp)
  · rw [registerWrite_bar0_reg (r := .evtCfg) _ v hu rfl (by simp), writeReg_evtCfg_reserved v hr hg]
  · rw [registerWrite_bar0_reg (r := .evtCfg) _ v hu rfl (by simp), writeReg_evtCfg v h1 h2]
  · exact registerWrite_bar0_reg (r := .varPages) _ v hu rfl (by simp)
  · exact registerWrite_bar2_reg _ v hu hf (bar2Reg_sqBase q)
  · exact registerWrite_bar2_reg _ v hu hf (bar2Reg_msixMask k)
  · exact registerWrite_bar0_reg _ v hu ((bar0Reg_window c (by decide)).trans rfl) (r := .semStatus c) (by simp)

end Sys2Proof.Machine
end

section
/-! PROOFS. Organisation (chapter 01): what a pace update publishes, and what it charges the serving job that runs (12 R326). -/

namespace Sys2Proof.Machine

open Sys2Proof Sys2Proof.Safety

/-! ### The readings of the monitors -/

/-- The readings of a well-formed pace update: one of each cluster, none of them zero (01 R23). -/
theorem wf_paceUpdate {mon : List (BitVec 12 × BitVec 12)} :
    (Instr.paceUpdate mon).wf = true ↔ mon.length = 64 ∧ ∀ e ∈ mon, e.1 ≠ 0 ∧ e.2 ≠ 0 := by
  simp [Instr.wf]

/-- Readings of a well-formed pace update are taken as they are. -/
theorem paceReadings_of_wf {mon : List (BitVec 12 × BitVec 12)} (h : (Instr.paceUpdate mon).wf = true) : paceReadings mon = mon := by
  obtain ⟨hl, hn⟩ := wf_paceUpdate.mp h
  refine List.ext_getElem (by simp [paceReadings, hl]) fun n _ hm => ?_
  obtain ⟨h1, h2⟩ := hn _ (List.getElem_mem hm)
  simp only [paceReadings, List.getElem_map, List.getElem_range, List.getD_eq_getElem _ _ hm, if_neg h1, if_neg h2]

/-- The pace of a cluster: the lower of its two rates. -/
def paceOf (e : BitVec 12 × BitVec 12) : Nat := min e.1.toNat e.2.toNat

theorem paceOf_lt (e : BitVec 12 × BitVec 12) : paceOf e < 2 ^ 12 := (min_le_left _ _).trans_lt e.1.isLt

/-- `slowestOf` finds the first place of a least element. -/
theorem slowestOf_spec : ∀ (i : Nat) (l : List Nat), l ≠ [] → ∃ k, ∃ h : k < l.length, slowestOf i l = (i + k, l[k]) ∧
    (∀ n (hn : n < l.length), l[k] ≤ l[n]) ∧ ∀ n (hn : n < l.length), n < k → l[k] < l[n]
  | _, [], h => absurd rfl h
  | i, [x], _ => ⟨0, by simp, rfl, fun n hn => by simp, fun n _ hk => absurd hk (Nat.not_lt_zero n)⟩
  | i, x :: y :: l, _ => by
    obtain ⟨k, hk, he, hmin, hfirst⟩ := slowestOf_spec (i + 1) (y :: l) (by simp)
    by_cases hx : x ≤ (y :: l)[k]
    · refine ⟨0, by simp, by simp [slowestOf, he, hx], fun n hn => ?_, fun n _ h0 => absurd h0 (Nat.not_lt_zero n)⟩
      cases n with
      | zero => exact le_rfl
      | succ n => exact hx.trans (hmin n (Nat.lt_of_succ_lt_succ hn))
    · have hx := Nat.lt_of_not_le hx
      refine ⟨k + 1, Nat.succ_lt_succ hk, by simp [slowestOf, he, hx.not_ge]; omega, fun n hn => ?_, fun n hn hlt => ?_⟩
      · cases n with
        | zero => exact hx.le
        | succ n => exact hmin n (Nat.lt_of_succ_lt_succ hn)
      · cases n with
        | zero => exact hx
        | succ n => exact hfirst n (Nat.lt_of_succ_lt_succ hn) (Nat.lt_of_succ_lt_succ hlt)

/-- A mean of 64 averages fits its field. -/
theorem meanPace_lt {l : List (BitVec 12 × BitVec 12)} (h : l.length = 64) : meanPace l < 2 ^ 12 := by
  have hs : nsum (l.map fun e => e.2.toNat) ≤ l.length * (2 ^ 12 - 1) := by
    rw [nsum, ← List.sum_eq_foldl, ← List.length_map (fun e : BitVec 12 × BitVec 12 => e.2.toNat)]
    refine List.sum_le_card_nsmul _ _ fun x hx => ?_
    obtain ⟨e, -, rfl⟩ := List.mem_map.mp hx
    exact Nat.le_sub_one_of_lt e.2.isLt
  unfold meanPace
  omega

/-! ### What the monitors change (01 R22) -/

/-- The rates of every cluster after its reading. -/
def State.takeRates (s : State) (l : List (BitVec 12 × BitVec 12)) : State :=
  foldS s l.zipIdx fun s e => s.modClu e.2 fun x => { x with rateMsps := e.1.1, avgMsps := e.1.2 }

/-- A fold that updates the clusters from `k` on, one for each entry of a list. -/
theorem clu_foldS_modClu {α : Type} (f : α → Cluster → Cluster) (c : Nat) : ∀ (l : List α) (k : Nat) (s : State),
    (foldS s (l.zipIdx k) fun s e => s.modClu e.2 (f e.1)).clu c =
      if h : k ≤ c ∧ c - k < l.length then f l[c - k] (s.clu c) else s.clu c
  | [], _, _ => by simp [foldS]
  | a :: l, k, s => by
    have ih := clu_foldS_modClu f c l (k + 1) (s.modClu k (f a))
    rw [State.clu_modClu] at ih
    refine ih.trans ?_
    rcases lt_trichotomy c k with hc | rfl | hc
    · rw [dif_neg (by omega), dif_neg (by omega), if_neg (by omega)]
    · simp
    · obtain ⟨n, rfl⟩ := Nat.exists_eq_add_of_lt hc
      simp [show k + n + 1 - k = n + 1 by omega, show k + n + 1 - (k + 1) = n by omega, show k ≤ k + n + 1 by omega,
        show ¬ k + n + 1 = k by omega]

theorem takeRates_only (s : State) (l : List (BitVec 12 × BitVec 12)) : ∃ m, s.takeRates l = { s with cl := m } :=
  foldS_keeps (p := fun t => ∃ m, t = { s with cl := m }) _ (by rintro _ e ⟨m, rfl⟩; exact modClu_only { s with cl := m } e.2 _) _
    ⟨s.cl, rfl⟩

theorem takeRates_clu (s : State) {l : List (BitVec 12 × BitVec 12)} {c : Nat} (h : c < l.length) :
    (s.takeRates l).clu c = { s.clu c with rateMsps := l[c].1, avgMsps := l[c].2 } := by
  have hc := clu_foldS_modClu (fun e x => { x with rateMsps := e.1, avgMsps := e.2 }) c l 0 s
  rw [dif_pos ⟨Nat.zero_le c, h⟩] at hc
  exact hc

theorem takeRates_sem (s : State) (l : List (BitVec 12 × BitVec 12)) (c i : Nat) :
    ((s.takeRates l).clu c).sem i = (s.clu c).sem i := by
  have hc := clu_foldS_modClu (fun e x => { x with rateMsps := e.1, avgMsps := e.2 }) c l 0 s
  unfold State.takeRates
  rw [hc]
  split <;> rfl

/-- What the control processor makes of the readings: GLB_PACE and the pool's cap (12 R325). -/
def State.publishPace (s : State) (l : List (BitVec 12 × BitVec 12)) : State :=
  let k := slowestOf 0 (l.map paceOf)
  { s with
    glb := { s.glb with
      slowest := BitVec.ofNat 6 k.1, minMsps := BitVec.ofNat 12 k.2, meanMsps := BitVec.ofNat 12 (meanPace l) }
    hif := { s.hif with cap := s.cfg.live.dev.horizonUs * k.2 / 1024 } }

theorem takePace_eq (s : State) (mon : List (BitVec 12 × BitVec 12)) :
    s.takePace mon = (s.takeRates (paceReadings mon)).publishPace (paceReadings mon) := rfl

/-- Pace readings change the clusters, the block of GLB_PACE and the host port alone. -/
theorem takePace_only (s : State) (mon : List (BitVec 12 × BitVec 12)) :
    ∃ m g q, s.takePace mon = { s with cl := m, glb := g, hif := q } := by
  obtain ⟨m, hm⟩ := takeRates_only s (paceReadings mon)
  rw [takePace_eq, hm]
  exact ⟨_, _, _, rfl⟩

/-- The cluster that GLB_PACE names after a well-formed reading: the first of the slowest. -/
theorem takePace_of_wf {mon : List (BitVec 12 × BitVec 12)} (s : State) (h : (Instr.paceUpdate mon).wf = true) :
    ∃ k, ∃ hk : k < mon.length,
      (∀ c (hc : c < mon.length), paceOf mon[k] ≤ paceOf mon[c]) ∧
      (∀ c (hc : c < mon.length), c < k → paceOf mon[k] < paceOf mon[c]) ∧
      s.takePace mon = { s.takeRates mon with
        glb := { s.glb with
          slowest := BitVec.ofNat 6 k, minMsps := BitVec.ofNat 12 (paceOf mon[k]), meanMsps := BitVec.ofNat 12 (meanPace mon) }
        hif := { s.hif with cap := s.cfg.live.dev.horizonUs * paceOf mon[k] / 1024 } } := by
  have hl := (wf_paceUpdate.mp h).1
  obtain ⟨k, hk, he, hmin, hfirst⟩ := slowestOf_spec 0 (mon.map paceOf) (by simp [← List.length_pos_iff, hl])
  simp only [List.getElem_map, List.length_map, Nat.zero_add] at hk he hmin hfirst
  refine ⟨k, hk, hmin, hfirst, ?_⟩
  obtain ⟨m, hm⟩ := takeRates_only s mon
  rw [takePace_eq, paceReadings_of_wf h, State.publishPace, he, hm]

/-- A ready device takes the readings, then charges (01 R22, 12 R326). -/
theorem paceUpdate_ready {s : State} (mon : List (BitVec 12 × BitVec 12)) (hu : s.up = true) :
    exec (.paceUpdate mon) s = .next (s.takePace mon).chargeAll :=
  congrArg Host.Outcome.next (if_pos hu)

/-! ### The charge of a serving job (12 R326) -/

/-- The jobs that a pace update charges: serving jobs whose streams run and that nothing has stopped. -/
def Job.runsPaid (j : Job) : Bool := j.admitted && j.phase == .running && j.serving && !j.live.isEmpty && j.stop.isNone

/-- The state with the time since the last update charged (12 R326). -/
def State.chargePaid (s : State) : State :=
  s.modJobs fun j => if j.runsPaid then j.charged s.life.clock s.glb.minMsps.toNat else j

/-- The abort of a job that has passed its estimate (12 R326). -/
def State.overrun (s : State) (j : Job) : State :=
  (s.raise Ev.hifOverrun { tag := j.tag, domain := j.d.domain }).stopJob j.tag Stat.aborted Ev.hifOverrun

theorem chargeAll_eq (s : State) : s.chargeAll =
    foldS s.chargePaid (s.chargePaid.jobs.list.filter fun j => j.runsPaid && decide (j.d.est * 1024 < j.charge)) State.overrun := rfl

/-- Nothing is charged, and no job aborted, where no job is one to charge. -/
theorem chargeAll_none {s : State} (h : ∀ j ∈ s.jobs.list, j.runsPaid = false) : s.chargeAll = s := by
  have hc : s.chargePaid = s := by
    unfold State.chargePaid State.modJobs
    rw [List.map_congr_left (g := id) fun j hj => by simp [h j hj], List.map_id]
  rw [chargeAll_eq, hc, List.filter_eq_nil_iff.mpr fun j hj => by simp [h j hj]]
  rfl

/-- A job that runs alone is charged, and aborted where the charge passes its estimate × 1,024. -/
theorem chargeAll_alone {s : State} {j : Job} (hj : s.jobs.list = [j]) (h : j.runsPaid = true) :
    s.chargeAll =
      let k := j.charged s.life.clock s.glb.minMsps.toNat
      let u : State := { s with jobs := { s.jobs with list := [k] } }
      if j.d.est * 1024 < k.charge then u.overrun k else u := by
  have hc : s.chargePaid = { s with jobs := { s.jobs with list := [j.charged s.life.clock s.glb.minMsps.toNat] } } := by
    simp [State.chargePaid, State.modJobs, hj, h]
  have hk : (j.charged s.life.clock s.glb.minMsps.toNat).runsPaid = true := h
  have hd : (j.charged s.life.clock s.glb.minMsps.toNat).d = j.d := rfl
  rw [chargeAll_eq, hc]
  dsimp only
  rw [List.filter_singleton, hk, hd, Bool.true_and]
  split_ifs with hp
  · rw [decide_eq_true hp]
    rfl
  · rw [decide_eq_false hp]
    rfl

/-! ### What stopping a job leaves of the jobs (05 R125, 12 R329) -/

section Stop

variable {p : Job → Prop} (hp : ∀ j l e f, p j → p { j with live := l, endUs := e, firstUs := f })
include hp

theorem slotIdle_jobs {s : State} (c : CId) (k : SId) (h : ∀ j ∈ s.jobs.list, p j) : ∀ j ∈ (s.slotIdle c k).jobs.list, p j := by
  intro j' hj'
  obtain ⟨j, hj, rfl⟩ := List.mem_map.mp hj'
  split
  · exact hp _ _ _ _ (h j hj)
  · exact h j hj

theorem abortSlot_jobs {s : State} (c : CId) (k : SId) (h : ∀ j ∈ s.jobs.list, p j) : ∀ j ∈ (s.abortSlot c k).jobs.list, p j := by
  unfold State.abortSlot
  dsimp only
  split
  · exact slotIdle_jobs hp c k h
  · exact h

theorem foldS_abortSlot_jobs (l : List (CId × SId)) {s : State} (h : ∀ j ∈ s.jobs.list, p j) :
    ∀ j ∈ (foldS s l fun s e => s.abortSlot e.1 e.2).jobs.list, p j :=
  foldS_keeps (p := fun s => ∀ j ∈ s.jobs.list, p j) _ (fun _ e h => abortSlot_jobs hp e.1 e.2 h) l h

/-- A property of every job that holds with the status set, and does not turn on which streams still run or when they ran, holds when
the job has been stopped. -/
theorem stopJob_jobs {s : State} {t : Tag} {j : Job} {st : Nat} {ev : W16} (hj : s.job t = some j) (hs : j.stop = none)
    (h : ∀ i ∈ (s.modJob t fun j => { j with stop := some (st, ev) }).jobs.list, p i) :
    ∀ i ∈ (s.stopJob t st ev).jobs.list, p i := by
  unfold State.stopJob State.haltJob
  rw [hj]
  dsimp only
  rw [if_neg (by simp [hs])]
  generalize s.modJob t _ = u at h ⊢
  have ha := foldS_abortSlot_jobs hp j.live h
  obtain ⟨m, hm⟩ := foldS_grant_only (clustersOf j.d.clusters) (foldS u j.live fun s e => s.abortSlot e.1 e.2)
  rw [hm]
  split
  · exact ha
  · exact ha

end Stop

/-- A job that is stopped alone keeps the status and event of its abort, and its charge. -/
theorem stopJob_alone {s : State} {j : Job} (st : Nat) (ev : W16) (hl : s.jobs.list = [j]) (ha : j.admitted = true)
    (he : j.phase ≠ .ended) (hs : j.stop = none) :
    ∀ i ∈ (s.stopJob j.tag st ev).jobs.list, i.stop = some (st, ev) ∧ i.charge = j.charge := by
  refine stopJob_jobs (j := j) (fun _ _ _ _ h => h) (by simp [State.job, hl, ha, he]) hs fun i hi => ?_
  simp only [State.modJob, State.modJobs, hl, List.map_cons, List.map_nil, List.mem_singleton, ha, beq_self_eq_true, Bool.true_and,
    bne_iff_ne.mpr he, if_true] at hi
  exact hi ▸ ⟨rfl, rfl⟩

/-- What a raise makes of the events turns on the events, the node's ID and the life clock. -/
theorem raise_evt_congr {s t : State} (he : t.evt = s.evt) (hl : t.lnk = s.lnk) (hc : t.life = s.life) (c : W16) (i : EvInfo) :
    (t.raise c i).evt = (s.raise c i).evt := by
  unfold State.raise
  rw [he, hl, hc]
  dsimp only
  split <;> rfl

/-- An overrun raises its event and no other. -/
theorem overrun_evt (s : State) (j : Job) :
    (s.overrun j).evt = (s.raise Ev.hifOverrun { tag := j.tag, domain := j.d.domain }).evt := by
  unfold State.overrun
  obtain ⟨m, l, b, o, h⟩ := stopJob_only (s.raise Ev.hifOverrun { tag := j.tag, domain := j.d.domain }) j.tag Stat.aborted Ev.hifOverrun
  rw [h]

theorem overrun_glb (s : State) (j : Job) : (s.overrun j).glb = s.glb := by
  unfold State.overrun
  obtain ⟨e, m, l, b, o, h⟩ := raise_stopJob_only s Ev.hifOverrun { tag := j.tag, domain := j.d.domain } j.tag Stat.aborted
  rw [h]

/-- A job that overruns alone is aborted with its charge. -/
theorem overrun_alone {s : State} {j : Job} (hl : s.jobs.list = [j]) (ha : j.admitted = true) (he : j.phase ≠ .ended)
    (hs : j.stop = none) : ∀ i ∈ (s.overrun j).jobs.list, i.stop = some (Stat.aborted, Ev.hifOverrun) ∧ i.charge = j.charge := by
  unfold State.overrun
  obtain ⟨e, h⟩ := raise_only s Ev.hifOverrun { tag := j.tag, domain := j.d.domain }
  rw [h]
  exact stopJob_alone _ _ hl ha he hs

/-! ### The obligation -/

/-- Settles O28: the readings are published as they are and the charge follows the lowest of them. -/
theorem paceUpdateResult : Obligations.PaceUpdateResult := by
  refine ⟨fun s mon hw hu hs => ?_, fun s mon j hw hu hl ha hr hv hn => ?_⟩
  · have hlen := (wf_paceUpdate.mp hw).1
    obtain ⟨k, hk, hmin, hfirst, ht⟩ := takePace_of_wf s hw
    obtain ⟨m, hm⟩ := takeRates_only s mon
    have hc : (s.takePace mon).chargeAll = s.takePace mon := chargeAll_none fun j hj => by
      have hj : j ∈ s.jobs.list := by rwa [ht, hm] at hj
      simp [Job.runsPaid, hs j hj]
    refine ⟨s.takePace mon, by rw [paceUpdate_ready mon hu, hc], ?_, ?_⟩
    · rw [ht, hm]
      refine ⟨rfl, fun b hb => ?_⟩
      cases b <;> simp_all [Block.Same]
    · rw [ht]
      have hslow : (BitVec.ofNat 6 k).toNat = k := Nat.mod_eq_of_lt (by omega)
      have hpace : (BitVec.ofNat 12 (paceOf mon[k])).toNat = paceOf mon[k] := Nat.mod_eq_of_lt (paceOf_lt _)
      have hmean : (BitVec.ofNat 12 (meanPace mon)).toNat = meanPace mon := Nat.mod_eq_of_lt (meanPace_lt hlen)
      dsimp only
      simp only [hslow, hpace, hmean]
      refine ⟨fun c h => ?_, ⟨hk, rfl, hmin, hfirst⟩, rfl, trivial, takeRates_sem s mon⟩
      have hclu := takeRates_clu s h
      exact ⟨congrArg Cluster.rateMsps hclu, congrArg Cluster.avgMsps hclu⟩
  · obtain ⟨m, g, q, ht⟩ := takePace_only s mon
    refine ⟨_, paceUpdate_ready mon hu, ?_⟩
    rw [ht]
    have hlu : ({ s with cl := m, glb := g, hif := q } : State).jobs.list = [j] := hl
    have he : j.phase ≠ .ended := by simp [hr]
    by_cases hs : j.stop = none
    · have hpaid : j.runsPaid = true := by simp [Job.runsPaid, ha, hr, hv, hn, hs]
      rw [chargeAll_alone hlu hpaid]
      dsimp only
      split_ifs with ho
      · rw [overrun_glb, overrun_evt]
        refine ⟨fun h => absurd hs h, fun h => absurd ho (Nat.not_lt.mpr h), fun _ _ => ⟨fun j' hj' => ?_, ?_⟩⟩
        · exact overrun_alone (j := j.charged s.life.clock g.minMsps.toNat) rfl ha he hs j' (List.mem_of_find?_eq_some hj')
        · exact raise_evt_congr (by rfl) (by rfl) (by rfl) _ _
      · exact ⟨fun h => absurd hs h, fun _ _ => ⟨rfl, rfl⟩, fun h => absurd h ho⟩
    · have hrest : j.runsPaid = false := by simp [Job.runsPaid, Option.isSome_iff_ne_none, hs]
      rw [chargeAll_none fun i hi => (List.mem_singleton.mp (hlu ▸ hi) : i = j) ▸ hrest]
      exact ⟨fun _ => ⟨rfl, rfl⟩, fun _ h => absurd h hs, fun _ h => absurd h hs⟩

end Sys2Proof.Machine
end

section
/-! PROOFS. Matrix arrays (chapter 03), memory and streams: which operations leave what is read, and which leave groups and slots. -/

namespace Sys2Proof.Machine

open Sys2Proof Sys2Proof.Safety

variable {s t u : State}

/-! ### What the accesses of a job read -/

/-- Every byte, right of access, valid line and poisoned line is the same in two states. -/
structure SameMemory (s t : State) : Prop where
  bytes : t.mem.bytes = s.mem.bytes
  pages : t.mem.pages = s.mem.pages
  poison : ∀ m, (t.ctl m).poison = (s.ctl m).poison
  spdBytes : ∀ c, (t.clu c).bytes = (s.clu c).bytes
  parcels : ∀ c, (t.clu c).parcels = (s.clu c).parcels

theorem SameMemory.trans (h : SameMemory s t) (k : SameMemory t u) : SameMemory s u :=
  ⟨k.bytes.trans h.bytes, k.pages.trans h.pages, fun m => (k.poison m).trans (h.poison m),
    fun c => (k.spdBytes c).trans (h.spdBytes c), fun c => (k.parcels c).trans (h.parcels c)⟩

theorem SameMemory.of_eq (hm : t.mem = s.mem) (hc : t.cl = s.cl) : SameMemory s t := by
  have hclu (c : Nat) : t.clu c = s.clu c := by rw [State.clu, State.clu, hc]
  exact ⟨by rw [hm], by rw [hm], fun m => by rw [State.ctl, State.ctl, hm], fun c => by rw [hclu], fun c => by rw [hclu]⟩

theorem SameMemory.refl (s : State) : SameMemory s s := .of_eq rfl rfl

/-- What a change of one cluster leaves of it, it leaves of every cluster. -/
theorem modClu_field {α : Type} (π : Cluster → α) (s : State) (c : Nat) (f : Cluster → Cluster) (h : π (f (s.clu c)) = π (s.clu c))
    (c' : Nat) : π ((s.modClu c f).clu c') = π (s.clu c') := by
  rw [State.clu_modClu]
  split
  · rename_i hc
    rw [hc, h]
  · rfl

theorem sameMemory_modClu (s : State) (c : Nat) (f : Cluster → Cluster) (hb : (f (s.clu c)).bytes = (s.clu c).bytes)
    (hp : (f (s.clu c)).parcels = (s.clu c).parcels) : SameMemory s (s.modClu c f) :=
  ⟨rfl, rfl, fun _ => rfl, modClu_field Cluster.bytes s c f hb, modClu_field Cluster.parcels s c f hp⟩

theorem sameMemory_setCtl (s : State) (m : Nat) (y : MemCtl) (h : y.poison = (s.ctl m).poison) : SameMemory s (s.setCtl m y) := by
  refine ⟨rfl, rfl, fun k => ?_, fun _ => rfl, fun _ => rfl⟩
  simp only [State.ctl, State.setCtl, mget_mset]
  split
  · rename_i hk; rw [hk]; exact h
  · rfl

theorem sameMemory_setGroup (s : State) (c g : Nat) (y : Group) : SameMemory s (s.setGroup c g y) := sameMemory_modClu _ _ _ rfl rfl
theorem sameMemory_setSlot (s : State) (c k : Nat) (y : Slot) : SameMemory s (s.setSlot c k y) := sameMemory_modClu _ _ _ rfl rfl

theorem SameMemory.sameStore (h : SameMemory s t) : SameStore s t := by
  refine ⟨fun c => ?_, fun r c w => ?_⟩
  · simp only [State.rawByte, h.bytes, h.spdBytes]
  · simp only [State.mayAccess, State.page, Cluster.parcel, h.pages, h.parcels]

theorem SameMemory.lineValid (h : SameMemory s t) (a : Addr) : t.lineValid a = s.lineValid a := by
  simp only [State.lineValid, Cluster.parcel, h.parcels]

theorem SameMemory.readByte (h : SameMemory s t) (r : Req) (a : Addr) : t.readByte r a = s.readByte r a := by
  unfold State.readByte
  rw [h.sameStore.1, h.sameStore.2, h.lineValid]

theorem SameMemory.tileRow (h : SameMemory s t) (r : Req) (x : Tile) (n : Nat) : t.tileRow r x n = s.tileRow r x n := by
  simp only [State.tileRow, State.read, h.readByte]

theorem SameMemory.poisonCheck (h : SameMemory s t) (r : Req) (a : Addr) (n : Nat) : poisonCheck t r a n = poisonCheck s r a n := by
  simp only [Machine.poisonCheck, State.poisonIn, h.poison, h.sameStore.2]

theorem SameMemory.poisonAll (h : SameMemory s t) (r : Req) (l : List (Addr × Nat)) : poisonAll t r l = poisonAll s r l := by
  induction l with
  | nil => rfl
  | cons x l ih => simp only [Machine.poisonAll, h.poisonCheck, ih]

/-! ### Groups and slots -/

/-- Every group and slot, and the life clock, is the same in two states. -/
structure SameStreams (s t : State) : Prop where
  life : t.life = s.life
  groups : ∀ c, (t.clu c).groups = (s.clu c).groups
  slots : ∀ c, (t.clu c).slots = (s.clu c).slots

theorem SameStreams.trans (h : SameStreams s t) (k : SameStreams t u) : SameStreams s u :=
  ⟨k.life.trans h.life, fun c => (k.groups c).trans (h.groups c), fun c => (k.slots c).trans (h.slots c)⟩

theorem SameStreams.of_eq (hl : t.life = s.life) (hc : t.cl = s.cl) : SameStreams s t := by
  have hclu (c : Nat) : t.clu c = s.clu c := by rw [State.clu, State.clu, hc]
  exact ⟨hl, fun c => by rw [hclu], fun c => by rw [hclu]⟩

theorem SameStreams.refl (s : State) : SameStreams s s := .of_eq rfl rfl

theorem SameStreams.group (h : SameStreams s t) (c g : Nat) : t.group c g = s.group c g := by
  simp only [State.group, h.groups]

theorem SameStreams.slot (h : SameStreams s t) (c k : Nat) : t.slot c k = s.slot c k := by
  simp only [State.slot, Cluster.slot, h.slots]

theorem sameStreams_modClu (s : State) (c : Nat) (f : Cluster → Cluster) (hg : (f (s.clu c)).groups = (s.clu c).groups)
    (hs : (f (s.clu c)).slots = (s.clu c).slots) : SameStreams s (s.modClu c f) :=
  ⟨rfl, modClu_field Cluster.groups s c f hg, modClu_field Cluster.slots s c f hs⟩

/-! ### The misses of an access (07 R159) -/

/-- Whatever raising an event keeps, the event of a full counter keeps. -/
theorem satEvent_keeps {p : State → Prop} (hr : ∀ s c i, p s → p (s.raise c i)) (b : Bool) (k o : Nat) (h : p s) :
    p (s.satEvent b k o) := by
  unfold State.satEvent
  split
  · exact hr _ _ _ h
  · exact h

/-- Counting the misses of an access counts blocks, marks its job and raises events. -/
theorem noteMiss_keeps {p : State → Prop} (hc : ∀ s a, p s → p (s.countMiss a)) (hj : ∀ s t f, p s → p (s.modJob t f))
    (hr : ∀ s c i, p s → p (s.raise c i)) (w : Who) (a : Addr) (n : Nat) (wr : Bool) (h : p s) : p (s.noteMiss w a n wr) := by
  unfold State.noteMiss
  split
  · exact h
  · rename_i k l _
    have hcount := foldS_keeps (p := p) _ (fun s k hs => hc s ⟨a.dev, 64 * k⟩ hs) (k :: l) h
    dsimp only
    split
    · split
      · exact hcount
      · exact hr _ _ _ (hj _ _ _ hcount)
    · exact foldS_keeps (p := p) _ (fun s _ hs => hr s _ _ hs) _ hcount

theorem sameMemory_raise (s : State) (c : W16) (i : EvInfo) : SameMemory s (s.raise c i) := by
  obtain ⟨e, h⟩ := raise_only s c i
  rw [h]
  exact .of_eq rfl rfl

theorem sameStreams_raise (s : State) (c : W16) (i : EvInfo) : SameStreams s (s.raise c i) := by
  obtain ⟨e, h⟩ := raise_only s c i
  rw [h]
  exact .of_eq rfl rfl

theorem sameMemory_countMiss (s : State) (a : Addr) : SameMemory s (s.countMiss a) := by
  unfold State.countMiss
  split
  · exact satEvent_keeps (fun _ _ _ h => h.trans (sameMemory_raise _ _ _)) _ _ _ (sameMemory_setCtl _ _ _ rfl)
  · exact satEvent_keeps (fun _ _ _ h => h.trans (sameMemory_raise _ _ _)) _ _ _ (sameMemory_modClu _ _ (fun _ => _) rfl rfl)

theorem sameStreams_countMiss (s : State) (a : Addr) : SameStreams s (s.countMiss a) := by
  unfold State.countMiss
  split
  · exact satEvent_keeps (fun _ _ _ h => h.trans (sameStreams_raise _ _ _)) _ _ _ (.of_eq rfl rfl)
  · exact satEvent_keeps (fun _ _ _ h => h.trans (sameStreams_raise _ _ _)) _ _ _ (sameStreams_modClu _ _ (fun _ => _) rfl rfl)

theorem sameMemory_noteMiss (s : State) (w : Who) (a : Addr) (n : Nat) (wr : Bool) : SameMemory s (s.noteMiss w a n wr) :=
  noteMiss_keeps (fun _ _ h => h.trans (sameMemory_countMiss _ _)) (fun _ _ _ h => h.trans (.of_eq rfl rfl))
    (fun _ _ _ h => h.trans (sameMemory_raise _ _ _)) w a n wr (.refl s)

theorem sameStreams_noteMiss (s : State) (w : Who) (a : Addr) (n : Nat) (wr : Bool) : SameStreams s (s.noteMiss w a n wr) :=
  noteMiss_keeps (fun _ _ h => h.trans (sameStreams_countMiss _ _)) (fun _ _ _ h => h.trans (.of_eq rfl rfl))
    (fun _ _ _ h => h.trans (sameStreams_raise _ _ _)) w a n wr (.refl s)

theorem sameMemory_noteReads (s : State) (w : Who) (l : List (Addr × Nat)) : SameMemory s (s.noteReads w l) :=
  foldS_keeps (p := SameMemory s) _ (fun _ _ h => h.trans (sameMemory_noteMiss _ _ _ _ _)) l (.refl s)

theorem sameStreams_noteReads (s : State) (w : Who) (l : List (Addr × Nat)) : SameStreams s (s.noteReads w l) :=
  foldS_keeps (p := SameStreams s) _ (fun _ _ h => h.trans (sameStreams_noteMiss _ _ _ _ _)) l (.refl s)

/-! ### A store leaves groups and slots -/

theorem sameStreams_putByte (s : State) (a : Addr) (b : Byte) : SameStreams s (s.putByte a b) := by
  unfold State.putByte
  split
  · exact .of_eq rfl rfl
  · exact sameStreams_modClu _ _ _ rfl rfl

theorem sameStreams_makeValid (s : State) (a : Addr) : SameStreams s (s.makeValid a) := by
  unfold State.makeValid
  split
  · exact .refl s
  · exact sameStreams_modClu _ _ _ rfl rfl

theorem sameStreams_writeByte (s : State) (r : Req) (a : Addr) (b : Byte) : SameStreams s (s.writeByte r a b) := by
  unfold State.writeByte
  split
  · exact (sameStreams_makeValid s a).trans (sameStreams_putByte _ a b)
  · exact .refl s

theorem sameStreams_write (r : Req) (l : Bytes) (a : Addr) (s : State) : SameStreams s (s.write r a l) := by
  induction l generalizing s a with
  | nil => exact .refl s
  | cons b l ih => exact (sameStreams_writeByte s r a b).trans (ih _ _)

theorem sameStreams_unpoison (s : State) (r : Req) (a : Addr) (n : Nat) : SameStreams s (s.unpoison r a n) := by
  unfold State.unpoison
  split
  · refine foldS_keeps (p := SameStreams s) _ (fun u k h => ?_) _ (.refl s)
    split
    · exact h.trans (.of_eq rfl rfl)
    · exact h
  · exact .refl s

theorem sameStreams_store (s : State) (w : Who) (a : Addr) (l : Bytes) : SameStreams s (s.store w a l) :=
  ((sameStreams_noteMiss s w a l.length true).trans (sameStreams_write w.req l a _)).trans (sameStreams_unpoison _ _ _ _)

theorem sameStreams_putRow (s : State) (w : Who) (x : Tile) (n : Nat) (l : List Nat) : SameStreams s (s.putRow w x n l) :=
  sameStreams_store s w _ _

end Sys2Proof.Machine
end

section
/-! PROOFS. Matrix arrays (chapter 03), tiles: the bytes of a row of elements, where a tile that resolves lies, and what writing its rows
one by one leaves. -/

namespace Sys2Proof.Machine

open Sys2Proof Sys2Proof.Safety

variable {s t u : State}

/-! ### The bytes of a row -/

@[simp] theorem leBytes_length (n x : Nat) : (leBytes n x).length = n := by
  induction n generalizing x with
  | zero => rfl
  | succ n ih => simp [leBytes, ih]

theorem packNibbles_length : ∀ l : List Nat, (packNibbles l).length = (l.length + 1) / 2
  | [] => rfl
  | [_] => by simp [packNibbles]
  | _ :: _ :: l => by
    simp only [packNibbles, List.length_cons, packNibbles_length l]
    omega

/-- Elements but INT4 ones fill whole bytes. -/
theorem Fmt.width_eq_bytes {f : Fmt} (h : f ≠ .int4) : f.width = 8 * f.bytes := by
  revert h
  cases f <;> decide

theorem packElems_length (f : Fmt) (l : List Nat) : (packElems f l).length = ceilDiv (l.length * f.width) 8 := by
  unfold packElems ceilDiv
  split
  · rename_i h
    rw [packNibbles_length, h]
    simp only [Fmt.width]
    omega
  · rename_i h
    rw [List.length_flatMap, Fmt.width_eq_bytes h]
    simp only [leBytes_length, List.map_const', List.sum_replicate, smul_eq_mul, Nat.mul_left_comm _ 8]
    omega

@[simp] theorem tileRow_length (s : State) (r : Req) (x : Tile) (n : Nat) : (s.tileRow r x n).length = x.cols := by
  simp [State.tileRow, elemsOf]

/-! ### Where a tile lies (05 R109, R110) -/

/-- The rows of a tile do not meet, and it lies in its space. -/
structure Tile.Lies (x : Tile) : Prop where
  pitch : x.rowBytes ≤ x.pitch
  space : x.addr.dev = true ∨ x.addr.a + x.extent ≤ 2 ^ 33

theorem le_alignUp (n : Nat) {k : Nat} (hk : 0 < k) : n ≤ alignUp n k := by
  unfold alignUp
  have := Nat.div_add_mod (n + k - 1) k
  have := Nat.mod_lt (n + k - 1) hk
  rw [Nat.mul_comm]
  omega

theorem inSpace_spd {a : Addr} {n : Nat} (h : s.inSpace a n = true) : a.dev = true ∨ a.a + n ≤ 2 ^ 33 := by
  unfold State.inSpace at h
  split at h
  · exact .inl ‹_›
  · exact .inr (of_decide_eq_true h)

/-- A tile that resolves lies. -/
theorem tileOf_lies {c : CId} {y : Slot} {d x : Nat} {p : Tile} (h : tileOf s c y d x = .ok p) : p.Lies := by
  unfold tileOf at h
  split at h
  · cases h
  split at h
  · cases h
  dsimp only at h
  split_ifs at h with hbase hrow hstride hspace hone hspace hone <;> cases h
  · exact ⟨le_alignUp _ (k := 64) (by decide), inSpace_spd hspace⟩
  · exact ⟨Nat.le_of_not_lt fun hlt => hrow ⟨hstride, hlt⟩, inSpace_spd hspace⟩

variable {x : Tile}

/-- Every byte of a row exists. -/
theorem Tile.Lies.real (h : x.Lies) {n k : Nat} (hn : n < x.rows) (hk : k ≤ x.rowBytes) :
    (x.rowAddr n).dev = true ∨ (x.rowAddr n).a + k ≤ 2 ^ 33 := by
  refine h.space.imp id fun hs => ?_
  have := Nat.mul_le_mul_right x.pitch (Nat.le_sub_one_of_lt hn)
  simp only [Tile.rowAddr, Addr.plus, Tile.extent] at *
  omega

theorem Tile.Lies.realByte (h : x.Lies) {n k : Nat} (hn : n < x.rows) (hk : k < x.rowBytes) : realAddr ((x.rowAddr n).plus k) :=
  (h.real hn (Nat.succ_le_of_lt hk)).imp id fun hs => by simp only [Addr.plus] at *; omega

/-- Bytes of different rows differ. -/
theorem Tile.Lies.rows_apart (h : x.Lies) {n m k q : Nat} (hnm : n < m) (hk : k < x.rowBytes) :
    (x.rowAddr n).plus k ≠ (x.rowAddr m).plus q := by
  intro he
  have hp := h.pitch
  have := Nat.mul_le_mul_right x.pitch (Nat.succ_le_of_lt hnm)
  have := congrArg Addr.a he
  simp only [Tile.rowAddr, Addr.plus, Nat.succ_mul] at *
  omega

/-! ### Rows written one by one -/

/-- What is stored does not turn on operations before or after that leave the memory. -/
theorem tileStored_of_sameStore {s' t' : State} {r : Req} {rows : Nat → Bytes} (h : TileStored s t r x rows) (hs : SameStore s' s)
    (ht : SameStore t t') : TileStored s' t' r x rows := by
  refine ⟨fun n k hn hk => ?_, fun a ha hout => ?_⟩
  · rw [ht.1, h.1 n k hn hk, hs.1, hs.2]
  · rw [ht.1, h.2 a ha hout, hs.1]

theorem rawByte_putRow_in (hx : x.Lies) (w : Who) {m k : Nat} (l : List Nat) (hm : m < x.rows) (hl : l.length = x.cols)
    (hk : k < x.rowBytes) :
    (u.putRow w x m l).rawByte ((x.rowAddr m).plus k) =
      if u.mayAccess w.req ((x.rowAddr m).plus k) true then (packElems x.fmt l).getD k 0
      else u.rawByte ((x.rowAddr m).plus k) := by
  have hlen : (packElems x.fmt l).length = x.rowBytes := by rw [packElems_length, hl]; rfl
  exact rawByte_store_in w _ _ (hx.real hm hlen.le) k (hlen ▸ hk)

theorem rawByte_putRow_out (hx : x.Lies) (w : Who) {m : Nat} (l : List Nat) (hm : m < x.rows) (hl : l.length = x.cols) {a : Addr}
    (ha : realAddr a) (hout : ∀ k, k < x.rowBytes → a ≠ (x.rowAddr m).plus k) :
    (u.putRow w x m l).rawByte a = u.rawByte a := by
  have hlen : (packElems x.fmt l).length = x.rowBytes := by rw [packElems_length, hl]; rfl
  refine rawByte_store_out w _ _ a fun k hk => ?_
  rw [hlen] at hk
  rw [sameByte_iff (hx.realByte hm hk) ha]
  exact hout k hk

/-- The first `m` rows of a tile. -/
def Tile.firstRows (x : Tile) (m : Nat) : Tile := { x with rows := m }

/-- One more row. -/
theorem tileStored_putRow {w : Who} {els : Nat → List Nat} {m : Nat} (hx : x.Lies) (hm : m < x.rows) (hl : (els m).length = x.cols)
    (hu : ∀ r c b, u.mayAccess r c b = s.mayAccess r c b)
    (h : TileStored s u w.req (x.firstRows m) fun n => packElems x.fmt (els n)) :
    TileStored s (u.putRow w x m (els m)) w.req (x.firstRows (m + 1)) fun n => packElems x.fmt (els n) := by
  obtain ⟨hin, hout⟩ := h
  have hfree (a : Addr) (ha : realAddr a) (hrows : ∀ n k, n < m → k < x.rowBytes → a ≠ (x.rowAddr n).plus k) :
      u.rawByte a = s.rawByte a := hout a ha hrows
  refine ⟨fun n k hn hk => ?_, fun a ha hrows => ?_⟩
  · change n < m + 1 at hn
    change k < x.rowBytes at hk
    show (u.putRow w x m (els m)).rawByte ((x.rowAddr n).plus k) = if s.mayAccess w.req ((x.rowAddr n).plus k) true then
      (packElems x.fmt (els n)).getD k 0 else s.rawByte ((x.rowAddr n).plus k)
    rcases Nat.lt_succ_iff_lt_or_eq.mp hn with hlt | rfl
    · rw [rawByte_putRow_out hx w _ hm hl (hx.realByte (hlt.trans hm) hk) fun q _ => hx.rows_apart hlt hk]
      exact hin n k hlt hk
    · rw [rawByte_putRow_in hx w _ hm hl hk, hu,
        hfree _ (hx.realByte hm hk) fun q j hq hj => (hx.rows_apart hq hj).symm]
  · rw [rawByte_putRow_out hx w _ hm hl ha fun k hk => hrows m k (Nat.lt_succ_self m) hk]
    exact hfree a ha fun n k hn hk => hrows n k (Nat.lt_succ_of_lt hn) hk

/-- Writing rows changes no right of access. -/
theorem mayAccess_foldS_putRow (w : Who) (x : Tile) (els : Nat → List Nat) (l : List Nat) (s : State) (r : Req) (a : Addr) (b : Bool) :
    (foldS s l fun u n => u.putRow w x n (els n)).mayAccess r a b = s.mayAccess r a b :=
  foldS_keeps (p := fun u => u.mayAccess r a b = s.mayAccess r a b) _ (fun _ _ h => (mayAccess_store _ _ _ _ _ _).trans h) l rfl

theorem sameStreams_foldS_putRow (w : Who) (x : Tile) (els : Nat → List Nat) (l : List Nat) (s : State) :
    SameStreams s (foldS s l fun u n => u.putRow w x n (els n)) :=
  foldS_keeps (p := SameStreams s) _ (fun _ _ h => h.trans (sameStreams_putRow _ _ _ _ _)) l (.refl s)

/-- All rows of a tile written in order. -/
theorem tileStored_foldS_putRow (s : State) (w : Who) (hx : x.Lies) (els : Nat → List Nat) (hl : ∀ n, (els n).length = x.cols) :
    TileStored s (foldS s (List.range x.rows) fun u n => u.putRow w x n (els n)) w.req x fun n => packElems x.fmt (els n) := by
  suffices ∀ m ≤ x.rows, TileStored s (foldS s (List.range m) fun u n => u.putRow w x n (els n)) w.req (x.firstRows m)
      fun n => packElems x.fmt (els n) from this x.rows le_rfl
  intro m hm
  induction m with
  | zero => exact ⟨fun n k hn _ => absurd hn (Nat.not_lt_zero n), fun a _ _ => rfl⟩
  | succ m ih =>
    rw [List.range_succ, foldS, List.foldl_append]
    exact tileStored_putRow hx hm (hl m) (mayAccess_foldS_putRow w x els _ s) (ih (Nat.le_of_succ_le hm))

end Sys2Proof.Machine
end

section
/-! PROOFS. Matrix arrays (chapter 03), group instructions: OPEN, ACC, SIDE and CLOSE, and the chunks of an instruction. -/

namespace Sys2Proof.Machine

open Sys2Proof Sys2Proof.Safety

variable {s t : State} {i : Issue} {j : Job} {e : Env} {d : GrpDesc}

/-! ### The chunks of an instruction (03 R58, 05 R114) -/

theorem lt_ceilDiv_iff {n k span : Nat} (hs : 0 < span) : n < ceilDiv k span ↔ n * span < k := by
  unfold ceilDiv
  rw [← Nat.succ_le_iff, Nat.le_div_iff_mul_le hs, Nat.succ_mul]
  omega

@[simp] theorem chunksOf_length (proto : Chunk) (k span : Nat) : (chunksOf proto k span).length = ceilDiv k span := by
  simp [chunksOf]

theorem chunksOf_getElem (proto : Chunk) {k span n : Nat} (h : n < (chunksOf proto k span).length) :
    (chunksOf proto k span)[n] =
      { proto with k0 := n * span, k1 := min ((n + 1) * span) k, last := n + 1 == ceilDiv k span } := by
  simp [chunksOf]

/-- The chunks but the last are whole spans; the last ends at K. -/
theorem chunksOf_spans (proto : Chunk) {k span : Nat} (hs : 0 < span) (n : Nat) (h : n < (chunksOf proto k span).length) :
    let l := chunksOf proto k span
    l[n].k0 = n * span ∧ l[n].k0 < l[n].k1 ∧ l[n].k1 - l[n].k0 ≤ span ∧ (l[n].last = true ↔ n + 1 = l.length) ∧
      (n + 1 < l.length → l[n].k1 = (n + 1) * span) ∧ (n + 1 = l.length → l[n].k1 = k) := by
  have hn := h
  rw [chunksOf_length, lt_ceilDiv_iff hs] at hn
  have hspan : (n + 1) * span = n * span + span := Nat.succ_mul n span
  simp only [chunksOf_getElem, chunksOf_length, beq_iff_eq, lt_ceilDiv_iff hs, true_and]
  refine ⟨by omega, by omega, fun hlt => by omega, fun hlast => ?_⟩
  have hend : ¬ n + 1 < ceilDiv k span := hlast ▸ lt_irrefl _
  rw [lt_ceilDiv_iff hs] at hend
  omega

/-! ### An instruction that issues and goes on -/

theorem issue_ok {cls op sub : Nat} {body : Env → State → Ans} (h : Issues s i j) (hw : i.spells cls op sub = true)
    (hb : body (envOf s i j) s = .ok t) :
    s.issue i (rowCode cls op sub) body = t.advance i.cluster i.slot (slotOf s i).pc.toNat := by
  rw [issue_issues body h hw, hb]

theorem issue_fail {cls op sub : Nat} {body : Env → State → Ans} {f : Fail} (h : Issues s i j) (hw : i.spells cls op sub = true)
    (hb : body (envOf s i j) s = .fail f) : s.issue i (rowCode cls op sub) body = s.failJob i.cluster i.slot j.tag f := by
  rw [issue_issues body h hw, hb]

theorem issues_not_idle (h : Issues s i j) : (slotOf s i).state ≠ .idle := Slot.ready_not_idle _ h.1.2.1

@[simp] theorem State.slot_setGroup (s : State) (c g k : Nat) (y : Group) : (s.setGroup c g y).slot c k = s.slot c k := by
  simp [State.slot, State.setGroup, State.modClu, Cluster.slot]

@[simp] theorem State.group_setSlot (s : State) (c g k : Nat) (y : Slot) : (s.setSlot c k y).group c g = s.group c g := by
  simp [State.group, State.setSlot, State.modClu, Cluster.setSlot]

/-- A slot that has issued goes on past its instruction. -/
theorem slot_advance (t : State) (c : CId) (k : SId) (pc : W48) (h : (t.slot c.val k.val).state ≠ .idle) :
    (t.advance c k pc.toNat).slot c.val k.val = goesOn t.life.clock (t.slot c.val k.val) pc := by
  simp [State.advance, State.modSlot, h, goesOn]

@[simp] theorem group_advance (t : State) (c : CId) (k : SId) (pc g : Nat) : (t.advance c k pc).group c.val g = t.group c.val g :=
  State.group_setSlot _ _ _ _ _

theorem sameMemory_advance (t : State) (c : CId) (k : SId) (pc : Nat) : SameMemory t (t.advance c k pc) :=
  sameMemory_setSlot _ _ _ _

/-! ### The descriptor of a group (03 R71) -/

/-- The target is one of the tiles that resolve. -/
theorem grpDesc_target_lies {b : Bytes} (h : grpDesc s e b = some d) : d.target.Lies := by
  unfold grpDesc at h
  dsimp only at h
  split at h
  · cases h
  · rename_i x hx
    cases h
    split at hx
    · rename_i hok
      cases hx
      exact tileOf_lies hok
    · cases hx

/-- The init tile has the target's format and extent. -/
theorem legal_init {c : CId} {others : List Tile} (h : d.legal s c others = true) :
    ∀ x ∈ d.init, x.fmt = d.target.fmt ∧ x.rows = d.target.rows ∧ x.cols = d.target.cols := by
  intro x hx
  unfold GrpDesc.legal at h
  have hcheck := List.all_eq_true.mp (Bool.and_eq_true_iff.mp h).2 _
    (List.getElem_mem (l := d.checks s c others) (n := 5) (by simp [GrpDesc.checks]))
  simpa [GrpDesc.checks, Option.mem_def.mp hx, and_assoc] using hcheck

/-! ### The target at open (03 R72) -/

/-- Row n of the target at open: zeros, or that of the init tile. -/
def GrpDesc.openRow (d : GrpDesc) (s : State) (r : Req) (n : Nat) : List Nat :=
  match d.init with
  | some x => s.tileRow r x n
  | none => List.replicate d.target.cols 0

theorem SameMemory.openRow (h : SameMemory s t) (d : GrpDesc) (r : Req) (n : Nat) : d.openRow t r n = d.openRow s r n := by
  unfold GrpDesc.openRow
  split
  · exact h.tileRow _ _ _
  · rfl

/-- A row at open has an element for each column of the target. -/
theorem openRow_length (hcols : ∀ x ∈ d.init, x.cols = d.target.cols) (s : State) (r : Req) (n : Nat) :
    (d.openRow s r n).length = d.target.cols := by
  unfold GrpDesc.openRow
  split
  · rename_i x hx
    rw [tileRow_length, hcols x hx]
  · exact List.length_replicate

/-- Without a side pass, and with an init tile that is not the target itself, the target's rows are written in order. -/
theorem openTiles_eq (s : State) (w : Who) (hside : d.sideEn = false) (hsame : ∀ x ∈ d.init, x.same d.target = false)
    (hrows : ∀ x ∈ d.init, x.rows = d.target.rows) :
    s.openTiles w d = foldS s (List.range d.target.rows) fun u n => u.putRow w d.target n (d.openRow s w.req n) := by
  have hst : d.sideTile = none := if_neg (by simp [hside])
  unfold State.openTiles GrpDesc.openRow
  rw [hst]
  cases hi : d.init with
  | none => rfl
  | some x => simp [hsame x hi, hrows x hi]

/-! ### OPEN (05 R113) -/

/-- The group that an instruction names. -/
def Env.group (e : Env) : GId := ⟨e.f 111 108 % 16, Nat.mod_lt _ (by decide)⟩

/-- OPEN takes the group: it is free, the descriptor at `a` is legal and gives `d`, and nothing makes it wait or fail. -/
structure Opens (s : State) (e : Env) (a : Addr) (d : GrpDesc) : Prop where
  readBad : e.readBad = []
  addr : mAddr s e.c e.y (e.f 107 76) 128 1 = .ok a
  aligned : a.a % 64 = 0
  spd : a.dev = false
  first : spdCluster a.a = e.c.val
  last : spdCluster (a.a + 127) = e.c.val
  free : (s.group e.c.val e.group.val).state = .free
  descHazard : e.y.hazard [a.rng 128 false] none = false
  desc : grpDesc s e (s.read e.req a 128) = some d
  legal : d.legal s e.c (s.clu e.c.val).targets = true
  sem : semCheck s e.job (d.doneSem s.lnk.node e.c) = .ok ()
  fits : e.y.crowded d.openRngs.length = false
  hazard : e.y.hazard d.openRngs none = false
  poison : ∀ x ∈ d.init, poisonAll s e.req x.reads = .ok ()

/-- The state once an OPEN has read its descriptor and its init tile: misses are counted. -/
def State.openRead (s : State) (e : Env) (a : Addr) (d : GrpDesc) : State :=
  (s.noteMiss e.who a 128 false).noteReads e.who (d.init.elim [] Tile.reads)

/-- The group as it opens. -/
def Env.openGroup (e : Env) (d : GrpDesc) : Group := { state := .opened, slot := e.k, tag := e.job.tag, desc := some d }

/-- The state once an OPEN has taken its group. -/
def State.taken (s : State) (e : Env) (a : Addr) (d : GrpDesc) : State :=
  (s.openRead e a d).setGroup e.c.val e.group.val (e.openGroup d)

theorem sameStreams_openRead (s : State) (e : Env) (a : Addr) (d : GrpDesc) : SameStreams s (s.openRead e a d) :=
  (sameStreams_noteMiss _ _ _ _ _).trans (sameStreams_noteReads _ _ _)

theorem sameMemory_taken (s : State) (e : Env) (a : Addr) (d : GrpDesc) : SameMemory s (s.taken e a d) :=
  ((sameMemory_noteMiss _ _ _ _ _).trans (sameMemory_noteReads _ _ _)).trans (sameMemory_setGroup _ _ _ _)

theorem taken_life (s : State) (e : Env) (a : Addr) (d : GrpDesc) : (s.taken e a d).life = s.life := (sameStreams_openRead s e a d).life

theorem taken_slot (s : State) (e : Env) (a : Addr) (d : GrpDesc) (k : Nat) : (s.taken e a d).slot e.c.val k = s.slot e.c.val k := by
  rw [State.taken, State.slot_setGroup, (sameStreams_openRead _ _ _ _).slot]

theorem taken_group (s : State) (e : Env) (a : Addr) (d : GrpDesc) : (s.taken e a d).group e.c.val e.group.val = e.openGroup d :=
  State.group_setGroup _ _ _ _

@[simp] theorem spdParity_nil (s : State) (w : Who) (l : List (Addr × Nat)) : spdParity s w l [] = (s, none) := by
  simp [spdParity, failures, parityReads]

@[simp] theorem accReads_nil (s : State) (c : CId) (g : GId) (t : Tag) (l : List (Addr × Nat)) : s.accReads c g t l [] = (s, none) := by
  simp [State.accReads, failures, parityReads]

theorem mmaOpenBody_opens {a : Addr} (h : Opens s e a d) :
    mmaOpenBody e s = .ok ((s.taken e a d).openTiles e.who d) := by
  have hdesc : grpDesc s e (s.read e.who.req a 128) = some d := h.desc
  have hpoison : ∀ x ∈ d.init, poisonAll (s.noteMiss e.who a 128 false) e.req x.reads = .ok () := fun x hx =>
    ((sameMemory_noteMiss _ _ _ _ _).poisonAll _ _).trans (h.poison x hx)
  have hfree : (s.group e.c.val (e.f 111 108 % 16)).state = .free := h.free
  unfold mmaOpenBody
  simp only [h.addr, h.aligned, h.spd, h.first, h.last, hfree, h.descHazard, State.load, hdesc, h.legal, h.sem, h.fits, h.hazard,
    h.readBad, Ans.of, Ans.after, spdParity_nil, List.take_nil, List.drop_nil]
  cases hi : d.init with
  | none => simp [State.taken, State.openRead, hi, Env.openGroup, State.noteReads, foldS, Env.group]
  | some x => simp [State.taken, State.openRead, hi, hpoison x hi, Env.openGroup, Env.group]

/-- What an OPEN leaves of its group, its slot and the target. -/
theorem opens_result {a : Addr} (hi : Issues s i j) (h : Opens s (envOf s i j) a d) (hside : d.sideEn = false)
    (hsame : ∀ x ∈ d.init, x.same d.target = false) :
    let e := envOf s i j
    let t := ((s.taken e a d).openTiles e.who d).advance i.cluster i.slot (slotOf s i).pc.toNat
    t.group i.cluster.val e.group.val = e.openGroup d ∧ slotOf t i = goesOn s.life.clock (slotOf s i) (slotOf s i).pc ∧
      TileStored s t j.who.req d.target fun n => packElems d.target.fmt (d.openRow s j.who.req n) := by
  intro e t
  have hinit := legal_init h.legal
  have hmem := sameMemory_taken s e a d
  have hopen := openTiles_eq (s.taken e a d) e.who hside hsame fun x hx => (hinit x hx).2.1
  have hstreams : SameStreams (s.taken e a d) ((s.taken e a d).openTiles e.who d) := hopen ▸ sameStreams_foldS_putRow _ _ _ _ _
  have hslot : ((s.taken e a d).openTiles e.who d).slot i.cluster.val i.slot.val = slotOf s i :=
    (hstreams.slot _ _).trans (taken_slot s e a d _)
  refine ⟨?_, ?_, ?_⟩
  · exact (group_advance _ _ _ _ _).trans ((hstreams.group _ _).trans (taken_group s e a d))
  · have hgoes := slot_advance ((s.taken e a d).openTiles e.who d) i.cluster i.slot (slotOf s i).pc
      (by rw [hslot]; exact issues_not_idle hi)
    rwa [hslot, hstreams.life, taken_life] at hgoes
  · have hstored := tileStored_foldS_putRow (s.taken e a d) e.who (grpDesc_target_lies h.desc) _
      (openRow_length (fun x hx => (hinit x hx).2.2) (s.taken e a d) e.who.req)
    rw [← hopen] at hstored
    simp only [hmem.openRow] at hstored
    exact tileStored_of_sameStore hstored hmem.sameStore (sameMemory_advance _ _ _ _).sameStore

/-! ### ACC, SIDE and CLOSE (05 R114, 03 R73) -/

/-- The state with the chunks of the slot's next instruction in their group, which contends for its arrays (05 R127). -/
def State.queued (s : State) (e : Env) (g : GId) (rs : List Rng) (l : List Chunk) : State :=
  ((s.modGroup e.c.val g.val fun x => { x with chunks := x.chunks ++ l.map fun ch => { ch with id := e.y.nextId } }).addOut
    e .acc rs none (some g)).grantArrays e.c.val

theorem queueChunks_free {g : GId} {rs : List Rng} (l : List Chunk) (hc : e.y.crowded rs.length = false)
    (hh : e.y.hazard rs (some g) = false) : e.queueChunks s g rs l = .ok (s.queued e g rs l) := if_neg (by simp [hc, hh])

/-- The chunk that an accumulate's chunks are cut from. -/
def Env.accChunk (e : Env) (d : GrpDesc) (a b : Tile) (m o : Option Tile) : Chunk :=
  { side := false, a := a, b := b, metaT := m, occ := o, aK := e.f 67 67 == 1, bK := e.f 66 66 == 1, k0 := 0, k1 := 0
    passes := if d.int then [(0, 0)] else passes a.fmt.pieces b.fmt.pieces, last := false, id := 0 }

theorem mmaAccBody_owns {a b : Tile} {m o : Option Tile} {k : Nat} (ho : ownerOf s e e.group = .owns d)
    (ha : e.tile s (e.f 107 98) = .ok a) (hb : e.tile s (e.f 97 88) = .ok b) (hm : e.tile? s (e.f 87 78) = .ok m)
    (hocc : e.tile? s (e.f 77 68) = .ok o) (hk : accShape d a b m o (e.f 67 67 == 1) (e.f 66 66 == 1) = some k) :
    mmaAccBody e s =
      e.queueChunks s e.group ([a.rng false, b.rng false, d.target.rng true] ++ (m.toList ++ o.toList).map (·.rng false))
        (chunksOf (e.accChunk d a b m o) k (if d.sparse then 2 * d.chunkLen else d.chunkLen)) := by
  unfold Env.group at ho
  simp only [mmaAccBody, ho, ha, hb, hm, hocc, hk, Ans.of]
  rfl

/-- The chunk that a side pass's chunks are cut from. -/
def Env.sideChunk (e : Env) (a b : Tile) : Chunk :=
  { side := true, a := a, b := b, metaT := none, occ := none, aK := e.f 67 67 == 1, bK := e.f 66 66 == 1, k0 := 0, k1 := 0
    passes := [(0, 0)], last := false, id := 0 }

/-- A side pass of the right shape turns on its outlier list (02 R51). -/
theorem mmaSideBody_owns {a b st : Tile} (ho : ownerOf s e e.group = .owns d) (ha : e.tile s (e.f 107 98) = .ok a)
    (hb : e.tile s (e.f 97 88) = .ok b) (hst : d.sideTile = some st) (hfa : a.fmt = .bf16) (hfb : b.fmt = .bf16)
    (hka : aLen d a (e.f 67 67 == 1) = some 64) (hkb : bLen d b (e.f 66 66 == 1) = some 64) :
    mmaSideBody e s =
      if e.outliers.any fun o => !outliersOk o then .fail (accFail Ev.accShape e.group)
      else if e.outliers.any outliersEmpty then .ok s
      else e.queueChunks s e.group [a.rng false, b.rng false, st.rng true] (chunksOf (e.sideChunk a b) 64 d.chunkLen) := by
  unfold Env.group at ho
  simp only [mmaSideBody, ho, ha, hb, hst, hfa, hfb, hka, hkb, Ans.of, ne_eq, not_true_eq_false, or_self, if_false]
  rfl

/-- The state with the group closing and its close outstanding. -/
def State.closes (s : State) (e : Env) (rs : List Rng) : State :=
  (s.modGroup e.c.val e.group.val fun x =>
    { x with state := .closing, closeId := e.y.nextId, gen := (s.vctx e.c.val e.k.val).gen }).addOut e .closing rs none (some e.group)

theorem mmaCloseBody_owns (ho : ownerOf s e e.group = .owns d)
    (hc : e.y.crowded (d.closeRngs (zpRec s e.req d)).length = false)
    (hh : e.y.hazard (d.closeRngs (zpRec s e.req d)) (some e.group) = false) :
    mmaCloseBody e s = .ok (s.closes e (d.closeRngs (zpRec s e.req d))) := by
  unfold Env.group at ho hh
  simp only [mmaCloseBody, ho, hc, hh]
  rfl

/-- What a CLOSE leaves of its group, its slot and the memory. -/
theorem closes_result (hi : Issues s i j) (rs : List Rng) :
    let e := envOf s i j
    let t := (s.closes e rs).advance i.cluster i.slot (slotOf s i).pc.toNat
    t.group i.cluster.val e.group.val =
        { s.group i.cluster.val e.group.val with
          state := .closing, closeId := (slotOf s i).nextId, gen := (s.vctx i.cluster.val i.slot.val).gen } ∧
      slotOf t i = outstanding s.life.clock (slotOf s i) .closing rs none (some e.group) ∧ ∀ a, t.rawByte a = s.rawByte a := by
  intro e t
  have hslot : (s.closes e rs).slot i.cluster.val i.slot.val =
      { slotOf s i with
        out := (slotOf s i).out ++ [⟨(slotOf s i).nextId, .closing, rs, none, some e.group⟩], nextId := (slotOf s i).nextId + 1 } := by
    simp [State.closes, State.addOut, State.modSlot, State.modGroup, e, envOf, slotOf]
  have hmem : SameMemory s (s.closes e rs) := (sameMemory_setGroup _ _ _ _).trans (sameMemory_setSlot _ _ _ _)
  refine ⟨?_, ?_, fun a => (hmem.trans (sameMemory_advance _ _ _ _)).sameStore.1 a⟩
  · rw [group_advance]
    simp [State.closes, State.addOut, State.modSlot, State.modGroup, e, envOf]
  · unfold slotOf at hslot ⊢
    rw [slot_advance _ _ _ _ (by rw [hslot]; exact issues_not_idle hi), hslot]
    rfl

/-! ### The obligation -/

/-- Settles O20: each instruction of a group that it may act on goes on past the issue with the state its own part answers, and the
chunks of an instruction cut K into spans. -/
theorem groupInstructionsResult : Obligations.GroupInstructionsResult := by
  refine ⟨fun s i j hi => ⟨?_, fun d ho => ⟨?_, ?_, ?_⟩⟩,
    fun proto k span _ hs => ⟨chunksOf_length proto k span, chunksOf_spans proto hs⟩⟩
  · intro a d hw hbad haddr hal hspd hfirst hlast hfree hhaz hdesc hlegal hsem hfits hclear hpoison hside hsame
    have h : Opens s (envOf s i j) a d :=
      ⟨hbad, haddr, hal, hspd, hfirst, hlast, hfree, hhaz, hdesc, hlegal, hsem, hfits, hclear, hpoison⟩
    exact ⟨_, congrArg Host.Outcome.next (issue_ok hi hw (mmaOpenBody_opens h)), opens_result hi h hside hsame⟩
  · intro a b m o k hw ha hb hm hocc aK bK hk rs hc hh
    exact congrArg Host.Outcome.next
      (issue_ok hi hw ((mmaAccBody_owns ho ha hb hm hocc hk).trans (queueChunks_free _ hc hh)))
  · intro a b st hw ha hb aK bK hst hfa hfb hka hkb rs
    have hbody := mmaSideBody_owns (e := envOf s i j) ho ha hb hst hfa hfb hka hkb
    have hlist : (envOf s i j).outliers = i.outliers := rfl
    rw [hlist] at hbody
    refine ⟨fun ⟨o, hl, hbad⟩ => ?_, fun ⟨o, hl, hok, hempty⟩ => ?_, fun hl hc hh => ?_⟩
    · exact congrArg Host.Outcome.next (issue_fail hi hw (hbody.trans (if_pos (by simp [hl, hbad]))))
    · refine congrArg Host.Outcome.next ((issue_ok hi hw (t := s) ?_).trans (advance_self (issues_not_idle hi)))
      rw [hbody, if_neg (by simp [hl, hok]), if_pos (by simp [hl, hempty])]
    · have hok : i.outliers.any (fun o => !outliersOk o) = false :=
        (Option.any_eq_false _ _).mpr fun o ho => by simp [(hl o ho).1]
      have hsome : i.outliers.any outliersEmpty = false := (Option.any_eq_false _ _).mpr fun o ho => by simp [(hl o ho).2]
      rw [hok, hsome] at hbody
      exact congrArg Host.Outcome.next (issue_ok hi hw (hbody.trans (queueChunks_free _ hc hh)))
  · intro rs hw hc hh
    exact ⟨_, congrArg Host.Outcome.next (issue_ok hi hw (mmaCloseBody_owns ho hc hh)), closes_result hi rs⟩

end Sys2Proof.Machine
end

section
/-! PROOFS. Matrix arrays (chapter 03), group work: what a chunk does to a target that lies beyond the scratchpads. -/

namespace Sys2Proof.Machine

open Sys2Proof Sys2Proof.Safety

/-! ### A group whose target lies beyond the scratchpads

The scratchpads fill 33 bits (07 R153). A store resolves an address to its cluster and offset, so one at 2^33 + n lands in byte n.
An OPEN takes no such target (05 R106), but the group of an arbitrary state may have one. -/

namespace StrayTarget

/-- One INT32 element, at the first address past the last scratchpad. -/
def target : Tile := { fmt := .int32, addr := ⟨false, 2 ^ 33⟩, rows := 1, cols := 1, pitch := 64, scl := 0 }

/-- An integer group on array 0. -/
def desc : GrpDesc := ⟨BitVec.ofNat 1024 (8 * 2 ^ 72), target, none, none, none⟩

/-- One INT8 element at an offset of cluster 0. -/
def operand (off : Nat) : Tile := { fmt := .int8, addr := ⟨false, off⟩, rows := 1, cols := 1, pitch := 64, scl := 0 }

/-- The product of the elements at 64 and 128. -/
def chunk : Chunk :=
  { side := false, a := operand 64, b := operand 128, metaT := none, occ := none, aK := false, bK := false, k0 := 0, k1 := 1
    passes := [(0, 0)], last := true, id := 0 }

/-- The group's job, of domain 5. -/
def job : Job :=
  { tag := 0x11, fn := 0, q := 0, sqIndex := 0, phase := .running, admitted := true
    d := { jobId := 9, domain := 5, mode := 0, semFirst := 0, semCount := 0, barriers := 0, origin := 1, memberCount := 0, vid := 0
           est := 0, collCount := 0, evidCount := 0, clusters := 1, streams := 0, members := 0, barDesc := 0, admRecord := 0
           requestTable := 0, training := 0, collTable := 0, evidList := 0, inList := 0, outList := 0 } }

/-- Cluster 0: its first parcel the job's, both operands 1, the group with its chunk in the arrays. -/
def cluster : Cluster :=
  { bytes := [(64, 1), (128, 1)], parcels := [(0, { mode := .priv, domain := 5, valid := 1 })]
    groups := [(0, { state := .opened, tag := 0x11, desc := some desc, chunks := [chunk] })], owners := [0] }

def state : State := { State.reset with jobs := { list := [job] }, cl := [(0, cluster)] }

/-- The chunk's promotion changes byte 0 of cluster 0, which is no byte of the target. -/
theorem chunkEnd_writes_byte_zero :
    state.rawByte ⟨false, 0⟩ = 0 ∧ (chunkEnd 0 0 [] state).rawByte ⟨false, 0⟩ = 1 := by decide +kernel

theorem byte_zero_outside (n k : Nat) : (⟨false, 0⟩ : Addr) ≠ (target.rowAddr n).plus k := by
  simp [Tile.rowAddr, Addr.plus, target]
  omega

end StrayTarget

/-- Refutes O21: nothing says that the target lies in its space. The group of `state` has its target at 2^33, where the scratchpads end
(07 R153); its chunk is promoted into byte 0 of cluster 0, so a byte outside the target does not stay as it was. -/
theorem not_groupWorkResult : ¬ Obligations.GroupWorkResult := by
  intro h
  obtain ⟨-, hchunk, -⟩ := h StrayTarget.state 0 0 StrayTarget.desc StrayTarget.job (by rfl) (by rfl)
  obtain ⟨-, -, -, hstored⟩ := hchunk StrayTarget.chunk [] rfl (by decide) (by rfl)
  obtain ⟨u, hu, -, hframe⟩ := hstored StrayTarget.target (.inl ⟨rfl, rfl⟩) (by decide)
  obtain rfl : chunkEnd 0 0 [] StrayTarget.state = u := Host.Outcome.next.inj hu
  have hsame := hframe ⟨false, 0⟩ (.inr (by decide)) fun n k _ _ => StrayTarget.byte_zero_outside n k
  rw [StrayTarget.chunkEnd_writes_byte_zero.1, StrayTarget.chunkEnd_writes_byte_zero.2] at hsame
  exact absurd hsame (by decide)

end Sys2Proof.Machine
end

section
/-! PROOFS. Vector engine (chapter 04), issue: when a VEC instruction issues, when it waits for the engine, and what its format and
its registers make of it. -/

namespace Sys2Proof.Machine

open Sys2Proof Sys2Proof.Safety

variable {s t : State} {i : Issue} {j : Job} {e : Env} {f : Fmt}

/-! ### What a word of the engine spells (05 Table 5.8) -/

/-- A word of a VEC row is of class 3 and carries the row's func code. -/
theorem rowOf_vec {w : W128} {func : Nat} (hf : func < 256) (h : rowOf w = some (rowCode 3 0 func)) :
    wf w 127 124 = 3 ∧ wf w 111 104 = func := by
  have hop : wf w 123 120 < 16 := Nat.mod_lt _ (by decide)
  have hfunc : wf w 111 104 < 256 := Nat.mod_lt _ (by decide)
  have hkind : wf w 108 106 < 8 := Nat.mod_lt _ (by decide)
  unfold rowOf at h
  dsimp only at h
  split at h
  case h_7 => cases h
  all_goals split_ifs at h <;> simp only [Option.some.injEq, rowCode] at h <;> omega

/-- The func codes of the VEC instructions that access memory. -/
def memoryFuncs : List Nat := [0x30, 0x40, 0x41, 0x42, 0x43, 0x44, 0x4B, 0x50, 0x59, 0x5A]

/-- The other operations touch no bytes that another instruction could hold. -/
theorem vecRngs_eq_nil (h : e.f 111 104 ∉ memoryFuncs) : e.vecRngs s = [] := by
  unfold Env.vecRngs
  dsimp only
  split
  case h_11 => rfl
  all_goals exact absurd (by simp [memoryFuncs, *]) h

@[simp] theorem hazard_nil (y : Slot) (g : Option GId) : y.hazard [] g = false := by simp [Slot.hazard]

/-! ### The arbiter of the engine (05 R127) -/

/-- An operation that touches no memory and may issue has a vector operation ready. -/
theorem vecWants_of_issues {func : Nat} (hi : Issues s i j) (hw : i.spells 3 0 func = true) (hcode : func < 256)
    (hfunc : func ∉ memoryFuncs) : s.vecWants i.cluster i.slot j i.word = true := by
  obtain ⟨⟨-, hready, -⟩, hsel, hfull, hord⟩ := hi
  simp only [Issue.spells, Bool.and_eq_true, beq_iff_eq] at hw
  obtain ⟨⟨hrow, hres⟩, -⟩ := hw
  obtain ⟨hclass, hop⟩ := rowOf_vec hcode hrow
  have hrngs (e : Env) (he : e.w = i.word) : e.vecRngs s = [] := vecRngs_eq_nil (by rw [Env.f, he, hop]; exact hfunc)
  simp only [slotOf] at hready hsel hfull hord
  simp only [State.vecWants, hrow, hres, hclass, hready, hsel, hfull, hrngs, hazard_nil]
  simpa [imp_iff_not_or] using hord

/-- While the arbiter chooses another slot, the operation waits for the engine. -/
theorem vecIssue_unchosen {func k : Nat} {turn : Turn} (body : Env → State → Ans) (hi : Issues s i j) (ha : ¬ Alone s i)
    (hw : i.spells 3 0 func = true) (hcode : func < 256) (hfunc : func ∉ memoryFuncs)
    (hk : chooseSlot (s.clu i.cluster.val).slot (i.slot.val :: s.vecRivals i) (s.clu i.cluster.val).vecTurn = some (k, turn))
    (hne : k ≠ i.slot.val) : vecIssue i func body s = .next (s.modSlot i.cluster.val i.slot.val (·.stall)) := by
  have hjob : s.job (s.slot i.cluster.val i.slot.val).tag = some j := hi.1.1
  have hrivals : (s.vecRivals i).isEmpty = false := by simpa [Alone] using ha
  simp [vecIssue, hjob, hrivals, vecWants_of_issues hi hw hcode hfunc, hk, hne]

/-! ### An instruction that has the engine -/

theorem vecIssue_ok {func : Nat} {body : Env → State → Ans} (hi : Issues s i j) (ha : Alone s i) (hw : i.spells 3 0 func = true)
    (hb : body (envOf s i j) s = .ok t) :
    vecIssue i func body s = .next (t.advance i.cluster i.slot (slotOf s i).pc.toNat) :=
  (vecIssue_uncontested (.inl ha) func body).trans (congrArg _ (issue_ok hi hw hb))

theorem vecIssue_fail {func : Nat} {body : Env → State → Ans} {g : Fail} (hi : Issues s i j) (ha : Alone s i)
    (hw : i.spells 3 0 func = true) (hb : body (envOf s i j) s = .fail g) :
    vecIssue i func body s = .next (s.failJob i.cluster i.slot j.tag g) :=
  (vecIssue_uncontested (.inl ha) func body).trans (congrArg _ (issue_fail hi hw hb))

/-- Registers without error and a format that the operation takes. -/
theorem vec_takes {ok : Fmt → Bool} (k : Fmt → Ans) (hr : e.regBad = false) (hf : Fmt.ofCode (e.f 103 100) = some f)
    (hok : ok f = true) : e.vec ok k = k f := by
  simp [Env.vec, hr, hf, hok]

/-- 04 R98: a register in error. -/
theorem vec_regBad (ok : Fmt → Bool) (k : Fmt → Ans) (hr : e.regBad = true) : e.vec ok k = .fail { code := Ev.vecParity } := by
  simp [Env.vec, hr]

/-- 04 R90: a format that Table 4.2 does not allow. -/
theorem vec_opBad {ok : Fmt → Bool} (k : Fmt → Ans) (hr : e.regBad = false) (hf : Fmt.ofCode (e.f 103 100) = some f)
    (hok : ok f = false) : e.vec ok k = .fail { code := Ev.vecOpBad } := by
  simp [Env.vec, hr, hf, hok]

/-- 04 R98: reads of which none failed its parity. -/
theorem vecParity_clean (s : State) (l : List (Addr × Nat)) (hb : e.readBad = []) : e.vecParity s l = (s, none) := by
  simp [Env.vecParity, hb, failures, parityReads]

/-- An instruction whose own part leaves its slot goes on. -/
theorem advance_after (hi : Issues s i j) (ht : slotOf t i = slotOf s i) :
    t.advance i.cluster i.slot (slotOf s i).pc.toNat = after t i id := by
  rw [← ht, advance_self (by rw [ht]; exact issues_not_idle hi)]

/-- An instruction that leaves its context `y` and nothing else. -/
theorem vecIssue_setVctx {func : Nat} {body : Env → State → Ans} {y : VCtx} (hi : Issues s i j) (ha : Alone s i)
    (hw : i.spells 3 0 func = true) (hb : body (envOf s i j) s = .ok ((envOf s i j).setVctx s y)) :
    vecIssue i func body s = .next (after (s.setVctx i.cluster.val i.slot.val y) i id) :=
  (vecIssue_ok hi ha hw hb).trans (congrArg Host.Outcome.next (advance_after hi (State.slot_setVctx ..)))

/-- An instruction that leaves its context `y`, or the state `t` as it is where no element is active. -/
theorem vecIssue_vecDone {func : Nat} {body : Env → State → Ans} {act : List Nat} {y : VCtx} (hi : Issues s i j) (ha : Alone s i)
    (hw : i.spells 3 0 func = true) (ht : slotOf t i = slotOf s i)
    (hb : body (envOf s i j) s = .ok (if act = [] then t else (envOf s i j).setVctx t y)) :
    vecIssue i func body s = .next (vecDone t i act y) := by
  refine (vecIssue_ok hi ha hw hb).trans (congrArg Host.Outcome.next (advance_after hi ?_))
  split
  · exact ht
  · exact (State.slot_setVctx ..).trans ht

end Sys2Proof.Machine
end

section
/-! PROOFS. Vector engine (chapter 04), registers: the bytes of the register file, the sticky flags, and what an operation leaves of the
register that it writes. -/

namespace Sys2Proof.Machine

open Sys2Proof Sys2Proof.Safety

/-! ### Numbers and their bytes -/

@[simp] theorem leBytes_zero (n : Nat) : leBytes n 0 = List.replicate n 0 := by
  induction n with
  | zero => rfl
  | succ n ih => simp [leBytes, ih, List.replicate_succ]

@[simp] theorem leBytes_leNat (l : Bytes) : leBytes l.length (leNat l) = l := by
  induction l with
  | nil => rfl
  | cons b l ih =>
    have hb : b.toNat < 256 := b.isLt
    rw [List.length_cons, leBytes, leNat, show (b.toNat + 256 * leNat l) / 256 = leNat l by omega, ih]
    congr 1
    apply BitVec.eq_of_toNat_eq
    rw [BitVec.toNat_ofNat]
    omega

/-! ### Bytes read after bytes written -/

@[simp] theorem mgetBytes_length (m : SMap Byte) (i n : Nat) : (mgetBytes m i n).length = n := by
  induction n generalizing i with
  | zero => rfl
  | succ n ih => simp [mgetBytes, ih]

theorem mgetBytes_getElem (m : SMap Byte) (i n k : Nat) (h : k < (mgetBytes m i n).length) :
    (mgetBytes m i n)[k] = mget 0 m (i + k) := by
  induction n generalizing i k with
  | zero => exact absurd h (Nat.not_lt_zero k)
  | succ n ih =>
    cases k with
    | zero => rfl
    | succ k => simpa [mgetBytes, Nat.add_assoc, Nat.add_comm 1 k] using ih (i + 1) k (by simpa [mgetBytes] using h)

theorem mget_mputBytes_out (m : SMap Byte) (l : Bytes) {i k : Nat} (h : k < i ∨ i + l.length ≤ k) :
    mget 0 (mputBytes m i l) k = mget 0 m k := by
  induction l generalizing m i with
  | nil => rfl
  | cons b l ih =>
    rw [List.length_cons] at h
    rw [mputBytes, ih _ (by omega), mget_mset_ne _ _ _ _ (by omega)]

theorem mget_mputBytes_in (m : SMap Byte) (l : Bytes) (i k : Nat) (h : k < l.length) :
    mget 0 (mputBytes m i l) (i + k) = l[k] := by
  induction l generalizing m i k with
  | nil => exact absurd h (Nat.not_lt_zero k)
  | cons b l ih =>
    cases k with
    | zero =>
      rw [Nat.add_zero, mputBytes, mget_mputBytes_out _ _ (.inl (Nat.lt_succ_self i)), mget_mset_same]
      rfl
    | succ k => simpa [mputBytes, Nat.add_assoc, Nat.add_comm 1 k] using ih (mset 0 m i b) (i + 1) k (by simpa using h)

/-- Bytes of a string that was written. -/
theorem mgetBytes_mputBytes (m : SMap Byte) (l : Bytes) (i q n : Nat) (h : q + n ≤ l.length) :
    mgetBytes (mputBytes m i l) (i + q) n = (l.drop q).take n := by
  refine List.ext_getElem (by simp; omega) fun k hk _ => ?_
  rw [mgetBytes_length] at hk
  rw [mgetBytes_getElem, Nat.add_assoc, mget_mputBytes_in _ _ _ _ (by omega), List.getElem_take, List.getElem_drop]

/-- Bytes of a longer run of bytes. -/
theorem take_drop_mgetBytes (m : SMap Byte) (i : Nat) {n q k : Nat} (h : q + k ≤ n) :
    ((mgetBytes m i n).drop q).take k = mgetBytes m (i + q) k := by
  refine List.ext_getElem (by simp; omega) fun b hb _ => ?_
  rw [List.getElem_take, List.getElem_drop, mgetBytes_getElem, mgetBytes_getElem, Nat.add_assoc]

/-- Strings of one length, one after the other: the n-th of them. -/
theorem take_drop_flatMap {α β : Type} (g : α → List β) {w : Nat} (hg : ∀ a, (g a).length = w) (l : List α) (n : Nat)
    (h : n < l.length) : ((l.flatMap g).drop (w * n)).take w = g l[n] := by
  induction l generalizing n with
  | nil => exact absurd h (Nat.not_lt_zero n)
  | cons a l ih =>
    rw [List.flatMap_cons]
    cases n with
    | zero => simp [hg]
    | succ n =>
      rw [Nat.mul_succ, Nat.add_comm, ← List.drop_drop, List.drop_left' (hg a)]
      exact ih n (by simpa using h)

/-! ### The sticky flags (04 R97) -/

@[simp] theorem VFlags.or_empty (a : VFlags) : a.or {} = a := by simp [VFlags.or]

theorem VFlags.or_assoc (a b c : VFlags) : (a.or b).or c = a.or (b.or c) := by simp [VFlags.or, Bool.or_assoc]

/-- Flags gather one by one or all at once. -/
theorem VFlags.or_foldl {α : Type} (g : α → VFlags) (l : List α) (a b : VFlags) :
    a.or (l.foldl (fun f x => f.or (g x)) b) = l.foldl (fun f x => f.or (g x)) (a.or b) := by
  induction l generalizing b with
  | nil => rfl
  | cons x l ih => rw [List.foldl_cons, ih, List.foldl_cons, VFlags.or_assoc]

/-- What sets no flag adds nothing. -/
theorem foldl_or_filter {α : Type} (p : α → Bool) (g : α → VFlags) (l : List α) (a : VFlags) :
    l.foldl (fun f x => f.or (if p x then g x else {})) a = (l.filter p).foldl (fun f x => f.or (g x)) a := by
  induction l generalizing a with
  | nil => rfl
  | cons x l ih => cases hp : p x <;> simp [hp, ih]

/-! ### The register that an operation writes (04 R87, R89) -/

variable {s : State} {i : Issue} {j : Job} {e : Env}

/-- Element n of an operation's result with its flags: an inactive one keeps its contents or becomes zero. -/
def Env.vdElem (e : Env) (x : VCtx) (w wa : Nat) (op : Nat → Nat × VFlags) (n : Nat) : Nat × VFlags :=
  if decide (n < 1024 / wa) && x.active e.vm wa n then op n else (if e.zm then 0 else x.elem e.vd w n, {})

/-- The context with an operation's result in vd; with no active element nothing is written. -/
def Env.vdCtx (e : Env) (s : State) (w wa : Nat) (op : Nat → Nat × VFlags) : VCtx :=
  let x := e.vctx s
  if e.actives s wa = [] then x
  else
    let r := (List.range (1024 / w)).map (e.vdElem x w wa op)
    (x.setReg e.vd (r.flatMap fun y => leBytes w y.1)).addFlags (r.foldl (fun f y => f.or y.2) {})

theorem writeVd_eq (s : State) (w wa : Nat) (op : Nat → Nat × VFlags) :
    e.writeVd s w wa op = if e.actives s wa = [] then s else e.setVctx s (e.vdCtx s w wa op) := by
  unfold Env.writeVd Env.vdCtx
  dsimp only
  split <;> rfl

theorem mem_actives {w n : Nat} : n ∈ e.actives s w ↔ n < 1024 / w ∧ (e.vctx s).active e.vm w n = true := by
  simp [Env.actives]

/-- The element of width w of a register, as bytes. -/
theorem leBytes_elem (x : VCtx) (r w n : Nat) : leBytes w (x.elem r w n) = elemBytes x r w n := by
  have h := leBytes_leNat (mgetBytes x.v (1024 * r + w * n) w)
  rwa [mgetBytes_length] at h

/-- What VecWritten asks of the element n, once an operation has written. -/
theorem leBytes_vdElem (s : State) (w wa : Nat) (op : Nat → Nat × VFlags) (n : Nat) (h : e.actives s wa ≠ []) :
    leBytes w (e.vdElem (e.vctx s) w wa op n).1 =
      if n < 1024 / wa ∧ (e.vctx s).active e.vm wa n = true then leBytes w (op n).1
      else if e.zm = true ∧ e.actives s wa ≠ [] then List.replicate w 0
      else elemBytes (e.vctx s) e.vd w n := by
  simp only [Env.vdElem, Bool.and_eq_true, decide_eq_true_eq, h, ne_eq, not_false_eq_true, and_true]
  split
  · rfl
  · split <;> simp [leBytes_elem]

/-- Numbers below `m` are the first `m` ones. -/
theorem filter_range_lt (p : Nat → Bool) {m n : Nat} (h : m ≤ n) :
    (List.range n).filter (fun k => decide (k < m) && p k) = (List.range m).filter p := by
  obtain ⟨d, rfl⟩ := Nat.exists_eq_add_of_le h
  have hlow : (List.range m).filter (fun k => decide (k < m) && p k) = (List.range m).filter p :=
    List.filter_congr fun k hk => by simp [List.mem_range.mp hk]
  have hhigh : ((List.range d).map (m + ·)).filter (fun k => decide (k < m) && p k) = [] :=
    List.filter_eq_nil_iff.mpr fun k hk => by
      obtain ⟨q, -, rfl⟩ := List.mem_map.mp hk
      simp
  rw [List.range_add, List.filter_append, hlow, hhigh, List.append_nil]

/-- The flags of a register's elements are those of its active elements. -/
theorem foldl_vdElem_flags (s : State) {w wa : Nat} (op : Nat → Nat × VFlags) (hw : 1024 / wa ≤ 1024 / w) (a : VFlags) :
    ((List.range (1024 / w)).map (e.vdElem (e.vctx s) w wa op)).foldl (fun f y => f.or y.2) a =
      ((e.actives s wa).map fun n => (op n).2).foldl VFlags.or a := by
  have hact : (List.range (1024 / w)).filter (fun n => decide (n < 1024 / wa) && (e.vctx s).active e.vm wa n) = e.actives s wa :=
    filter_range_lt _ hw
  rw [List.foldl_map, List.foldl_map, ← hact, ← foldl_or_filter]
  congr 1
  funext f n
  unfold Env.vdElem
  split <;> rfl

/-- An operation that writes vd does what 04 R87, R89 and R97 say of it. -/
theorem vecWritten_vdCtx (s : State) {w wa : Nat} (op : Nat → Nat × VFlags) (hw : 1024 / wa ≤ 1024 / w) :
    VecWritten s e (e.vdCtx s w wa op) w wa op := by
  unfold VecWritten Env.vdCtx
  dsimp only
  by_cases h : e.actives s wa = []
  · have hnone (n : Nat) : ¬ (n < 1024 / wa ∧ (e.vctx s).active e.vm wa n = true) := by
      rw [← mem_actives, h]; exact List.not_mem_nil
    simp [h, hnone]
  · rw [if_neg h]
    set r := (List.range (1024 / w)).map (e.vdElem (e.vctx s) w wa op) with hr
    have hlen : (r.flatMap fun y => leBytes w y.1).length = w * (1024 / w) := by
      simp [List.length_flatMap, hr, Function.comp_def, Nat.mul_comm]
    have hle : w * (1024 / w) ≤ 1024 := Nat.mul_div_le 1024 w
    refine ⟨fun n hn => ?_, fun k hk => ?_, ?_, rfl, rfl, rfl⟩
    · have hfit : w * n + w ≤ w * (1024 / w) := Nat.mul_succ w n ▸ Nat.mul_le_mul_left w hn
      have hnr : n < r.length := by simpa [hr] using hn
      rw [← leBytes_vdElem s w wa op n h]
      calc mgetBytes (mputBytes (e.vctx s).v (1024 * e.vd) (r.flatMap fun y => leBytes w y.1)) (1024 * e.vd + w * n) w
          = ((r.flatMap fun y => leBytes w y.1).drop (w * n)).take w := mgetBytes_mputBytes _ _ _ _ _ (hlen ▸ hfit)
        _ = leBytes w r[n].1 := take_drop_flatMap _ (fun y => leBytes_length w y.1) r n hnr
        _ = _ := by simp [hr]
    · exact mget_mputBytes_out _ _ (hk.imp_right fun hk => by omega)
    · exact (VFlags.or_foldl _ _ _ _).trans (by rw [VFlags.or_empty, hr, foldl_vdElem_flags s op hw]; rfl)

/-- A command whose part writes vd, its elements judged active at width `wa`. -/
theorem vecIssue_writeVd {func w wa : Nat} {body : Env → State → Ans} {op : Nat → Nat × VFlags} (hi : Issues s i j)
    (ha : Alone s i) (hs : i.spells 3 0 func = true) (hw : 1024 / wa ≤ 1024 / w)
    (hb : body (envOf s i j) s = .ok ((envOf s i j).writeVd s w wa op)) :
    ∃ y, vecIssue i func body s = .next (vecDone s i ((envOf s i j).actives s wa) y) ∧ VecWritten s (envOf s i j) y w wa op := by
  exact ⟨_, vecIssue_vecDone hi ha hs rfl (hb.trans (congrArg Ans.ok (writeVd_eq s w wa op))), vecWritten_vdCtx s op hw⟩

end Sys2Proof.Machine
end

section
/-! PROOFS. Vector engine (chapter 04), element-wise operations: every one of 05 Table 5.8 is `vecOp` of its formats and its operation. -/

namespace Sys2Proof.Machine

open Sys2Proof Sys2Proof.Safety

/-- An element-wise operation issues through the arbiter, with its formats and its operation, and accesses no memory. -/
theorem elemOps_vecIssue : ∀ o ∈ elemOps, ∃ func, (∀ i, (o.cmd i).wf = i.spells 3 0 func ∧
    ∀ s, exec (o.cmd i) s = vecIssue i func (vecOp o.ok o.op) s) ∧ func < 256 ∧ func ∉ memoryFuncs := by
  simp only [elemOps, List.cons_append, List.nil_append, List.forall_mem_cons, List.not_mem_nil, false_implies, implies_true, and_true]
  and_intros
  all_goals exact ⟨_, fun _ => ⟨rfl, fun _ => rfl⟩, by decide, by decide⟩

/-- Settles O10: an element-wise operation writes vd element by element, is refused before it writes anything, or waits for the
engine. -/
theorem elementwiseOperationsResult : Obligations.ElementwiseOperationsResult := by
  refine ⟨fun o ho s i j f hi ha hw hr hf hok => ?_, fun o ho s i j f hi ha hw hf => ?_,
    fun o ho s i j k turn hi ha hw hk hne => ?_⟩
  · obtain ⟨func, hcmd, -⟩ := elemOps_vecIssue o ho
    simp only [(hcmd i).2]
    exact vecIssue_writeVd hi ha ((hcmd i).1.symm.trans hw) le_rfl (vec_takes _ hr hf hok)
  · obtain ⟨func, hcmd, -⟩ := elemOps_vecIssue o ho
    rw [(hcmd i).2]
    exact ⟨fun hr => vecIssue_fail hi ha ((hcmd i).1.symm.trans hw) (vec_regBad _ _ hr),
      fun hr hok => vecIssue_fail hi ha ((hcmd i).1.symm.trans hw) (vec_opBad _ hr hf hok)⟩
  · obtain ⟨func, hcmd, hcode, hfunc⟩ := elemOps_vecIssue o ho
    rw [(hcmd i).2]
    exact vecIssue_unchosen _ hi ha ((hcmd i).1.symm.trans hw) hcode hfunc hk hne

end Sys2Proof.Machine
end

section
/-! PROOFS. Vector engine (chapter 04), reductions: the levels of the tree are those of the fixed pairwise tree, and where the result
goes. -/

namespace Sys2Proof.Machine

open Sys2Proof Sys2Proof.Safety

/-! ### The tree (04 R94) -/

/-- One level of the tree combines neighbours. -/
theorem pairUp_range {α : Type} (op : α → α → α) (g : Nat → α) (n : Nat) :
    pairUp op ((List.range (2 * n)).map g) = (List.range n).map fun k => op (g (2 * k)) (g (2 * k + 1)) := by
  induction n generalizing g with
  | zero => rfl
  | succ n ih =>
    have hrest : (List.range (2 * (n + 1))).map g = g 0 :: g 1 :: (List.range (2 * n)).map fun k => g (k + 2) := by
      rw [Nat.mul_succ, List.range_succ_eq_map, List.range_succ_eq_map]
      simp
    rw [hrest, pairUp, ih, List.range_succ_eq_map, List.map_cons, List.map_map]
    rfl

/-- k levels over 2^k elements, each the combination of 2^m leaves, leave one. -/
theorem tree_pairwise {α : Type} (op : α → α → α) (g : Nat → α) (k m : Nat) :
    tree op k ((List.range (2 ^ k)).map (pairwise op g m)) = [pairwise op g (m + k) 0] := by
  induction k generalizing m with
  | zero => rfl
  | succ k ih =>
    have hlevel : pairUp op ((List.range (2 ^ (k + 1))).map (pairwise op g m)) = (List.range (2 ^ k)).map (pairwise op g (m + 1)) := by
      rw [Nat.pow_succ', pairUp_range]
      rfl
    rw [tree, hlevel, ih, Nat.add_right_comm, Nat.add_assoc]

theorem tree_add {α : Type} (op : α → α → α) (k n : Nat) (l : List α) : tree op (k + n) l = tree op n (tree op k l) := by
  induction k generalizing l with
  | zero => rw [Nat.zero_add]; rfl
  | succ k ih => rw [Nat.succ_add]; exact ih _

theorem tree_single {α : Type} (op : α → α → α) (n : Nat) (a : α) : tree op n [a] = [a] := by
  induction n with
  | zero => rfl
  | succ n ih => exact ih

/-- The ten levels over 2^k elements are the pairwise tree of k levels. -/
theorem tree_ten {α : Type} (op : α → α → α) (g : Nat → α) {k : Nat} (hk : k ≤ 10) :
    tree op 10 ((List.range (2 ^ k)).map g) = [pairwise op g k 0] := by
  have h : tree op k ((List.range (2 ^ k)).map g) = [pairwise op g k 0] := (tree_pairwise op g k 0).trans (by rw [Nat.zero_add])
  rw [← Nat.add_sub_cancel' hk, tree_add, h, tree_single]

/-! ### Element 0 takes the result -/

variable {s : State} {i : Issue} {j : Job} {e : Env} {f : Fmt}

/-- What the elements of vd but the first hold after a reduction. -/
def Env.redRest (e : Env) (s : State) : Bytes :=
  if e.zm then List.replicate 1020 0 else mgetBytes (e.vctx s).v (1024 * e.vd + 4) 1020

/-- The context with a reduction's result in element 0. -/
def Env.redCtx (e : Env) (s : State) (v : Nat) (fl : VFlags) : VCtx :=
  ((e.vctx s).setReg e.vd (leBytes 4 v ++ e.redRest s)).addFlags fl

theorem redRest_length : (e.redRest s).length = 1020 := by
  unfold Env.redRest
  split
  · exact List.length_replicate
  · exact mgetBytes_length _ _ _

theorem take_drop_redRest {n : Nat} (hn : n < 255) :
    ((e.redRest s).drop (4 * n)).take 4 = if e.zm then [0, 0, 0, 0] else elemBytes (e.vctx s) e.vd 4 (n + 1) := by
  unfold Env.redRest
  split
  · rw [List.drop_replicate, List.take_replicate, Nat.min_eq_left (by omega)]
    rfl
  · rw [take_drop_mgetBytes _ _ (by omega), elemBytes, Nat.mul_succ, Nat.add_assoc, Nat.add_comm 4]

theorem elemBytes_redCtx (v : Nat) (fl : VFlags) {n : Nat} (hn : n < 256) :
    elemBytes (e.redCtx s v fl) e.vd 4 n = ((leBytes 4 v ++ e.redRest s).drop (4 * n)).take 4 :=
  mgetBytes_mputBytes _ _ _ _ _ (by rw [List.length_append, leBytes_length, redRest_length]; omega)

/-- Element 0 holds the result. -/
theorem elemBytes_redCtx_zero (v : Nat) (fl : VFlags) : elemBytes (e.redCtx s v fl) e.vd 4 0 = leBytes 4 v :=
  (elemBytes_redCtx v fl (by decide)).trans (List.take_left' (leBytes_length 4 v))

/-- The other elements are as inactive ones. -/
theorem elemBytes_redCtx_succ (v : Nat) (fl : VFlags) {n : Nat} (hn : n < 255) :
    elemBytes (e.redCtx s v fl) e.vd 4 (n + 1) = if e.zm then [0, 0, 0, 0] else elemBytes (e.vctx s) e.vd 4 (n + 1) := by
  rw [elemBytes_redCtx v fl (by omega), Nat.mul_succ, Nat.add_comm, ← List.drop_drop, List.drop_left' (leBytes_length 4 v)]
  exact take_drop_redRest hn

/-- What a float reduction combines at one leaf: the active element, else the identity. -/
def Env.leaf (e : Env) (s : State) (f : Fmt) (id : FVal) (n : Nat) : FVal :=
  if (e.vctx s).active e.vm f.bytes n then f.val ((e.vctx s).elem e.va f.bytes n) else id

/-- The identity and the operation of a float reduction: 0 sum, 1 max, 2 min. -/
def redId (kind : Nat) : FVal := if kind = 0 then .fin false 0 0 else .inf (kind == 1)
def redOp (kind : Nat) (a b : FVal) : FVal := if kind = 0 then f32 (toF32 (a.add b)) else if kind = 1 then a.max b else a.min b

/-- A float reduction writes its pairwise tree, of as many levels as its format has elements for. -/
theorem vecReduce_float {kind k : Nat} (hr : e.regBad = false) (hf : Fmt.ofCode (e.f 103 100) = some f) (hok : okReduce f = true)
    (hint : f ≠ .int32) (hk : k ≤ 10) (hlev : 1024 / f.bytes = 2 ^ k) :
    ∃ fl, vecReduce e s kind =
      .ok (e.setVctx s (e.redCtx s (fmtF32.round (pairwise (redOp kind) (e.leaf s f (redId kind)) k 0)) fl)) := by
  have hleaves : ((List.range (1024 / f.bytes)).map fun n =>
      if (e.actives s f.bytes).contains n then f.val ((e.vctx s).elem e.va f.bytes n) else redId kind) =
      (List.range (2 ^ k)).map (e.leaf s f (redId kind)) := by
    rw [← hlev]
    refine List.map_congr_left fun n hn => ?_
    simp [Env.leaf, mem_actives, List.mem_range.mp hn]
  have hout : (tree (redOp kind) 10 ((List.range (1024 / f.bytes)).map fun n =>
      if (e.actives s f.bytes).contains n then f.val ((e.vctx s).elem e.va f.bytes n) else redId kind)).headD (redId kind) =
      pairwise (redOp kind) (e.leaf s f (redId kind)) k 0 := by
    rw [hleaves, tree_ten _ _ hk, List.headD_cons]
  unfold vecReduce
  rw [vec_takes _ hr hf hok, if_neg hint, ← hout]
  exact ⟨_, rfl⟩

/-- A float reduction issues: element 0 takes its pairwise tree, the other elements are as inactive ones. -/
theorem vecIssue_reduce {func kind k : Nat} (hi : Issues s i j) (ha : Alone s i) (hr : i.regBad = false)
    (hf : Fmt.ofCode (wf i.word 103 100) = some f) (hok : okReduce f = true) (hint : f ≠ .int32) (hk : k ≤ 10)
    (hlev : 1024 / f.bytes = 2 ^ k) (hs : i.spells 3 0 func = true) :
    ∃ y, vecIssue i func (fun e s => vecReduce e s kind) s = .next (after (s.setVctx i.cluster.val i.slot.val y) i id) ∧
      elemBytes y (envOf s i j).vd 4 0 =
        leBytes 4 (fmtF32.round (pairwise (redOp kind) ((envOf s i j).leaf s f (redId kind)) k 0)) ∧
      ∀ n, 0 < n → n < 256 → elemBytes y (envOf s i j).vd 4 n =
        if (envOf s i j).zm then [0, 0, 0, 0] else elemBytes ((envOf s i j).vctx s) (envOf s i j).vd 4 n := by
  obtain ⟨fl, hb⟩ := vecReduce_float (s := s) (e := envOf s i j) (kind := kind) hr hf hok hint hk hlev
  refine ⟨_, vecIssue_setVctx hi ha hs hb, elemBytes_redCtx_zero _ fl, fun n h0 hn => ?_⟩
  obtain ⟨m, rfl⟩ := Nat.exists_eq_succ_of_ne_zero h0.ne'
  exact elemBytes_redCtx_succ _ fl (Nat.lt_of_succ_lt_succ hn)

/-- Settles O11: each of the three reductions writes the pairwise tree of 8 levels in FP32 and of 9 in BF16. -/
theorem reductionsFollowPairwiseTree : Obligations.ReductionsFollowPairwiseTree := by
  intro s i j f hi ha hr hf hfmt
  have hok : okReduce f = true := by rcases hfmt with rfl | rfl <;> rfl
  have hint : f ≠ .int32 := by rcases hfmt with rfl | rfl <;> decide
  have hlev : 1024 / f.bytes = 2 ^ (if f = .fp32 then 8 else 9) := by rcases hfmt with rfl | rfl <;> rfl
  have hk : (if f = .fp32 then 8 else 9) ≤ 10 := by split <;> decide
  exact ⟨fun hw => vecIssue_reduce (kind := 0) hi ha hr hf hok hint hk hlev hw,
    fun hw => vecIssue_reduce (kind := 1) hi ha hr hf hok hint hk hlev hw,
    fun hw => vecIssue_reduce (kind := 2) hi ha hr hf hok hint hk hlev hw⟩

end Sys2Proof.Machine
end

section
/-! PROOFS. Vector engine (chapter 04), conversion and random operations: what each element of vd becomes, and where a conversion puts the
true values of its outlier channels and its amax. -/

namespace Sys2Proof.Machine

open Sys2Proof Sys2Proof.Safety

variable {s : State} {i : Issue} {j : Job} {e : Env} {f : Fmt} {c : ConvCtl}

/-! ### VEC_CVT (04 R95) -/

/-- A conversion that is not refused: of format f, with the control field c. -/
structure Env.Converts (e : Env) (f : Fmt) (c : ConvCtl) : Prop where
  regs : e.regBad = false
  fmt : Fmt.ofCode (e.f 103 100) = some f
  input : okInput f = true
  ctl : ConvCtl.decode (e.f 75 64) = some c
  dst : c.dst ≠ .pair

/-- The width that judges activity: the wider of the two formats. -/
def cvtWidth (f : Fmt) (c : ConvCtl) : Nat := max f.bytes c.dst.bytes

/-- Element n converted. -/
def Env.cvtOut (e : Env) (s : State) (f : Fmt) (c : ConvCtl) (n : Nat) : ConvOut :=
  convert c (f.val ((e.vctx s).elem e.va f.bytes n)) (if c.stoch then (e.vctx s).gen.draw16 n else 0) 0

/-- Element n as it is stored: a listed channel holds z_0 (02 R51). -/
def Env.cvtElem (e : Env) (s : State) (f : Fmt) (c : ConvCtl) (n : Nat) : Nat × VFlags :=
  let o := e.quantList c.dst
  if isOutlier o n then (((o.toList.flatMap (·.zero)).headD 0 % (2 ^ c.dst.width : Nat)).toNat, {})
  else ((e.cvtOut s f c n).bits, convFlags c (f.val ((e.vctx s).elem e.va f.bytes n)) (e.cvtOut s f c n))

/-- The state with the true values of the listed channels in their side tile, where the list names one. -/
def Env.cvtPutSide (e : Env) (s : State) (f : Fmt) (c : ConvCtl) (t : State) : State :=
  let act := e.actives s (cvtWidth f c)
  match e.cvtSide s c, e.quantList c.dst with
  | some st, some l => if act = [] then t else t.putRow e.who st 0 (cvtSideRow f (e.vctx s) e.va act l)
  | _, _ => t

/-- What the conversion leaves before its amax. -/
def Env.cvtDone (e : Env) (s : State) (f : Fmt) (c : ConvCtl) : State :=
  e.cvtPutSide s f c (e.writeVd s c.dst.bytes (cvtWidth f c) (e.cvtElem s f c))

/-- The ranges of the side tile. -/
def Env.cvtSideRngs (e : Env) (s : State) (c : ConvCtl) : List Rng := (e.cvtSide s c).toList.map (Tile.rng · true)

/-- What a conversion gathers: the active inputs that are no listed channel (02 R41). -/
def Env.cvtInputs (e : Env) (s : State) (f : Fmt) (c : ConvCtl) : List AmaxIn :=
  ((e.actives s (cvtWidth f c)).filter fun n => !isOutlier (e.quantList c.dst) n).map fun n =>
    (f.val ((e.vctx s).elem e.va f.bytes n), (e.cvtOut s f c n).sat)

theorem vecCvtBody_plain (h : e.Converts f c) (ha : c.amaxEn = false) (hz : e.y.hazard (e.cvtSideRngs s c) none = false) :
    vecCvtBody e s = .ok (e.cvtDone s f c) := by
  unfold vecCvtBody
  rw [vec_takes _ h.regs h.fmt h.input]
  simp only [h.ctl, if_neg h.dst, ha, Bool.false_eq_true, if_false]
  exact if_neg (Bool.eq_false_iff.mp hz)

theorem vecCvtBody_amax {a : Addr} (h : e.Converts f c) (ha : c.amaxEn = true) (hb : e.readBad = []) (hx : e.cvtAmax s c = .ok a)
    (hz : e.y.hazard (e.cvtRngs c a ++ e.cvtSideRngs s c) none = false) :
    vecCvtBody e s = .ok ((e.cvtDone s f c).mergeAmax e.who a (if c.amaxRow then some (e.f 31 0) else none) (e.cvtInputs s f c)) := by
  unfold vecCvtBody
  rw [vec_takes _ h.regs h.fmt h.input]
  simp only [h.ctl, if_neg h.dst, ha, if_true, hx, Ans.of, vecParity_clean _ _ hb, Ans.after]
  exact if_neg (Bool.eq_false_iff.mp hz)

/-- A destination has at least as many elements as the wider format. -/
theorem cvtWidth_elems (f : Fmt) (c : ConvCtl) : 1024 / cvtWidth f c ≤ 1024 / c.dst.bytes :=
  Nat.div_le_div_left (le_max_right _ _) (by cases c.dst <;> decide)

/-! ### The obligation -/

/-- Settles O12: the random operations and BCAST write vd element by element, and so does a conversion, which then stores its side
row and merges its amax. -/
theorem conversionAndRandomResult : Obligations.ConversionAndRandomResult := by
  intro s i j f hi ha hr hb hf e x writes
  refine ⟨fun hok hw => vecIssue_writeVd hi ha hw le_rfl (vec_takes _ hr hf hok),
    fun h32 hw => vecIssue_writeVd hi ha hw le_rfl (vec_takes _ hr hf (h32 ▸ rfl)),
    fun h32 hw => vecIssue_writeVd hi ha hw le_rfl (vec_takes _ hr hf (h32 ▸ rfl)),
    fun hok hw => vecIssue_writeVd hi ha hw le_rfl (vec_takes _ hr hf hok), ?_⟩
  intro c hc hok hp v o wa act list res side rs put on hw
  have h : e.Converts f c := ⟨hr, hf, hok, hc, hp⟩
  have hwritten : VecWritten s e (e.vdCtx s c.dst.bytes wa res) c.dst.bytes wa res := vecWritten_vdCtx s res (cvtWidth_elems f c)
  have hdone : e.cvtDone s f c = side (put (e.vdCtx s c.dst.bytes wa res)) :=
    congrArg side (writeVd_eq s c.dst.bytes wa res)
  refine ⟨fun ham hz => ⟨_, hwritten, ?_⟩, fun a ham hx hz => ⟨_, hwritten, ?_⟩⟩
  · exact hdone ▸ vecIssue_ok hi ha hw (vecCvtBody_plain h ham hz)
  · exact hdone ▸ vecIssue_ok hi ha hw (vecCvtBody_amax h ham hb hx hz)

end Sys2Proof.Machine
end

section
/-! PROOFS. Vector engine (chapter 04), mask registers: the lanes of a mask, and what compares and mask operations leave of them. -/

namespace Sys2Proof.Machine

open Sys2Proof Sys2Proof.Safety

variable {s : State} {i : Issue} {j : Job} {e : Env} {f : Fmt} {x : VCtx}

/-! ### Bits -/

theorem bitOf_eq_testBit {w : Nat} (v : BitVec w) (l : Nat) : bitOf v l = v.toNat.testBit l := by
  rw [Nat.testBit_eq_decide_div_mod_eq]
  rfl

theorem testBit_leBits (l : List Bool) (n : Nat) : (maskOf.leBits l).testBit n = l.getD n false := by
  induction l generalizing n with
  | nil => simp [maskOf.leBits]
  | cons b l ih =>
    have hhalf : (b2n b + 2 * maskOf.leBits l) / 2 = maskOf.leBits l := by
      have hb : b2n b < 2 := by cases b <;> decide
      omega
    rw [maskOf.leBits]
    cases n with
    | zero => cases b <;> simp [b2n, Nat.add_mod]
    | succ n =>
      rw [Nat.testBit_succ, hhalf, ih]
      rfl

/-- A lane of a mask built from a function. -/
theorem bitOf_maskOf (g : Nat → Bool) {l : Nat} (hl : l < 256) : bitOf (maskOf g) l = g l := by
  rw [bitOf_eq_testBit, maskOf, BitVec.toNat_ofNat, Nat.testBit_mod_two_pow, testBit_leBits]
  simp [hl]

theorem bitOf_and {n : Nat} (v w : BitVec n) (l : Nat) : bitOf (v &&& w) l = (bitOf v l && bitOf w l) := by
  simp [bitOf_eq_testBit]

theorem bitOf_or {n : Nat} (v w : BitVec n) (l : Nat) : bitOf (v ||| w) l = (bitOf v l || bitOf w l) := by
  simp [bitOf_eq_testBit]

theorem bitOf_not (v : BitVec 256) {l : Nat} (hl : l < 256) : bitOf (~~~v) l = !bitOf v l := by
  rw [bitOf_eq_testBit, bitOf_eq_testBit, ← BitVec.getLsbD, ← BitVec.getLsbD, BitVec.getLsbD_not, decide_eq_true hl, Bool.true_and]

theorem bitOf_allOnes {l : Nat} (hl : l < 256) : bitOf (BitVec.allOnes 256) l = true := by
  rw [bitOf_eq_testBit, ← BitVec.getLsbD, BitVec.getLsbD_allOnes, decide_eq_true hl]

/-! ### A mask register written (04 Table 4.1, R89) -/

@[simp] theorem VCtx.setMask_v (x : VCtx) (k : Nat) (v : BitVec 256) : (x.setMask k v).v = x.v := by unfold VCtx.setMask; split <;> rfl
@[simp] theorem VCtx.setMask_vl (x : VCtx) (k : Nat) (v : BitVec 256) : (x.setMask k v).vl = x.vl := by unfold VCtx.setMask; split <;> rfl
@[simp] theorem VCtx.setMask_gen (x : VCtx) (k : Nat) (v : BitVec 256) : (x.setMask k v).gen = x.gen := by
  unfold VCtx.setMask; split <;> rfl
@[simp] theorem VCtx.setMask_flags (x : VCtx) (k : Nat) (v : BitVec 256) : (x.setMask k v).flags = x.flags := by
  unfold VCtx.setMask; split <;> rfl

theorem VCtx.mask_setMask_same (x : VCtx) {k : Nat} (v : BitVec 256) (hk : k ≠ 0) : (x.setMask k v).mask k = v := by
  simp [VCtx.setMask, VCtx.mask, hk]

theorem VCtx.mask_setMask_ne (x : VCtx) {k q : Nat} (v : BitVec 256) (hq : q ≠ k) : (x.setMask k v).mask q = x.mask q := by
  unfold VCtx.setMask VCtx.mask
  split_ifs <;> simp [mget_mset_ne _ _ _ _ hq]

/-- m0 reads as all ones whatever is written to it. -/
theorem VCtx.bitOf_mask_zero (x : VCtx) {l : Nat} (hl : l < 256) : bitOf (x.mask 0) l = true := bitOf_allOnes hl

/-- `y` is the context `x` after the lanes of a mask register were written: those of `on` take `val`, the others keep their bit or
become 0; where no element is active nothing is written. -/
def LanesWritten (x y : VCtx) (md : Nat) (zm any : Bool) (on val : Nat → Bool) : Prop :=
  y.v = x.v ∧ y.vl = x.vl ∧ y.gen = x.gen ∧ (∀ k, k ≠ md → y.mask k = x.mask k) ∧
  ∀ l, l < 256 → bitOf (y.mask md) l =
    if md = 0 then true else if !any then bitOf (x.mask md) l else if on l then val l
    else if zm then false else bitOf (x.mask md) l

theorem lanesWritten_ite {md : Nat} {zm : Bool} {on val : Nat → Bool} (act : List Nat) {v : BitVec 256}
    (hv : ∀ l, l < 256 → bitOf v l = if on l then val l else if zm then false else bitOf (x.mask md) l) :
    LanesWritten x (if act = [] then x else x.setMask md v) md zm (act != []) on val := by
  by_cases hm : md = 0
  · subst hm
    have hset : (if act = [] then x else x.setMask 0 v) = x := by split <;> rfl
    rw [hset]
    exact ⟨rfl, rfl, rfl, fun _ _ => rfl, fun l hl => x.bitOf_mask_zero hl⟩
  · by_cases ha : act = []
    · simp [LanesWritten, ha, hm]
    · rw [if_neg ha]
      refine ⟨by simp, by simp, by simp, fun k hk => x.mask_setMask_ne v hk, fun l hl => ?_⟩
      rw [x.mask_setMask_same v hm, hv l hl, if_neg hm]
      simp [ha]

/-! ### Mask operations (05 R115) -/

/-- The context with the lanes of a mask operation written. -/
def Env.maskCtx (e : Env) (s : State) (v : BitVec 256) : VCtx :=
  let x := e.vctx s
  if e.actives s 4 = [] then x
  else
    x.setMask (e.f 97 95) (maskOf fun l =>
      if x.active e.vm 4 l then bitOf v l else if e.zm then false else bitOf (x.mask (e.f 97 95)) l)

theorem writeMask_eq (s : State) (v : BitVec 256) :
    e.writeMask s v = if e.actives s 4 = [] then s else e.setVctx s (e.maskCtx s v) := by
  unfold Env.writeMask Env.maskCtx
  dsimp only
  split <;> rfl

@[simp] theorem maskCtx_flags (v : BitVec 256) : (e.maskCtx s v).flags = (e.vctx s).flags := by
  unfold Env.maskCtx
  dsimp only
  split <;> simp

/-- A mask operation whose lanes are those of `v`. -/
theorem vecIssue_writeMask {func : Nat} {body : Env → State → Ans} {v : BitVec 256} {val : Nat → Bool} (hi : Issues s i j)
    (ha : Alone s i) (hw : i.spells 3 0 func = true) (hv : ∀ l, l < 256 → bitOf v l = val l)
    (hb : body (envOf s i j) s = .ok ((envOf s i j).writeMask s v)) :
    let e := envOf s i j
    ∃ y, vecIssue i func body s = .next (vecDone s i (e.actives s 4) y) ∧ y.flags = (e.vctx s).flags ∧
      LanesWritten (e.vctx s) y (wf i.word 97 95) e.zm (e.actives s 4 != []) (fun l => (e.vctx s).active e.vm 4 l) val := by
  refine ⟨_, vecIssue_vecDone hi ha hw rfl (hb.trans (congrArg Ans.ok (writeMask_eq s v))), maskCtx_flags v,
    lanesWritten_ite _ fun l hl => ?_⟩
  rw [bitOf_maskOf _ hl, hv l hl]

theorem maskOp_clean (k : Ans) (hr : e.regBad = false) : e.maskOp k = k := by simp [Env.maskOp, hr]

/-! ### Compares (04 R91, 05 R116) -/

/-- The comparison of element n. -/
def Env.cmpAt (e : Env) (s : State) (f : Fmt) (n : Nat) : Bool × VFlags :=
  cmpElem f (e.f 66 64) ((e.vctx s).elem e.va f.bytes n) ((e.vctx s).elem e.vb f.bytes n)

/-- The active elements of lane l. -/
def Env.laneElems (e : Env) (s : State) (f : Fmt) (l : Nat) : List Nat :=
  (e.actives s f.bytes).filter fun n => f.bytes * n / 4 == l

/-- The mask of a compare: a lane with no active element keeps its bit or becomes 0. -/
def Env.cmpMask (e : Env) (s : State) (f : Fmt) : BitVec 256 :=
  maskOf fun l =>
    if e.laneElems s f l = [] then (if e.zm then false else bitOf ((e.vctx s).mask (e.f 97 95)) l)
    else (e.laneElems s f l).all fun n => (e.cmpAt s f n).1

/-- The context with the result of a compare. -/
def Env.cmpCtx (e : Env) (s : State) (f : Fmt) : VCtx :=
  let act := e.actives s f.bytes
  (if act = [] then e.vctx s else (e.vctx s).setMask (e.f 97 95) (e.cmpMask s f)).addFlags
    (act.foldl (fun g n => g.or (e.cmpAt s f n).2) {})

theorem vecCmpBody_eq (s : State) (f : Fmt) :
    vecCmpBody e s f = .ok (if e.actives s f.bytes = [] then s else e.setVctx s (e.cmpCtx s f)) := by
  unfold vecCmpBody Env.cmpCtx
  dsimp only
  split <;> rfl

theorem cmpCtx_flags (s : State) (f : Fmt) :
    (e.cmpCtx s f).flags = ((e.actives s f.bytes).map fun n => (e.cmpAt s f n).2).foldl VFlags.or (e.vctx s).flags := by
  have hflags (act : List Nat) (v : BitVec 256) :
      (if act = [] then e.vctx s else (e.vctx s).setMask (e.f 97 95) v).flags = (e.vctx s).flags := by split <;> simp
  rw [List.foldl_map]
  show VFlags.or _ _ = _
  rw [hflags, VFlags.or_foldl, VFlags.or_empty]

theorem lanesWritten_cmpCtx (s : State) (f : Fmt) :
    LanesWritten (e.vctx s) (e.cmpCtx s f) (e.f 97 95) e.zm (e.actives s f.bytes != []) (fun l => e.laneElems s f l != [])
      fun l => (e.laneElems s f l).all fun n => (e.cmpAt s f n).1 := by
  refine lanesWritten_ite (e.actives s f.bytes) fun l hl => ?_
  rw [Env.cmpMask, bitOf_maskOf _ hl]
  by_cases h : e.laneElems s f l = [] <;> simp [h]

/-- A compare of a format that it takes. -/
theorem vecIssue_cmp {func : Nat} {ok : Fmt → Bool} (hi : Issues s i j) (ha : Alone s i) (hw : i.spells 3 0 func = true)
    (hr : i.regBad = false) (hf : Fmt.ofCode (wf i.word 103 100) = some f) (hok : ok f = true) :
    vecIssue i func (fun e s => e.vec ok fun f => vecCmpBody e s f) s =
      .next (vecDone s i ((envOf s i j).actives s f.bytes) ((envOf s i j).cmpCtx s f)) :=
  vecIssue_vecDone hi ha hw rfl ((vec_takes (e := envOf s i j) _ hr hf hok).trans (vecCmpBody_eq s f))

/-- Settles O14: mask operations and compares write the lanes of one mask register. -/
theorem maskOperationsResult : Obligations.MaskOperationsResult := by
  intro s i j hi ha hr
  refine ⟨fun hw => vecIssue_writeMask hi ha hw (fun l _ => bitOf_and _ _ l) (maskOp_clean _ hr),
    fun hw => vecIssue_writeMask hi ha hw (fun l _ => bitOf_or _ _ l) (maskOp_clean _ hr),
    fun hw => vecIssue_writeMask hi ha hw (fun l hl => bitOf_not _ hl) (maskOp_clean _ hr), ?_⟩
  intro f hf act r els cmd ok hcmd hok hw
  refine ⟨(envOf s i j).cmpCtx s f, ?_, cmpCtx_flags s f, lanesWritten_cmpCtx s f⟩
  rcases List.mem_pair.mp hcmd with h | h <;> obtain ⟨rfl, rfl⟩ := Prod.mk.inj h
  · exact vecIssue_cmp hi ha hw hr hf hok
  · exact vecIssue_cmp hi ha hw hr hf hok

end Sys2Proof.Machine
end

section
/-! PROOFS. Vector engine (chapter 04), accesses: what an access to a scratchpad leaves alone. -/

namespace Sys2Proof.Machine

open Sys2Proof Sys2Proof.Safety

variable {s t u : State} {i : Issue} {j : Job} {e : Env} {a : Addr}

/-- Blocks that no access to a scratchpad touches, and the slots and vector contexts of every cluster, are the same in two states. -/
structure OutsideSpd (s t : State) : Prop where
  mem : t.mem = s.mem
  sec : t.sec = s.sec
  lnk : t.lnk = s.lnk
  var : t.var = s.var
  upd : t.upd = s.upd
  bars : t.bars = s.bars
  life : t.life = s.life
  slots : ∀ c, (t.clu c).slots = (s.clu c).slots
  vec : ∀ c, (t.clu c).vec = (s.clu c).vec

theorem OutsideSpd.refl (s : State) : OutsideSpd s s := ⟨rfl, rfl, rfl, rfl, rfl, rfl, rfl, fun _ => rfl, fun _ => rfl⟩

theorem OutsideSpd.trans (h : OutsideSpd s t) (k : OutsideSpd t u) : OutsideSpd s u where
  mem := k.mem.trans h.mem
  sec := k.sec.trans h.sec
  lnk := k.lnk.trans h.lnk
  var := k.var.trans h.var
  upd := k.upd.trans h.upd
  bars := k.bars.trans h.bars
  life := k.life.trans h.life
  slots c := (k.slots c).trans (h.slots c)
  vec c := (k.vec c).trans (h.vec c)

theorem OutsideSpd.slotOf (h : OutsideSpd s t) (i : Issue) : slotOf t i = slotOf s i := by
  simp only [Safety.slotOf, State.slot, Cluster.slot, h.slots]

theorem OutsideSpd.vctx (h : OutsideSpd s t) (e : Env) : e.vctx t = e.vctx s := by
  simp only [Env.vctx, State.vctx, h.vec]

theorem OutsideSpd.actives (h : OutsideSpd s t) (e : Env) (w : Nat) : e.actives t w = e.actives s w := by
  simp only [Env.actives, h.vctx]

theorem outsideSpd_modClu (s : State) (c : Nat) (f : Cluster → Cluster) (hs : (f (s.clu c)).slots = (s.clu c).slots)
    (hv : (f (s.clu c)).vec = (s.clu c).vec) : OutsideSpd s (s.modClu c f) :=
  ⟨rfl, rfl, rfl, rfl, rfl, rfl, rfl, modClu_field Cluster.slots s c f hs, modClu_field Cluster.vec s c f hv⟩

theorem outsideSpd_raise (s : State) (c : W16) (i : EvInfo) : OutsideSpd s (s.raise c i) := by
  obtain ⟨v, h⟩ := raise_only s c i
  rw [h]
  exact ⟨rfl, rfl, rfl, rfl, rfl, rfl, rfl, fun _ => rfl, fun _ => rfl⟩

theorem outsideSpd_modJob (s : State) (t : Tag) (f : Job → Job) : OutsideSpd s (s.modJob t f) :=
  ⟨rfl, rfl, rfl, rfl, rfl, rfl, rfl, fun _ => rfl, fun _ => rfl⟩

theorem outsideSpd_countMiss (s : State) (ha : a.dev = false) : OutsideSpd s (s.countMiss a) := by
  unfold State.countMiss
  rw [if_neg (Bool.eq_false_iff.mp ha)]
  exact satEvent_keeps (fun _ _ _ h => h.trans (outsideSpd_raise _ _ _)) _ _ _ (outsideSpd_modClu _ _ (fun _ => _) rfl rfl)

theorem outsideSpd_noteMiss (s : State) (w : Who) (n : Nat) (wr : Bool) (ha : a.dev = false) :
    OutsideSpd s (s.noteMiss w a n wr) := by
  unfold State.noteMiss
  split
  · exact .refl s
  · rename_i k l _
    have hcount : OutsideSpd s (foldS s (k :: l) fun s k => s.countMiss ⟨a.dev, 64 * k⟩) :=
      foldS_keeps (p := OutsideSpd s) _ (fun u q h => h.trans (outsideSpd_countMiss u (a := ⟨a.dev, 64 * q⟩) ha)) (k :: l) (.refl s)
    dsimp only
    split
    · split
      · exact hcount
      · exact (hcount.trans (outsideSpd_modJob _ _ _)).trans (outsideSpd_raise _ _ _)
    · exact foldS_keeps (p := OutsideSpd s) _ (fun _ _ h => h.trans (outsideSpd_raise _ _ _)) _ hcount

theorem outsideSpd_writeByte (s : State) (r : Req) (b : Byte) (ha : a.dev = false) : OutsideSpd s (s.writeByte r a b) := by
  unfold State.writeByte State.makeValid State.putByte
  simp only [ha, Bool.false_eq_true, if_false]
  split
  · exact (outsideSpd_modClu _ _ _ rfl rfl).trans (outsideSpd_modClu _ _ _ rfl rfl)
  · exact .refl s

theorem outsideSpd_write (r : Req) (l : Bytes) (a : Addr) (ha : a.dev = false) (s : State) : OutsideSpd s (s.write r a l) := by
  induction l generalizing s a with
  | nil => exact .refl s
  | cons b l ih => exact (outsideSpd_writeByte s r b ha).trans (ih (a.plus 1) ha _)

/-- The engine reaches scratchpad alone (04). -/
theorem vecAddr_spd {n al : Nat} (h : e.vecAddr s n al = .ok a) : a.dev = false := by
  unfold Env.vecAddr at h
  split at h
  · cases h
  · split at h
    · rename_i hown
      cases h
      simp only [ownSpd, Bool.and_eq_true, Bool.not_eq_true'] at hown
      exact hown.1.1
    · cases h

end Sys2Proof.Machine
end

section
/-! PROOFS. Vector engine (chapter 04), length, descriptor, mask memory and top-k: the instructions that move one structure. -/

namespace Sys2Proof.Machine

open Sys2Proof Sys2Proof.Safety

variable {s : State} {i : Issue} {j : Job} {e : Env} {f : Fmt} {a : Addr}

/-- SETVL (04 R88): the granted length, and its count in the scalar register. -/
theorem vecIssue_setvl (hi : Issues s i j) (ha : Alone s i) (hw : i.spells 3 0 0x58 = true) (hr : i.regBad = false)
    (hf : Fmt.ofCode (wf i.word 103 100) = some f) (hok : f.okVector = true) :
    let n := min ((slotOf s i).rx (wf i.word 93 90)) (1024 / f.bytes)
    vecIssue i 0x58 vecSetvlBody s =
      .next (after (s.setVctx i.cluster.val i.slot.val { (envOf s i j).vctx s with vl := n * f.bytes }) i fun y =>
        y.setX (wf i.word 98 95) (BitVec.ofNat 32 n)) := by
  intro n
  set t := s.setVctx i.cluster.val i.slot.val { (envOf s i j).vctx s with vl := n * f.bytes } with ht
  have hslot : slotOf t i = slotOf s i := State.slot_setVctx ..
  have hstate (y : Slot) (k : Nat) (v : W32) : (y.setX k v).state = y.state := by unfold Slot.setX; split <;> rfl
  have hidle : ((slotOf t i).setX (wf i.word 98 95) (BitVec.ofNat 32 n)).state ≠ .idle := by
    rw [hstate, hslot]; exact issues_not_idle hi
  rw [← advance_modSlot (fun y => y.setX (wf i.word 98 95) (BitVec.ofNat 32 n)) hidle, hslot]
  exact vecIssue_ok hi ha hw (vec_takes (e := envOf s i j) _ hr hf hok)

theorem vecLdgenBody_ok {g : GenDesc} (hr : e.regBad = false) (hb : e.readBad = []) (hx : e.vecAddr s 32 1 = .ok a)
    (hz : e.y.hazard [a.rng 32 false] none = false) (hg : GenDesc.decode (s.read e.req a 32) = some g) :
    vecLdgenBody e s = .ok (e.setVctx (s.noteMiss e.who a 32 false) { e.vctx s with gen := g }) := by
  have hg' : GenDesc.decode (s.read e.who.req a 32) = some g := hg
  simp [vecLdgenBody, hr, hx, hz, hg', vecParity_clean s _ hb, Ans.of, Ans.after, State.load,
    (outsideSpd_noteMiss s e.who 32 false (vecAddr_spd hx)).vctx]

theorem vecMldBody_ok (hr : e.regBad = false) (hb : e.readBad = []) (hx : e.vecAddr s 32 1 = .ok a)
    (hz : e.y.hazard [a.rng 32 false] none = false) :
    vecMldBody e s = .ok (e.writeMask (s.noteMiss e.who a 32 false) (BitVec.ofNat 256 (leNat (s.read e.who.req a 32)))) := by
  simp [vecMldBody, maskOp_clean _ hr, hx, hz, vecParity_clean s _ hb, Ans.of, Ans.after, State.load]

/-- The bytes that MST stores: active lanes from the mask register, the others as memory has them. -/
def Env.mstMask (e : Env) (s : State) (a : Addr) : BitVec 256 :=
  maskOf fun l =>
    if (e.vctx s).active e.vm 4 l then bitOf ((e.vctx s).mask (e.f 97 95)) l
    else bitOf (BitVec.ofNat 256 (leNat (s.read e.req a 32))) l

theorem vecMstBody_ok (hr : e.regBad = false) (hb : e.readBad = []) (hx : e.vecAddr s 32 1 = .ok a)
    (hz : e.y.hazard [a.rng 32 true] none = false) (hact : e.actives s 4 ≠ []) :
    vecMstBody e s = .ok (s.store e.who a (leBytes 32 (e.mstMask s a).toNat)) := by
  simp [vecMstBody, maskOp_clean _ hr, hx, hz, hact, vecParity_clean s _ hb, Ans.of, Ans.after, Env.mstMask]

theorem bitOf_mstMask {l : Nat} (hl : l < 256) :
    bitOf (e.mstMask s a) l =
      if (e.vctx s).active e.vm 4 l then bitOf ((e.vctx s).mask (e.f 97 95)) l else (leNat (s.read e.req a 32)).testBit l := by
  rw [Env.mstMask, bitOf_maskOf _ hl, bitOf_eq_testBit (BitVec.ofNat 256 _), BitVec.toNat_ofNat, Nat.testBit_mod_two_pow,
    decide_eq_true hl, Bool.true_and]

theorem vecTopkBody_ok (hr : e.regBad = false) (hb : e.readBad = []) (hf : Fmt.ofCode (e.f 103 100) = some f)
    (hok : okReduce f = true) (hx : e.vecAddr s (8 * (e.f 69 64 + 1)) 8 = .ok a) (hact : e.actives s f.bytes ≠ [])
    (hz : e.y.hazard [a.rng (8 * (e.f 69 64 + 1)) true] none = false) :
    let v (n : Nat) := (e.vctx s).elem e.va f.bytes n
    vecTopkBody e s = .ok (e.setVctx
      (s.mergeTop e.who a 0 (e.f 69 64 + 1) f.isInt
        ((e.actives s f.bytes).map fun n => ⟨topValue f (v n), (e.f 31 0 + n) % 2 ^ 32⟩))
      ((e.vctx s).addFlags { nanIn := !f.isInt && (e.actives s f.bytes).any fun n => (f.val (v n)).isNan })) := by
  unfold vecTopkBody
  rw [vec_takes _ hr hf hok]
  simp [hx, hz, hact, vecParity_clean s _ hb, Ans.of, Ans.after]

/-- Settles O15: each of the five instructions goes on with the state that its own part answers. -/
theorem lengthMaskMemoryAndTopkResult : Obligations.LengthMaskMemoryAndTopkResult := by
  intro s i j a hi ha hr hb
  refine ⟨fun f hw hf hok => vecIssue_setvl hi ha hw hr hf hok,
    fun g hw hx hz hg => vecIssue_ok hi ha hw (vecLdgenBody_ok hr hb hx hz hg),
    fun hw hx hz => vecIssue_ok hi ha hw (vecMldBody_ok hr hb hx hz),
    fun hw hx hz hact => ⟨_, vecIssue_ok hi ha hw (vecMstBody_ok hr hb hx hz hact), fun l hl => bitOf_mstMask hl⟩,
    fun f hw hf hok => ?_⟩
  intro k act hx hact hz
  exact vecIssue_ok hi ha hw (vecTopkBody_ok (e := envOf s i j) hr hb hf hok hx hact hz)

end Sys2Proof.Machine
end

section
/-! PROOFS. Vector engine (chapter 04), scratchpad strings: what several strings of bytes, written one after the other, leave. -/

namespace Sys2Proof.Machine

open Sys2Proof Sys2Proof.Safety

variable {s t : State} {a b : Addr}

/-- A fold of updates keeps what the update of each member keeps. -/
theorem foldS_keeps_mem {α : Type} {p : State → Prop} {f : State → α → State} :
    ∀ {l : List α} {s : State}, (∀ s, ∀ x ∈ l, p s → p (f s x)) → p s → p (foldS s l f)
  | [], _, _, h => h
  | x :: l, s, hf, h =>
    foldS_keeps_mem (l := l) (s := f s x) (fun s y hy => hf s y (List.mem_cons_of_mem x hy)) (hf s x List.mem_cons_self h)

/-! ### One string -/

/-- Does a scratchpad string of w bytes from `b` hold the byte at `a`? -/
def Addr.covers (b : Addr) (w : Nat) (a : Addr) : Prop := a.dev = false ∧ b.a ≤ a.a ∧ a.a < b.a + w

/-- A string of w bytes from `b` lies in the scratchpads. -/
def Addr.spdFits (b : Addr) (w : Nat) : Prop := b.dev = false ∧ b.a + w ≤ 2 ^ 33

theorem Addr.spdFits.real (h : b.spdFits w) {k : Nat} (hk : k < w) : realAddr (b.plus k) :=
  .inr (Nat.lt_of_lt_of_le (Nat.add_lt_add_left hk b.a) h.2)

/-- Bytes that are one have the same rights of access. -/
theorem mayAccess_sameByte (h : sameByte a b) (r : Req) (w : Bool) : s.mayAccess r b w = s.mayAccess r a w := by
  unfold sameByte at h
  split at h
  · rename_i ha
    simp only [State.mayAccess, ha, h.1, h.2]
  · rename_i ha
    simp only [State.mayAccess, Bool.eq_false_iff.mpr ha, h.1, h.2.1, h.2.2, Bool.false_eq_true, if_false]

theorem not_sameByte_of_uncovered {w k : Nat} (hb : b.spdFits w) (ha : realAddr a) (h : ¬ b.covers w a) (hk : k < w) :
    ¬ sameByte (b.plus k) a := by
  rw [sameByte_iff (hb.real hk) ha]
  rintro rfl
  exact h ⟨hb.1, Nat.le_add_right _ _, Nat.add_lt_add_left hk _⟩

/-- A byte outside the string stays. -/
theorem rawByte_write_uncovered (r : Req) {l : Bytes} (hb : b.spdFits l.length) (ha : realAddr a) (h : ¬ b.covers l.length a) :
    (s.write r b l).rawByte a = s.rawByte a :=
  rawByte_write_out r l b a fun _ hk => not_sameByte_of_uncovered hb ha h hk

/-- A byte that the requester may not write stays (07 R156). -/
theorem rawByte_write_denied (r : Req) (l : Bytes) (h : s.mayAccess r a true = false) : (s.write r b l).rawByte a = s.rawByte a := by
  induction l generalizing s b with
  | nil => rfl
  | cons x l ih =>
    rw [State.write, ih (by rw [mayAccess_writeByte]; exact h)]
    by_cases hab : sameByte b a
    · have hd : s.mayAccess r b true = false := (mayAccess_sameByte hab r true).symm.trans h
      rw [State.writeByte, if_neg (Bool.eq_false_iff.mp hd)]
    · exact rawByte_writeByte_ne r x hab

/-! ### Valid lines (07 R157) -/

theorem lineValid_makeValid_of (b : Addr) (h : s.lineValid a = true) : (s.makeValid b).lineValid a = true := by
  unfold State.makeValid
  split
  · exact h
  · unfold State.lineValid at h ⊢
    rw [State.clu_modClu]
    split
    · rename_i hc
      rw [hc] at h
      simp only [Cluster.parcel, mget_mset] at h ⊢
      split
      · rename_i hp
        rw [hp] at h
        rw [bitOf_or, Bool.or_eq_true, Bool.or_eq_true]
        exact (Bool.or_eq_true_iff.mp h).imp id .inl
      · exact h
    · exact h

theorem lineValid_write_of (r : Req) (l : Bytes) (h : s.lineValid a = true) : (s.write r b l).lineValid a = true := by
  induction l generalizing s b with
  | nil => exact h
  | cons x l ih =>
    refine ih ?_
    unfold State.writeByte
    split
    · rw [lineValid_putByte]
      exact lineValid_makeValid_of b h
    · exact h

/-- A byte that reads the same whether or not a write makes its line valid. -/
def Settled (s : State) (a : Addr) : Prop := s.lineValid a = true ∨ s.rawByte a = 0

theorem readByte_settled (h : Settled s a) (r : Req) : s.readByte r a = if s.mayAccess r a false then s.rawByte a else 0 := by
  unfold State.readByte
  rcases h with h | h <;> simp [h]

/-- A settled byte outside the string stays settled and reads the same. -/
theorem settled_write_uncovered (r q : Req) {l : Bytes} (hb : b.spdFits l.length) (ha : realAddr a) (h : ¬ b.covers l.length a)
    (hs : Settled s a) : Settled (s.write r b l) a ∧ (s.write r b l).readByte q a = s.readByte q a := by
  have hraw := rawByte_write_uncovered (s := s) r hb ha h
  have hs' : Settled (s.write r b l) a := hs.imp (lineValid_write_of r l) hraw.trans
  rw [readByte_settled hs', readByte_settled hs, mayAccess_write, hraw]
  exact ⟨hs', rfl⟩

/-! ### Several strings -/

/-- Strings written in order, each computed from the state that the ones before it leave. -/
def State.writeAll (s : State) (r : Req) (str : State → Nat × Addr → Bytes) (l : List (Nat × Addr)) : State :=
  foldS s l fun t x => t.write r x.2 (str t x)

theorem writeAll_append (s : State) (r : Req) (str : State → Nat × Addr → Bytes) (l₁ l₂ : List (Nat × Addr)) :
    s.writeAll r str (l₁ ++ l₂) = (s.writeAll r str l₁).writeAll r str l₂ := List.foldl_append

variable {r : Req} {str : State → Nat × Addr → Bytes} {l : List (Nat × Addr)} {w : Nat}

theorem mayAccess_writeAll (q : Req) (a : Addr) (b : Bool) : (s.writeAll r str l).mayAccess q a b = s.mayAccess q a b :=
  foldS_keeps (p := fun t => t.mayAccess q a b = s.mayAccess q a b) _ (fun _ _ h => (mayAccess_write _ _ _ _ _ _).trans h) l rfl

theorem rawByte_writeAll_denied (h : s.mayAccess r a true = false) : (s.writeAll r str l).rawByte a = s.rawByte a := by
  refine (foldS_keeps (p := fun t => t.mayAccess r a true = false ∧ t.rawByte a = s.rawByte a) _ (fun t x ht => ?_) l ⟨h, rfl⟩).2
  exact ⟨(mayAccess_write _ _ _ _ _ _).trans ht.1, (rawByte_write_denied r _ ht.1).trans ht.2⟩

theorem outsideSpd_writeAll (hl : ∀ x ∈ l, x.2.dev = false) : OutsideSpd s (s.writeAll r str l) :=
  foldS_keeps_mem (p := OutsideSpd s) (fun _ x hx h => h.trans (outsideSpd_write r _ x.2 (hl x hx) _)) (.refl s)

section Strings

variable (hlen : ∀ t x, (str t x).length = w) (hfits : ∀ x ∈ l, x.2.spdFits w)
include hlen hfits

theorem rawByte_writeAll_uncovered (ha : realAddr a) (h : ∀ x ∈ l, ¬ x.2.covers w a) :
    (s.writeAll r str l).rawByte a = s.rawByte a := by
  refine foldS_keeps_mem (p := fun t => t.rawByte a = s.rawByte a) (fun t x hx ht => ?_) rfl
  rw [rawByte_write_uncovered r (by rw [hlen]; exact hfits x hx) ha (by rw [hlen]; exact h x hx), ht]

/-- Bytes that no string holds read the same once they are settled. -/
theorem readByte_writeAll_uncovered (q : Req) (ha : realAddr a) (h : ∀ x ∈ l, ¬ x.2.covers w a) (hs : Settled s a) :
    (s.writeAll r str l).readByte q a = s.readByte q a := by
  refine (foldS_keeps_mem (p := fun t => Settled t a ∧ t.readByte q a = s.readByte q a) (fun t x hx ht => ?_) ⟨hs, rfl⟩).2
  have hx' := settled_write_uncovered (s := t) r q (l := str t x) (by rw [hlen]; exact hfits x hx) ha
    (by rw [hlen]; exact h x hx) ht.1
  exact ⟨hx'.1, hx'.2.trans ht.2⟩

end Strings

/-- A byte of a string that no later string holds. -/
theorem rawByte_writeAll_last {l₁ l₂ : List (Nat × Addr)} {x : Nat × Addr} {k : Nat} (hlen : ∀ t x, (str t x).length = w)
    (hfits : ∀ y ∈ x :: l₂, y.2.spdFits w) (hk : k < w) (h : ∀ y ∈ l₂, ¬ y.2.covers w (x.2.plus k)) :
    (s.writeAll r str (l₁ ++ x :: l₂)).rawByte (x.2.plus k) =
      if s.mayAccess r (x.2.plus k) true then (str (s.writeAll r str l₁) x).getD k 0 else s.rawByte (x.2.plus k) := by
  split
  · rename_i hm
    have hx := hfits x List.mem_cons_self
    have hin := rawByte_write_in (s := s.writeAll r str l₁) r (str (s.writeAll r str l₁) x) x.2
      (.inr (by rw [hlen]; exact hx.2)) k (by rw [hlen]; exact hk)
    rw [mayAccess_writeAll, if_pos hm] at hin
    rw [writeAll_append]
    exact (rawByte_writeAll_uncovered hlen (fun y hy => hfits y (List.mem_cons_of_mem x hy)) (hx.real hk) h).trans hin
  · rename_i hm
    exact rawByte_writeAll_denied (Bool.eq_false_iff.mpr hm)

end Sys2Proof.Machine
end

section
/-! PROOFS. Vector engine (chapter 04), memory operations: the addresses of the active elements, loads, stores and scatter-add. -/

namespace Sys2Proof.Machine

open Sys2Proof Sys2Proof.Safety

variable {s t : State} {i : Issue} {j : Job} {e : Env} {f : Fmt} {base : Addr} {idx : Bool} {w n : Nat}

/-! ### Where the elements lie (04 R93) -/

/-- An element's bytes lie in the cluster's scratchpad. -/
theorem elemAddr_fits {a : Addr} (h : e.elemAddr s base w idx n = some a) : a.spdFits w := by
  simp only [Env.elemAddr, Option.ite_none_right_eq_some, Option.some.injEq, ownSpd, Bool.and_eq_true, decide_eq_true_eq] at h
  obtain ⟨⟨-, -, hend⟩, rfl⟩ := h
  have hc := e.c.isLt
  exact ⟨rfl, by dsimp only; omega⟩

/-- The active elements with their addresses, ascending. -/
def Env.elemsAt (e : Env) (s : State) (base : Addr) (w : Nat) (idx : Bool) : List (Nat × Addr) :=
  (e.actives s w).filterMap fun n => (e.elemAddr s base w idx n).map (n, ·)

/-- The addresses alone. -/
def Env.addrsAt (e : Env) (s : State) (base : Addr) (w : Nat) (idx : Bool) : List Addr :=
  (e.actives s w).filterMap (e.elemAddr s base w idx)

theorem mem_elemsAt {x : Nat × Addr} : x ∈ e.elemsAt s base w idx ↔ x.1 ∈ e.actives s w ∧ e.elemAddr s base w idx x.1 = some x.2 := by
  obtain ⟨n, a⟩ := x
  simp [Env.elemsAt, List.mem_filterMap, Option.map_eq_some_iff]

theorem elemsAt_fits : ∀ x ∈ e.elemsAt s base w idx, x.2.spdFits w := fun _ hx => elemAddr_fits (mem_elemsAt.mp hx).2

@[simp] theorem elemsAt_addrs : (e.elemsAt s base w idx).map (·.2) = e.addrsAt s base w idx := by
  rw [Env.elemsAt, List.map_filterMap, Env.addrsAt]
  congr 1
  funext n
  cases e.elemAddr s base w idx n <;> rfl

theorem actives_sorted (s : State) (w : Nat) : (e.actives s w).Pairwise (· < ·) := List.pairwise_lt_range.filter _

theorem elemsAt_sorted : (e.elemsAt s base w idx).Pairwise fun x y => x.1 < y.1 := by
  refine (actives_sorted s w).filterMap _ fun n m hnm x hx y hy => ?_
  simp only [Option.map_eq_some_iff] at hx hy
  obtain ⟨_, -, rfl⟩ := hx
  obtain ⟨_, -, rfl⟩ := hy
  exact hnm

/-- The list around one element: those before it have lower numbers, those after it higher ones. -/
theorem elemsAt_split {x : Nat × Addr} (hx : x ∈ e.elemsAt s base w idx) :
    ∃ l₁ l₂, e.elemsAt s base w idx = l₁ ++ x :: l₂ ∧ (∀ y ∈ l₁, y.1 < x.1) ∧ ∀ y ∈ l₂, x.1 < y.1 := by
  obtain ⟨l₁, l₂, hl⟩ := List.append_of_mem hx
  have hsorted := elemsAt_sorted (e := e) (s := s) (base := base) (w := w) (idx := idx)
  rw [hl, List.pairwise_append, List.pairwise_cons] at hsorted
  obtain ⟨-, ⟨hafter, -⟩, hbefore⟩ := hsorted
  exact ⟨l₁, l₂, hl, fun y hy => hbefore y hy x List.mem_cons_self, hafter⟩

/-- The address found for an active element is its own. -/
theorem find_elemsAt (hn : n ∈ e.actives s w) :
    ((e.elemsAt s base w idx).find? fun x => x.1 == n) = (e.elemAddr s base w idx n).map (n, ·) := by
  cases ha : e.elemAddr s base w idx n with
  | none =>
    refine List.find?_eq_none.mpr fun x hx hxn => ?_
    have hx' := (mem_elemsAt.mp hx).2
    rw [beq_iff_eq.mp hxn, ha] at hx'
    cases hx'
  | some a =>
    cases hfound : (e.elemsAt s base w idx).find? fun x => x.1 == n with
    | none => exact absurd (beq_self_eq_true n) (List.find?_eq_none.mp hfound (n, a) (mem_elemsAt.mpr ⟨hn, ha⟩))
    | some x =>
      obtain ⟨m, b⟩ := x
      obtain rfl : m = n := by simpa using List.find?_some hfound
      have hb : e.elemAddr s base w idx m = some b := (mem_elemsAt.mp (List.mem_of_find?_eq_some hfound)).2
      rw [Option.some.inj (hb.symm.trans ha), Option.map_some]

/-! ### The memory operation (04 R93, R98) -/

/-- A memory operation that is not refused and does not wait: its base lies in scratchpad and every active element in the cluster's
own. -/
structure Reaches (s : State) (e : Env) (f : Fmt) (base : Addr) (idx write : Bool) : Prop where
  reads : e.readBad = []
  addr : mAddr s e.c e.y (e.f 63 32) 1 1 = .ok base
  spd : base.dev = false
  inside : ∀ n ∈ e.actives s f.bytes, (e.elemAddr s base f.bytes idx n).isSome
  hazard : e.y.hazard ((e.addrsAt s base f.bytes idx).map fun a => a.rng f.bytes write) none = false

/-- The state once the denied lines are counted. -/
def State.linesNoted (s : State) (e : Env) (f : Fmt) (base : Addr) (idx write : Bool) : State :=
  s.noteLines e.who f.bytes (e.addrsAt s base f.bytes idx) write

theorem vecElems_eq (hd : base.dev = false) (hin : ∀ n ∈ e.actives s f.bytes, (e.elemAddr s base f.bytes idx n).isSome) :
    e.vecElems s f idx base = some (e.elemsAt s base f.bytes idx) := by
  have hall : ((e.actives s f.bytes).map fun n => (n, e.elemAddr s base f.bytes idx n)).any (fun x => x.2.isNone) = false := by
    rw [List.any_eq_false]
    intro x hx
    obtain ⟨n, hn, rfl⟩ := List.mem_map.mp hx
    simpa [Option.isNone_iff_eq_none, ← Option.ne_none_iff_isSome] using hin n hn
  unfold Env.vecElems
  simp only [hd, Bool.false_eq_true, if_false, hall, List.filterMap_map]
  rfl

theorem vecMem_ok {write : Bool} (h : Reaches s e f base idx write) (effect : State → List (Nat × Addr) → State) :
    e.vecMem s f idx write effect =
      .ok (effect (s.linesNoted e f base idx write) (e.elemsAt s base f.bytes idx)) := by
  have hz : e.y.hazard ((e.elemsAt s base f.bytes idx).map fun x => x.2.rng f.bytes write) none = false := by
    rw [← h.hazard, ← elemsAt_addrs, List.map_map]
    rfl
  simp [Env.vecMem, h.addr, Ans.of, vecElems_eq h.spd h.inside, hz, vecParity_clean s _ h.reads, Ans.after, State.linesNoted]

theorem mem_of_mem_lineFirsts {l : List Addr} {a : Addr} (h : a ∈ lineFirsts l) : a ∈ l := by
  induction l with
  | nil => exact h
  | cons b l ih =>
    rcases List.mem_cons.mp h with rfl | h
    · exact List.mem_cons_self
    · exact List.mem_cons_of_mem b (ih (List.mem_filter.mp h).1)

/-- The lines that scratchpad elements touch lie in scratchpad. -/
theorem lineTouches_spd {l : List Addr} (hl : ∀ a ∈ l, a.dev = false) : ∀ a ∈ lineTouches n l, a.dev = false := by
  intro a ha
  obtain ⟨b, hb, hab⟩ := List.mem_flatMap.mp (mem_of_mem_lineFirsts ha)
  rcases List.mem_cons.mp hab with rfl | hab
  · exact hl a hb
  · split at hab
    · cases hab
    · rw [List.mem_singleton.mp hab]
      exact hl b hb

theorem addrsAt_spd : ∀ a ∈ e.addrsAt s base w idx, a.dev = false := by
  intro a ha
  obtain ⟨n, -, hn⟩ := List.mem_filterMap.mp ha
  exact (elemAddr_fits hn).1

theorem outsideSpd_linesNoted (s : State) (e : Env) (f : Fmt) (base : Addr) (idx write : Bool) :
    OutsideSpd s (s.linesNoted e f base idx write) :=
  foldS_keeps_mem (p := OutsideSpd s)
    (fun u a ha h => h.trans (outsideSpd_noteMiss u e.who 1 write (lineTouches_spd addrsAt_spd a ha))) (.refl s)

theorem sameMemory_linesNoted (s : State) (e : Env) (f : Fmt) (base : Addr) (idx write : Bool) :
    SameMemory s (s.linesNoted e f base idx write) :=
  foldS_keeps (p := SameMemory s) _ (fun _ _ h => h.trans (sameMemory_noteMiss _ _ _ _ _)) _ (.refl s)

/-! ### Loads -/

/-- What VecWritten says depends on the context alone, and on the results of the active elements. -/
theorem vecWritten_congr {y : VCtx} {wa : Nat} {op op' : Nat → Nat × VFlags} (h : VecWritten t e y w wa op) (hx : e.vctx t = e.vctx s)
    (hop : ∀ n ∈ e.actives s wa, op n = op' n) : VecWritten s e y w wa op' := by
  have hact : e.actives t wa = e.actives s wa := by rw [Env.actives, Env.actives, hx]
  unfold VecWritten at h ⊢
  rw [hx, hact] at h
  obtain ⟨helems, hout, hflags, hrest⟩ := h
  refine ⟨fun n hn => (helems n hn).trans ?_, hout, hflags.trans ?_, hrest⟩
  · split
    · rename_i hna
      rw [hop n (mem_actives.mpr hna)]
    · rfl
  · rw [List.map_congr_left fun n hn => by rw [hop n hn]]

/-- What a load brings for element n. -/
def Env.loaded (e : Env) (s : State) (f : Fmt) (base : Addr) (idx : Bool) (n : Nat) : Nat × VFlags :=
  (((e.elemAddr s base f.bytes idx n).map fun a => leNat (s.read e.req a f.bytes)).getD 0, {})

theorem SameMemory.read (h : SameMemory s t) (r : Req) (a : Addr) (n : Nat) : t.read r a n = s.read r a n := by
  simp only [State.read, h.readByte]

/-- What the load of the model finds for an active element. -/
theorem found_eq_loaded (hn : n ∈ e.actives s f.bytes) (ht : SameMemory s t) :
    (match (e.elemsAt s base f.bytes idx).find? fun x => x.1 == n with
      | some x => leNat (t.read e.req x.2 f.bytes)
      | none => 0, ({} : VFlags)) = e.loaded s f base idx n := by
  rw [find_elemsAt hn, Env.loaded]
  cases e.elemAddr s base f.bytes idx n with
  | none => rfl
  | some a => exact congrArg (fun l => (leNat l, ({} : VFlags))) (ht.read _ _ _)

/-- A load that reaches its elements. -/
theorem vecIssue_load {func : Nat} {ok : Fmt → Bool} (hi : Issues s i j) (ha : Alone s i) (hw : i.spells 3 0 func = true)
    (hr : i.regBad = false) (hf : Fmt.ofCode (wf i.word 103 100) = some f) (hok : ok f = true)
    (h : Reaches s (envOf s i j) f base idx false) :
    let e := envOf s i j
    ∃ y, vecIssue i func (vecLoadBody idx ok) s = .next (vecDone (s.linesNoted e f base idx false) i (e.actives s f.bytes) y) ∧
      VecWritten s e y f.bytes f.bytes (e.loaded s f base idx) := by
  intro e
  have hout := outsideSpd_linesNoted s e f base idx false
  have hbody : vecLoadBody idx ok e s = _ := (vec_takes (e := e) _ hr hf hok).trans (vecMem_ok h fun t l =>
    e.writeVd t f.bytes f.bytes fun n =>
      (match l.find? fun x => x.1 == n with
        | some x => leNat (t.read e.req x.2 f.bytes)
        | none => 0, {}))
  rw [writeVd_eq, hout.actives] at hbody
  exact ⟨_, vecIssue_vecDone hi ha hw (hout.slotOf i) hbody,
    vecWritten_congr (vecWritten_vdCtx _ _ le_rfl) (hout.vctx e) fun n hn =>
      found_eq_loaded hn (sameMemory_linesNoted s e f base idx false)⟩

/-! ### Stores -/

/-- An instruction that leaves the slots and the life clock goes on. -/
theorem slotOf_advance (hi : Issues s i j) (hs : slotOf t i = slotOf s i) (hl : t.life = s.life) :
    slotOf (t.advance i.cluster i.slot (slotOf s i).pc.toNat) i = goesOn s.life.clock (slotOf s i) (slotOf s i).pc := by
  unfold slotOf at hs ⊢
  rw [slot_advance _ _ _ _ (by rw [hs]; exact issues_not_idle hi), hs, hl]

/-- What a store writes for an element. -/
def Env.stored (e : Env) (s : State) (f : Fmt) (x : Nat × Addr) : Bytes := leBytes f.bytes ((e.vctx s).elem e.va f.bytes x.1)

theorem stored_length (x : Nat × Addr) : (e.stored s f x).length = f.bytes := leBytes_length _ _

/-- The state once a store has written its elements. -/
def State.elemsStored (s : State) (e : Env) (f : Fmt) (base : Addr) (idx : Bool) : State :=
  (s.linesNoted e f base idx true).writeAll e.req (fun _ => e.stored s f) (e.elemsAt s base f.bytes idx)

theorem outsideSpd_elemsStored (s : State) (e : Env) (f : Fmt) (base : Addr) (idx : Bool) :
    OutsideSpd s (s.elemsStored e f base idx) :=
  (outsideSpd_linesNoted s e f base idx true).trans (outsideSpd_writeAll fun x hx => (elemsAt_fits x hx).1)

theorem vecStoreBody_ok {ok : Fmt → Bool} (hr : e.regBad = false) (hf : Fmt.ofCode (e.f 103 100) = some f) (hok : ok f = true)
    (h : Reaches s e f base idx true) : vecStoreBody idx ok e s = .ok (s.elemsStored e f base idx) := by
  rw [vecStoreBody, vec_takes _ hr hf hok, vecMem_ok h, (outsideSpd_linesNoted s e f base idx true).vctx e]
  rfl

/-- Bytes outside the active elements. -/
def OutsideElems (s : State) (e : Env) (base : Addr) (w : Nat) (idx : Bool) (a : Addr) : Prop :=
  ∀ n ∈ e.actives s w, ∀ b, e.elemAddr s base w idx n = some b → ¬ b.covers w a

theorem rawByte_writeAll_outside {r : Req} {str : State → Nat × Addr → Bytes} {a : Addr} (hlen : ∀ t x, (str t x).length = w)
    (ha : realAddr a) (hout : OutsideElems s e base w idx a) : (t.writeAll r str (e.elemsAt s base w idx)).rawByte a = t.rawByte a :=
  rawByte_writeAll_uncovered hlen elemsAt_fits ha fun x hx => hout x.1 (mem_elemsAt.mp hx).1 x.2 (mem_elemsAt.mp hx).2

theorem rawByte_elemsStored_outside {a : Addr} (ha : realAddr a) (hout : OutsideElems s e base f.bytes idx a) :
    (s.elemsStored e f base idx).rawByte a = s.rawByte a := by
  refine (rawByte_writeAll_outside (s := s) (fun _ => stored_length) ha hout).trans ?_
  exact (sameMemory_linesNoted s e f base idx true).sameStore.1 a

/-- A byte that no higher-numbered element names holds the element's. -/
theorem rawByte_elemsStored {b : Addr} {k : Nat} (hn : n ∈ e.actives s f.bytes) (hb : e.elemAddr s base f.bytes idx n = some b)
    (hk : k < f.bytes) (hlast : ∀ m ∈ e.actives s f.bytes, n < m → ∀ b', e.elemAddr s base f.bytes idx m = some b' →
      ¬ b'.covers f.bytes (b.plus k)) :
    (s.elemsStored e f base idx).rawByte (b.plus k) =
      if s.mayAccess e.req (b.plus k) true then (e.stored s f (n, b)).getD k 0 else s.rawByte (b.plus k) := by
  have hsame := (sameMemory_linesNoted s e f base idx true).sameStore
  obtain ⟨l₁, l₂, hl, -, hafter⟩ := elemsAt_split (mem_elemsAt.mpr ⟨hn, hb⟩ : (n, b) ∈ e.elemsAt s base f.bytes idx)
  have hmem : ∀ y ∈ (n, b) :: l₂, y ∈ e.elemsAt s base f.bytes idx := fun y hy => hl ▸ List.mem_append_right l₁ hy
  rw [State.elemsStored, hl, rawByte_writeAll_last (x := (n, b)) (fun _ => stored_length)
    (fun y hy => elemsAt_fits y (hmem y hy)) hk, hsame.1, hsame.2]
  intro y hy
  have hy' := mem_elemsAt.mp (hmem y (List.mem_cons_of_mem _ hy))
  exact hlast y.1 hy'.1 (hafter y hy) y.2 hy'.2

/-! ### Scatter-add -/

/-- What scatter-add makes of an element at its address: the sum with what is read there. -/
def Env.scatAdd (e : Env) (s : State) (f : Fmt) (t : State) (x : Nat × Addr) : Nat × VFlags :=
  let old := leNat (t.read e.req x.2 f.bytes)
  let v := (e.vctx s).elem e.va f.bytes x.1
  if f.isInt then opIadd f old v 0 else opAdd f old v 0

/-- What it writes there. -/
def Env.scatBytes (e : Env) (s : State) (f : Fmt) (t : State) (x : Nat × Addr) : Bytes := leBytes f.bytes (e.scatAdd s f t x).1

theorem scatBytes_length (t : State) (x : Nat × Addr) : (e.scatBytes s f t x).length = f.bytes := leBytes_length _ _

/-- The state once it has written its elements. -/
def State.elemsAdded (s : State) (e : Env) (f : Fmt) (base : Addr) : State :=
  (s.linesNoted e f base true true).writeAll e.req (e.scatBytes s f) (e.elemsAt s base f.bytes true)

theorem outsideSpd_elemsAdded (s : State) (e : Env) (f : Fmt) (base : Addr) : OutsideSpd s (s.elemsAdded e f base) :=
  (outsideSpd_linesNoted s e f base true true).trans (outsideSpd_writeAll fun x hx => (elemsAt_fits x hx).1)

/-- One element added, with its flags. -/
def Env.scatStep (e : Env) (s : State) (f : Fmt) (p : State × VFlags) (x : Nat × Addr) : State × VFlags :=
  (p.1.write e.req x.2 (e.scatBytes s f p.1 x), p.2.or (e.scatAdd s f p.1 x).2)

/-- The flags that gather along the way do not touch what is written. -/
theorem foldl_scatStep_fst (s : State) (l : List (Nat × Addr)) (p : State × VFlags) :
    (l.foldl (e.scatStep s f) p).1 = p.1.writeAll e.req (e.scatBytes s f) l := by
  induction l generalizing p with
  | nil => rfl
  | cons x l ih => exact ih _

/-- The state that scatter-add leaves: its elements added, and their flags where it had any. -/
def State.scatDone (s : State) (e : Env) (f : Fmt) (base : Addr) : State :=
  let u := s.elemsAdded e f base
  if e.elemsAt s base f.bytes true = [] then u
  else
    let r := (e.elemsAt s base f.bytes true).foldl (e.scatStep s f) (s.linesNoted e f base true true, {})
    e.setVctx u ((e.vctx u).addFlags r.2)

theorem vecScataddBody_ok (hr : e.regBad = false) (hf : Fmt.ofCode (e.f 103 100) = some f) (hok : okGather f = true)
    (h : Reaches s e f base true true) : vecScataddBody e s = .ok (s.scatDone e f base) := by
  have hfold : ((e.elemsAt s base f.bytes true).foldl (e.scatStep s f) (s.linesNoted e f base true true, {})).1 =
      s.elemsAdded e f base := foldl_scatStep_fst s _ _
  rw [vecScataddBody, vec_takes _ hr hf hok, vecMem_ok h, (outsideSpd_linesNoted s e f base true true).vctx e]
  refine congrArg Ans.ok ?_
  unfold State.scatDone
  dsimp only
  split
  · rename_i hnil
    rw [State.elemsAdded, hnil]
    rfl
  · rw [← hfold]
    rfl

/-- Everything but the flags of its context is as the additions leave it. -/
theorem scatDone_keeps (s : State) (e : Env) (f : Fmt) (base : Addr) :
    let u := s.elemsAdded e f base
    let t := s.scatDone e f base
    (∀ a, t.rawByte a = u.rawByte a) ∧ t.mem = u.mem ∧ t.sec = u.sec ∧ t.lnk = u.lnk ∧ t.life = u.life ∧
      (∀ k, t.slot e.c.val k = u.slot e.c.val k) ∧ (e.vctx t).v = (e.vctx s).v := by
  intro u t
  by_cases h : e.elemsAt s base f.bytes true = []
  · have ht : t = u := if_pos h
    rw [ht]
    exact ⟨fun _ => rfl, rfl, rfl, rfl, rfl, fun _ => rfl, congrArg VCtx.v ((outsideSpd_elemsAdded s e f base).vctx e)⟩
  · have ht : t = e.setVctx u _ := if_neg h
    rw [ht]
    refine ⟨(sameMemory_modClu _ _ _ rfl rfl).sameStore.1, rfl, rfl, rfl, rfl, fun k => State.slot_setVctx .., ?_⟩
    rw [Env.vctx, Env.setVctx, State.vctx_setVctx, (outsideSpd_elemsAdded s e f base).vctx e]
    rfl

theorem rawByte_elemsAdded_outside {a : Addr} (ha : realAddr a) (hout : OutsideElems s e base f.bytes true a) :
    (s.elemsAdded e f base).rawByte a = s.rawByte a := by
  refine (rawByte_writeAll_outside (s := s) scatBytes_length ha hout).trans ?_
  exact (sameMemory_linesNoted s e f base true true).sameStore.1 a

/-- An element whose bytes no other one names: they hold what was read there plus the element. -/
theorem rawByte_elemsAdded {b : Addr} {k : Nat} (hn : n ∈ e.actives s f.bytes) (hb : e.elemAddr s base f.bytes true n = some b)
    (hk : k < f.bytes) (hapart : ∀ m ∈ e.actives s f.bytes, m ≠ n → ∀ b', e.elemAddr s base f.bytes true m = some b' →
      b.a + f.bytes ≤ b'.a ∨ b'.a + f.bytes ≤ b.a) (hset : ∀ k, k < f.bytes → Settled s (b.plus k)) :
    (s.elemsAdded e f base).rawByte (b.plus k) =
      if s.mayAccess e.req (b.plus k) true then (e.scatBytes s f s (n, b)).getD k 0 else s.rawByte (b.plus k) := by
  have hsame := sameMemory_linesNoted s e f base true true
  have hfits := elemAddr_fits hb
  obtain ⟨l₁, l₂, hl, hbefore, hafter⟩ := elemsAt_split (mem_elemsAt.mpr ⟨hn, hb⟩ : (n, b) ∈ e.elemsAt s base f.bytes true)
  have hin₁ : ∀ y ∈ l₁, y ∈ e.elemsAt s base f.bytes true := fun y hy => hl ▸ List.mem_append_left _ hy
  have hin₂ : ∀ y ∈ (n, b) :: l₂, y ∈ e.elemsAt s base f.bytes true := fun y hy => hl ▸ List.mem_append_right l₁ hy
  have hfree (y : Nat × Addr) (hy : y ∈ e.elemsAt s base f.bytes true) (hne : y.1 ≠ n) (q : Nat) (hq : q < f.bytes) :
      ¬ y.2.covers f.bytes (b.plus q) := by
    rintro ⟨-, hlo, hhi⟩
    have hy' := mem_elemsAt.mp hy
    have := hapart y.1 hy'.1 hne y.2 hy'.2
    simp only [Addr.plus] at hlo hhi
    omega
  have hread : ((s.linesNoted e f base true true).writeAll e.req (e.scatBytes s f) l₁).read e.req b f.bytes =
      s.read e.req b f.bytes := by
    refine List.map_congr_left fun q hq => ?_
    have hq' : q < f.bytes := List.mem_range.mp hq
    have hset' : Settled (s.linesNoted e f base true true) (b.plus q) :=
      (hset q hq').imp (hsame.lineValid _).trans (hsame.sameStore.1 _).trans
    rw [readByte_writeAll_uncovered scatBytes_length (fun y hy => elemsAt_fits y (hin₁ y hy)) e.req (hfits.real hq')
      (fun y hy => hfree y (hin₁ y hy) (hbefore y hy).ne q hq') hset', hsame.readByte]
  rw [State.elemsAdded, hl, rawByte_writeAll_last (x := (n, b)) scatBytes_length (fun y hy => elemsAt_fits y (hin₂ y hy)) hk
    fun y hy => hfree y (hin₂ y (List.mem_cons_of_mem _ hy)) (hafter y hy).ne' k hk, hsame.sameStore.1, hsame.sameStore.2,
    Env.scatBytes, Env.scatAdd, hread]
  rfl

/-! ### The obligation -/

/-- The contiguous and the indexed load. -/
theorem load_vecIssue {cmd : Issue → Instr} {ok : Bool}
    (h : (cmd, ok) = if idx then (Instr.vecGather, okGather f) else (Instr.vecLd, okInput f)) :
    ∃ func okf, okf f = ok ∧ ∀ i, (cmd i).wf = i.spells 3 0 func ∧ ∀ s, exec (cmd i) s = vecIssue i func (vecLoadBody idx okf) s := by
  cases idx <;> obtain ⟨rfl, rfl⟩ := Prod.mk.inj h
  · exact ⟨_, okInput, rfl, fun _ => ⟨rfl, fun _ => rfl⟩⟩
  · exact ⟨_, okGather, rfl, fun _ => ⟨rfl, fun _ => rfl⟩⟩

/-- The contiguous and the indexed store. -/
theorem store_vecIssue {cmd : Issue → Instr} {ok : Bool}
    (h : (cmd, ok) = if idx then (Instr.vecScatter, okGather f) else (Instr.vecSt, okWritten f)) :
    ∃ func okf, okf f = ok ∧ ∀ i, (cmd i).wf = i.spells 3 0 func ∧ ∀ s, exec (cmd i) s = vecIssue i func (vecStoreBody idx okf) s := by
  cases idx <;> obtain ⟨rfl, rfl⟩ := Prod.mk.inj h
  · exact ⟨_, okWritten, rfl, fun _ => ⟨rfl, fun _ => rfl⟩⟩
  · exact ⟨_, okGather, rfl, fun _ => ⟨rfl, fun _ => rfl⟩⟩

/-- Settles O13: loads read, stores and scatter-add write the addresses of the active elements in ascending order, and nothing else. -/
theorem vectorMemoryResult : Obligations.VectorMemoryResult := by
  refine ⟨fun s i j f base idx hi ha hr hb hf => ?_, fun s i j f base hi ha hw hr hb hf hok => ?_⟩
  · intro e x w at' act addrs hx hd hin
    refine ⟨fun cmd ok hcmd hw hok hz => ?_, fun cmd ok hcmd hw hok hz => ?_⟩
    · have h : Reaches s e f base idx false := ⟨hb, hx, hd, hin, hz⟩
      obtain ⟨func, okf, rfl, hload⟩ := load_vecIssue hcmd
      rw [(hload i).2]
      exact vecIssue_load hi ha ((hload i).1.symm.trans hw) hr hf hok h
    · have h : Reaches s e f base idx true := ⟨hb, hx, hd, hin, hz⟩
      obtain ⟨func, okf, rfl, hstore⟩ := store_vecIssue hcmd
      have hout := outsideSpd_elemsStored s e f base idx
      have hadvance := (sameMemory_advance (s.elemsStored e f base idx) i.cluster i.slot (slotOf s i).pc.toNat).sameStore.1
      rw [(hstore i).2]
      refine ⟨_, vecIssue_ok hi ha ((hstore i).1.symm.trans hw) (vecStoreBody_ok hr hf hok h),
        slotOf_advance hi (hout.slotOf i) hout.life, (State.vctx_setSlot ..).trans (hout.vctx e), hout.mem, hout.sec, hout.lnk,
        hout.var, hout.upd, hout.bars, fun a hreal hfree => ?_, fun n hn b k hbn hk hlast => ?_⟩
      · exact (hadvance a).trans (rawByte_elemsStored_outside hreal hfree)
      · exact (hadvance _).trans (rawByte_elemsStored hn hbn hk fun m hm hnm b' hb' hc => hlast m hm hnm b' hb' hc.2)
  · intro e x w at' act hx hd hin hz
    have h : Reaches s e f base true true := ⟨hb, hx, hd, hin, hz⟩
    obtain ⟨hraw, hmem, hsec, hlnk, hlife, hslot, hv⟩ := scatDone_keeps s e f base
    have hout := outsideSpd_elemsAdded s e f base
    have hadvance := (sameMemory_advance (s.scatDone e f base) i.cluster i.slot (slotOf s i).pc.toNat).sameStore.1
    have hbyte (a : Addr) := (hadvance a).trans (hraw a)
    refine ⟨_, vecIssue_ok hi ha hw (vecScataddBody_ok hr hf hok h),
      slotOf_advance hi ((hslot _).trans (hout.slotOf i)) (hlife.trans hout.life),
      (congrArg VCtx.v (State.vctx_setSlot ..)).trans hv, hmem.trans hout.mem, hsec.trans hout.sec,
      hlnk.trans hout.lnk, fun a hreal hfree => ?_, fun n hn b hbn hapart hset k hk => ?_⟩
    · exact (hbyte a).trans (rawByte_elemsAdded_outside hreal hfree)
    · exact (hbyte _).trans (rawByte_elemsAdded hn hbn hk hapart hset)

end Sys2Proof.Machine
end

section
/-! PROOFS. Instruction streams (chapter 05), the header: instructions that their predicate leaves out, and those that wait for what is
outstanding in their slot. -/

namespace Sys2Proof.Machine

open Sys2Proof Sys2Proof.Safety

variable {s : State} {i : Issue} {j : Job} {e : Env}

/-- An instruction that must wait for its slot (05 R107, R124): its ord bit is set and something is outstanding, or no tracked range is
left. -/
def MustWait (y : Slot) (w : W128) : Prop := wf w 115 115 = 1 ∧ y.out ≠ [] ∨ y.full = true

/-- An instruction whose own part does not run: its predicate leaves it out, or it must wait. -/
def Withheld (s : State) (i : Issue) : Prop := selected (slotOf s i) i.word = false ∨ MustWait (slotOf s i) i.word

/-- A slot whose instruction is withheld has no vector operation ready. -/
theorem vecWants_of_withheld (h : Withheld s i) : s.vecWants i.cluster i.slot j i.word = false := by
  unfold Withheld MustWait slotOf at h
  rcases h with h | ⟨hord, hout⟩ | h
  · simp [State.vecWants, h]
  · simp [State.vecWants, hord, List.isEmpty_eq_false_iff.mpr hout]
  · simp [State.vecWants, h]

/-- So it does not go through the arbiter of the vector unit (05 R127). -/
theorem vecIssue_withheld (h : Withheld s i) (func : Nat) (body : Env → State → Ans) :
    vecIssue i func body s = .next (s.issue i (rowCode 3 0 func) body) := by
  unfold vecIssue
  refine if_pos ?_
  cases s.job (s.slot i.cluster.val i.slot.val).tag <;> simp [vecWants_of_withheld h]

/-- Every stream instruction that is withheld issues the row that its well-formedness names. -/
theorem withheld_issuesRow {cmd : Issue → Instr} (h : cmd ∈ scalarCommands ++ vectorCommands) : IssuesRowWhen Withheld cmd := by
  rcases List.mem_append.mp h with h | h
  · obtain ⟨cls, op, sub, body, hi⟩ := scalar_issuesRow cmd h
    exact ⟨cls, op, sub, body, fun i => ⟨(hi i).1, fun s _ => (hi i).2 s trivial⟩⟩
  · obtain ⟨func, body, hv⟩ := vector_vecIssue cmd h
    exact ⟨3, 0, func, body, fun i => ⟨(hv i).1, fun s hh => ((hv i).2 s).trans (vecIssue_withheld hh func body)⟩⟩

/-- The slot stands waiting for a hazard. -/
theorem run_waits (body : Env → State → Ans) (h : MustWait e.y e.w) : s.run e body = s.setSlot e.c.val e.k.val e.y.stall := if_pos h

/-- The slot goes on without the instruction's own part. -/
theorem run_skips (body : Env → State → Ans) (h : ¬ MustWait e.y e.w) (hs : selected e.y e.w = false) :
    s.run e body = s.advance e.c e.k e.y.pc.toNat := (if_neg h).trans (if_pos (by simp [hs]))

/-- Settles O6: a withheld instruction reaches `State.run`, which looks at what it must wait for and then at its predicate. -/
theorem predicateAndOrder : Obligations.PredicateAndOrder := by
  refine ⟨fun s i j hf hsel hord hfull cmd hc hw => ?_, fun s i j hf hwait cmd hc hw => ?_⟩
  · obtain ⟨cls, op, sub, body, hx⟩ := withheld_issuesRow hc
    have ⟨_, hready, _⟩ := hf
    have hgo : ¬ MustWait (slotOf s i) i.word := by
      rintro (⟨h, hout⟩ | h)
      · exact hout (hord h)
      · simp [hfull] at h
    rw [(hx i).2 s (.inl hsel), issue_fetched body hf ((hx i).1.symm.trans hw), run_skips body hgo hsel]
    exact congrArg Host.Outcome.next (advance_self (Slot.ready_not_idle _ hready))
  · obtain ⟨cls, op, sub, body, hx⟩ := withheld_issuesRow hc
    rw [(hx i).2 s (.inr hwait), issue_fetched body hf ((hx i).1.symm.trans hw), run_waits (e := envOf s i j) body hwait]
    rfl

end Sys2Proof.Machine
end

section
/-! PROOFS. Instruction streams (chapter 05), CTRL: the instructions that write one register of their slot, control flow, and the
completion of instructions and streams. -/

namespace Sys2Proof.Machine

open Sys2Proof Sys2Proof.Safety

variable {s t : State} {i : Issue} {j : Job} {e : Env} {body : Env → State → Ans} {cls op sub : Nat}

/-! ### Registers of a slot -/

@[simp] theorem Slot.setX_state (y : Slot) (n : Nat) (v : W32) : (y.setX n v).state = y.state := by
  unfold Slot.setX
  split <;> rfl

@[simp] theorem Slot.setP_state (y : Slot) (n : Nat) (v : Bool) : (y.setP n v).state = y.state := by
  unfold Slot.setP
  split <;> rfl

/-! ### What an instruction that changes its slot alone comes to -/

/-- It goes on past the change, on the state `t` that its own part left. -/
theorem issue_modSlot {f : Slot → Slot} (hi : Issues s i j) (hw : i.spells cls op sub = true) (ht : slotOf t i = slotOf s i)
    (hf : (f (slotOf s i)).state ≠ .idle) (hb : body (envOf s i j) s = .ok (t.modSlot i.cluster.val i.slot.val f)) :
    s.issue i (rowCode cls op sub) body = after t i f := by
  rw [issue_ok hi hw hb, ← ht]
  exact advance_modSlot f (by rwa [ht])

/-- It sets one register. -/
theorem issue_setReg {f : Slot → Slot} (hi : Issues s i j) (hw : i.spells cls op sub = true)
    (hf : ∀ y : Slot, (f y).state = y.state) (hb : body (envOf s i j) s = .ok ((envOf s i j).modSlot s f)) :
    s.issue i (rowCode cls op sub) body = after s i f :=
  issue_modSlot hi hw rfl (by rw [hf]; exact issues_not_idle hi) hb

/-- It sets the pc itself. -/
theorem issue_jump (hi : Issues s i j) (hw : i.spells cls op sub = true) (hb : body (envOf s i j) s = .jump t) :
    s.issue i (rowCode cls op sub) body = t := by
  rw [issue_issues body hi hw, hb]

/-- Settles O7: each of them changes its slot alone, and goes on. -/
theorem scalarInstructionsResult : Obligations.ScalarInstructionsResult := by
  intro s i j hi y f
  refine ⟨fun hw => ?nop, fun hw => ?endOp, fun hw => ?setx, fun hw => ?addx, fun hw => ?mulx, fun hw => ?below, fun hw => ?equal,
    fun hw => ?and, fun hw => ?or⟩
  case nop => exact congrArg Host.Outcome.next ((issue_ok hi hw rfl).trans (advance_self (issues_not_idle hi)))
  case endOp => exact congrArg Host.Outcome.next (issue_modSlot hi hw rfl (by simp) rfl)
  case setx | addx | mulx => exact congrArg Host.Outcome.next (issue_setReg hi hw (fun _ => Slot.setX_state _ _ _) rfl)
  case below | equal | and | or => exact congrArg Host.Outcome.next (issue_setReg hi hw (fun _ => Slot.setP_state _ _ _) rfl)

/-! ### Loads of registers (05 R120) -/

/-- The read of a load meets nothing: its address is good, no earlier write of the slot is outstanding there, and it meets neither
poison nor a parity error. -/
structure LoadsClean (s : State) (e : Env) (len : Nat) (a : Addr) : Prop where
  reads : e.readBad = []
  addr : mAddr s e.c e.y (e.f 63 32) len len = .ok a
  hazard : e.y.hazard [a.rng len false] none = false
  poison : poisonCheck s e.req a len = .ok ()

theorem Env.load_clean {len : Nat} {a : Addr} (h : LoadsClean s e len a) (k : Nat → State → Ans) :
    e.load s len k = k (leNat (s.read e.req a len)) (s.noteMiss e.who a len false) := by
  simp [Env.load, h.addr, h.hazard, h.poison, h.reads, Ans.of, Ans.after, State.load]
  rfl

/-- A load that sets one register with what it has read. -/
theorem issue_load {len : Nat} {a : Addr} {g : Nat → Slot → Slot} (hi : Issues s i j) (hw : i.spells cls op sub = true)
    (h : LoadsClean s (envOf s i j) len a) (hg : ∀ v y, (g v y).state = y.state)
    (hb : body (envOf s i j) s = (envOf s i j).load s len fun v t => .ok ((envOf s i j).modSlot t (g v))) :
    s.issue i (rowCode cls op sub) body =
      after (s.noteMiss (envOf s i j).who a len false) i (g (leNat (s.read j.who.req a len))) :=
  issue_modSlot hi hw ((sameStreams_noteMiss _ _ _ _ _).slot _ _) (by rw [hg]; exact issues_not_idle hi)
    (hb.trans (Env.load_clean h _))

/-- Settles O9: each of them reads its operand, whose misses count, and sets one register. -/
theorem registerLoadsResult : Obligations.RegisterLoadsResult := by
  intro s i j hi hbad y f reads v done a
  have clean {len : Nat} : reads len a → LoadsClean s (envOf s i j) len a := fun ⟨haddr, hhaz, hpoison⟩ =>
    ⟨hbad, haddr, hhaz, hpoison⟩
  refine ⟨fun hw h => ?ldtd, fun hw h => ?ldbase, fun hw h => ?ldscl, fun hw h => ?ldx, fun hw h => ?occupancy,
    fun hw h => ?routerCount⟩
  case ldtd =>
    exact congrArg Host.Outcome.next
      (issue_load (g := fun v z => { z with t := mset 0 z.t (f 111 106) (BitVec.ofNat 64 v) }) hi hw (clean h) (fun _ _ => rfl) rfl)
  case ldbase =>
    exact congrArg Host.Outcome.next
      (issue_load (g := fun v z => { z with b := mset 0 z.b (f 111 109) (BitVec.ofNat 48 v) }) hi hw (clean h) (fun _ _ => rfl) rfl)
  case ldscl =>
    exact congrArg Host.Outcome.next
      (issue_load (g := fun v z => { z with s := mset 0 z.s (f 111 107) (BitVec.ofNat 48 v) }) hi hw (clean h) (fun _ _ => rfl) rfl)
  case ldx =>
    exact congrArg Host.Outcome.next
      (issue_load (g := fun v z => z.setX (f 111 108) (BitVec.ofNat 32 v)) hi hw (clean h) (fun _ _ => Slot.setX_state _ _ _) rfl)
  case occupancy =>
    exact congrArg Host.Outcome.next (issue_load (g := fun v z => z.setP (f 111 109) (v.testBit (f 4 0))) hi hw (clean h)
      (fun _ _ => Slot.setP_state _ _ _) rfl)
  case routerCount =>
    exact congrArg Host.Outcome.next (issue_load (g := fun v z => z.setP (f 111 109) (decide (f 31 0 < v))) hi hw (clean h)
      (fun _ _ => Slot.setP_state _ _ _) rfl)

/-! ### Control flow (05 R119) -/

/-- The address that a BR names. -/
def Env.target (e : Env) : Int := (e.y.pc.toNat : Int) + 16 * sext 32 (e.f 111 80)

/-- It lies inside the innermost active body. -/
def Env.targetInside (e : Env) : Prop := ∀ l ∈ e.y.loops.head?, (l.first : Int) ≤ e.target ∧ e.target < (l.stop : Nat)

theorem brBody_eq [Decidable e.targetInside] : brBody e s =
    if e.targetInside then
      .jump (e.modSlot s fun y => { (y.noteFirst s.life.clock).unstall with pc := BitVec.ofInt 48 e.target })
    else .fail { code := Ev.seqLoop } := by
  unfold brBody
  cases hl : e.y.loops with
  | nil => simp [Env.targetInside, hl, Env.target]
  | cons l r =>
    have hin : e.targetInside ↔ (l.first : Int) ≤ e.target ∧ e.target < (l.stop : Nat) := by simp [Env.targetInside, hl]
    by_cases h : e.targetInside
    · rw [if_pos h, if_neg (by simpa [Env.target] using hin.mp h)]
      rfl
    · rw [if_neg h, if_pos (by simpa [Env.target, imp_iff_not_or] using mt hin.mpr h)]

/-- The body that a LOOP enters. -/
def Env.loop (e : Env) : Loop := ⟨e.y.pc.toNat + 16, e.f 103 88, e.y.rx (e.f 111 108), 0, e.f 107 104⟩

/-- It ends inside the innermost active body. -/
def Env.loopNested (e : Env) : Prop := ∀ l ∈ e.y.loops.head?, e.loop.stop ≤ l.stop

theorem loopBody_eq [Decidable e.loopNested] : loopBody e s =
    if e.loopNested then
      if e.loop.left = 0 then .jump (e.modSlot s fun y => (y.noteFirst s.life.clock).unstall.goTo e.loop.stop)
      else if 4 ≤ e.y.loops.length then .fail { code := Ev.seqLoop }
      else .jump (e.modSlot s fun y => { ((y.noteFirst s.life.clock).unstall.setX (e.f 107 104) 0) with
        pc := BitVec.ofNat 48 e.loop.first, loops := e.loop :: y.loops })
    else .fail { code := Ev.seqLoop } := by
  unfold loopBody
  cases hl : e.y.loops with
  | nil =>
    rw [if_pos (show e.loopNested by simp [Env.loopNested, hl])]
    rfl
  | cons l r =>
    have hin : e.loopNested ↔ e.loop.stop ≤ l.stop := by simp [Env.loopNested, hl]
    by_cases h : e.loopNested
    · rw [if_pos h, if_neg (by simpa [Env.loop] using hin.mp h)]
      rfl
    · rw [if_neg h, if_pos (by simpa [Env.loop] using mt hin.mpr h)]

/-- Settles O8: BR and LOOP set the pc themselves or end the job, and SET always ends it. -/
theorem controlFlowResult : Obligations.ControlFlowResult := by
  classical
  intro s i j hi y f target first stop put bad inside nested
  have hbr := brBody_eq (e := envOf s i j) (s := s)
  have hloop := loopBody_eq (e := envOf s i j) (s := s)
  refine ⟨fun hw h => ?br, fun hw h => ?brOut, fun hw h h0 => ?skip, fun hw h h0 h4 => ?enter, fun hw h => ?breach, fun hw => ?set⟩
  case br => exact congrArg Host.Outcome.next (issue_jump hi hw (hbr.trans (if_pos h)))
  case brOut => exact congrArg Host.Outcome.next (issue_fail hi hw (hbr.trans (if_neg h)))
  case skip => exact congrArg Host.Outcome.next (issue_jump hi hw ((hloop.trans (if_pos h)).trans (if_pos h0)))
  case enter =>
    exact congrArg Host.Outcome.next
      (issue_jump hi hw (((hloop.trans (if_pos h)).trans (if_neg h0.ne')).trans (if_neg (Nat.not_le.mpr h4))))
  case breach =>
    refine congrArg Host.Outcome.next (issue_fail hi hw (hloop.trans ?_))
    by_cases hn : (envOf s i j).loopNested
    · obtain ⟨h0, h4⟩ := h.resolve_left (not_not_intro hn)
      exact (if_pos hn).trans ((if_neg h0.ne').trans (if_pos h4))
    · exact if_neg hn
  case set => exact congrArg Host.Outcome.next (issue_fail hi hw rfl)

/-! ### Completion (05 R118, R124) -/

/-- The entry that INSTR_COMPLETE names. -/
theorem find_outstanding {y : Slot} {o : Outst} (ho : o ∈ y.out) (hk : o.kind = .move ∨ o.kind = .route)
    (hone : ∀ q ∈ y.out, q.id = o.id → q = o) :
    (y.out.find? fun q => q.id == o.id && (q.kind == .move || q.kind == .route)) = some o := by
  cases hf : y.out.find? fun q => q.id == o.id && (q.kind == .move || q.kind == .route) with
  | none => exact absurd (List.find?_eq_none.mp hf o ho) (by rcases hk with hk | hk <;> simp [hk])
  | some q =>
    have hq := List.find?_some hf
    simp only [Bool.and_eq_true, beq_iff_eq] at hq
    rw [hone q (List.mem_of_find?_eq_some hf) hq.1]

/-- No live job of the slot's tag lists an idle slot among its running streams. -/
theorem slotIdle_not_live (c : CId) (k : SId) : ∀ j ∈ (s.slotIdle c k).jobs.list, j.admitted = true → j.phase ≠ .ended →
    j.tag = (s.slot c.val k.val).tag → (c, k) ∉ j.live := by
  intro j hj ha hp ht
  obtain ⟨j₀, -, rfl⟩ := List.mem_map.mp hj
  by_cases hlive : (j₀.admitted && j₀.tag == (s.slot c.val k.val).tag && j₀.phase != .ended) = true
  · rw [if_pos hlive]
    simp
  · rw [if_neg hlive] at ha hp ht
    simp [ha, hp, ht] at hlive

/-- Settles O22: the entry that completes is found by its id, and a slot that has drained becomes idle. -/
theorem completionResult : Obligations.CompletionResult := by
  intro s c k y
  refine ⟨fun o ho hk hone => ?_, fun hd hout => ⟨s.slotIdle c k, congrArg Host.Outcome.next (if_pos ⟨hd, hout⟩), ?_⟩⟩
  · have hfind := find_outstanding ho hk hone
    refine congrArg Host.Outcome.next ?_
    unfold instrComplete
    simp only [y] at hfind
    simp only [hfind]
    cases o.sem <;> rfl
  · have hslot : (s.slotIdle c k).slot c.val k.val =
        { s.slot c.val k.val with state := .idle, wait := .none, waitIndex := 0, loops := [], out := [], tag := 0 } :=
      State.slot_setSlot _ _ _ _
    exact ⟨by rw [hslot], by rw [hslot], rfl, rfl, rfl, slotIdle_not_live c k⟩

end Sys2Proof.Machine
end

section
/-! PROOFS. Instruction streams (chapter 05), data: instructions that stay outstanding, and rows that are written here or sent to another
node. -/

namespace Sys2Proof.Machine

open Sys2Proof Sys2Proof.Safety

variable {s t u : State} {i : Issue} {j : Job} {e : Env} {x : Tile} {rows : Nat → Bytes}

/-! ### What a message of this node turns on -/

/-- The chain, the outbox and the channel of every job's data are the same in two states. -/
structure SameSending (s t : State) : Prop where
  lnk : t.lnk = s.lnk
  out : t.out = s.out
  dataVc : ∀ g, t.dataVc g = s.dataVc g

theorem SameSending.of_eq (hl : t.lnk = s.lnk) (ho : t.out = s.out) (hj : t.jobs = s.jobs) : SameSending s t :=
  ⟨hl, ho, fun _ => by rw [State.dataVc, State.dataVc, hj]⟩

theorem SameSending.refl (s : State) : SameSending s s := .of_eq rfl rfl rfl

theorem SameSending.trans (h : SameSending s t) (k : SameSending t u) : SameSending s u :=
  ⟨k.lnk.trans h.lnk, k.out.trans h.out, fun g => (k.dataVc g).trans (h.dataVc g)⟩

theorem sameSending_raise (s : State) (c : W16) (i : EvInfo) : SameSending s (s.raise c i) := by
  obtain ⟨v, h⟩ := raise_only s c i
  rw [h]
  exact .of_eq rfl rfl rfl

theorem sameSending_countMiss (s : State) (a : Addr) : SameSending s (s.countMiss a) := by
  unfold State.countMiss
  split <;> exact satEvent_keeps (fun _ _ _ h => h.trans (sameSending_raise _ _ _)) _ _ _ (.of_eq rfl rfl rfl)

/-- The mark of a job's first miss does not touch the channel of its data. -/
theorem sameSending_missed (s : State) (t : Tag) : SameSending s (s.modJob t fun j => { j with missed := true }) := by
  refine ⟨rfl, rfl, fun g => ?_⟩
  have hfind : ((s.modJob t fun j => { j with missed := true }).jobs.list.find? fun j => j.admitted && j.tag == g) =
      (s.jobs.list.find? fun j => j.admitted && j.tag == g).map fun j =>
        if j.admitted && j.tag == t && j.phase != .ended then { j with missed := true } else j := by
    rw [State.modJob, State.modJobs, List.find?_map]
    congr 2
    funext j
    simp only [Function.comp_apply]
    split <;> rfl
  rw [State.dataVc, State.dataVc, hfind]
  cases s.jobs.list.find? fun j => j.admitted && j.tag == g with
  | none => rfl
  | some j =>
    simp only [Option.map_some]
    split <;> rfl

theorem sameSending_noteMiss (s : State) (w : Who) (a : Addr) (n : Nat) (wr : Bool) : SameSending s (s.noteMiss w a n wr) := by
  unfold State.noteMiss
  split
  · exact .refl s
  · rename_i k l _
    have hcount : SameSending s (foldS s (k :: l) fun s k => s.countMiss ⟨a.dev, 64 * k⟩) :=
      foldS_keeps (p := SameSending s) _ (fun _ _ h => h.trans (sameSending_countMiss _ _)) (k :: l) (.refl s)
    dsimp only
    split
    · split
      · exact hcount
      · exact (hcount.trans (sameSending_missed _ _)).trans (sameSending_raise _ _ _)
    · exact foldS_keeps (p := SameSending s) _ (fun _ _ h => h.trans (sameSending_raise _ _ _)) _ hcount

theorem sameSending_noteReads (s : State) (w : Who) (l : List (Addr × Nat)) : SameSending s (s.noteReads w l) :=
  foldS_keeps (p := SameSending s) _ (fun _ _ h => h.trans (sameSending_noteMiss _ _ _ _ _)) l (.refl s)

/-! ### What a store changes -/

theorem SameStore.refl (s : State) : SameStore s s := ⟨fun _ => rfl, fun _ _ _ => rfl⟩

/-- A write changes the memories alone. -/
theorem write_only (r : Req) (l : Bytes) (a : Addr) (s : State) : ∃ m c, s.write r a l = { s with mem := m, cl := c } := by
  induction l generalizing s a with
  | nil => exact ⟨s.mem, s.cl, rfl⟩
  | cons b l ih =>
    have hbyte : ∃ m c, s.writeByte r a b = { s with mem := m, cl := c } := by
      unfold State.writeByte State.makeValid State.putByte
      split
      · split <;> exact ⟨_, _, rfl⟩
      · exact ⟨s.mem, s.cl, rfl⟩
    obtain ⟨m, c, hb⟩ := hbyte
    obtain ⟨m', c', hl⟩ := ih (a.plus 1) (s.writeByte r a b)
    exact ⟨m', c', by rw [State.write, hl, hb]⟩

/-- A line that leaves the poison list leaves the rest of main memory's block and every other one. -/
theorem unpoison_only (s : State) (r : Req) (a : Addr) (n : Nat) : ∃ m, s.unpoison r a n = { s with mem := m } := by
  unfold State.unpoison
  split
  · refine foldS_keeps (p := fun u => ∃ m, u = { s with mem := m }) _ (fun u k h => ?_) _ ⟨s.mem, rfl⟩
    obtain ⟨m, rfl⟩ := h
    split
    · exact ⟨_, rfl⟩
    · exact ⟨m, rfl⟩
  · exact ⟨s.mem, rfl⟩

theorem sameSending_store (s : State) (w : Who) (a : Addr) (l : Bytes) : SameSending s (s.store w a l) := by
  unfold State.store State.rewrite
  obtain ⟨m, c, hw⟩ := write_only w.req l a (s.noteMiss w a l.length true)
  obtain ⟨m', hu⟩ := unpoison_only ((s.noteMiss w a l.length true).write w.req a l) w.req a l.length
  rw [hu, hw]
  exact (sameSending_noteMiss s w a l.length true).trans (.of_eq rfl rfl rfl)

/-! ### An instruction that stays outstanding (05 R124) -/

/-- The state once an instruction's own part has left `t`: the instruction joins its slot's list, and the slot goes on. -/
def State.leftOut (t s : State) (i : Issue) (j : Job) (kind : OutKind) (rs : List Rng) (sem : Option SemRef) : State :=
  (t.addOut (envOf s i j) kind rs sem none).advance i.cluster i.slot (slotOf s i).pc.toNat

theorem slotOf_leftOut {kind : OutKind} {rs : List Rng} {sem : Option SemRef} (hi : Issues s i j) (ht : SameStreams s t) :
    slotOf (t.leftOut s i j kind rs sem) i = outstanding s.life.clock (slotOf s i) kind rs sem none := by
  have hslot : (t.addOut (envOf s i j) kind rs sem none).slot i.cluster.val i.slot.val =
      { slotOf s i with
        out := (slotOf s i).out ++ [⟨(slotOf s i).nextId, kind, rs, sem, none⟩], nextId := (slotOf s i).nextId + 1 } :=
    (State.slot_setSlot _ _ _ _).trans (by rw [slotOf, ← ht.slot]; rfl)
  unfold State.leftOut
  conv_lhs => rw [slotOf]
  rw [slot_advance _ _ _ _ (by rw [hslot]; exact issues_not_idle hi), hslot, ← ht.life]
  rfl

theorem sameMemory_leftOut (t s : State) (i : Issue) (j : Job) (kind : OutKind) (rs : List Rng) (sem : Option SemRef) :
    SameMemory t (t.leftOut s i j kind rs sem) :=
  (sameMemory_setSlot _ _ _ _).trans (sameMemory_advance _ _ _ _)

/-! ### Rows of bytes -/

/-- A tile as rows of bytes: the bytes of its rows are its elements. -/
def Tile.asBytes (x : Tile) : Tile := { x with fmt := .uint8, cols := x.rowBytes }

@[simp] theorem Tile.asBytes_rowBytes (x : Tile) : x.asBytes.rowBytes = x.rowBytes := by
  change ceilDiv (x.rowBytes * 8) 8 = x.rowBytes
  unfold ceilDiv
  omega

theorem Tile.Lies.asBytes (h : x.Lies) : x.asBytes.Lies :=
  ⟨x.asBytes_rowBytes.le.trans h.pitch, by
    have hext : x.asBytes.extent = x.extent := congrArg (_ + ·) x.asBytes_rowBytes
    rw [hext]
    exact h.space⟩

theorem Tile.Lies.firstRows (h : x.Lies) {m : Nat} (hm : m ≤ x.rows) : (x.firstRows m).Lies := by
  refine ⟨h.pitch, h.space.imp id fun hs => ?_⟩
  have := Nat.mul_le_mul_right x.pitch (Nat.sub_le_sub_right hm 1)
  simp only [Tile.extent, Tile.firstRows, Tile.rowBytes] at *
  omega

theorem packElems_bytes (l : Bytes) : packElems .uint8 (l.map BitVec.toNat) = l := by
  change (l.map BitVec.toNat).flatMap (leBytes 1) = l
  induction l with
  | nil => rfl
  | cons b l ih => simpa [leBytes] using ih

theorem tileStored_asBytes {r : Req} : TileStored s t r x.asBytes rows ↔ TileStored s t r x rows := by
  unfold TileStored
  rw [Tile.asBytes_rowBytes]
  exact Iff.rfl

/-- The rows of a tile stored in order. -/
def State.storeRows (s : State) (w : Who) (x : Tile) (rows : Nat → Bytes) : State :=
  foldS s (List.range x.rows) fun u n => u.store w (x.rowAddr n) (rows n)

theorem tileStored_storeRows (s : State) (w : Who) (hx : x.Lies) (hl : ∀ n, (rows n).length = x.rowBytes) :
    TileStored s (s.storeRows w x rows) w.req x rows := by
  have h := tileStored_foldS_putRow s w hx.asBytes (fun n => (rows n).map BitVec.toNat) fun n => (List.length_map _).trans (hl n)
  have hpack (n : Nat) : packElems x.asBytes.fmt ((rows n).map BitVec.toNat) = rows n := packElems_bytes _
  simp only [State.putRow, hpack] at h
  exact tileStored_asBytes.mp h

theorem sameStreams_storeRows (s : State) (w : Who) (x : Tile) (rows : Nat → Bytes) : SameStreams s (s.storeRows w x rows) :=
  foldS_keeps (p := SameStreams s) _ (fun _ _ h => h.trans (sameStreams_store _ _ _ _)) _ (.refl s)

theorem sameSending_storeRows (s : State) (w : Who) (x : Tile) (rows : Nat → Bytes) : SameSending s (s.storeRows w x rows) :=
  foldS_keeps (p := SameSending s) _ (fun _ _ h => h.trans (sameSending_store _ _ _ _)) _ (.refl s)

theorem mayAccess_storeRows (s : State) (w : Who) (x : Tile) (rows : Nat → Bytes) (r : Req) (a : Addr) (b : Bool) :
    (s.storeRows w x rows).mayAccess r a b = s.mayAccess r a b :=
  foldS_keeps (p := fun u => u.mayAccess r a b = s.mayAccess r a b) _ (fun _ _ h => (mayAccess_store _ _ _ _ _ _).trans h) _ rfl

/-- Two tiles that share no byte, stored one after the other. -/
theorem twoStored_of_tileStored {r : Req} {a b : Tile} {ra rb : Nat → Bytes} (ha : a.Lies) (hb : b.Lies) (hapart : Apart a b)
    (hmay : ∀ p, u.mayAccess r p true = s.mayAccess r p true) (hsu : TileStored s u r a ra) (hut : TileStored u t r b rb) :
    TwoStored s t r a b ra rb := by
  obtain ⟨hsu, hsuOut⟩ := hsu
  obtain ⟨hut, hutOut⟩ := hut
  refine ⟨fun x rows hx n k hn hk => ?_, fun p hp hout => ?_⟩
  · rcases List.mem_cons.mp hx with hx | hx
    · obtain ⟨rfl, rfl⟩ := Prod.mk.inj hx
      rw [hutOut _ (ha.realByte hn hk) fun m q hm hq => hapart n m k q hn hk hm hq]
      exact hsu n k hn hk
    · obtain ⟨rfl, rfl⟩ := Prod.mk.inj (List.mem_singleton.mp hx)
      rw [hut n k hn hk, hmay, hsuOut _ (hb.realByte hn hk) fun m q hm hq => (hapart m n q k hm hq hn hk).symm]
  · rw [hutOut p hp (hout b (by simp)), hsuOut p hp (hout a (by simp))]

/-! ### Rows written here or sent (05 R112, 11 R292) -/

/-- Folds of two updates agree while the states stay where the updates agree. -/
theorem foldS_congr_of_keeps {α : Type} {p : State → Prop} {f g : State → α → State} (hfg : ∀ u a, p u → f u a = g u a)
    (hg : ∀ u a, p u → p (g u a)) (l : List α) (hs : p s) : foldS s l f = foldS s l g := by
  induction l generalizing s with
  | nil => rfl
  | cons a l ih =>
    rw [foldS, List.foldl_cons, hfg s a hs]
    exact ih (hg s a hs)

/-- A fold of updates that each append to the outbox. -/
theorem foldS_appends {α : Type} {f : State → α → State} {g : α → List Out}
    (hf : ∀ o a, f { s with out := o } a = { s with out := o ++ g a }) (l : List α) :
    foldS s l f = { s with out := s.out ++ l.flatMap g } := by
  suffices ∀ o, foldS { s with out := o } l f = { s with out := o ++ l.flatMap g } from this s.out
  induction l with
  | nil => simp [foldS]
  | cons a l ih =>
    intro o
    rw [foldS, List.foldl_cons, hf]
    exact (ih _).trans (by rw [List.flatMap_cons, List.append_assoc])

/-- The rows of a tile put in order, here or on another node. -/
def State.putRows (s : State) (w : Who) (node : Option NodeId) (x : Tile) (rows : Nat → Bytes) : State :=
  foldS s (List.range x.rows) fun u n => u.put w node (x.rowAddr n) (rows n)

theorem put_here {node : Option NodeId} (h : localNode s node = true) (w : Who) (a : Addr) (l : Bytes) :
    s.put w node a l = s.store w a l := by
  unfold State.put
  cases node with
  | none => rfl
  | some n => exact if_pos (by simpa [localNode] using h)

theorem putRows_here {node : Option NodeId} (h : localNode s node = true) (w : Who) (x : Tile) (rows : Nat → Bytes) :
    s.putRows w node x rows = s.storeRows w x rows :=
  foldS_congr_of_keeps (p := fun u => u.lnk = s.lnk) (fun u _ hu => put_here (by rw [localNode, hu]; exact h) _ _ _)
    (fun u _ hu => (sameSending_store u _ _ _).lnk.trans hu) _ rfl

theorem sameStreams_sendTo (s : State) (d : NodeId) (g : Tag) (o : Out) : SameStreams s (s.sendTo d g o) := by
  rcases sendTo_only s d g o with h | ⟨v, l, h⟩ <;> rw [h] <;> exact .of_eq rfl rfl

theorem sameStreams_put (s : State) (w : Who) (node : Option NodeId) (a : Addr) (l : Bytes) : SameStreams s (s.put w node a l) := by
  have hsend (n : NodeId) : SameStreams s (s.sendWrite n w.tag a l) :=
    foldS_keeps (p := SameStreams s) _ (fun _ _ h => h.trans (sameStreams_sendTo _ _ _ _)) _ (.refl s)
  unfold State.put
  split
  · exact sameStreams_store s w a l
  · split
    · exact sameStreams_store s w a l
    · exact hsend _

theorem sameStreams_putRows (s : State) (w : Who) (node : Option NodeId) (x : Tile) (rows : Nat → Bytes) :
    SameStreams s (s.putRows w node x rows) :=
  foldS_keeps (p := SameStreams s) _ (fun _ _ h => h.trans (sameStreams_put _ _ _ _ _)) _ (.refl s)

/-- The messages that carry a string of bytes to another node. -/
def State.writesOf (s : State) (node : NodeId) (t : Tag) (a : Addr) (l : Bytes) : List Out :=
  (pieces 4016 l.length 0 l).map fun q => .write node t (s.dataVc t) (a.plus q.1).msg q.2

theorem sendWrite_routed {node : NodeId} (h : (s.route node).isSome = true) (t : Tag) (a : Addr) (l : Bytes) :
    s.sendWrite node t a l = { s with out := s.out ++ s.writesOf node t a l } :=
  (foldS_appends (g := fun q => [Out.write node t (s.dataVc t) (a.plus q.1).msg q.2]) (fun _ _ => if_pos h) _).trans
    (by rw [← List.map_eq_flatMap]; rfl)

theorem putRows_away {node : NodeId} (hne : node ≠ s.lnk.node) (h : (s.route node).isSome = true) (w : Who) (x : Tile)
    (rows : Nat → Bytes) : s.putRows w (some node) x rows =
      { s with out := s.out ++ (List.range x.rows).flatMap fun n => s.writesOf node w.tag (x.rowAddr n) (rows n) } :=
  foldS_appends (s := s) (f := fun u n => u.put w (some node) (x.rowAddr n) (rows n))
    (fun o _ => (if_neg hne).trans (sendWrite_routed (s := { s with out := o }) h _ _ _)) _

end Sys2Proof.Machine
end

section
/-! PROOFS. Instruction streams (chapter 05), MOVE: COPY, CONV and FILL (R111, R112). -/

namespace Sys2Proof.Machine

open Sys2Proof Sys2Proof.Safety

variable {s t : State} {i : Issue} {j : Job} {e : Env} {src dst x : Tile} {rows : Nat → Bytes} {reads : List (Addr × Nat)}
  {rs : List Rng} {cls op sub : Nat} {body : Env → State → Ans}

/-! ### Operands -/

theorem tile_lies {r : Nat} (h : e.tile s r = .ok x) : x.Lies := tileOf_lies h

theorem tile_rows_pos {r : Nat} (h : e.tile s r = .ok x) : 0 < x.rows := by
  unfold Env.tile tileOf at h
  split at h
  · cases h
  split at h
  · cases h
  dsimp only at h
  split_ifs at h <;> cases h <;> exact Nat.succ_pos _

@[simp] theorem read_length (s : State) (r : Req) (a : Addr) (n : Nat) : (s.read r a n).length = n := by simp [State.read]

theorem rowBytes_eq (hf : src.fmt = dst.fmt) (hc : src.cols = dst.cols) : src.rowBytes = dst.rowBytes := by
  rw [Tile.rowBytes, Tile.rowBytes, hf, hc]

theorem tileFmtOk_ok (h : x.fmt ≠ .run) : tileFmtOk x = .ok () := if_neg h

theorem poisonAll_append {r : Req} {l₁ l₂ : List (Addr × Nat)} (h₁ : poisonAll s r l₁ = .ok ())
    (h₂ : poisonAll s r l₂ = .ok ()) : poisonAll s r (l₁ ++ l₂) = .ok () := by
  induction l₁ with
  | nil => exact h₂
  | cons x l ih =>
    rw [poisonAll] at h₁
    rw [List.cons_append, poisonAll]
    cases hx : poisonCheck s r x.1 x.2 with
    | ok _ =>
      rw [hx] at h₁
      exact ih h₁
    | error _ =>
      rw [hx] at h₁
      cases h₁

/-! ### Destination node (05 Table 5.5) -/

/-- The node that a MOVE names, where it names one. -/
def Env.namedNode (e : Env) : NodeId := BitVec.ofNat 16 (e.f 79 64)

/-- The destination lies on this node. -/
def Env.staysHere (e : Env) (s : State) : Prop := e.f 63 63 = 1 → e.namedNode = s.lnk.node

theorem localNode_moveNode : localNode s e.moveNode = true ↔ e.staysHere s := by
  unfold Env.moveNode Env.staysHere
  split <;> simp_all [localNode, Env.namedNode]

theorem moveNode_away (h : ¬ e.staysHere s) : e.moveNode = some e.namedNode ∧ e.namedNode ≠ s.lnk.node := by
  obtain ⟨hr, hne⟩ := Classical.not_imp.mp h
  exact ⟨if_pos hr, hne⟩

theorem dstRng_here (h : e.staysHere s) : dstRng s e.moveNode dst = [dst.rng true] := if_pos (localNode_moveNode.mpr h)

theorem dstRng_away (h : ¬ e.staysHere s) : dstRng s e.moveNode dst = [] := if_neg (mt localNode_moveNode.mp h)

/-! ### The issue of a MOVE -/

/-- Nothing makes a MOVE wait or fail once its operands have resolved. -/
structure MoveClear (s : State) (e : Env) (reads : List (Addr × Nat)) (rs : List Rng) : Prop where
  readBad : e.readBad = []
  sem : semCheck s e.job (e.moveSem s) = .ok ()
  fits : e.y.crowded rs.length = false
  hazard : e.y.hazard rs none = false
  poison : poisonAll s e.req reads = .ok ()

theorem moveIssue_clear (h : MoveClear s e reads rs) (effect : State → State) :
    e.moveIssue s reads rs effect = .ok ((effect (s.noteReads e.who reads)).addOut e .move rs (e.moveSem s) none) := by
  simp [Env.moveIssue, h.sem, h.fits, h.hazard, h.poison, h.readBad, Ans.of, Ans.after]

/-- It goes on and stays outstanding, and what its data leave holds of the next state. -/
theorem move_issued {effect : State → State} {p : State → Prop} (hi : Issues s i j) (hw : i.spells cls op sub = true)
    (hb : body (envOf s i j) s = (envOf s i j).moveIssue s reads rs effect) (h : MoveClear s (envOf s i j) reads rs)
    (hstreams : ∀ u, SameStreams u (effect u))
    (hp : ∀ t, SameMemory (effect (s.noteReads (envOf s i j).who reads)) t →
      t.out = (effect (s.noteReads (envOf s i j).who reads)).out → p t) :
    ∃ t, Host.Outcome.next (s.issue i (rowCode cls op sub) body) = (.next t : Res) ∧
      slotOf t i = outstanding s.life.clock (slotOf s i) .move rs ((envOf s i j).moveSem s) none ∧ p t :=
  ⟨_, congrArg Host.Outcome.next (issue_ok hi hw (hb.trans (moveIssue_clear h effect))),
    slotOf_leftOut hi ((sameStreams_noteReads _ _ _).trans (hstreams _)), hp _ (sameMemory_leftOut _ _ _ _ _ _ _) rfl⟩

/-- What a MOVE that puts the rows of dst needs of its operands, whether dst is here or on another node. -/
structure PutsRows (s : State) (i : Issue) (j : Job) (body : Env → State → Ans) (reads : List (Addr × Nat)) (rs : List Rng)
    (dst : Tile) (rows : Nat → Bytes) : Prop where
  issues : Issues s i j
  readBad : i.readBad = []
  sem : semCheck s j ((envOf s i j).moveSem s) = .ok ()
  poison : poisonAll s j.who.req reads = .ok ()
  lies : dst.Lies
  length : ∀ n, (rows n).length = dst.rowBytes
  body_eq : body (envOf s i j) s = (envOf s i j).moveIssue s reads (rs ++ dstRng s (envOf s i j).moveNode dst) fun t =>
    t.putRows (envOf s i j).who (envOf s i j).moveNode dst rows

theorem PutsRows.here (h : PutsRows s i j body reads rs dst rows) (hh : (envOf s i j).staysHere s)
    (hw : i.spells cls op sub = true) (hfits : (slotOf s i).crowded (rs ++ [dst.rng true]).length = false)
    (hhaz : (slotOf s i).hazard (rs ++ [dst.rng true]) none = false) :
    ∃ t, Host.Outcome.next (s.issue i (rowCode cls op sub) body) = (.next t : Res) ∧
      slotOf t i = outstanding s.life.clock (slotOf s i) .move (rs ++ [dst.rng true]) ((envOf s i j).moveSem s) none ∧
      TileStored s t j.who.req dst rows := by
  obtain ⟨hi, hbad, hsem, hpoison, hlies, hlen, hb⟩ := h
  have hnode : localNode (s.noteReads (envOf s i j).who reads) (envOf s i j).moveNode = true := by
    rw [localNode, (sameSending_noteReads _ _ _).lnk]
    exact localNode_moveNode.mpr hh
  rw [dstRng_here hh] at hb
  refine move_issued (effect := fun t => t.putRows (envOf s i j).who (envOf s i j).moveNode dst rows) hi hw hb
    ⟨hbad, hsem, hfits, hhaz, hpoison⟩ (fun u => sameStreams_putRows _ _ _ _ _) fun t hmem _ => ?_
  rw [putRows_here hnode] at hmem
  have hstored := tileStored_storeRows (s.noteReads (envOf s i j).who reads) (envOf s i j).who hlies hlen
  exact tileStored_of_sameStore hstored (sameMemory_noteReads _ _ _).sameStore hmem.sameStore

theorem PutsRows.away (h : PutsRows s i j body reads rs dst rows) (hh : ¬ (envOf s i j).staysHere s)
    (hroute : (s.route (envOf s i j).namedNode).isSome = true) (hw : i.spells cls op sub = true)
    (hfits : (slotOf s i).crowded rs.length = false) (hhaz : (slotOf s i).hazard rs none = false) :
    ∃ t, Host.Outcome.next (s.issue i (rowCode cls op sub) body) = (.next t : Res) ∧
      slotOf t i = outstanding s.life.clock (slotOf s i) .move rs ((envOf s i j).moveSem s) none ∧
      (∀ a, t.rawByte a = s.rawByte a) ∧
      t.out = s.out ++ (List.range dst.rows).flatMap fun n =>
        s.writesOf (envOf s i j).namedNode j.tag (dst.rowAddr n) (rows n) := by
  obtain ⟨hi, hbad, hsem, hpoison, hlies, hlen, hb⟩ := h
  obtain ⟨hnode, hne⟩ := moveNode_away hh
  have hsend := sameSending_noteReads s (envOf s i j).who reads
  rw [dstRng_away hh, List.append_nil, hnode] at hb
  refine move_issued (effect := fun t => t.putRows (envOf s i j).who (some (envOf s i j).namedNode) dst rows) hi hw hb
    ⟨hbad, hsem, hfits, hhaz, hpoison⟩ (fun u => sameStreams_putRows _ _ _ _ _) fun t hmem hout => ?_
  rw [putRows_away (by rwa [hsend.lnk]) (by rwa [State.route, hsend.lnk])] at hmem hout
  refine ⟨fun a => (hmem.sameStore.1 a).trans ((sameMemory_noteReads _ _ _).sameStore.1 a), ?_⟩
  simp only [hout, hsend.out, State.writesOf, hsend.dataVc]
  rfl

/-! ### COPY and FILL -/

theorem moveCopyBody_same (hs : e.tile s (e.f 101 92) = .ok src) (hd : e.tile s (e.f 111 102) = .ok dst) (hrun : src.fmt ≠ .run)
    (hf : src.fmt = dst.fmt) (hr : src.rows = dst.rows) (hc : src.cols = dst.cols) :
    moveCopyBody e s = e.moveIssue s src.reads ([src.rng false] ++ dstRng s e.moveNode dst) fun t =>
      t.putRows e.who e.moveNode dst fun n => s.read e.req (src.rowAddr n) src.rowBytes := by
  simp only [moveCopyBody, hs, hd, tileFmtOk_ok hrun, Ans.of, State.putRows, ← hr]
  exact if_neg (by simp [hf, hc])

theorem moveCopyBody_mismatch (hs : e.tile s (e.f 101 92) = .ok src) (hd : e.tile s (e.f 111 102) = .ok dst)
    (h : src.fmt ≠ dst.fmt ∨ src.rows ≠ dst.rows ∨ src.cols ≠ dst.cols) : moveCopyBody e s = .fail { code := Ev.seqTile } := by
  simp only [moveCopyBody, hs, hd, Ans.of, tileFmtOk]
  by_cases hrun : src.fmt = .run
  · rw [if_pos hrun]
  · rw [if_neg hrun]
    exact if_pos h

/-- A row of FILL. -/
def Env.fillRow (e : Env) (dst : Tile) : Bytes := packElems dst.fmt (List.replicate dst.cols (e.f 31 0 % 2 ^ dst.fmt.width))

theorem fillRow_length (e : Env) (dst : Tile) : (e.fillRow dst).length = dst.rowBytes := by
  rw [Env.fillRow, packElems_length, List.length_replicate]
  rfl

theorem moveFillBody_ok (hd : e.tile s (e.f 111 102) = .ok dst) (hrun : dst.fmt ≠ .run) :
    moveFillBody e s = e.moveIssue s [] ([] ++ dstRng s e.moveNode dst) fun t =>
      t.putRows e.who e.moveNode dst fun _ => e.fillRow dst := by
  simp only [moveFillBody, hd, tileFmtOk_ok hrun, Ans.of]
  rfl

/-! ### CONV -/

/-- Row n of a CONV as it is stored: the outlier channels hold the row's zero point (02 R51). -/
def Env.convBytes (e : Env) (s : State) (c : ConvCtl) (src dst : Tile) (sa sb : Option Addr) (n : Nat) : Bytes :=
  packElems dst.fmt (quantRow (e.quantList dst.fmt) dst.fmt n (convRow c (e.vctx s).gen dst.cols n (convInputs s e src sa sb n)))

theorem convBytes_length (c : ConvCtl) (sa sb : Option Addr) (hc : src.cols = dst.cols) (n : Nat) :
    (e.convBytes s c src dst sa sb n).length = dst.rowBytes := by
  have hlen : (quantRow (e.quantList dst.fmt) dst.fmt n
      (convRow c (e.vctx s).gen dst.cols n (convInputs s e src sa sb n))).length = dst.cols := by
    simp [quantRow, convRow, convInputs, hc]
  rw [Env.convBytes, packElems_length, hlen]
  rfl

/-- The scale tables that a CONV reads. -/
def scaleReads (src : Tile) (sa sb : Option Addr) : List (Addr × Nat) := [sa, sb].filterMap fun p => p.map fun a => (a, 4 * src.rows)

theorem moveConvBody_same {c : ConvCtl} {sa sb : Option Addr} (hs : e.tile s (e.f 101 92) = .ok src)
    (hd : e.tile s (e.f 111 102) = .ok dst) (hrun : src.fmt ≠ .run) (hr : src.rows = dst.rows) (hc : src.cols = dst.cols)
    (hctl : ConvCtl.decode (e.f 91 80) = some c) (hf : c.dst = dst.fmt) (ham : c.amaxEn = false)
    (hsa : e.scaleOf s src = .ok sa) (hsb : e.scaleOf s dst = .ok sb) (hh : e.staysHere s) :
    moveConvBody e s = e.moveIssue s (src.reads ++ scaleReads src sa sb)
      ([src.rng false, dst.rng true] ++ (scaleReads src sa sb).map (fun x => x.1.rng x.2 false) ++
        ((e.quantList dst.fmt).bind (s.sideTile src.rows)).toList.map (Tile.rng · true))
      fun t => (t.putRows e.who e.moveNode dst (e.convBytes s c src dst sa sb)).putSide s e src sa (e.quantList dst.fmt) := by
  simp only [moveConvBody, hctl, hs, hd, tileFmtOk_ok hrun, Ans.of, hsa, hsb, ham, hf, hr, hc, dstRng_here hh, State.putRows]
  simp only [ne_eq, not_true_eq_false, or_self, if_false, Bool.false_eq_true]
  simp [scaleReads, ← hr]
  rfl

theorem moveConvBody_mismatch {c : ConvCtl} (hs : e.tile s (e.f 101 92) = .ok src) (hd : e.tile s (e.f 111 102) = .ok dst)
    (hctl : ConvCtl.decode (e.f 91 80) = some c) (h : c.dst ≠ dst.fmt ∨ src.rows ≠ dst.rows ∨ src.cols ≠ dst.cols) :
    moveConvBody e s = .fail { code := Ev.seqTile } := by
  simp only [moveConvBody, hctl, hs, hd, Ans.of, tileFmtOk]
  by_cases hrun : src.fmt = .run
  · rw [if_pos hrun]
  · rw [if_neg hrun]
    exact if_pos h

/-! ### The side tile (02 R51) -/

theorem putSide_none {sa : Option Addr} {o : Option Outliers} (h : o.bind (s.sideTile src.rows) = none) :
    t.putSide s e src sa o = t := by
  unfold State.putSide
  cases o with
  | none => rfl
  | some x =>
    rw [Option.bind_some] at h
    simp only [h]

/-- A side tile has a row for each row of the source, and lies. -/
theorem sideTile_fits {o : Outliers} {st : Tile} {n : Nat} (hn : 0 < n) (h : s.sideTile n o = some st) :
    st.rows = n ∧ st.cols = 64 ∧ st.fmt = .bf16 ∧ st.Lies := by
  unfold State.sideTile at h
  split at h
  · cases h
  · rename_i a _
    split at h
    · rename_i hspace
      cases h
      refine ⟨rfl, rfl, rfl, ⟨by simp [Tile.rowBytes, Fmt.width, ceilDiv], (inSpace_spd hspace).imp id fun hs => ?_⟩⟩
      simp only [Tile.extent, Tile.rowBytes, Fmt.width, ceilDiv]
      omega
    · cases h

theorem putSide_some {sa : Option Addr} {o : Outliers} {st : Tile} (hr : st.rows = src.rows) (h : s.sideTile src.rows o = some st) :
    t.putSide s e src sa (some o) = foldS t (List.range st.rows) fun u n => u.putRow e.who st n (sideRow s e src sa o n) := by
  simp only [State.putSide, h, hr]

theorem sameStreams_putSide (t s : State) (e : Env) (src : Tile) (sa : Option Addr) (o : Option Outliers) :
    SameStreams t (t.putSide s e src sa o) := by
  unfold State.putSide
  split
  · exact .refl t
  · split
    · exact .refl t
    · exact sameStreams_foldS_putRow _ _ _ _ _

end Sys2Proof.Machine
end

section
/-! PROOFS. Instruction streams (chapter 05), MOVE: what a CONV leaves of its destination and its side tile, and the obligation. -/

namespace Sys2Proof.Machine

open Sys2Proof Sys2Proof.Safety

variable {s t : State} {i : Issue} {j : Job} {src dst st : Tile} {c : ConvCtl} {sa sb : Option Addr} {o : Outliers}

/-- The operands of a CONV to a tile of this node resolve and fit each other, without an amax record. -/
structure Converts (s : State) (i : Issue) (j : Job) (src dst : Tile) (c : ConvCtl) (sa sb : Option Addr) : Prop where
  issues : Issues s i j
  readBad : i.readBad = []
  sem : semCheck s j ((envOf s i j).moveSem s) = .ok ()
  src_ok : (envOf s i j).tile s (wf i.word 101 92) = .ok src
  dst_ok : (envOf s i j).tile s (wf i.word 111 102) = .ok dst
  rows : src.rows = dst.rows
  cols : src.cols = dst.cols
  run : src.fmt ≠ .run
  poison : poisonAll s j.who.req src.reads = .ok ()
  ctl : ConvCtl.decode (wf i.word 91 80) = some c
  fmt : c.dst = dst.fmt
  amax : c.amaxEn = false
  srcScale : (envOf s i j).scaleOf s src = .ok sa
  dstScale : (envOf s i j).scaleOf s dst = .ok sb
  scalePoison : poisonAll s j.who.req (scaleReads src sa sb) = .ok ()
  here : (envOf s i j).staysHere s

/-- The ranges of a CONV but its side tile's. -/
def convRngs (src dst : Tile) (sa sb : Option Addr) : List Rng :=
  [src.rng false, dst.rng true] ++ (scaleReads src sa sb).map fun x => x.1.rng x.2 false

/-- The state once a CONV has read its operands and stored its destination. -/
def State.converted (s : State) (e : Env) (c : ConvCtl) (src dst : Tile) (sa sb : Option Addr) : State :=
  (s.noteReads e.who (src.reads ++ scaleReads src sa sb)).storeRows e.who dst (e.convBytes s c src dst sa sb)

theorem Converts.stored (h : Converts s i j src dst c sa sb) :
    TileStored s (s.converted (envOf s i j) c src dst sa sb) j.who.req dst ((envOf s i j).convBytes s c src dst sa sb) :=
  have hstored := tileStored_storeRows (s.noteReads (envOf s i j).who (src.reads ++ scaleReads src sa sb)) (envOf s i j).who
    (tile_lies h.dst_ok) (convBytes_length (e := envOf s i j) (s := s) c sa sb h.cols)
  tileStored_of_sameStore hstored (sameMemory_noteReads _ _ _).sameStore (.refl _)

theorem mayAccess_converted (s : State) (e : Env) (c : ConvCtl) (src dst : Tile) (sa sb : Option Addr) (r : Req) (a : Addr) (b : Bool) :
    (s.converted e c src dst sa sb).mayAccess r a b = s.mayAccess r a b :=
  (mayAccess_storeRows _ _ _ _ _ _ _).trans ((sameMemory_noteReads _ _ _).sameStore.2 r a b)

/-- The CONV goes on and stays outstanding, and what its destination and its side tile leave holds of the next state. -/
theorem Converts.issued {rs : List Rng} {p : State → Prop} (h : Converts s i j src dst c sa sb)
    (hrs : convRngs src dst sa sb ++
      (((envOf s i j).quantList dst.fmt).bind (s.sideTile src.rows)).toList.map (Tile.rng · true) = rs)
    (hw : (Instr.moveConv i).wf = true) (hfits : (slotOf s i).crowded rs.length = false)
    (hhaz : (slotOf s i).hazard rs none = false)
    (hp : ∀ t, SameMemory ((s.converted (envOf s i j) c src dst sa sb).putSide s (envOf s i j) src sa
      ((envOf s i j).quantList dst.fmt)) t → p t) :
    ∃ t, exec (.moveConv i) s = .next t ∧
      slotOf t i = outstanding s.life.clock (slotOf s i) .move rs ((envOf s i j).moveSem s) none ∧ p t := by
  have hb := moveConvBody_same (e := envOf s i j) h.src_ok h.dst_ok h.run h.rows h.cols h.ctl h.fmt h.amax h.srcScale h.dstScale
    h.here
  have hnode : localNode (s.noteReads (envOf s i j).who (src.reads ++ scaleReads src sa sb)) (envOf s i j).moveNode = true := by
    rw [localNode, (sameSending_noteReads _ _ _).lnk]
    exact localNode_moveNode.mpr h.here
  subst hrs
  refine move_issued h.issues hw hb ⟨h.readBad, h.sem, hfits, hhaz, poisonAll_append h.poison h.scalePoison⟩
    (fun u => (sameStreams_putRows u _ _ _ _).trans (sameStreams_putSide _ _ _ _ _ _)) fun t hmem _ => hp t ?_
  rwa [putRows_here hnode] at hmem

/-- Without a side tile the destination alone is stored. -/
theorem Converts.destination (h : Converts s i j src dst c sa sb)
    (hside : ((envOf s i j).quantList dst.fmt).bind (s.sideTile src.rows) = none) (hw : (Instr.moveConv i).wf = true)
    (hfits : (slotOf s i).crowded (convRngs src dst sa sb).length = false)
    (hhaz : (slotOf s i).hazard (convRngs src dst sa sb) none = false) :
    ∃ t, exec (.moveConv i) s = .next t ∧
      slotOf t i = outstanding s.life.clock (slotOf s i) .move (convRngs src dst sa sb) ((envOf s i j).moveSem s) none ∧
      TileStored s t j.who.req dst ((envOf s i j).convBytes s c src dst sa sb) := by
  refine h.issued (by rw [hside]; exact List.append_nil _) hw hfits hhaz fun t hmem => ?_
  rw [putSide_none hside] at hmem
  exact tileStored_of_sameStore h.stored (.refl _) hmem.sameStore

/-- With one, the true values of the outlier channels are stored after it (02 R51). -/
theorem Converts.bothTiles (h : Converts s i j src dst c sa sb) (ho : (envOf s i j).quantList dst.fmt = some o)
    (hst : s.sideTile src.rows o = some st) (hapart : Apart dst st) (hw : (Instr.moveConv i).wf = true)
    (hfits : (slotOf s i).crowded (convRngs src dst sa sb ++ [st.rng true]).length = false)
    (hhaz : (slotOf s i).hazard (convRngs src dst sa sb ++ [st.rng true]) none = false) :
    ∃ t, exec (.moveConv i) s = .next t ∧
      slotOf t i = outstanding s.life.clock (slotOf s i) .move (convRngs src dst sa sb ++ [st.rng true])
        ((envOf s i j).moveSem s) none ∧
      TwoStored s t j.who.req dst st ((envOf s i j).convBytes s c src dst sa sb) fun n =>
        packElems .bf16 (sideRow s (envOf s i j) src sa o n) := by
  obtain ⟨hrows, hcols, hfmt, hlies⟩ := sideTile_fits (tile_rows_pos h.src_ok) hst
  refine h.issued (by rw [ho, Option.bind_some, hst]; rfl) hw hfits hhaz fun t hmem => ?_
  rw [ho, putSide_some hrows hst] at hmem
  have hside := tileStored_foldS_putRow (s.converted (envOf s i j) c src dst sa sb) (envOf s i j).who hlies
    (sideRow s (envOf s i j) src sa o) fun n => by simp [sideRow, hcols]
  rw [hfmt] at hside
  exact twoStored_of_tileStored (tile_lies h.dst_ok) hlies hapart (fun p => mayAccess_converted s _ c src dst sa sb _ p true) h.stored
    (tileStored_of_sameStore hside (.refl _) hmem.sameStore)

/-- Settles O18: each MOVE puts the rows of its destination, here or on another node, and a CONV its side tile after them. -/
theorem moveResult : Obligations.MoveResult := by
  refine ⟨fun s i j src dst hi hbad => ?_, fun s i j src dst hi => ?_⟩
  · intro e y r sem hsrc hdst hdrun hsem node here issues moves same
    have hmoves {cmd : Issue → Instr} {op : Nat} {body : Env → State → Ans} {reads : List (Addr × Nat)} {rs : List Rng}
        {rows : Nat → Bytes} (hrow : (cmd i).wf = i.spells 1 op 0)
        (hexec : exec (cmd i) s = .next (s.issue i (rowCode 1 op 0) body)) (h : PutsRows s i j body reads rs dst rows) :
        moves cmd rs rows :=
      ⟨fun hh hw hfits hhaz => hexec ▸ h.here hh (hrow ▸ hw) hfits hhaz,
        fun hh hroute hw hfits hhaz => hexec ▸ h.away hh hroute (hrow ▸ hw) hfits hhaz⟩
    refine ⟨fun ⟨hr, hc, hrun, hpoison⟩ hf => ?copy, ?fill, fun c sa sb ⟨hr, hc, hrun, hpoison⟩ hctl hf ham hsa hsb => ?conv⟩
    case copy =>
      exact hmoves rfl rfl ⟨hi, hbad, hsem, hpoison, tile_lies hdst, fun _ => (read_length _ _ _ _).trans (rowBytes_eq hf hc),
        moveCopyBody_same hsrc hdst hrun hf hr hc⟩
    case fill =>
      exact hmoves rfl rfl ⟨hi, hbad, hsem, rfl, tile_lies hdst, fun _ => fillRow_length e dst, moveFillBody_ok hdst hdrun⟩
    case conv =>
      intro scl o rows rs hscl hh
      have h : Converts s i j src dst c sa sb := ⟨hi, hbad, hsem, hsrc, hdst, hr, hc, hrun, hpoison, hctl, hf, ham, hsa, hsb, hscl, hh⟩
      exact ⟨fun hside => h.destination hside, fun x st ho hst hapart => h.bothTiles ho hst hapart⟩
  · intro e hsrc hdst bad
    exact ⟨fun hw h => congrArg Host.Outcome.next (issue_fail hi hw (moveCopyBody_mismatch (e := e) hsrc hdst h)),
      fun c hw hctl h => congrArg Host.Outcome.next (issue_fail hi hw (moveConvBody_mismatch (e := e) hsrc hdst hctl h))⟩

end Sys2Proof.Machine
end

section
/-! PROOFS. Instruction streams (chapter 05), ROUTE: the issue (R121), TOPK, GATHER and DISPATCH (R122, R123). -/

namespace Sys2Proof.Machine

open Sys2Proof Sys2Proof.Safety

variable {s t u : State} {i : Issue} {j : Job} {e : Env} {src dst aux : Tile} {rec : Addr} {rows : List Nat}

/-! ### The issue of a ROUTE -/

/-- What a ROUTE reads: its record rows, its source and the index tiles that it follows. -/
def Env.routeReads (e : Env) (src : Tile) (rec : Addr) (recRows : Nat) (aux : List Tile) : List (Addr × Nat) :=
  (rec, 8 * e.routeK * recRows) :: (src.reads ++ aux.flatMap (·.reads))

/-- Nothing makes a ROUTE wait or fail before it looks at what it has read. -/
structure RouteClear (s : State) (e : Env) (reads : List (Addr × Nat)) (sem : Option SemRef) (rs : List Rng) : Prop where
  readBad : e.readBad = []
  sem_ok : semCheck s e.job sem = .ok ()
  fits : e.y.crowded rs.length = false
  hazard : e.y.hazard rs none = false
  poison : poisonAll s e.req reads = .ok ()

theorem routeIssue_clear {recRows : Nat} {auxs : List Tile} {sem : Option SemRef} {rs : List Rng} {k : State → Except Fail State}
    (h : RouteClear s e (e.routeReads src rec recRows auxs) sem rs)
    (hk : k (s.noteReads e.who (e.routeReads src rec recRows auxs)) = .ok u) :
    e.routeIssue s sem src rec recRows auxs rs k = .ok (u.addOut e .route rs sem none) := by
  obtain ⟨hbad, hsem, hfits, hhaz, hpoison⟩ := h
  unfold Env.routeReads at hpoison hk
  simp [Env.routeIssue, hbad, hsem, hfits, hhaz, hpoison, hk, Ans.of, Ans.after]

/-- It goes on and stays outstanding, and what its writes leave holds of the next state. -/
theorem route_issued {cls op sub recRows : Nat} {body : Env → State → Ans} {auxs : List Tile} {sem : Option SemRef} {rs : List Rng}
    {k : State → Except Fail State} {p : State → Prop} (hi : Issues s i j) (hw : i.spells cls op sub = true)
    (hb : body (envOf s i j) s = (envOf s i j).routeIssue s sem src rec recRows auxs rs k)
    (h : RouteClear s (envOf s i j) ((envOf s i j).routeReads src rec recRows auxs) sem rs)
    (hk : k (s.noteReads (envOf s i j).who ((envOf s i j).routeReads src rec recRows auxs)) = .ok u)
    (hstreams : SameStreams (s.noteReads (envOf s i j).who ((envOf s i j).routeReads src rec recRows auxs)) u)
    (hp : ∀ t, SameMemory u t → p t) :
    ∃ t, Host.Outcome.next (s.issue i (rowCode cls op sub) body) = (.next t : Res) ∧
      slotOf t i = outstanding s.life.clock (slotOf s i) .route rs sem none ∧ p t :=
  ⟨_, congrArg Host.Outcome.next (issue_ok hi hw (hb.trans (routeIssue_clear h hk))),
    slotOf_leftOut hi ((sameStreams_noteReads _ _ _).trans hstreams), hp _ (sameMemory_leftOut _ _ _ _ _ _ _)⟩

/-! ### TOPK (05 R123) -/

/-- The candidates of row n of the source, with their positions. -/
def Env.topCandidates (e : Env) (s : State) (src : Tile) (n : Nat) : List TopEntry :=
  (s.tileRow e.req src n).zipIdx.map fun x => ⟨topValue src.fmt x.1, (e.f 31 0 + x.2) % 2 ^ 32⟩

/-- The record after every row of the source has been merged into it. -/
def State.topMerged (t s : State) (e : Env) (src : Tile) (rec : Addr) : State :=
  foldS t (List.range src.rows) fun u n => u.mergeTop e.who rec n e.routeK src.fmt.isInt (e.topCandidates s src n)

theorem topkBody_ok (hs : e.tile s (e.f 101 92) = .ok src) (hf : src.fmt = .fp32 ∨ src.fmt = .bf16 ∨ src.fmt = .int32)
    (hrec : mAddr s e.c e.y (e.f 63 32) (8 * e.routeK * src.rows) 8 = .ok rec) :
    topkBody e s = e.routeIssue s (e.routeSem s.lnk.node none) src rec src.rows []
      [src.rng false, rec.rng (8 * e.routeK * src.rows) true] fun t => .ok (t.topMerged s e src rec) := by
  simp only [topkBody, hs, hrec, Ans.of]
  exact if_neg (by tauto)

theorem sameStreams_topMerged (t s : State) (e : Env) (src : Tile) (rec : Addr) : SameStreams t (t.topMerged s e src rec) :=
  foldS_keeps (p := SameStreams t) _
    (fun _ _ h => h.trans ((sameStreams_noteMiss _ _ _ _ _).trans (sameStreams_store _ _ _ _))) _ (.refl t)

/-! ### GATHER and DISPATCH (05 R122) -/

/-- Row n of the destination: the n-th row that qualifies, then zeros. -/
def gatherRow (s : State) (r : Req) (src dst : Tile) (rows : List Nat) (n : Nat) : Bytes :=
  match rows[n]? with
  | some m => s.read r (src.rowAddr m) src.rowBytes
  | none => List.replicate dst.rowBytes 0

theorem gatherRow_length (r : Req) (h : src.rowBytes = dst.rowBytes) (n : Nat) :
    (gatherRow s r src dst rows n).length = dst.rowBytes := by
  unfold gatherRow
  split
  · rw [read_length, h]
  · exact List.length_replicate

/-- The rows of the destination that are written: a multiple of 32, as far as it has them. -/
def gatherStop (dst : Tile) (n : Nat) : Nat := min (if n = 0 then 32 else alignUp n 32) dst.rows

theorem le_gatherStop {n : Nat} (h : n ≤ dst.rows) : n ≤ gatherStop dst n := by
  refine le_min ?_ h
  split
  · omega
  · exact le_alignUp n (by decide)

/-- The count and the indices. -/
def gatherIndex (rows : List Nat) : Bytes := leBytes 4 rows.length ++ rows.flatMap fun n => leBytes 4 n

theorem gatherIndex_length (rows : List Nat) : (gatherIndex rows).length = 4 * (rows.length + 1) := by
  simp [gatherIndex, List.length_flatMap]
  omega

/-- The rows that qualify, and then the zero rows, are the rows of the destination in order. -/
theorem gatherWrite_eq (node : Option NodeId) (s t : State) (h : rows.length ≤ dst.rows) :
    gatherWrite e node s src dst aux rows t =
      (t.putRows e.who node (dst.firstRows (gatherStop dst rows.length)) (gatherRow s e.req src dst rows)).put e.who node aux.addr
        (gatherIndex rows) := by
  have hzip : rows.zipIdx = (List.range rows.length).map fun n => (rows.getD n 0, n) :=
    List.ext_getElem (by simp) fun n hn _ => by
      rw [List.length_zipIdx] at hn
      simp [hn]
  have hrange : List.range (gatherStop dst rows.length) =
      List.range rows.length ++ (List.range (gatherStop dst rows.length - rows.length)).map (· + rows.length) := by
    conv_lhs => rw [← Nat.add_sub_cancel' (le_gatherStop h), List.range_add]
    simp only [Nat.add_comm]
  have hfirst (t : State) : foldS t rows.zipIdx
      (fun u x => u.put e.who node (dst.rowAddr x.2) (s.read e.req (src.rowAddr x.1) src.rowBytes)) =
      foldS t (List.range rows.length) fun u n => u.put e.who node (dst.rowAddr n) (gatherRow s e.req src dst rows n) := by
    rw [hzip, foldS, List.foldl_map]
    refine List.foldl_ext _ _ _ fun u n hn => ?_
    simp [gatherRow, List.mem_range.mp hn]
  have hrest (t : State) : foldS t ((List.range (gatherStop dst rows.length - rows.length)).map (· + rows.length))
      (fun u n => u.put e.who node (dst.rowAddr n) (List.replicate dst.rowBytes 0)) =
      foldS t ((List.range (gatherStop dst rows.length - rows.length)).map (· + rows.length)) fun u n =>
        u.put e.who node (dst.rowAddr n) (gatherRow s e.req src dst rows n) := by
    refine List.foldl_ext _ _ _ fun u n hn => ?_
    obtain ⟨m, -, rfl⟩ := List.mem_map.mp hn
    simp [gatherRow]
  unfold gatherWrite
  dsimp only
  rw [hfirst]
  refine congrArg (State.put · e.who node aux.addr (gatherIndex rows)) ((hrest _).trans ?_)
  rw [State.putRows, foldS, foldS, foldS, ← List.foldl_append, ← hrange]
  rfl

/-- The state once the rows, the count and the indices are stored on this node. -/
def State.gathered (t s : State) (e : Env) (src dst aux : Tile) (rows : List Nat) : State :=
  (t.storeRows e.who (dst.firstRows (gatherStop dst rows.length)) (gatherRow s e.req src dst rows)).store e.who aux.addr
    (gatherIndex rows)

theorem gatherWrite_here (s : State) (h : rows.length ≤ dst.rows) :
    gatherWrite e (some t.lnk.node) s src dst aux rows t = t.gathered s e src dst aux rows := by
  have hnode : localNode t (some t.lnk.node) = true := by simp [localNode]
  rw [gatherWrite_eq _ _ _ h, putRows_here hnode, put_here]
  · rfl
  · rw [localNode, (sameSending_storeRows _ _ _ _).lnk]
    exact hnode

theorem sameStreams_gathered (t s : State) (e : Env) (src dst aux : Tile) (rows : List Nat) :
    SameStreams t (t.gathered s e src dst aux rows) := (sameStreams_storeRows _ _ _ _).trans (sameStreams_store _ _ _ _)

/-- The body of both, where the index tile and the formats fit. -/
theorem gatherBody_ok {remote : Bool} (hd : e.tile s (e.f 111 102) = .ok dst) (hs : e.tile s (e.f 101 92) = .ok src)
    (ha : e.tile s (e.f 91 82) = .ok aux) (hrec : mAddr s e.c e.y (e.f 63 32) (8 * e.routeK * src.rows) 8 = .ok rec)
    (haf : aux.fmt = .int32) (har : aux.rows = 1) (hac : dst.rows + 1 ≤ aux.cols) (hf : src.fmt = dst.fmt) (hc : src.cols = dst.cols)
    (hrun : src.fmt ≠ .run) (hnode : remote = true → BitVec.ofNat 16 (e.f 31 16) = s.lnk.node) :
    gatherBody remote e s = e.routeIssue s (e.routeSem s.lnk.node (some dst)) src rec src.rows []
      [src.rng false, rec.rng (8 * e.routeK * src.rows) false, dst.rng true, aux.rng true] fun t =>
        let rows := gatherRows s e.req rec e.routeK src.rows (e.f 15 0)
        if dst.rows < rows.length then .error { code := Ev.routeCap }
        else .ok (gatherWrite e (some s.lnk.node) s src dst aux rows t) := by
  have hhere : (if remote = true then BitVec.ofNat 16 (e.f 31 16) else s.lnk.node) = s.lnk.node := by
    split
    · exact hnode ‹_›
    · rfl
  simp only [gatherBody, hhere, hd, hs, ha, hrec, Ans.of]
  rw [if_neg (by simp [haf, har, hf, hc, hf ▸ hrun, Nat.not_lt.mpr hac])]
  rfl

/-! ### What they leave -/

/-- The bytes of a string that lies in its space exist. -/
theorem realAddr_plus {b : Addr} {n q : Nat} (hfit : b.dev = true ∨ b.a + n ≤ 2 ^ 33) (hq : q < n) : realAddr (b.plus q) :=
  hfit.imp id fun hf => by
    simp only [Addr.plus]
    omega

/-- A store leaves every byte that exists and is none of its own. -/
theorem rawByte_store_other (w : Who) {l : Bytes} {a b : Addr} (hfit : b.dev = true ∨ b.a + l.length ≤ 2 ^ 33) (ha : realAddr a)
    (h : ∀ q, q < l.length → a ≠ b.plus q) : (s.store w b l).rawByte a = s.rawByte a := by
  refine rawByte_store_out w l b a fun q hq => ?_
  rw [sameByte_iff (realAddr_plus hfit hq) ha]
  exact h q hq

/-- The index tile of one row holds the count and the indices. -/
theorem gatherIndex_fits (hx : aux.Lies) (hf : aux.fmt = .int32) (hr : aux.rows = 1) (hlen : rows.length + 1 ≤ aux.cols) :
    aux.addr.dev = true ∨ aux.addr.a + (gatherIndex rows).length ≤ 2 ^ 33 := by
  refine hx.space.imp id fun hs => ?_
  simp only [Tile.extent, Tile.rowBytes, hf, hr, Fmt.width, ceilDiv] at hs
  rw [gatherIndex_length]
  omega

/-- What is stored after rows of a tile: the string stands where it may be written, elsewhere the rows, and every other byte stays. -/
theorem tileThenString {w : Who} {x : Tile} {ra : Nat → Bytes} {b : Addr} {l : Bytes} (hx : x.Lies)
    (hfit : b.dev = true ∨ b.a + l.length ≤ 2 ^ 33) (hmay : ∀ p, u.mayAccess w.req p true = s.mayAccess w.req p true)
    (hu : TileStored s u w.req x ra) :
    (∀ m, m < l.length → s.mayAccess w.req (b.plus m) true = true → (u.store w b l).rawByte (b.plus m) = l.getD m 0) ∧
    (∀ m, m < l.length → s.mayAccess w.req (b.plus m) true = false →
      (∀ n q, n < x.rows → q < x.rowBytes → b.plus m ≠ (x.rowAddr n).plus q) →
      (u.store w b l).rawByte (b.plus m) = s.rawByte (b.plus m)) ∧
    (∀ n m, n < x.rows → m < x.rowBytes → (∀ q, q < l.length → (x.rowAddr n).plus m ≠ b.plus q) →
      (u.store w b l).rawByte ((x.rowAddr n).plus m) =
        if s.mayAccess w.req ((x.rowAddr n).plus m) true then (ra n).getD m 0 else s.rawByte ((x.rowAddr n).plus m)) ∧
    ∀ a, realAddr a → (∀ q, q < l.length → a ≠ b.plus q) →
      (∀ n m, n < x.rows → m < x.rowBytes → a ≠ (x.rowAddr n).plus m) → (u.store w b l).rawByte a = s.rawByte a := by
  obtain ⟨hin, hout⟩ := hu
  refine ⟨fun m hm hw => ?_, fun m hm hw hfree => ?_, fun n m hn hm hfree => ?_, fun a ha hstr hrows => ?_⟩
  · rw [rawByte_store_in w l b hfit m hm, hmay, if_pos hw]
  · rw [rawByte_store_in w l b hfit m hm, hmay, hw, hout _ (realAddr_plus hfit hm) hfree]
    rfl
  · rw [rawByte_store_other w hfit (hx.realByte hn hm) hfree, hin n m hn hm]
  · rw [rawByte_store_other w hfit ha hstr, hout a ha hrows]

/-- What GATHER and DISPATCH leave of the index tile, of the rows that they write and of every other byte. -/
theorem gathered_bytes (reads : List (Addr × Nat)) (hx : dst.Lies) (ha : aux.Lies) (haf : aux.fmt = .int32) (har : aux.rows = 1)
    (hac : rows.length + 1 ≤ aux.cols) (hrow : src.rowBytes = dst.rowBytes) :
    let t := (s.noteReads e.who reads).gathered s e src dst aux rows
    let stop := gatherStop dst rows.length
    let index := gatherIndex rows
    (∀ m, m < index.length → s.mayAccess e.req (aux.addr.plus m) true = true → t.rawByte (aux.addr.plus m) = index.getD m 0) ∧
    (∀ m, m < index.length → s.mayAccess e.req (aux.addr.plus m) true = false →
      (∀ n q, n < stop → q < dst.rowBytes → aux.addr.plus m ≠ (dst.rowAddr n).plus q) →
      t.rawByte (aux.addr.plus m) = s.rawByte (aux.addr.plus m)) ∧
    (∀ n m, n < stop → m < dst.rowBytes → (∀ q, q < index.length → (dst.rowAddr n).plus m ≠ aux.addr.plus q) →
      t.rawByte ((dst.rowAddr n).plus m) = if s.mayAccess e.req ((dst.rowAddr n).plus m) true
        then (gatherRow s e.req src dst rows n).getD m 0 else s.rawByte ((dst.rowAddr n).plus m)) ∧
    ∀ a, realAddr a → (∀ q, q < index.length → a ≠ aux.addr.plus q) →
      (∀ n m, n < stop → m < dst.rowBytes → a ≠ (dst.rowAddr n).plus m) → t.rawByte a = s.rawByte a := by
  have hnoted := (sameMemory_noteReads s e.who reads).sameStore
  have hlies : (dst.firstRows (gatherStop dst rows.length)).Lies := hx.firstRows (min_le_right _ _)
  have hstored := tileStored_storeRows (s.noteReads e.who reads) e.who hlies (gatherRow_length (s := s) (rows := rows) e.req hrow)
  have hrows := tileStored_of_sameStore hstored hnoted (.refl _)
  exact tileThenString (w := e.who) hlies (gatherIndex_fits ha haf har hac)
    (fun p => (mayAccess_storeRows _ _ _ _ _ _ _).trans (hnoted.2 _ p true)) hrows

end Sys2Proof.Machine
end

section
/-! PROOFS. Instruction streams (chapter 05), elements: a row of elements of whole bytes and its bytes say the same. -/

namespace Sys2Proof.Machine

open Sys2Proof Sys2Proof.Safety

theorem leNat_lt (l : Bytes) : leNat l < 256 ^ l.length := by
  induction l with
  | nil => exact Nat.one_pos
  | cons b l ih =>
    have hb : b.toNat < 256 := b.isLt
    rw [leNat, List.length_cons, Nat.pow_succ]
    omega

theorem leNat_leBytes {n x : Nat} (h : x < 256 ^ n) : leNat (leBytes n x) = x := by
  induction n generalizing x with
  | zero => rw [Nat.pow_zero, Nat.lt_one_iff] at h; rw [h]; rfl
  | succ n ih =>
    rw [leBytes, leNat, ih (Nat.div_lt_of_lt_mul (by rwa [Nat.mul_comm, ← Nat.pow_succ])), BitVec.toNat_ofNat]
    exact Nat.mod_add_div x 256

theorem leAt_lt (l : Bytes) (i n : Nat) : leAt l i n < 256 ^ n :=
  (leNat_lt _).trans_le (Nat.pow_le_pow_right (by decide) (List.length_take_le _ _))

/-- Strings of w bytes, one after the other, are the whole. -/
theorem flatMap_take_drop (l : Bytes) (w n : Nat) : ((List.range n).flatMap fun k => (l.drop (w * k)).take w) = l.take (w * n) := by
  induction n with
  | zero => simp
  | succ n ih => rw [List.range_succ, List.flatMap_append, ih, Nat.mul_succ, List.take_add]; simp

variable {f : Fmt} {n : Nat}

theorem packElems_elemsOf (hf : f ≠ .int4) {l : Bytes} (hl : l.length = f.bytes * n) : packElems f (elemsOf f n l) = l := by
  have hpiece (k : Nat) (hk : k ∈ List.range n) : leBytes f.bytes (leAt l (f.bytes * k) f.bytes) =
      (l.drop (f.bytes * k)).take f.bytes := by
    have hmul := Nat.mul_le_mul_left f.bytes (Nat.succ_le_of_lt (List.mem_range.mp hk))
    have hlen : ((l.drop (f.bytes * k)).take f.bytes).length = f.bytes := by
      rw [Nat.mul_succ] at hmul
      simp only [List.length_take, List.length_drop, hl]
      omega
    conv_rhs => rw [← leBytes_leNat (List.take _ _), hlen]
    rfl
  simp only [packElems, elemsOf, if_neg hf, List.flatMap_map]
  rw [List.flatMap_congr hpiece, flatMap_take_drop, ← hl, List.take_length]

theorem elemsOf_packElems (hf : f ≠ .int4) {l : List Nat} (hl : l.length = n) (hsmall : ∀ v ∈ l, v < 256 ^ f.bytes) :
    elemsOf f n (packElems f l) = l := by
  refine List.ext_getElem (by simp [elemsOf, hl]) fun k _ hk => ?_
  simp only [packElems, elemsOf, if_neg hf, List.getElem_map, List.getElem_range, leAt]
  rw [take_drop_flatMap _ (fun v => leBytes_length f.bytes v) l k hk, leNat_leBytes (hsmall _ (List.getElem_mem hk))]

theorem elemsOf_small (hf : f ≠ .int4) (l : Bytes) : ∀ v ∈ elemsOf f n l, v < 256 ^ f.bytes := by
  simp only [elemsOf, if_neg hf, List.mem_map]
  rintro v ⟨k, -, rfl⟩
  exact leAt_lt _ _ _

/-- A row of whole bytes. -/
theorem rowBytes_whole {x : Tile} (hf : x.fmt ≠ .int4) : x.rowBytes = x.fmt.bytes * x.cols := by
  rw [Tile.rowBytes, Fmt.width_eq_bytes hf, ceilDiv, Nat.mul_left_comm, Nat.mul_comm x.cols]
  omega

/-- A BF16 value rounded fits its two bytes (02 R29). -/
theorem bf16_round_lt (v : FVal) : fmtBF16.round v < 2 ^ 16 := by
  have hsign (neg : Bool) {m : Nat} (hm : m < 2 ^ 15) : fmtBF16.withSign neg m < 2 ^ 16 := by
    cases neg <;> simp [FFmt.withSign, FFmt.signW, fmtBF16, b2n] <;> omega
  cases v with
  | nan => decide
  | inf neg => exact hsign neg (by decide)
  | fin neg m e =>
    refine hsign neg ?_
    have hmax : fmtBF16.maxMag < 2 ^ 15 := by decide
    split
    · decide
    · omega

end Sys2Proof.Machine
end

section
/-! PROOFS. Instruction streams (chapter 05), SCATTER (R123), and the obligation. -/

namespace Sys2Proof.Machine

open Sys2Proof Sys2Proof.Safety

variable {s t u : State} {i : Issue} {j : Job} {e : Env} {src dst aux : Tile} {rec : Addr} {r : Req} {q : Nat} {row : List Nat}

theorem okFloat_not_int4 {f : Fmt} (h : okFloat f = true) : f ≠ .int4 := by
  rintro rfl
  cases h

theorem scatterElem_lt {fd : Fmt} (h : okFloat fd = true) (fs : Fmt) (g : W32) (old x : Nat) :
    scatterElem fd fs g old x < 256 ^ fd.bytes := by
  simp only [okFloat, Bool.or_eq_true, beq_iff_eq] at h
  rcases h with rfl | rfl
  · exact BitVec.isLt _
  · exact bf16_round_lt _

/-! ### A row of the destination while its rows are written -/

/-- Row q holds the elements `row`, where requester r may read and write it and its lines are valid. -/
structure RowHolds (u : State) (r : Req) (dst : Tile) (q : Nat) (row : List Nat) : Prop where
  length : row.length = dst.cols
  small : ∀ v ∈ row, v < 256 ^ dst.fmt.bytes
  writes : ∀ m, m < dst.rowBytes → u.mayAccess r ((dst.rowAddr q).plus m) true = true
  reads : ∀ m, m < dst.rowBytes → u.mayAccess r ((dst.rowAddr q).plus m) false = true
  valid : ∀ m, m < dst.rowBytes → u.lineValid ((dst.rowAddr q).plus m) = true
  bytes : ∀ m, m < dst.rowBytes → u.rawByte ((dst.rowAddr q).plus m) = (packElems dst.fmt row).getD m 0

/-- A store leaves valid lines valid (07 R157). -/
theorem lineValid_store_of (w : Who) (b : Addr) (l : Bytes) {a : Addr} (h : u.lineValid a = true) : (u.store w b l).lineValid a = true := by
  unfold State.store State.rewrite
  obtain ⟨m, hm⟩ := unpoison_only ((u.noteMiss w b l.length true).write w.req b l) w.req b l.length
  rw [hm]
  exact lineValid_write_of w.req l (((sameMemory_noteMiss u w b l.length true).lineValid a).trans h)

/-- What is read back is what the row holds. -/
theorem RowHolds.tileRow (h : RowHolds u r dst q row) (hf : dst.fmt ≠ .int4) : u.tileRow r dst q = row := by
  obtain ⟨hlen, hsmall, -, hreads, hvalid, hbytes⟩ := h
  have hread : u.read r (dst.rowAddr q) dst.rowBytes = packElems dst.fmt row := by
    have hpack : (packElems dst.fmt row).length = dst.rowBytes := by rw [packElems_length, hlen]; rfl
    refine List.ext_getElem ((read_length _ _ _ _).trans hpack.symm) fun m hm hm' => ?_
    rw [read_length] at hm
    simp only [State.read, List.getElem_map, List.getElem_range, State.readByte, hreads m hm, hvalid m hm, hbytes m hm]
    simp [List.getElem?_eq_getElem hm']
  rw [State.tileRow, hread, elemsOf_packElems hf hlen hsmall]

/-- A row that the requester may read holds what it reads. -/
theorem rowHolds_tileRow (hf : dst.fmt ≠ .int4)
    (h : ∀ m, m < dst.rowBytes → u.mayAccess r ((dst.rowAddr q).plus m) true = true ∧
      u.mayAccess r ((dst.rowAddr q).plus m) false = true ∧ u.lineValid ((dst.rowAddr q).plus m) = true) :
    RowHolds u r dst q (u.tileRow r dst q) := by
  have hbytes (m : Nat) (hm : m < dst.rowBytes) :
      u.rawByte ((dst.rowAddr q).plus m) = (packElems dst.fmt (u.tileRow r dst q)).getD m 0 := by
    obtain ⟨-, hreads, hvalid⟩ := h m hm
    rw [State.tileRow, packElems_elemsOf hf ((read_length _ _ _ _).trans (rowBytes_whole hf))]
    simp [State.read, hm, State.readByte, hreads, hvalid]
  simp only [forall_and] at h
  obtain ⟨hwrites, hreads, hvalid⟩ := h
  exact ⟨tileRow_length _ _ _ _, elemsOf_small hf _, hwrites, hreads, hvalid, hbytes⟩

/-- The row written anew. -/
theorem RowHolds.putRow_same {w : Who} {l : List Nat} (h : RowHolds u w.req dst q row) (hx : dst.Lies) (hq : q < dst.rows)
    (hl : l.length = dst.cols) (hsmall : ∀ v ∈ l, v < 256 ^ dst.fmt.bytes) : RowHolds (u.putRow w dst q l) w.req dst q l where
  length := hl
  small := hsmall
  writes m hm := (mayAccess_store _ _ _ _ _ _).trans (h.writes m hm)
  reads m hm := (mayAccess_store _ _ _ _ _ _).trans (h.reads m hm)
  valid m hm := lineValid_store_of _ _ _ (h.valid m hm)
  bytes m hm := (rawByte_putRow_in hx w l hq hl hm).trans (if_pos (h.writes m hm))

/-- Another row written. -/
theorem RowHolds.putRow_other {w : Who} {l : List Nat} {n : Nat} (h : RowHolds u w.req dst q row) (hx : dst.Lies) (hq : q < dst.rows)
    (hn : n < dst.rows) (hne : n ≠ q) (hl : l.length = dst.cols) : RowHolds (u.putRow w dst n l) w.req dst q row where
  length := h.length
  small := h.small
  writes m hm := (mayAccess_store _ _ _ _ _ _).trans (h.writes m hm)
  reads m hm := (mayAccess_store _ _ _ _ _ _).trans (h.reads m hm)
  valid m hm := lineValid_store_of _ _ _ (h.valid m hm)
  bytes m hm := by
    have hapart (k : Nat) (hk : k < dst.rowBytes) : (dst.rowAddr q).plus m ≠ (dst.rowAddr n).plus k := by
      rcases Nat.lt_or_gt_of_ne hne with hlt | hgt
      · exact (hx.rows_apart hlt hk).symm
      · exact hx.rows_apart hgt hm
    rw [rawByte_putRow_out hx w l hn hl (hx.realByte hq hm) hapart]
    exact h.bytes m hm

/-! ### The rows that SCATTER adds to (05 R123) -/

/-- The entry of the instruction's expert in record row q. -/
def Env.gate (e : Env) (s : State) (rec : Addr) (q : Nat) : Option TopEntry := recFind s e.req rec e.routeK q (e.f 15 0)

/-- The elements of a destination row with the gate times row m of the source added. -/
def Env.gated (e : Env) (s : State) (src dst : Tile) (en : TopEntry) (row : List Nat) (m : Nat) : List Nat :=
  (row.zip (s.tileRow e.req src m)).map fun y => scatterElem dst.fmt src.fmt (BitVec.ofNat 32 en.value) y.1 y.2

/-- Row q with row m of the source added, where the record of row q has the expert. -/
def Env.scatterInto (e : Env) (s : State) (src dst : Tile) (rec : Addr) (q : Nat) (row : List Nat) (m : Nat) : List Nat :=
  match e.gate s rec q with
  | none => row
  | some en => e.gated s src dst en row m

/-- One addition: the row that the index tile names, and the source row. -/
def Env.scatterStep (e : Env) (s : State) (src dst : Tile) (rec : Addr) (t : State) (x : Nat × Nat) : State :=
  match e.gate s rec x.1 with
  | none => t
  | some en => t.putRow e.who dst x.1 (e.gated s src dst en (t.tileRow e.req dst x.1) x.2)

theorem gated_length (hc : src.cols = dst.cols) {en : TopEntry} {m : Nat} (h : row.length = dst.cols) :
    (e.gated s src dst en row m).length = dst.cols := by simp [Env.gated, h, hc]

theorem gated_small (hf : okFloat dst.fmt = true) {en : TopEntry} {m : Nat} :
    ∀ v ∈ e.gated s src dst en row m, v < 256 ^ dst.fmt.bytes := by
  intro v hv
  obtain ⟨y, -, rfl⟩ := List.mem_map.mp hv
  exact scatterElem_lt hf _ _ _ _

/-- An addition leaves row q with the source row added where it names row q, else as it was. -/
theorem RowHolds.scatterStep (h : RowHolds u e.req dst q row) (hx : dst.Lies) (hq : q < dst.rows) (hf : okFloat dst.fmt = true)
    (hc : src.cols = dst.cols) {x : Nat × Nat} (hx1 : x.1 < dst.rows) :
    RowHolds (e.scatterStep s src dst rec u x) e.req dst q (if x.1 = q then e.scatterInto s src dst rec q row x.2 else row) := by
  unfold Env.scatterStep
  split
  · rename_i hgate
    split
    · rename_i hxq
      rw [hxq] at hgate
      simpa only [Env.scatterInto, hgate] using h
    · exact h
  · rename_i en hgate
    split
    · rename_i hxq
      rw [hxq] at hgate ⊢
      simp only [Env.scatterInto, hgate, h.tileRow (okFloat_not_int4 hf)]
      exact h.putRow_same (w := e.who) hx hq (gated_length hc h.length) (gated_small hf)
    · rename_i hxq
      exact h.putRow_other (w := e.who) hx hq hx1 hxq (gated_length hc (tileRow_length _ _ _ _))

/-- The source rows that are added to row q, in index order. -/
def addedTo (l : List (Nat × Nat)) (q : Nat) : List Nat := (l.filter fun x => x.1 == q).map (·.2)

theorem foldS_cons {α : Type} (s : State) (x : α) (l : List α) (f : State → α → State) :
    foldS s (x :: l) f = foldS (f s x) l f := rfl

/-- All additions: row q with its source rows added one after another. -/
theorem RowHolds.scatter (h : RowHolds u e.req dst q row) (hx : dst.Lies) (hq : q < dst.rows) (hf : okFloat dst.fmt = true)
    (hc : src.cols = dst.cols) (l : List (Nat × Nat)) (hl : ∀ x ∈ l, x.1 < dst.rows) :
    RowHolds (foldS u l (e.scatterStep s src dst rec)) e.req dst q ((addedTo l q).foldl (e.scatterInto s src dst rec q) row) := by
  induction l generalizing u row with
  | nil => exact h
  | cons x l ih =>
    have hstep := ih (h.scatterStep (s := s) (rec := rec) hx hq hf hc (hl x List.mem_cons_self))
      fun y hy => hl y (List.mem_cons_of_mem x hy)
    by_cases hxq : x.1 = q
    · rw [if_pos hxq] at hstep
      simpa [foldS_cons, addedTo, hxq] using hstep
    · rw [if_neg hxq] at hstep
      simpa [foldS_cons, addedTo, hxq] using hstep

/-- Bytes outside the rows that the index tile names stay. -/
theorem rawByte_scatter_other (hx : dst.Lies) (hc : src.cols = dst.cols) (l : List (Nat × Nat)) (hl : ∀ x ∈ l, x.1 < dst.rows)
    {a : Addr} (ha : realAddr a) (hout : ∀ x ∈ l, ∀ m, m < dst.rowBytes → a ≠ (dst.rowAddr x.1).plus m) :
    (foldS u l (e.scatterStep s src dst rec)).rawByte a = u.rawByte a := by
  refine foldS_keeps_mem (p := fun t => t.rawByte a = u.rawByte a) (fun t x hxl ht => ?_) rfl
  unfold Env.scatterStep
  split
  · exact ht
  · rw [rawByte_putRow_out hx _ _ (hl x hxl) (gated_length hc (tileRow_length _ _ _ _)) ha (hout x hxl), ht]

theorem sameStreams_scatter (t s : State) (e : Env) (src dst : Tile) (rec : Addr) (l : List (Nat × Nat)) :
    SameStreams t (foldS t l (e.scatterStep s src dst rec)) := by
  refine foldS_keeps (p := SameStreams t) _ (fun u x h => h.trans ?_) l (.refl t)
  unfold Env.scatterStep
  split
  · exact .refl u
  · exact sameStreams_putRow _ _ _ _ _

/-- The rows that the index tile names, in index order. -/
def Env.scatterList (e : Env) (s : State) (aux : Tile) : List Nat :=
  (List.range (s.elem e.req aux 0 0)).map fun m => s.elem e.req aux 0 (m + 1)

/-- The body, where the index tile and the formats fit, and the index tile names rows that both tiles have. -/
theorem scatterBody_ok (hd : e.tile s (e.f 111 102) = .ok dst) (hs : e.tile s (e.f 101 92) = .ok src)
    (ha : e.tile s (e.f 91 82) = .ok aux) (hrec : mAddr s e.c e.y (e.f 63 32) (8 * e.routeK * dst.rows) 8 = .ok rec)
    (haf : aux.fmt = .int32) (har : aux.rows = 1) (hac : src.rows + 1 ≤ aux.cols) (hfd : okFloat dst.fmt = true)
    (hfs : okFloat src.fmt = true) (hc : src.cols = dst.cols) :
    ∃ k, scatterBody e s = e.routeIssue s (e.routeSem s.lnk.node (some dst)) src rec dst.rows [aux]
        [src.rng false, aux.rng false, rec.rng (8 * e.routeK * dst.rows) false, dst.rng true] k ∧
      (s.elem e.req aux 0 0 ≤ src.rows → (∀ q ∈ e.scatterList s aux, q < dst.rows) →
        ∀ t, k t = .ok (foldS t (e.scatterList s aux).zipIdx (e.scatterStep s src dst rec))) := by
  have hok : ¬ (aux.fmt ≠ .int32 ∨ aux.rows ≠ 1 ∨ aux.cols < src.rows + 1 ∨ (!okFloat dst.fmt) = true ∨
      (!okFloat src.fmt) = true ∨ src.cols ≠ dst.cols) := by
    simp [haf, har, hfd, hfs, hc, Nat.not_lt.mpr hac]
  simp only [scatterBody, hd, hs, ha, hrec, Ans.of]
  refine ⟨_, if_neg hok, fun hn hrows t => ?_⟩
  have hlist : (List.range (min (auxAt s e.req aux 0) src.rows)).map (fun i => auxAt s e.req aux (i + 1)) = e.scatterList s aux :=
    congrArg (fun n => (List.range n).map fun i => auxAt s e.req aux (i + 1)) (Nat.min_eq_left hn)
  rw [hlist, if_neg]
  · rfl
  · rintro (h | h)
    · exact absurd hn (Nat.not_le.mpr h)
    · obtain ⟨q, hq, hbad⟩ := List.any_eq_true.mp h
      exact absurd (hrows q hq) (Nat.not_lt.mpr (of_decide_eq_true hbad))

/-- The state once SCATTER has read its operands and made its additions. -/
def State.scattered (s : State) (e : Env) (src dst aux : Tile) (rec : Addr) : State :=
  foldS (s.noteReads e.who (e.routeReads src rec dst.rows [aux])) (e.scatterList s aux).zipIdx (e.scatterStep s src dst rec)

theorem foldl_scatterInto (l : List Nat) (row : List Nat) :
    l.foldl (e.scatterInto s src dst rec q) row =
      match e.gate s rec q with
      | none => row
      | some en => l.foldl (e.gated s src dst en) row := by
  unfold Env.scatterInto
  cases e.gate s rec q with
  | none => exact List.foldl_fixed l
  | some en => rfl

section Scattered

variable (hx : dst.Lies) (hc : src.cols = dst.cols) (hlist : ∀ q ∈ e.scatterList s aux, q < dst.rows)
include hx hc hlist

/-- A row that the index tile names, where the job may read and write it, holds its additions. -/
theorem rawByte_scattered_row (hf : okFloat dst.fmt = true) (hq : q ∈ e.scatterList s aux)
    (hright : ∀ m, m < dst.rowBytes → s.mayAccess e.req ((dst.rowAddr q).plus m) true = true ∧
      s.mayAccess e.req ((dst.rowAddr q).plus m) false = true ∧ s.lineValid ((dst.rowAddr q).plus m) = true)
    {m : Nat} (hm : m < dst.rowBytes) :
    (s.scattered e src dst aux rec).rawByte ((dst.rowAddr q).plus m) =
      (packElems dst.fmt ((addedTo (e.scatterList s aux).zipIdx q).foldl (e.scatterInto s src dst rec q)
        (s.tileRow e.req dst q))).getD m 0 := by
  have hmem := sameMemory_noteReads s e.who (e.routeReads src rec dst.rows [aux])
  have hstart := rowHolds_tileRow (u := s.noteReads e.who (e.routeReads src rec dst.rows [aux])) (r := e.req)
    (okFloat_not_int4 hf) fun k hk => by
      rw [hmem.sameStore.2, hmem.sameStore.2, hmem.lineValid]
      exact hright k hk
  rw [hmem.tileRow] at hstart
  exact (hstart.scatter (s := s) (rec := rec) hx (hlist q hq) hf hc _ fun x hx => hlist x.1 (List.fst_mem_of_mem_zipIdx hx)).bytes m hm

/-- Every other byte stays. -/
theorem rawByte_scattered_other {a : Addr} (ha : realAddr a)
    (hout : ∀ q ∈ e.scatterList s aux, ∀ m, m < dst.rowBytes → a ≠ (dst.rowAddr q).plus m) :
    (s.scattered e src dst aux rec).rawByte a = s.rawByte a :=
  (rawByte_scatter_other hx hc _ (fun x hx => hlist x.1 (List.fst_mem_of_mem_zipIdx hx)) ha fun x hx =>
    hout x.1 (List.fst_mem_of_mem_zipIdx hx)).trans ((sameMemory_noteReads _ _ _).sameStore.1 a)

end Scattered

/-! ### The obligation -/

/-- Both commands that gather rows. -/
theorem gather_issues {cmd : Issue → Instr} (h : cmd ∈ [Instr.gather, .dispatch]) :
    ∃ op remote, (remote = true → cmd = Instr.dispatch) ∧
      ∀ i, (cmd i).wf = i.spells 6 op 0 ∧ ∀ s, exec (cmd i) s = .next (s.issue i (rowCode 6 op 0) (gatherBody remote)) := by
  rcases List.mem_cons.mp h with rfl | h
  · exact ⟨1, false, fun h => absurd h Bool.false_ne_true, fun _ => ⟨rfl, fun _ => rfl⟩⟩
  · rw [List.mem_singleton.mp h]
    exact ⟨3, true, fun _ => rfl, fun _ => ⟨rfl, fun _ => rfl⟩⟩

/-- Settles O19: each ROUTE reads its operands, makes its writes from what they were before, and stays outstanding. -/
theorem routeInstructionsResult : Obligations.RouteInstructionsResult := by
  intro s i j dst src aux rec hi hbad e y r k p issued noted hsrc
  have hclear {recRows : Nat} {auxs : List Tile} {sem : Option SemRef} {rs : List Rng}
      (h : issued recRows (auxs.flatMap (·.reads)) sem rs) : mAddr s e.c e.y (e.f 63 32) (8 * e.routeK * recRows) 8 = .ok rec ∧
        RouteClear s e (e.routeReads src rec recRows auxs) sem rs := by
    obtain ⟨hrec, hsem, hfits, hhaz, hpoison⟩ := h
    exact ⟨hrec, hbad, hsem, hfits, hhaz, hpoison⟩
  refine ⟨?topk, fun hdst haux haf har hrun hc => ⟨?gather, ?scatter⟩⟩
  case topk =>
    intro sem rs hw hf hissued
    obtain ⟨hrec, hroute⟩ := hclear (auxs := []) hissued
    refine route_issued hi hw (topkBody_ok hsrc hf hrec) hroute rfl (sameStreams_topMerged _ _ _ _ _) fun t ht a => ?_
    rw [ht.sameStore.1, Env.routeReads, List.flatMap_nil, List.append_nil]
    rfl
  case gather =>
    intro cmd hcmd hw hnode hf hac sem rs rows hissued hcap
    obtain ⟨hrec, hroute⟩ := hclear (auxs := []) hissued
    obtain ⟨op, remote, hremote, hcmd⟩ := gather_issues hcmd
    have hbody := gatherBody_ok hdst hsrc haux hrec haf har hac hf hc hrun fun h => hnode (hremote h)
    have hk : (if dst.rows < rows.length then .error { code := Ev.routeCap }
        else .ok (gatherWrite e (some s.lnk.node) s src dst aux rows (s.noteReads e.who (e.routeReads src rec src.rows []))) :
          Except Fail State) =
        .ok ((s.noteReads e.who (e.routeReads src rec src.rows [])).gathered s e src dst aux rows) := by
      rw [if_neg (Nat.not_lt.mpr hcap), ← (sameSending_noteReads s e.who (e.routeReads src rec src.rows [])).lnk, gatherWrite_here s hcap]
    rw [(hcmd i).2]
    refine route_issued hi ((hcmd i).1.symm.trans hw) hbody hroute hk (sameStreams_gathered _ _ _ _ _ _ _) fun t ht => ?_
    have hbytes := gathered_bytes (s := s) (e := e) (rows := rows) (e.routeReads src rec src.rows []) (tile_lies hdst) (tile_lies haux)
      haf har ((Nat.succ_le_succ hcap).trans hac) (rowBytes_eq hf hc)
    simp only [ht.sameStore.1]
    exact hbytes
  case scatter =>
    intro hw hfd hfs hac sem rs n list hissued hn hlist
    obtain ⟨hrec, hroute⟩ := hclear (auxs := [aux]) (by simpa using hissued)
    obtain ⟨k, hbody, hk⟩ := scatterBody_ok hdst hsrc haux hrec haf har hac hfd hfs hc
    have hlies : dst.Lies := tile_lies hdst
    refine route_issued hi hw hbody hroute (hk hn hlist _) (sameStreams_scatter _ _ _ _ _ _ _) fun t ht => ⟨fun q hq _ hright => ?_,
      fun a ha hout => (ht.sameStore.1 a).trans (rawByte_scattered_other (s := s) (e := e) hlies hc hlist ha hout)⟩
    intro gated row m hm
    have hbytes := rawByte_scattered_row (s := s) (e := e) (rec := rec) hlies hc hlist hfd hq hright hm
    rw [foldl_scatterInto] at hbytes
    exact (ht.sameStore.1 _).trans hbytes

end Sys2Proof.Machine
end

section
/-! PROOFS. Synchronisation (chapter 06), signals: what a semaphore is after its count changed, what stopping a job leaves, and what a
signal comes to. -/

namespace Sys2Proof.Machine

open Sys2Proof Sys2Proof.Safety

variable {s t u : State}

/-! ### A count and its waiters (06 R135) -/

theorem foldl_wake_sems (l : List Waiter) (x : Cluster) : (l.foldl (fun y w => y.wake w.slot.val) x).sems = x.sems := by
  obtain ⟨m, h⟩ := foldl_wake_only l x
  rw [h]

/-- The takers of a semaphore, in queue order. -/
def Cluster.takers (x : Cluster) (i : Nat) : List Waiter := x.waiters.filter fun w => w.sem == i && w.take

/-- The count that the two passes leave: the takers that are released take theirs, unless the count is held at its limit (06 R136). -/
def Cluster.leftOf (x : Cluster) (i : Nat) : W32 :=
  if x.stuck.contains i then x.sem i else BitVec.ofNat 32 (takePass (x.sem i).toNat (x.takers i)).1

theorem Cluster.release_sems (x : Cluster) (i : Nat) : (x.release i).sems = mset 0 x.sems i (x.leftOf i) := by
  unfold Cluster.release
  dsimp only
  rw [foldl_wake_sems]
  simp only [Cluster.leftOf, Cluster.takers, List.filter_filter, Bool.and_comm]

theorem Cluster.release_stuck (x : Cluster) (i : Nat) : (x.release i).stuck = x.stuck := by
  obtain ⟨m, w, l, h⟩ := x.release_only i
  rw [h]

theorem Cluster.release_sem (x : Cluster) (i k : Nat) : (x.release i).sem k = if k = i then x.leftOf i else x.sem k := by
  rw [Cluster.sem, Cluster.release_sems, mget_mset]
  rfl

theorem Cluster.setSem_ne (x : Cluster) {i k : Nat} (v : W32) (h : k ≠ i) : (x.setSem i v).sem k = x.sem k := by
  rw [Cluster.setSem, Cluster.release_sem, if_neg h, Cluster.sem, mget_mset_ne _ _ _ _ h]
  rfl

/-- A count that is not held takes its new value, and the takers whose counts are met take theirs of it. -/
theorem Cluster.setSem_free (x : Cluster) {i : Nat} (v : W32) (h : i ∉ x.stuck) :
    (x.setSem i v).sem i = BitVec.ofNat 32 (takePass v.toNat (x.takers i)).1 := by
  rw [Cluster.setSem, Cluster.release_sem, if_pos rfl, Cluster.leftOf, if_neg (by simpa using h)]
  simp only [Cluster.sem, mget_mset_same]
  rfl

/-! ### A count at its limit stays (06 R136) -/

/-- Semaphore `i` is held at `v`. -/
def Cluster.HeldAt (i : Nat) (v : W32) (x : Cluster) : Prop := i ∈ x.stuck ∧ x.sem i = v

theorem heldAt_release {x : Cluster} {i : Nat} {v : W32} (h : x.HeldAt i v) (k : Nat) : (x.release k).HeldAt i v := by
  refine ⟨by rw [Cluster.release_stuck]; exact h.1, ?_⟩
  rw [Cluster.release_sem]
  split
  · next hk => rw [← hk, Cluster.leftOf, if_pos (by simpa using h.1), h.2]
  · exact h.2

theorem heldAt_setSem (x : Cluster) {i : Nat} (v : W32) (h : i ∈ x.stuck) : (x.setSem i v).HeldAt i v :=
  heldAt_release (x := { x with sems := mset 0 x.sems i v }) ⟨h, mget_mset_same _ _ _ _⟩ i

theorem heldAt_releases (l : List Waiter) {x : Cluster} {i : Nat} {v : W32} (h : x.HeldAt i v) :
    (l.foldl (fun x w => x.release w.sem) x).HeldAt i v := by
  induction l generalizing x with
  | nil => exact h
  | cons w l ih => exact ih (heldAt_release h w.sem)

/-- Granting arrays changes the owners and the arbiter's turn alone. -/
theorem Cluster.grantLoop_only (n : Nat) (x : Cluster) (taken : List Nat) (want : List GId) :
    ∃ o a, x.grantLoop n taken want = { x with owners := o, arrTurn := a } := by
  induction n generalizing x taken want with
  | zero => exact ⟨_, _, rfl⟩
  | succ n ih =>
    unfold Cluster.grantLoop
    dsimp only
    split
    · exact ⟨_, _, rfl⟩
    · split
      · exact ⟨_, _, rfl⟩
      · split
        · exact ih _ _ _
        · obtain ⟨o, a, h⟩ := ih { x with owners := x.owners ++ [_], arrTurn := _ } _ _
          exact ⟨o, a, h⟩

theorem heldAt_grant {x : Cluster} {i : Nat} {v : W32} (h : x.HeldAt i v) : x.grant.HeldAt i v := by
  obtain ⟨o, a, hg⟩ := x.grantLoop_only 16 (x.owners.flatMap fun g => (x.group g.val).arrays) x.wanting
  rw [Cluster.grant, hg]
  exact h

/-- What a change of one cluster keeps of it holds of every cluster as before. -/
theorem clu_modClu_keeps {p : Cluster → Prop} {c : Nat} (c' : Nat) {f : Cluster → Cluster} (hf : ∀ x, p x → p (f x)) (h : p (s.clu c)) :
    p ((s.modClu c' f).clu c) := by
  rw [State.clu_modClu]
  split
  · next hc => exact hf _ (hc ▸ h)
  · exact h

section Held

variable {c i : Nat} {v : W32}

theorem heldAt_setSlot (h : (s.clu c).HeldAt i v) (c' k : Nat) (y : Slot) : ((s.setSlot c' k y).clu c).HeldAt i v :=
  clu_modClu_keeps c' (fun _ hx => hx) h

theorem heldAt_slotIdle (h : (s.clu c).HeldAt i v) (c' : CId) (k : SId) : ((s.slotIdle c' k).clu c).HeldAt i v :=
  heldAt_setSlot h _ _ _

theorem heldAt_abortSlot (h : (s.clu c).HeldAt i v) (c' : CId) (k : SId) : ((s.abortSlot c' k).clu c).HeldAt i v := by
  unfold State.abortSlot
  dsimp only
  generalize (s.clu c'.val).waiters.filter _ = left
  have hleft : ((s.modClu c'.val fun x =>
      left.foldl (fun x w => x.release w.sem) { x with waiters := x.waiters.filter fun w => w.slot != k }).clu c).HeldAt i v :=
    clu_modClu_keeps c'.val (fun x hx => heldAt_releases left (x := { x with waiters := _ }) hx) h
  generalize State.modClu s _ _ = u at hleft ⊢
  have hgroups {f : Cluster → SMap Group} : ((u.modClu c'.val fun x => { x with groups := f x }).clu c).HeldAt i v :=
    clu_modClu_keeps c'.val (fun _ hx => hx) hleft
  split
  · exact heldAt_slotIdle hgroups _ _
  · exact heldAt_setSlot hgroups _ _ _

/-- Stopping a job leaves a count at its limit, whatever waiters leave with it. -/
theorem heldAt_stopJob (h : (s.clu c).HeldAt i v) (t : Tag) (st : Nat) (ev : W16) : ((s.stopJob t st ev).clu c).HeldAt i v := by
  unfold State.stopJob State.haltJob
  split
  · exact h
  · next j _ =>
    dsimp only
    split
    · exact h
    · have hslots := foldS_keeps (p := fun s => (s.clu c).HeldAt i v) (fun s (e : CId × SId) => s.abortSlot e.1 e.2)
        (fun s e hs => heldAt_abortSlot hs e.1 e.2) j.live (s := s.modJob t fun j => { j with stop := some (st, ev) }) h
      have hgrant := foldS_keeps (p := fun s => (s.clu c).HeldAt i v) (fun s (c : CId) => s.grantArrays c.val)
        (fun s c' hs => clu_modClu_keeps c'.val (fun _ => heldAt_grant) hs) (clustersOf j.d.clusters) hslots
      split
      · exact hgrant
      · exact hgrant

end Held

/-! ### What a stop makes of its job -/

/-- A live job that a stop finds running has its status and event. -/
theorem stopJob_stops {t : Tag} {j : Job} {st : Nat} {ev : W16} (hj : s.job t = some j) (hs : j.stop = none) :
    ∀ j', (s.stopJob t st ev).job t = some j' → j'.stop = some (st, ev) := by
  intro j' hj'
  have hall := stopJob_jobs (p := fun j => j.admitted = true → j.tag = t → j.phase ≠ .ended → j.stop = some (st, ev)) (st := st) (ev := ev)
    (fun _ _ _ _ h => h) hj hs fun i hi => by
      obtain ⟨i₀, -, rfl⟩ := List.mem_map.mp hi
      split
      · exact fun _ _ _ => rfl
      · next hlive => exact fun ha ht hp => absurd (by simp [ha, ht, hp]) hlive
  have hp := List.find?_some hj'
  simp only [Bool.and_eq_true, beq_iff_eq, bne_iff_ne] at hp
  exact hall j' (List.mem_of_find?_eq_some hj') hp.1.1 hp.1.2 hp.2

/-! ### A signal of this node (06 R134, R136, R141) -/

variable {tag : Tag} {j : Job} {c i : Nat} {n : W32} {sub : Byte}

/-- A signal that the window takes reaches a count that is not held: it adds. -/
theorem signalSem_adds (hj : s.job tag = some j) (hh : j.holdsSem c i = true) (hs : i ∉ (s.clu c).stuck)
    (hn : ((s.clu c).sem i).toNat + n.toNat < 2 ^ 32) :
    s.signalSem tag c i n sub = s.setClu c ((s.clu c).setSem i ((s.clu c).sem i + n)) := by
  unfold State.signalSem
  rw [hj]
  dsimp only
  rw [if_neg (by simp [hh]), if_neg (by simpa using hs), if_neg (Nat.not_le.mpr hn)]

theorem signalSem_stuck (hj : s.job tag = some j) (hh : j.holdsSem c i = true) (hs : i ∈ (s.clu c).stuck) :
    s.signalSem tag c i n sub = s := by
  unfold State.signalSem
  rw [hj]
  dsimp only
  rw [if_neg (by simp [hh]), if_pos (by simpa using hs)]

/-- The state with semaphore i of cluster c at its limit for good. -/
def State.saturate (s : State) (c i : Nat) : State :=
  s.setClu c (({ s.clu c with stuck := i :: (s.clu c).stuck } : Cluster).setSem i (BitVec.allOnes 32))

/-- SEM_SAT of a count that its signal took to the limit (17 Table 17.3). -/
def satInfo (s : State) (c i : Nat) (sub : Byte) : EvInfo :=
  { unit := BitVec.ofNat 8 c, sub := sub, aux := BitVec.ofNat 16 i
    arg := BitVec.ofNat 64 (((s.clu c).sem i).toNat * 2 ^ 32 + 0xFFFF_FFFF) }

theorem signalSem_saturates (hj : s.job tag = some j) (hh : j.holdsSem c i = true) (hs : i ∉ (s.clu c).stuck)
    (hn : 2 ^ 32 ≤ ((s.clu c).sem i).toNat + n.toNat) :
    s.signalSem tag c i n sub = (s.saturate c i).faultJob tag Ev.semSat (satInfo s c i sub) := by
  unfold State.signalSem
  rw [hj]
  dsimp only
  rw [if_neg (by simp [hh]), if_neg (by simpa using hs), if_pos hn]
  rfl

/-- A job fault raises the event of its job, and a stop raises none. -/
theorem faultJob_evt (s : State) (tag : Tag) (code : W16) (info : EvInfo) :
    (s.faultJob tag code info).evt = (s.raiseJob tag code info).evt := by
  obtain ⟨m, l, b, o, h⟩ := stopJob_only (s.raiseJob tag code info) tag Stat.fault code
  rw [State.faultJob, h]

/-- Settles O23: the count is at its limit before the job is stopped, and no release moves it from there. -/
theorem signalSaturatesAndSticks : Obligations.SignalSaturatesAndSticks := by
  intro s j tag c i n hj hh x u
  refine ⟨fun hs hn => ?_, fun hs => signalSem_stuck hj hh hs⟩
  have hu : u = (s.saturate c i).faultJob tag Ev.semSat (satInfo s c i 0xFF) := signalSem_saturates hj hh hs hn
  obtain ⟨e, hraise⟩ := raiseJob_only (s.saturate c i) tag Ev.semSat (satInfo s c i 0xFF)
  rw [hu]
  have hheld : (((s.saturate c i).faultJob tag Ev.semSat (satInfo s c i 0xFF)).clu c).HeldAt i (BitVec.allOnes 32) := by
    refine heldAt_stopJob ?_ tag Stat.fault Ev.semSat
    rw [hraise]
    change ((s.saturate c i).clu c).HeldAt i _
    rw [State.saturate, State.clu_setClu]
    exact heldAt_setSem _ _ List.mem_cons_self
  refine ⟨hheld.2, hheld.1, ?_, fun hrun => ?_⟩
  · have hdom : (s.saturate c i).domainOf tag = j.d.domain := by
      have : (s.saturate c i).job tag = some j := hj
      rw [State.domainOf, this]
    rw [faultJob_evt, State.raiseJob, hdom]
    exact raise_evt_congr (by rfl) (by rfl) (by rfl) _ _
  · refine stopJob_stops (j := j) ?_ hrun
    rw [hraise]
    exact hj

end Sys2Proof.Machine
end

section
/-! PROOFS. Synchronisation (chapter 06), the SYNC instructions: SIGNAL, the two waits and BARRIER. -/

namespace Sys2Proof.Machine

open Sys2Proof Sys2Proof.Safety

variable {s t : State} {i : Issue} {j : Job} {e : Env} {take : Bool}

/-! ### A slot that goes on blocked -/

@[simp] theorem Slot.setX_wait (y : Slot) (n : Nat) (v : W32) : (y.setX n v).wait = y.wait := by
  unfold Slot.setX
  split <;> rfl

@[simp] theorem Slot.setX_waitIndex (y : Slot) (n : Nat) (v : W32) : (y.setX n v).waitIndex = y.waitIndex := by
  unfold Slot.setX
  split <;> rfl

/-- What the slot waits for, and in which state it is. -/
def Slot.blocking (y : Slot) : SlotState × WaitKind × Nat := (y.state, y.wait, y.waitIndex)

theorem Slot.goTo_blocking (y : Slot) (pc : Nat) : (y.goTo pc).blocking = y.blocking := by
  unfold Slot.goTo
  dsimp only
  split <;> simp [Slot.blocking]

/-- A slot that waits for a semaphore or a barrier goes on past its instruction and waits (05 Table 5.13). -/
theorem goesOn_blocking (now : W64) {y : Slot} (pc : W48) (h : y.wait ≠ .hazard) : (goesOn now y pc).blocking = y.blocking := by
  rw [goesOn, Slot.goTo_blocking, Slot.unstall, if_neg fun hw => h hw.2]
  rfl

theorem State.slot_setSlot_ne {c k c' k' : Nat} (y : Slot) (h : (c', k') ≠ (c, k)) : (s.setSlot c k y).slot c' k' = s.slot c' k' := by
  rw [State.slot, State.setSlot, State.clu_modClu]
  split
  · next hc =>
    rw [hc, Cluster.slot_setSlot_ne _ _ fun hk => h (by rw [hc, hk])]
    rfl
  · rfl

/-! ### The window of a job (06 R133) -/

/-- The count that a SYNC instruction names lies in its job's window on this node. -/
structure InWindow (s : State) (e : Env) : Prop where
  node : e.semRef.node = s.lnk.node
  holds : e.job.holdsSem e.semRef.cluster.val e.semRef.index = true

theorem semCheck_inWindow (h : InWindow s e) : semCheck s e.job (some e.semRef) = .ok () := if_pos (.inr h.holds)

theorem semCheck_outside {r : SemRef} (hn : r.node = s.lnk.node) (hh : j.holdsSem r.cluster.val r.index = false) :
    semCheck s j (some r) = .error (semFail s r) := if_neg (by simp [hn, hh])

/-! ### SIGNAL (06 R134) -/

theorem signalBody_here (h : InWindow s e) (hout : ∀ o ∈ e.y.out, o.kind = .remoteSignal) :
    signalBody e s =
      .ok (s.signalSem e.job.tag e.semRef.cluster.val e.semRef.index e.count (BitVec.ofNat 8 e.k.val)) := by
  have hfree : (e.y.out.any fun o => o.kind != .remoteSignal) = false := by simpa using hout
  simp only [signalBody, semCheck_inWindow h, Ans.of, hfree, h.node, if_true, State.signalTo]
  rfl

theorem signalBody_outside (hn : e.semRef.node = s.lnk.node)
    (hh : e.job.holdsSem e.semRef.cluster.val e.semRef.index = false) : signalBody e s = .fail (semFail s e.semRef) := by
  rw [signalBody, semCheck_outside hn hh]
  rfl

/-! ### The waits (06 R135) -/

theorem waitBody_elsewhere (h : e.semRef.node ≠ s.lnk.node ∨ e.semRef.cluster ≠ e.c) : waitBody take e s = .fail { code := Ev.semAddr } :=
  if_pos h

theorem waitBody_outside (hn : e.semRef.node = s.lnk.node) (hc : e.semRef.cluster = e.c)
    (hh : e.job.holdsSem e.semRef.cluster.val e.semRef.index = false) : waitBody take e s = .fail (semFail s e.semRef) := by
  rw [waitBody, if_neg (by simp [hn, hc]), semCheck_outside hn hh]
  rfl

/-- An earlier taker waits for the count. -/
def Cluster.queued (x : Cluster) (i : Nat) : Bool := x.waiters.any fun w => w.take && w.sem == i

/-- The count meets the wait, and no earlier taker stands before a taker. -/
def Env.met (e : Env) (s : State) (take : Bool) : Prop :=
  e.count.toNat ≤ ((s.clu e.c.val).sem e.semRef.index).toNat ∧ (take && (s.clu e.c.val).queued e.semRef.index) = false

/-- The slot of a wait that blocks. -/
def Env.semWaiting (e : Env) (s : State) : Slot :=
  { s.slot e.c.val e.k.val with state := .waiting, wait := .semaphore, waitIndex := e.semRef.index }

/-- The cluster with a waiter more. -/
def Cluster.addWaiter (x : Cluster) (w : Waiter) : Cluster := { x with waiters := x.waiters ++ [w] }

/-- The state with the wait of `e` queued and its slot blocked. -/
def State.queueWait (s : State) (e : Env) (take : Bool) : State :=
  (s.modClu e.c.val (·.addWaiter ⟨e.k, e.semRef.index, take, e.count⟩)).setSlot e.c.val e.k.val (e.semWaiting s)

theorem queueWait_eq (s : State) (e : Env) (take : Bool) :
    s.setClu e.c.val (((s.clu e.c.val).addWaiter ⟨e.k, e.semRef.index, take, e.count⟩).setSlot e.k.val (e.semWaiting s)) =
      s.queueWait e take := by
  simp [State.queueWait, State.setSlot, State.modClu]

theorem waitBody_met (h : InWindow s e) (hc : e.semRef.cluster = e.c) (h0 : 0 < e.count.toNat) (hm : e.met s take) :
    waitBody take e s = .ok (
      if take ∧ !(s.clu e.c.val).stuck.contains e.semRef.index then
        s.setClu e.c.val ((s.clu e.c.val).setSem e.semRef.index ((s.clu e.c.val).sem e.semRef.index - e.count))
      else s) := by
  have hn : e.count ≠ 0 := fun hz => by simp [hz] at h0
  rw [waitBody, if_neg (by simp [h.node, hc]), semCheck_inWindow h]
  exact (if_neg hn).trans (if_pos ⟨hm.1, by rw [Bool.not_eq_true']; exact hm.2⟩)

theorem waitBody_blocks (h : InWindow s e) (hc : e.semRef.cluster = e.c) (h0 : 0 < e.count.toNat) (hm : ¬ e.met s take) :
    waitBody take e s = .ok (s.queueWait e take) := by
  have hn : e.count ≠ 0 := fun hz => by simp [hz] at h0
  rw [waitBody, if_neg (by simp [h.node, hc]), semCheck_inWindow h]
  refine ((if_neg hn).trans (if_neg fun hq => hm ⟨hq.1, ?_⟩)).trans (congrArg Ans.ok (queueWait_eq s e take))
  rw [← Bool.not_eq_true']
  exact hq.2

theorem sameStreams_addWaiter (s : State) (c : Nat) (w : Waiter) : SameStreams s (s.modClu c (·.addWaiter w)) :=
  sameStreams_modClu _ _ _ rfl rfl

/-- What a wait that blocks leaves, once its slot has gone on. -/
theorem queueWait_advance (s : State) (e : Env) (take : Bool) (pc : W48) :
    let u := (s.queueWait e take).advance e.c e.k pc.toNat
    (u.clu e.c.val).sems = (s.clu e.c.val).sems ∧
      (u.clu e.c.val).waiters = (s.clu e.c.val).waiters ++ [⟨e.k, e.semRef.index, take, e.count⟩] ∧
      (u.slot e.c.val e.k.val).blocking = (.waiting, .semaphore, e.semRef.index) ∧
      ∀ c' k', (c', k') ≠ (e.c.val, e.k.val) → u.slot c' k' = s.slot c' k' := by
  have hslot : (s.queueWait e take).slot e.c.val e.k.val = e.semWaiting s := State.slot_setSlot _ _ _ _
  have hfield {α : Type} (π : Cluster → α) (hs : ∀ x k y, π (Cluster.setSlot x k y) = π x) :
      π (((s.queueWait e take).advance e.c e.k pc.toNat).clu e.c.val) =
        π ((s.clu e.c.val).addWaiter ⟨e.k, e.semRef.index, take, e.count⟩) := by
    rw [State.advance, State.modSlot, State.setSlot, modClu_field π _ _ _ (hs _ _ _), State.queueWait, State.setSlot,
      modClu_field π _ _ _ (hs _ _ _), State.modClu, State.clu_setClu]
  refine ⟨hfield Cluster.sems fun _ _ _ => rfl, hfield Cluster.waiters fun _ _ _ => rfl, ?_, fun c' k' hne => ?_⟩
  · rw [slot_advance _ _ _ _ (by rw [hslot]; exact SlotState.noConfusion), hslot]
    exact goesOn_blocking _ _ WaitKind.noConfusion
  · exact (State.slot_setSlot_ne _ hne).trans
      ((State.slot_setSlot_ne _ hne).trans ((sameStreams_addWaiter s e.c.val _).slot c' k'))

/-- The commands of the two waits. -/
theorem wait_issues {cmd : Issue → Instr} (h : (cmd, take) ∈ [(Instr.waitTake, true), (Instr.waitObs, false)]) :
    ∃ op, (∀ i, (cmd i).wf = i.spells 4 op 0) ∧ ∀ i s, exec (cmd i) s = .next (s.issue i (rowCode 4 op 0) (waitBody take)) := by
  simp only [List.mem_cons, Prod.mk.injEq, List.not_mem_nil, or_false] at h
  rcases h with ⟨rfl, rfl⟩ | ⟨rfl, rfl⟩
  · exact ⟨1, fun _ => rfl, fun _ _ => rfl⟩
  · exact ⟨2, fun _ => rfl, fun _ _ => rfl⟩

/-- Settles O16: a SIGNAL adds; a wait takes or looks when its count is met, and else joins the queue while its slot goes on blocked. -/
theorem signalAndWaitResult : Obligations.SignalAndWaitResult := by
  intro s i j hi y r n x c hnode hh
  have hwin : InWindow s (envOf s i j) := ⟨hnode, hh⟩
  have hjob : s.job j.tag = some j := State.job_tag hi.1.1 ▸ hi.1.1
  refine ⟨fun hw hout hs hlt => ?signal, fun hc h0 => ?waits⟩
  case signal =>
    rw [List.contains_eq_mem, decide_eq_false_iff_not] at hs
    have hb := (signalBody_here hwin hout).trans (congrArg Ans.ok (signalSem_adds hjob hh hs hlt))
    exact congrArg Host.Outcome.next (issue_ok hi hw hb)
  case waits =>
    have hx : x = s.clu (envOf s i j).c.val := congrArg (fun c : CId => s.clu c.val) hc
    clear_value x
    subst hx
    refine ⟨fun hw hn hq hs => ?take, fun hw hn => ?obs, fun cmd take hcmd hw hunmet => ?blocked⟩
    case take =>
      have hb := waitBody_met hwin hc h0 (take := true) ⟨hn, hq⟩
      rw [if_pos ⟨rfl, by simpa using show (envOf s i j).semRef.index ∉ _ from hs⟩] at hb
      exact congrArg Host.Outcome.next (issue_ok hi hw hb)
    case obs =>
      have hb := waitBody_met hwin hc h0 (take := false) ⟨hn, rfl⟩
      exact congrArg Host.Outcome.next ((issue_ok hi hw hb).trans (advance_self (issues_not_idle hi)))
    case blocked =>
      obtain ⟨op, hspells, hexec⟩ := wait_issues hcmd
      have hb := waitBody_blocks hwin hc h0 (take := take) <| by
        rintro ⟨hn, hq⟩
        rcases hunmet with hlt | ⟨rfl, hqueued⟩
        · exact Nat.not_le.mpr hlt hn
        · exact absurd (hq.symm.trans hqueued) Bool.false_ne_true
      obtain ⟨hsems, hwaiters, hblock, hother⟩ := queueWait_advance s (envOf s i j) take (slotOf s i).pc
      simp only [Slot.blocking, Prod.mk.injEq] at hblock
      obtain ⟨hstate, hwait, hindex⟩ := hblock
      exact ⟨_, (hexec i s).trans (congrArg Host.Outcome.next (issue_ok hi ((hspells i).symm.trans hw) hb)), hsems, hwaiters, hstate,
        hwait, hindex, hother, rfl, rfl⟩

/-! ### BARRIER (06 R139, R145, R146) -/

/-- The object that a BARRIER names, and its step. -/
def Env.bar (e : Env) : BarId := ⟨e.f 47 44 % 16, Nat.mod_lt _ (by decide)⟩
def Env.barStep (e : Env) : W32 := BitVec.ofNat 32 (e.f 43 12)

theorem barrierBody_foreign (h : s.holdsBar e.job.tag e.bar = false) : barrierBody e s = .fail { code := Ev.semRange } :=
  if_pos (by rw [Bool.not_eq_true']; exact h)

/-- The state in which the slot of `e` stands past its BARRIER and waits for the object. -/
def State.standAt (s : State) (e : Env) : State :=
  (s.advance e.c e.k e.y.pc.toNat).modSlot e.c.val e.k.val fun y =>
    { y with state := .waiting, wait := .barrier, waitIndex := e.bar.val }

theorem barrierBody_arrives (h : s.holdsBar e.job.tag e.bar = true) (hout : e.y.out = []) (hr : e.job.remoteOf e.c e.k = false) :
    barrierBody e s = .jump ((s.standAt e).barArrive e.job e.bar e.barStep (some (e.c, e.k))) :=
  (if_neg (by simp only [Bool.not_eq_true', Bool.not_eq_false]; exact h)).trans (if_neg (by simp [hout, hr]))

/-- An object after one more arrival: of the slot `slot` of this node, or of a child. -/
def Bar.arrive (x : Bar) (step : W32) : Option (CId × SId) → Bar
  | some k => { x with state := .collecting, epStep := step, arrived := x.arrived + 1, blocked := x.blocked ++ [k] }
  | none => { x with state := .collecting, epStep := step, children := x.children + 1 }

/-- The step of an arrival opens the episode, or is that of the episode that the object collects. -/
def Bar.Takes (x : Bar) (step : W32) : Prop := x.state = .armed ∨ x.state = .collecting ∧ step = x.epStep

/-- An episode that lacks an arrival of this node does not end. -/
theorem barTry_lacking {b : BarId} (h : (s.bar b.val).arrived ≠ (s.bar b.val).localArrivals) : s.barTry j b = s :=
  if_neg fun hall => h hall.2.1

/-- An arrival after which the episode still lacks a slot of this node: the object counts it, and nothing else changes. -/
theorem barArrive_counts {b : BarId} {step : W32} {slot : Option (CId × SId)} (h : (s.bar b.val).Takes step)
    (hl : ((s.bar b.val).arrive step slot).arrived ≠ (s.bar b.val).localArrivals) :
    s.barArrive j b step slot = s.setBar b.val ((s.bar b.val).arrive step slot) := by
  have hsame : ¬ ((s.bar b.val).state ≠ .armed ∧ step ≠ (s.bar b.val).epStep) := fun hn =>
    h.elim hn.1 fun hc => hn.2 hc.2
  have hstate : (if (s.bar b.val).state = .armed then BarState.collecting else (s.bar b.val).state) = .collecting := by
    rcases h with h | ⟨h, -⟩ <;> simp [h]
  have hlack : ((s.setBar b.val ((s.bar b.val).arrive step slot)).barTry j b) = s.setBar b.val ((s.bar b.val).arrive step slot) :=
    barTry_lacking <| by
      rw [State.bar_setBar]
      cases slot <;> exact hl
  unfold State.barArrive
  dsimp only
  rw [if_neg hsame]
  refine Eq.trans ?_ hlack
  cases slot <;> simp only [hstate, Bar.arrive]

theorem bar_setBar_ne {b b' : Nat} (y : Bar) (h : b' ≠ b) : (s.setBar b y).bar b' = s.bar b' := mget_mset_ne _ _ _ _ h

theorem standAt_blocking (s : State) (e : Env) : ((s.standAt e).slot e.c.val e.k.val).blocking = (.waiting, .barrier, e.bar.val) := by
  rw [State.standAt, State.modSlot, State.slot_setSlot]
  rfl

/-- Settles O17: a semaphore or a barrier object that is not the job's ends it; an arrival that is not the last blocks its slot. -/
theorem semaphoreChecksAndBarrierBlocks : Obligations.SemaphoreChecksAndBarrierBlocks := by
  refine ⟨?_, ?blocks⟩
  · intro s i j hi r bad
    refine ⟨fun cmd hcmd hw hr => ?elsewhere, fun cmd hcmd hw hnode hc hh => ?outside, fun hw hb => ?foreign⟩
    case elsewhere =>
      have hwait (take : Bool) : waitBody take (envOf s i j) s = .fail { code := Ev.semAddr } := waitBody_elsewhere hr
      rcases List.mem_pair.mp hcmd with rfl | rfl
      · exact congrArg Host.Outcome.next (issue_fail hi hw (hwait true))
      · exact congrArg Host.Outcome.next (issue_fail hi hw (hwait false))
    case outside =>
      have hwait (take : Bool) : waitBody take (envOf s i j) s = .fail (semFail s r) := waitBody_outside hnode hc hh
      rcases List.mem_cons.mp hcmd with rfl | hcmd
      · exact congrArg Host.Outcome.next (issue_fail hi hw (signalBody_outside hnode hh))
      · rcases List.mem_pair.mp hcmd with rfl | rfl
        · exact congrArg Host.Outcome.next (issue_fail hi hw (hwait true))
        · exact congrArg Host.Outcome.next (issue_fail hi hw (hwait false))
    case foreign => exact congrArg Host.Outcome.next (issue_fail hi hw (barrierBody_foreign hb))
  case blocks =>
    intro s i j hi hw b x step hb hout hremote hstep hopen hlack
    have htakes : ((s.standAt (envOf s i j)).bar b.val).Takes step :=
      hopen.elim .inl fun hc => hstep.elim .inl fun hs => .inr ⟨hc, hs⟩
    have hbody := (barrierBody_arrives (e := envOf s i j) hb hout hremote).trans
      (congrArg Ans.jump (barArrive_counts (slot := some (i.cluster, i.slot)) htakes hlack))
    refine ⟨_, congrArg Host.Outcome.next (issue_jump hi hw hbody), State.bar_setBar _ _ _, ?_⟩
    have hblock := standAt_blocking s (envOf s i j)
    simp only [Slot.blocking, Prod.mk.injEq] at hblock
    obtain ⟨hstate, hwait, hindex⟩ := hblock
    exact ⟨hstate, hwait, hindex, fun b' hne => bar_setBar_ne _ hne, rfl, rfl, rfl, rfl⟩

end Sys2Proof.Machine
end

section
/-! PROOFS. Synchronisation (chapter 06), messages of semaphores: SEM_SET, signals between chips and their acknowledgements. -/

namespace Sys2Proof.Machine

open Sys2Proof Sys2Proof.Safety

variable {s t : State} {m : Msg} {tag : Tag} {j : Job} {c i : Nat}

/-! ### A message that is acted on (11 R292, R293, R314) -/

/-- Waking the device changes its power state alone. -/
theorem wakeUp_only (s : State) : ∃ r, s.wakeUp = { s with rst := r } := by
  unfold State.wakeUp
  split <;> exact ⟨_, rfl⟩

theorem receive_heard {vcs : List Nat} (h : Heard s m vcs) (k : State → State) : s.receive m vcs k = k s.wakeUp := by
  obtain ⟨hport, hvc, hkey, hlive, hverifies⟩ := h
  rw [State.receive, if_neg (by simp [hport]), State.checked, if_neg (by simp only [hvc, hkey]; simp), if_neg (by simp [hlive]),
    if_neg (by simp [hverifies])]

theorem receiveTo_heard {vcs : List Nat} (h : Heard s m vcs) (hd : m.dst = s.lnk.node) (k : State → State) :
    s.receiveTo m vcs k = k s.wakeUp := (if_pos hd).trans (receive_heard h k)

/-! ### Which blocks change -/

theorem only_refl (l : List Block) (s : State) : Only l s s := ⟨rfl, fun b _ => by cases b <;> rfl⟩

/-- One more block of the list changes. -/
theorem only_step {l : List Block} {b : Block} {u : State} (h : Only l s t) (k : Only [b] t u) (hb : b ∈ l) : Only l s u := by
  refine ⟨k.1.trans h.1, fun b' hb' => ?_⟩
  have ht := h.2 b' hb'
  have hu := k.2 b' fun hm => hb' (List.mem_singleton.mp hm ▸ hb)
  cases b' <;> exact hu.trans ht

theorem only_mono {l l' : List Block} (h : Only l s t) (hl : l ⊆ l') : Only l' s t := ⟨h.1, fun b hb => h.2 b fun hm => hb (hl hm)⟩

theorem only_cl (s : State) (m : SMap Cluster) : Only [.cl] s { s with cl := m } := ⟨rfl, fun b hb => by cases b <;> simp_all [Block.Same]⟩
theorem only_evt (s : State) (e : Evt) : Only [.evt] s { s with evt := e } := ⟨rfl, fun b hb => by cases b <;> simp_all [Block.Same]⟩
theorem only_rst (s : State) (r : Rst) : Only [.rst] s { s with rst := r } := ⟨rfl, fun b hb => by cases b <;> simp_all [Block.Same]⟩
theorem only_jobs (s : State) (j : Jobs) : Only [.jobs] s { s with jobs := j } :=
  ⟨rfl, fun b hb => by cases b <;> simp_all [Block.Same]⟩

theorem only_bars (s : State) (m : SMap Bar) : Only [.bars] s { s with bars := m } :=
  ⟨rfl, fun b hb => by cases b <;> simp_all [Block.Same]⟩
theorem only_out (s : State) (l : List Out) : Only [.out] s { s with out := l } := ⟨rfl, fun b hb => by cases b <;> simp_all [Block.Same]⟩

theorem only_raise (s : State) (code : W16) (info : EvInfo) : Only [.evt] s (s.raise code info) := by
  obtain ⟨e, h⟩ := raise_only s code info
  exact h ▸ only_evt s e

theorem only_wakeUp (s : State) : Only [.rst] s s.wakeUp := by
  obtain ⟨r, h⟩ := wakeUp_only s
  exact h ▸ only_rst s r

theorem raise_clu (s : State) (code : W16) (info : EvInfo) (c : Nat) : (s.raise code info).clu c = s.clu c := by
  obtain ⟨e, h⟩ := raise_only s code info
  rw [h]
  rfl

/-! ### What waking leaves (15 R419) -/

@[simp] theorem wakeUp_clu (s : State) (c : Nat) : s.wakeUp.clu c = s.clu c := by
  obtain ⟨r, h⟩ := wakeUp_only s
  rw [h]
  rfl

@[simp] theorem wakeUp_bar (s : State) (b : Nat) : s.wakeUp.bar b = s.bar b := by
  obtain ⟨r, h⟩ := wakeUp_only s
  rw [h]
  rfl

@[simp] theorem wakeUp_job (s : State) (t : Tag) : s.wakeUp.job t = s.job t := by
  obtain ⟨r, h⟩ := wakeUp_only s
  rw [h]
  rfl

@[simp] theorem wakeUp_holdsBar (s : State) (t : Tag) (b : BarId) : s.wakeUp.holdsBar t b = s.holdsBar t b := by
  simp [State.holdsBar]

/-! ### SEM_SET (06 R143) -/

/-- The state with a count set by hand: one that was held at its limit is held no longer. -/
def State.setByHand (s : State) (c i : Nat) (v : W32) : State :=
  s.modClu c fun x => ({ x with stuck := x.stuck.filter (· != i) } : Cluster).setSem i v

theorem setByHand_sem (s : State) (c i : Nat) (v : W32) :
    ((s.setByHand c i v).clu c).sem i = BitVec.ofNat 32 (takePass v.toNat ((s.clu c).takers i)).1 := by
  rw [State.setByHand, State.clu_modClu, if_pos rfl]
  exact Cluster.setSem_free _ _ (by simp)

theorem setByHand_sem_ne {k : Nat} (v : W32) (h : k ≠ i) : ((s.setByHand c i v).clu c).sem k = (s.clu c).sem k := by
  rw [State.setByHand, State.clu_modClu, if_pos rfl]
  exact Cluster.setSem_ne _ _ h

theorem setByHand_clu_ne {c' : Nat} (v : W32) (h : c' ≠ c) : (s.setByHand c i v).clu c' = s.clu c' := by
  rw [State.setByHand, State.clu_modClu, if_neg h]

/-- SEM_MANUAL_SET with the old and the new count (17 Table 17.3). -/
def manualInfo (s : State) (c i : Nat) (v : W32) : EvInfo :=
  { unit := BitVec.ofNat 8 c, aux := BitVec.ofNat 16 i, arg := BitVec.ofNat 64 (((s.clu c).sem i).toNat * 2 ^ 32 + v.toNat) }

section SemSet

variable {c : CId} {v : W64} {control : Bool}

theorem semSet_privileged (h : control = true ∨ s.up = true ∧ 2 ≤ s.sec.debugLevel) :
    semSet c v control s = (s.setByHand c.val (bitsOf v 41 32) (BitVec.ofNat 32 (bitsOf v 31 0))).raise Ev.semManualSet
      (manualInfo s c.val (bitsOf v 41 32) (BitVec.ofNat 32 (bitsOf v 31 0))) := by
  have hearly : ¬ ((!control && !s.up) = true) := by rcases h with h | h <;> simp [h]
  have hmay : (control || decide (2 ≤ s.sec.debugLevel)) = true := by rcases h with h | h <;> simp [h]
  exact (if_neg hearly).trans (if_pos hmay)

theorem semSet_early (hc : control = false) (hu : s.up = false) : semSet c v control s = s := if_pos (by simp [hc, hu])

theorem semSet_denied (hc : control = false) (hu : s.up = true) (hd : s.sec.debugLevel < 2) :
    semSet c v control s = s.raise Ev.semSetDenied { unit := BitVec.ofNat 8 c.val } :=
  (if_neg (by simp [hu])).trans (if_neg (by simp [hc, hd]))

end SemSet

/-! ### Signals between chips (06 R140, R141) -/

theorem takesSignal_window {r : SemRef} (hj : s.job tag = some j) (hn : r.node = s.lnk.node)
    (hh : j.holdsSem r.cluster.val r.index = true) : s.takesSignal tag r = true := by
  simp [State.takesSignal, hj, hn, hh]

/-- No live job of the tag holds the semaphore in its window. -/
def State.NoWindow (s : State) (tag : Tag) (c i : Nat) : Prop := s.job tag = none ∨ ∃ j, s.job tag = some j ∧ j.holdsSem c i = false

theorem takesSignal_noWindow {r : SemRef} (h : s.NoWindow tag r.cluster.val r.index) : s.takesSignal tag r = false := by
  rcases h with h | ⟨j, hj, hh⟩
  · simp [State.takesSignal, h]
  · simp [State.takesSignal, hj, hh]

theorem sendTo_routed {d : NodeId} (o : Out) (h : (s.route d).isSome = true) : s.sendTo d tag o = s.emit o := if_pos h

/-- A dropped signal is counted in its cluster and raises events. -/
theorem dropSignal_only (s : State) (tag : Tag) (c i : Nat) (sub : Byte) :
    ∃ e d f, s.dropSignal tag c i sub = { s.modClu c (fun x => { x with semDrop := d, semDropSat := f }) with evt := e } := by
  unfold State.dropSignal
  dsimp only
  obtain ⟨e, he⟩ := satEvent_only (s.setClu c { s.clu c with
    semDrop := (bump (s.clu c).semDrop).1, semDropSat := (s.clu c).semDropSat || (bump (s.clu c).semDrop).2 })
    (bump (s.clu c).semDrop).2 0xD (winOff c 0x3_1008)
  rw [he]
  generalize hu : ({ s.setClu c _ with evt := e } : State) = u
  obtain ⟨e', he'⟩ := raiseJob_only u tag Ev.semStray _
  exact ⟨e', _, _, he'.trans (by rw [← hu]; rfl)⟩

theorem dropSignal_sem (s : State) (tag : Tag) (c i : Nat) (sub : Byte) (c' k : Nat) :
    ((s.dropSignal tag c i sub).clu c').sem k = (s.clu c').sem k := by
  obtain ⟨e, d, f, h⟩ := dropSignal_only s tag c i sub
  rw [h]
  exact modClu_field (fun x => x.sem k) s c (fun x => { x with semDrop := d, semDropSat := f }) rfl c'

/-- A signal of a job that has come here: applied where the job's window takes it, else dropped. -/
def State.takeSignal (s : State) (tag : Tag) (r : SemRef) (n : W32) : State :=
  if s.takesSignal tag r then s.signalSem tag r.cluster.val r.index n else s.dropSignal tag r.cluster.val r.index

theorem takeSignal_lnk (s : State) (tag : Tag) (r : SemRef) (n : W32) : (s.takeSignal tag r n).lnk = s.lnk := by
  unfold State.takeSignal
  split
  · obtain ⟨e, m, j, b, o, h⟩ := signalSem_only s tag r.cluster.val r.index n 0xFF
    rw [h]
  · obtain ⟨e, d, f, h⟩ := dropSignal_only s tag r.cluster.val r.index 0xFF
    rw [h]
    rfl

theorem route_congr (h : t.lnk = s.lnk) (d : NodeId) : t.route d = s.route d := by rw [State.route, h, State.route]

/-- A SIGNAL message for this node acts, and is acknowledged to its sender. -/
theorem signalMsg_heard {sem n : W32} (h : Heard s m [1, 3]) (hd : m.dst = s.lnk.node) (hr : (s.route m.src).isSome = true) :
    signalMsg m sem n s = (s.wakeUp.takeSignal m.tag (semRef sem) n).emit
      (.signalAck m.src m.tag sem (s.wakeUp.takesSignal m.tag (semRef sem))) := by
  obtain ⟨r, hwake⟩ := wakeUp_only s
  refine (receiveTo_heard h hd _).trans (sendTo_routed _ ?_)
  have hlnk : (s.wakeUp.takeSignal m.tag (semRef sem) n).lnk = s.lnk := by rw [takeSignal_lnk, hwake]
  exact (congrArg Option.isSome (route_congr hlnk m.src)).trans hr

/-- One that a window takes: its count is not held. -/
theorem signalMsg_adds {sem n : W32} (h : Heard s m [1, 3]) (hd : m.dst = s.lnk.node) (hr : (s.route m.src).isSome = true)
    (hj : s.job m.tag = some j) (hn : (semRef sem).node = s.lnk.node)
    (hh : j.holdsSem (semRef sem).cluster.val (semRef sem).index = true)
    (hs : (semRef sem).index ∉ (s.clu (semRef sem).cluster.val).stuck)
    (hlt : ((s.clu (semRef sem).cluster.val).sem (semRef sem).index).toNat + n.toNat < 2 ^ 32) :
    signalMsg m sem n s = (s.wakeUp.setClu (semRef sem).cluster.val ((s.clu (semRef sem).cluster.val).setSem (semRef sem).index
      ((s.clu (semRef sem).cluster.val).sem (semRef sem).index + n))).emit (.signalAck m.src m.tag sem true) := by
  rw [signalMsg_heard h hd hr]
  obtain ⟨r, hwake⟩ := wakeUp_only s
  rw [hwake]
  have htakes : State.takesSignal { s with rst := r } m.tag (semRef sem) = true := takesSignal_window hj hn hh
  have hadds := signalSem_adds (s := { s with rst := r }) (sub := 0xFF) hj hh hs hlt
  rw [State.takeSignal, htakes, if_pos rfl, hadds]
  rfl

/-- One that no window takes. -/
theorem signalMsg_drops {sem n : W32} (h : Heard s m [1, 3]) (hd : m.dst = s.lnk.node) (hr : (s.route m.src).isSome = true)
    (hw : s.NoWindow m.tag (semRef sem).cluster.val (semRef sem).index) :
    signalMsg m sem n s = (s.wakeUp.dropSignal m.tag (semRef sem).cluster.val (semRef sem).index).emit
      (.signalAck m.src m.tag sem false) := by
  rw [signalMsg_heard h hd hr]
  obtain ⟨r, hwake⟩ := wakeUp_only s
  rw [hwake]
  have hnone : State.takesSignal { s with rst := r } m.tag (semRef sem) = false := takesSignal_noWindow hw
  rw [State.takeSignal, hnone, if_neg Bool.false_ne_true]

/-! ### Acknowledgements (06 R137) -/

/-- The remote signal has left the list of its job; a job that has ended and waited for it alone is forgotten (06 R132). -/
def State.acknowledge (s : State) (tag : Tag) (r : SemRef) : State :=
  (s.modJobs fun j => if j.admitted && j.tag == tag then { j with remote := dropRemote r j.remote } else j).dropEnded

theorem signalAck_completes {sem : W32} {ok : Bool} {c : CId} {k : SId} {r : SemRef} {id : Nat} (h : Heard s m [0])
    (hd : m.dst = s.lnk.node) (hj : (s.jobs.list.find? fun j => j.admitted && j.tag == m.tag) = some j)
    (hr : (j.remote.find? fun x => x.2.2.1 == semRef sem) = some (c, k, r, id)) (ht : (s.slot c.val k.val).tag = m.tag) :
    signalAck m sem ok s = (s.wakeUp.acknowledge m.tag (semRef sem)).modSlot c.val k.val (·.dropSignal id) := by
  rw [signalAck, receiveTo_heard h hd]
  obtain ⟨p, hwake⟩ := wakeUp_only s
  rw [hwake]
  dsimp only
  rw [hj]
  dsimp only
  rw [hr]
  exact if_pos ht

/-- Settles O24: a privileged SEM_SET releases takers and raises its event; a SIGNAL message adds or is dropped; an acknowledgement
completes its SIGNAL. -/
theorem semaphoreMessagesResult : Obligations.SemaphoreMessagesResult := by
  refine ⟨?set, ?signal, ?ack⟩
  case set =>
    intro s c v control i new x takers
    refine ⟨fun h => ?_, fun hc hu => congrArg Host.Outcome.next (semSet_early hc hu),
      fun hc hu hd => congrArg Host.Outcome.next (semSet_denied hc hu hd)⟩
    have hclu (k : Nat) : ((s.setByHand c.val i new).raise Ev.semManualSet (manualInfo s c.val i new)).clu k =
        (s.setByHand c.val i new).clu k := raise_clu _ _ _ k
    refine ⟨_, congrArg Host.Outcome.next (semSet_privileged h),
      only_step (only_step (only_refl _ s) (only_cl s _) (by decide)) (only_raise _ _ _) (by decide), ?_, fun k hk => ?_, fun c' hc' => ?_,
      raise_evt_congr (by rfl) (by rfl) (by rfl) _ _⟩
    · rw [hclu]
      exact setByHand_sem s c.val i new
    · rw [hclu]
      exact setByHand_sem_ne new hk
    · rw [hclu]
      exact setByHand_clu_ne new hc'
  case signal =>
    intro s m h hd u sem n hr r x ack
    refine ⟨fun j hj hn hh hs hlt => congrArg Host.Outcome.next (signalMsg_adds h hd hr hj hn hh hs hlt),
      fun hw => ⟨congrArg Host.Outcome.next (signalMsg_drops h hd hr hw), fun c i => ?_⟩⟩
    rw [dropSignal_sem, wakeUp_clu]
  case ack =>
    intro s m sem ok j c k id h hd hj hr ht
    have hslot : (s.wakeUp.acknowledge m.tag (semRef sem)).slot c.val k.val = s.slot c.val k.val :=
      congrArg (·.slot k.val) (wakeUp_clu s c.val)
    refine ⟨_, congrArg Host.Outcome.next (signalAck_completes h hd hj hr ht), ?_, ?_⟩
    · exact only_step (only_step (only_step (only_refl _ s) (only_wakeUp s) (by decide)) (only_jobs _ _) (by decide)) (only_cl _ _)
        (by decide)
    dsimp only
    rw [State.modSlot, State.slot_setSlot, hslot]
    refine ⟨rfl, rfl, rfl, fun c' i => ?_, fun a => ?_⟩
    · rw [State.setSlot, modClu_field (fun x => x.sem i) _ _ _ rfl]
      exact congrArg (·.sem i) (wakeUp_clu s c')
    · refine ((sameMemory_setSlot _ _ _ _).sameStore.1 a).trans ?_
      obtain ⟨p, hwake⟩ := wakeUp_only s
      rw [hwake]
      rfl

end Sys2Proof.Machine
end

section
/-! PROOFS. Synchronisation (chapter 06), messages of barriers: ARRIVE, RELEASE and the abort of an episode, at a member and at a node
without the job. -/

namespace Sys2Proof.Machine

open Sys2Proof Sys2Proof.Safety

variable {s : State} {m : Msg} {tag : Tag} {j : Job} {b : BarId} {step : W32}

/-! ### A message of a job (11 R298) -/

theorem receiveJob_member {vcs : List Nat} (h : Heard s m vcs) (hj : s.job m.tag = some j) (on : Edge → Out) (k : Job → State → State) :
    s.receiveJob m vcs on k = k j s.wakeUp := by
  rw [State.receiveJob, hj]
  exact receive_heard h _

theorem receiveJob_elsewhere {vcs : List Nat} (h : Heard s m vcs) (hj : s.job m.tag = none) (ht : m.tag ≠ 0) (hl : s.lnk.left = false)
    (on : Edge → Out) (k : Job → State → State) : s.receiveJob m vcs on k = s.wakeUp.emit (on (s.relayEdge m.port)) := by
  obtain ⟨hport, hvc, hkey, hlive, hverifies⟩ := h
  obtain ⟨r, hwake⟩ := wakeUp_only s
  have hleft : s.wakeUp.lnk.left = false := by rw [hwake]; exact hl
  have hedge : s.wakeUp.relayEdge m.port = s.relayEdge m.port := by rw [hwake]; rfl
  rw [State.receiveJob, hj]
  dsimp only
  rw [State.passOn, if_neg (by simp [hport])]
  dsimp only
  rw [if_neg (by simp only [hvc, hkey]; simp), if_neg (by simp [hleft]), if_neg (by simp [hlive]), if_neg (by simp [hverifies]),
    if_neg ht, hedge]

theorem holdsBar_iff : s.holdsBar tag b = true ↔
    (s.bar b.val).tag = tag ∧ (s.bar b.val).state ≠ .free ∧ (s.bar b.val).state ≠ .aborting := by
  simp [State.holdsBar, and_assoc]

/-! ### ARRIVE (06 R146) -/

theorem barArrive_skews {slot : Option (CId × SId)} (ha : (s.bar b.val).state ≠ .armed) (hs : step ≠ (s.bar b.val).epStep) :
    s.barArrive j b step slot = s.faultBar j.tag b Ev.barSkew := if_pos ⟨ha, hs⟩

/-- An ARRIVE by a port that leads to a child counts at the object that its job holds. -/
theorem arrive_heard (h : Heard s m [0]) (hj : s.job m.tag = some j) (hp : s.isChildPort m.port = true) (hb : s.holdsBar m.tag b = true) :
    arrive m b step s = s.wakeUp.barArrive j b step none := by
  obtain ⟨r, hwake⟩ := wakeUp_only s
  have hchild : s.wakeUp.fromChild j m.port = true := by
    rw [hwake]
    exact Bool.or_eq_true_iff.mpr (.inl hp)
  exact (receiveJob_member h hj _ _).trans (if_pos (by simp [hchild, hb]))

/-! ### RELEASE (06 R146) -/

theorem retireIds_nil (s : State) (t : Tag) (step : W32) : s.retireIds t [] step = s := by
  unfold State.retireIds
  split
  · rfl
  · simp

/-- The RELEASE of an episode goes on to the children. -/
def State.passRelease (s : State) (j : Job) (b : BarId) : State :=
  if s.jobChildren j = 0 then s else s.emit (.release (s.jobDown j) j.tag b (s.bar b.val).epStep [])

theorem only_passRelease (s : State) (j : Job) (b : BarId) : Only [.out] s (s.passRelease j b) := by
  unfold State.passRelease
  split
  · exact only_refl _ s
  · exact only_out s _

theorem passRelease_out (s : State) (j : Job) (b : BarId) : (s.passRelease j b).out =
    if s.jobChildren j = 0 then s.out else s.out ++ [.release (s.jobDown j) j.tag b (s.bar b.val).epStep []] := by
  unfold State.passRelease
  split <;> rfl

/-- The object armed again, with nothing gathered. -/
def Bar.rearmed (x : Bar) : Bar := { x with state := .armed, arrived := 0, children := 0, blocked := [] }

/-- The end of an episode that realigns nothing and removes nothing. -/
theorem barRelease_rearms (hb : s.holdsBar j.tag b = true)
    (hr : (s.bar b.val).realignEn = false ∨ (s.bar b.val).epStep.toNat % 2 ^ (s.bar b.val).periodLog2 ≠ 0) :
    s.barRelease j b [] = ((s.passRelease j b).setBar b.val (s.bar b.val).rearmed).wakeAll (s.bar b.val).blocked := by
  obtain ⟨htag, hfree, habort⟩ := holdsBar_iff.mp hb
  have hdue : ¬ ((s.bar b.val).realignEn = true ∧ (s.bar b.val).epStep.toNat % 2 ^ (s.bar b.val).periodLog2 = 0) := fun hd =>
    hr.elim (fun hoff => Bool.false_ne_true (hoff.symm.trans hd.1)) fun hoff => hoff hd.2
  have hbar : (s.passRelease j b).bar b.val = s.bar b.val := by
    unfold State.passRelease
    split <;> rfl
  have hkeep : ¬ ((s.bar b.val).tag ≠ j.tag ∨ (s.bar b.val).state = .free ∨ (s.bar b.val).state = .aborting) := by
    simp [htag, hfree, habort]
  unfold State.barRelease
  dsimp only
  rw [if_neg hdue, if_neg (by simp)]
  simp only [retireIds_nil, ite_self]
  rw [← State.passRelease, hbar, if_neg hkeep]
  rfl

/-- A slot that is let run again. -/
def Slot.woken (y : Slot) : Slot :=
  { y with state := if y.state == .waiting then .running else y.state, wait := .none, waitIndex := 0 }

theorem wakeAll_cons (s : State) (x : CId × SId) (l : List (CId × SId)) :
    s.wakeAll (x :: l) = (s.modSlot x.1.val x.2.val Slot.woken).wakeAll l := rfl

theorem only_wakeAll (s : State) (l : List (CId × SId)) : Only [.cl] s (s.wakeAll l) :=
  foldS_keeps (p := Only [.cl] s) _ (fun _ _ h => only_step h (only_cl _ _) (by decide)) l (only_refl _ s)

/-- A slot that runs still runs after others have been woken. -/
theorem wakeAll_running {c k : Nat} (l : List (CId × SId)) (h : (s.slot c k).state = .running) :
    ((s.wakeAll l).slot c k).state = .running := by
  refine foldS_keeps (p := fun s => (s.slot c k).state = .running) _ (fun s x hs => ?_) l h
  change ((s.modSlot x.1.val x.2.val Slot.woken).slot c k).state = .running
  by_cases hx : (c, k) = (x.1.val, x.2.val)
  · obtain ⟨rfl, rfl⟩ := Prod.mk.inj hx
    rw [State.modSlot, State.slot_setSlot, Slot.woken, hs]
    rfl
  · rw [State.modSlot, State.slot_setSlot_ne _ hx]
    exact hs

/-- A blocked slot of the list runs. -/
theorem wakeAll_wakes {e : CId × SId} (l : List (CId × SId)) (he : e ∈ l) (h : (s.slot e.1.val e.2.val).state = .waiting) :
    ((s.wakeAll l).slot e.1.val e.2.val).state = .running := by
  induction l generalizing s with
  | nil => exact absurd he List.not_mem_nil
  | cons x l ih =>
    rw [wakeAll_cons]
    by_cases hx : e = x
    · refine wakeAll_running l ?_
      rw [← hx, State.modSlot, State.slot_setSlot, Slot.woken, h]
      rfl
    · refine ih ((List.mem_cons.mp he).resolve_left hx) ?_
      rw [State.modSlot, State.slot_setSlot_ne]
      · exact h
      · simpa [Prod.ext_iff, Fin.ext_iff] using hx

/-- A RELEASE by the port to the parent ends the episode that waits for its step. -/
theorem release_heard {removed : List Vid} (h : Heard s m [0]) (hj : s.job m.tag = some j) (hp : s.isParentPort m.port = true)
    (hb : s.holdsBar m.tag b = true) (hw : (s.bar b.val).state = .waitRelease) :
    release m b (s.bar b.val).epStep removed s = s.wakeUp.barRelease j b removed := by
  obtain ⟨r, hwake⟩ := wakeUp_only s
  have hparent : s.wakeUp.fromParent m.port = true := by rw [hwake]; exact hp
  exact (receiveJob_member h hj _ _).trans (if_pos (by simp [hparent, hb, hw]))

/-! ### An abort of an episode (06 R147) -/

/-- Who is told does not bear on what a stop does here. -/
theorem haltJob_stopJob (s : State) (t : Tag) (st : Nat) (ev : W16) (tell : Out) :
    ∃ o, s.haltJob t st ev tell = { s.stopJob t st ev with out := o } := by
  unfold State.stopJob State.haltJob
  split
  · exact ⟨_, rfl⟩
  · split
    · exact ⟨_, rfl⟩
    · dsimp only
      split <;> exact ⟨_, rfl⟩

theorem haltJob_stops {st : Nat} {ev : W16} (tell : Out) (hj : s.job tag = some j) (hs : j.stop = none) :
    ∀ j', (s.haltJob tag st ev tell).job tag = some j' → j'.stop = some (st, ev) := by
  obtain ⟨o, h⟩ := haltJob_stopJob s tag st ev tell
  rw [h]
  exact stopJob_stops hj hs

/-- A stop that finds its job running aborts its barrier objects. -/
theorem stopJob_bars {st : Nat} {ev : W16} (hj : s.job tag = some j) (hs : j.stop = none) :
    (s.stopJob tag st ev).bars = (s.abortBars tag).bars := by
  unfold State.stopJob State.haltJob
  rw [hj]
  dsimp only
  rw [if_neg (by simp [hs])]
  obtain ⟨m, l, hslots⟩ := foldS_abort_only j.live (s.modJob tag fun j => { j with stop := some (st, ev) })
  rw [hslots]
  obtain ⟨n, hgrant⟩ := foldS_grant_only (clustersOf j.d.clusters)
    { s.modJob tag (fun j => { j with stop := some (st, ev) }) with cl := m, jobs := l }
  rw [hgrant]
  split <;> rfl

/-- An update of every entry that leaves the default is the update of what is looked up. -/
theorem mget_map_update {α : Type} {d : α} {f : α → α} (hd : f d = d) {g : Nat × α → Nat × α} (hg : ∀ e, g e = (e.1, f e.2)) (i : Nat)
    (l : SMap α) : mget d (l.map g) i = f (mget d l i) := by
  induction l with
  | nil => exact hd.symm
  | cons e l ih =>
    obtain ⟨k, v⟩ := e
    rw [List.map_cons, hg]
    simp only [mget]
    split
    · rfl
    · exact ih

/-- An object as an abort of the job `t` leaves it. -/
def Bar.aborted (x : Bar) (t : Tag) : Bar :=
  if x.tag == t && x.state != .free then { x with state := .aborting, blocked := [] } else x

theorem abortBars_bar (s : State) (t : Tag) (b : Nat) : (s.abortBars t).bar b = (s.bar b).aborted t :=
  mget_map_update (f := fun x => Bar.aborted x t) (by simp [Bar.aborted]) (fun e => by unfold Bar.aborted; split <;> rfl) b s.bars

theorem bar_congr {t : State} (h : t.bars = s.bars) (b : Nat) : t.bar b = s.bar b := by rw [State.bar, h, State.bar]

theorem haltJob_bar {st : Nat} {ev : W16} (tell : Out) (hj : s.job tag = some j) (hs : j.stop = none) (b : Nat) :
    (s.haltJob tag st ev tell).bar b = (s.bar b).aborted tag := by
  obtain ⟨o, h⟩ := haltJob_stopJob s tag st ev tell
  rw [h, ← abortBars_bar]
  exact bar_congr (stopJob_bars hj hs) b

theorem aborted_held (h : s.holdsBar tag b = true) :
    (s.bar b.val).aborted tag = { s.bar b.val with state := .aborting, blocked := [] } := by
  obtain ⟨htag, hfree, -⟩ := holdsBar_iff.mp h
  exact if_pos (by simp [htag, hfree])

theorem barrierAbort_heard {skew : Bool} (h : Heard s m [0]) (hj : s.job m.tag = some j) :
    barrierAbort m b skew s = s.wakeUp.haltJob m.tag Stat.fault (if skew then Ev.barSkew else Ev.realignUnder)
      (.barAbort (.but m.port) m.tag b skew) :=
  receiveJob_member h hj (fun _ => .barAbort (.but m.port) m.tag b skew) fun _ s =>
    s.haltJob m.tag Stat.fault (if skew then Ev.barSkew else Ev.realignUnder) (.barAbort (.but m.port) m.tag b skew)

/-- Settles O25: an ARRIVE counts or ends its job, a RELEASE arms the object and wakes its slots, an abort stops the job; where the job is
not, each goes on along the tree. -/
theorem barrierMessagesResult : Obligations.BarrierMessagesResult := by
  intro s m b h u x
  refine ⟨fun hj ht hl => ?elsewhere, fun j hj hb => ⟨fun step hp hs hlack => ?arrive, fun step hp ha hs => ?skew,
    fun hp hw hr => ?release, fun skew hrun => ?abort⟩⟩
  case elsewhere =>
    have hon (on : Edge → Out) (k : Job → State → State) := receiveJob_elsewhere h hj ht hl on k
    exact ⟨fun step => congrArg Host.Outcome.next (hon _ _), fun step l => congrArg Host.Outcome.next (hon _ _),
      fun skew => congrArg Host.Outcome.next (hon (fun _ => .barAbort (.but m.port) m.tag b skew) _)⟩
  case arrive =>
    have hbar : u.bar b.val = x := wakeUp_bar s b.val
    have hcounts : u.barArrive j b step none = u.setBar b.val (x.arrive step none) := by
      rw [barArrive_counts (by rw [hbar]; exact hs) (by rw [hbar]; exact hlack), hbar]
    exact congrArg Host.Outcome.next ((arrive_heard h hj hp hb).trans hcounts)
  case skew =>
    have hbar : u.bar b.val = x := wakeUp_bar s b.val
    have hskews : u.barArrive j b step none = u.faultBar j.tag b Ev.barSkew :=
      barArrive_skews (by rw [hbar]; exact ha) (by rw [hbar]; exact hs)
    rw [State.job_tag hj] at hskews
    exact congrArg Host.Outcome.next ((arrive_heard h hj hp hb).trans hskews)
  case release =>
    have htag := State.job_tag hj
    have hbar : u.bar b.val = x := wakeUp_bar s b.val
    have hheld : u.holdsBar j.tag b = true := htag ▸ (wakeUp_holdsBar s m.tag b).trans hb
    have hends := barRelease_rearms (s := u) hheld (by rw [hbar]; exact hr)
    rw [hbar] at hends
    generalize hv : (u.passRelease j b).setBar b.val x.rearmed = v at hends
    have hvonly : Only [.bars, .out, .rst] s v := hv ▸
      only_step (only_step (only_step (only_refl _ s) (only_wakeUp s) (by decide)) (only_passRelease u j b) (by decide)) (only_bars _ _)
        (by decide)
    have hwoken := only_wakeAll v x.blocked
    refine ⟨_, congrArg Host.Outcome.next ((release_heard h hj hp hb hw).trans hends), ?_, ?_, fun e he hwait => ?_, ?_⟩
    · exact only_step (only_mono hvonly (by simp)) hwoken (by decide)
    · rw [bar_congr (hwoken.2 .bars (by decide)), ← hv]
      exact State.bar_setBar _ _ _
    · refine wakeAll_wakes x.blocked he ?_
      rwa [(SameStreams.of_eq (hvonly.2 .life (by decide)) (hvonly.2 .cl (by decide))).slot]
    · refine (hwoken.2 .out (by decide)).trans ?_
      obtain ⟨r, hwake⟩ := wakeUp_only s
      rw [← hv, ← htag]
      refine (passRelease_out u j b).trans ?_
      rw [show u = _ from hwake]
      rfl
  case abort =>
    have hu : u.job m.tag = some j := (wakeUp_job s m.tag).trans hj
    have hheld : u.holdsBar m.tag b = true := (wakeUp_holdsBar s m.tag b).trans hb
    have hbar (tell : Out) := haltJob_bar (st := Stat.fault) (ev := if skew then Ev.barSkew else Ev.realignUnder) tell hu hrun b.val
    rw [aborted_held hheld] at hbar
    refine ⟨_, congrArg Host.Outcome.next (barrierAbort_heard h hj), ?_, ?_, hb, ?_, haltJob_stops _ hu hrun, ?_⟩
    · rw [hbar]
    · rw [hbar]
    · rw [State.holdsBar, hbar]
      simp
    · obtain ⟨c, l, n, o, ho⟩ := haltJob_only u m.tag Stat.fault (if skew then Ev.barSkew else Ev.realignUnder)
        (.barAbort (.but m.port) m.tag b skew)
      have hwake := only_wakeUp s
      rw [ho]
      exact ⟨hwake.2 .mem (by decide), hwake.2 .evt (by decide)⟩

end Sys2Proof.Machine
end

section
/-! PROOFS. Memory (chapter 07), runs: what a fold of updates makes of one part of State, and with it what becomes of a run of pages, of
parcels, of controllers. -/

namespace Sys2Proof.Machine

open Sys2Proof Sys2Proof.Safety

/-! ### One part of State under a fold -/

/-- Updates that each apply the idempotent `g` to a part or leave it apply it once, if one of them hits the part. -/
theorem foldS_part {α β : Type} {part : State → β} {f : State → α → State} {hit : α → Prop} [DecidablePred hit] {g : β → β}
    (hg : ∀ x, g (g x) = g x) (hf : ∀ s a, part (f s a) = if hit a then g (part s) else part s) (l : List α) (s : State) :
    part (foldS s l f) = if ∃ a ∈ l, hit a then g (part s) else part s := by
  induction l generalizing s with
  | nil => simp [foldS]
  | cons a l ih =>
    rw [foldS_cons, ih, hf]
    by_cases ha : hit a <;> simp [ha, hg]

/-- The keys of a run. -/
theorem exists_range_add {first n k : Nat} : (∃ i ∈ List.range n, k = first + i) ↔ first ≤ k ∧ k < first + n := by
  constructor
  · rintro ⟨i, hi, rfl⟩
    have := List.mem_range.mp hi
    omega
  · exact fun h => ⟨k - first, List.mem_range.mpr (by omega), by omega⟩

/-- One of a run has a property. -/
theorem any_run {β : Type} (get : Nat → β) (p : β → Bool) (first n : Nat) :
    (((List.range n).map fun i => get (first + i)).any p) = true ↔ ∃ k, (first ≤ k ∧ k < first + n) ∧ p (get k) = true := by
  simp only [List.any_map, List.any_eq_true, Function.comp_apply, ← exists_range_add]
  exact ⟨fun ⟨i, hi, h⟩ => ⟨first + i, ⟨i, hi, rfl⟩, h⟩, fun ⟨_, ⟨i, hi, hk⟩, h⟩ => ⟨i, hi, hk ▸ h⟩⟩

/-- None of a run has a property. -/
theorem any_run_false {β : Type} {get : Nat → β} {p : β → Bool} {first n : Nat}
    (h : ∀ k, first ≤ k ∧ k < first + n → p (get k) = false) : ((List.range n).map fun i => get (first + i)).any p = false := by
  rw [Bool.eq_false_iff, Ne, any_run]
  rintro ⟨k, hk, hp⟩
  exact Bool.false_ne_true ((h k hk).symm.trans hp)

/-- A selection by key leaves what its keys look up. -/
theorem mget_filter_key {α : Type} (d : α) (p : Nat → Bool) (m : SMap α) {i : Nat} (h : p i = true) :
    mget d (m.filter fun e => p e.1) i = mget d m i := by
  induction m with
  | nil => rfl
  | cons e r ih =>
    obtain ⟨k, v⟩ := e
    by_cases hk : k = i
    · subst hk
      simp [h, mget]
    · cases hp : p k <;> simp [hp, mget, hk, ih]

/-! ### Which blocks change -/

theorem only_trans {l : List Block} {s t u : State} (h : Only l s t) (k : Only l t u) : Only l s u := by
  refine ⟨k.1.trans h.1, fun b hb => ?_⟩
  have ht := h.2 b hb
  have hu := k.2 b hb
  cases b <;> exact hu.trans ht

theorem only_mem (s : State) (m : Mem) : Only [.mem] s { s with mem := m } := ⟨rfl, fun b hb => by cases b <;> simp_all [Block.Same]⟩
theorem only_life (s : State) (l : Life) : Only [.life] s { s with life := l } :=
  ⟨rfl, fun b hb => by cases b <;> simp_all [Block.Same]⟩

/-! ### Pages -/

/-- Updates of pages change the pages alone. -/
theorem foldS_setPage_only {α : Type} (k : α → Nat) (y : State → α → Page) (l : List α) (s : State) :
    ∃ m, foldS s l (fun s a => s.setPage (k a) (y s a)) = { s with mem := { s.mem with pages := m } } :=
  foldS_keeps (p := fun t => ∃ m, t = { s with mem := { s.mem with pages := m } }) _ (by rintro _ a ⟨m, rfl⟩; exact ⟨_, rfl⟩) l
    ⟨_, rfl⟩

theorem State.page_setPage_eq (s : State) (k p : Nat) (y : Page) : (s.setPage k y).page p = if p = k then y else s.page p :=
  mget_mset ({} : Page) s.mem.pages k p y

/-- Every page of a run updated. -/
theorem page_foldS_setPage {g : Page → Page} (hg : ∀ x, g (g x) = g x) (first n : Nat) (s : State) (p : Nat) :
    (foldS s (List.range n) fun s i => s.setPage (first + i) (g (s.page (first + i)))).page p =
      if first ≤ p ∧ p < first + n then g (s.page p) else s.page p := by
  have h := foldS_part (part := fun s => s.page p) (hit := fun i => p = first + i) hg
    (f := fun s i => s.setPage (first + i) (g (s.page (first + i))))
    (fun s i => by rw [State.page_setPage_eq]; split <;> simp_all) (List.range n) s
  simpa only [exists_range_add] using h

/-- Pages that are free let nobody read. -/
theorem readByte_free {s : State} {a : Addr} (ha : a.dev = true) (h : (s.page (pageOf a.a)).mode = .free) (r : Req) :
    s.readByte r a = 0 := by
  simp [State.readByte, State.mayAccess, ha, h, allowed]

/-! ### Controllers -/

/-- Updates of controllers change the controllers alone. -/
theorem foldS_setCtl_only {α : Type} (k : α → Nat) (y : State → α → MemCtl) (l : List α) (s : State) :
    ∃ m, foldS s l (fun s a => s.setCtl (k a) (y s a)) = { s with mem := { s.mem with ctls := m } } :=
  foldS_keeps (p := fun t => ∃ m, t = { s with mem := { s.mem with ctls := m } }) _ (by rintro _ a ⟨m, rfl⟩; exact ⟨_, rfl⟩) l
    ⟨_, rfl⟩

theorem State.ctl_setCtl_eq (s : State) (k m : Nat) (y : MemCtl) : (s.setCtl k y).ctl m = if m = k then y else s.ctl m :=
  mget_mset ({} : MemCtl) s.mem.ctls k m y

/-- The first controllers updated. -/
theorem ctl_foldS_setCtl {g : MemCtl → MemCtl} (hg : ∀ x, g (g x) = g x) (n : Nat) (s : State) {m : Nat} (hm : m < n) :
    (foldS s (List.range n) fun s k => s.setCtl k (g (s.ctl k))).ctl m = g (s.ctl m) := by
  have h := foldS_part (part := fun s => s.ctl m) (hit := fun k => m = k) hg (f := fun s k => s.setCtl k (g (s.ctl k)))
    (fun s k => by rw [State.ctl_setCtl_eq]; split <;> simp_all) (List.range n) s
  rwa [if_pos ⟨m, List.mem_range.mpr hm, rfl⟩] at h

/-! ### Parcels -/

/-- Retagging changes the clusters alone. -/
theorem foldS_retag_only (c first n : Nat) (y : Parcel) (s : State) :
    ∃ m, foldS s (List.range n) (fun s i => s.retag c (first + i) y) = { s with cl := m } :=
  foldS_keeps (p := fun t => ∃ m, t = { s with cl := m }) _ (by rintro _ a ⟨m, rfl⟩; exact ⟨_, rfl⟩) _ ⟨_, rfl⟩

theorem parcel_retag (s : State) (c k p : Nat) (y : Parcel) :
    ((s.retag c k y).clu c).parcel p = if p = k then { y with valid := 0 } else (s.clu c).parcel p := by
  simp only [State.retag, State.clu_modClu, if_true, Cluster.parcel, mget_mset]

/-- Every parcel of a run retagged, every line of it invalid (07 R160). -/
theorem parcel_foldS_retag (c first n : Nat) (y : Parcel) (s : State) (p : Nat) :
    ((foldS s (List.range n) fun s i => s.retag c (first + i) y).clu c).parcel p =
      if first ≤ p ∧ p < first + n then { y with valid := 0 } else (s.clu c).parcel p := by
  have h := foldS_part (part := fun s => (s.clu c).parcel p) (hit := fun i => p = first + i) (g := fun _ => { y with valid := 0 })
    (fun _ => rfl) (f := fun s i => s.retag c (first + i) y) (fun s i => parcel_retag s c (first + i) p y) (List.range n) s
  simpa only [exists_range_add] using h

/-- Retagging leaves the other clusters. -/
theorem clu_foldS_retag_ne {c c' : Nat} (h : c' ≠ c) (first n : Nat) (y : Parcel) (s : State) :
    (foldS s (List.range n) fun s i => s.retag c (first + i) y).clu c' = s.clu c' :=
  foldS_keeps (p := fun t => t.clu c' = s.clu c') _ (fun t i ht => by rw [State.retag, State.clu_modClu, if_neg h, ht]) _ rfl

/-- A line that is not valid reads as zero (07 R157). -/
theorem readByte_invalid {s : State} {a : Addr} (ha : a.dev = false)
    (h : ((s.clu (spdCluster a.a)).parcel (spdOff a.a / 65536)).valid = 0) (r : Req) : s.readByte r a = 0 := by
  simp [State.readByte, State.lineValid, ha, h, bitOf]

end Sys2Proof.Machine
end

section
/-! PROOFS. Memory (chapter 07), commands: MEM_RETAG, the page commands and the end of a scrub (R160, R170, R171, R174, R183). -/

namespace Sys2Proof.Machine

open Sys2Proof Sys2Proof.Safety

variable {s : State} {v : W64}

/-! ### A command that is taken (R183) -/

theorem memCmd_idle (hu : s.up = true) (hb : s.mem.cmdState ≠ .busy) (k : State → State) : s.memCmd k = k s := by
  rw [State.memCmd, State.hostReg, if_pos hu, if_neg hb]

/-- A page command of op `op` that is taken: its run lies in the usable pages (R171). -/
structure PageRun (s : State) (v : W64) (op : Nat) : Prop where
  ready : s.up = true
  idle : s.mem.cmdState ≠ .busy
  isOp : (pageCmd v).op = op
  inside : (pageCmd v).first + (pageCmd v).n ≤ s.mem.usablePages

theorem memPage_taken {op : Nat} {ok : PageCmd → Bool} (h : PageRun s v op) (hok : ok (pageCmd v) = true)
    (k : PageCmd → State → State) : s.memPage v op ok k = k (pageCmd v) s := by
  rw [State.memPage, memCmd_idle h.ready h.idle]
  dsimp only
  rw [if_neg (by simp [h.isOp]), if_neg (by simp [h.isOp, hok]), if_neg (Nat.not_lt.mpr h.inside)]

/-! ### MEM_RETAG (R160) -/

/-- A MEM_RETAG that is taken: its parcels are in no use, and a domain that is to own them has a live session. -/
structure Retags (s : State) (v : W64) : Prop where
  ready : s.up = true
  idle : s.mem.cmdState ≠ .busy
  mode : bitsOf v 63 62 < 2
  noDomain : ¬ bitsOf v 63 62 = 1 → (BitVec.ofNat 12 (bitsOf v 61 50) : Dom) = 0
  last : bitsOf v 43 33 + (bitsOf v 32 22 + 1) ≤ 2048
  uncached : s.inCache (bitsOf v 43 33 + (bitsOf v 32 22 + 1) - 1) = false
  unused : ∀ p, bitsOf v 43 33 ≤ p → p < bitsOf v 43 33 + (bitsOf v 32 22 + 1) →
    ((s.clu (bitsOf v 49 44)).parcel p).mode ≠ .base ∧ ((s.clu (bitsOf v 49 44)).parcel p).cache = false ∧
      (((s.clu (bitsOf v 49 44)).parcel p).mode = .priv →
        s.liveOn ((s.clu (bitsOf v 49 44)).parcel p).domain (bitsOf v 49 44) = false)
  live : bitsOf v 63 62 = 1 → s.liveSession (BitVec.ofNat 12 (bitsOf v 61 50)) = true

/-- The tag that a MEM_RETAG gives its parcels. -/
def retagParcel (v : W64) : Parcel :=
  { mode := if bitsOf v 63 62 = 1 then .priv else .free
    domain := if bitsOf v 63 62 = 1 then BitVec.ofNat 12 (bitsOf v 61 50) else 0 }

/-- The instant of a retag. -/
def State.retagRun (s : State) (v : W64) : State :=
  foldS s (List.range (bitsOf v 32 22 + 1)) fun s i => s.retag (bitsOf v 49 44) (bitsOf v 43 33 + i) (retagParcel v)

theorem retagRun_only (s : State) (v : W64) : ∃ m, s.retagRun v = { s with cl := m } := foldS_retag_only _ _ _ _ s

theorem memRetag_taken (h : Retags s v) :
    exec (.memRetag v) s =
      .next { s.retagRun v with mem := { s.mem with cmdState := .busy, reason := 0, retagBusy := true } } := by
  obtain ⟨hu, hb, hmode, hnone, hlast, hcache, hp, hlive⟩ := h
  obtain ⟨m, hm⟩ := retagRun_only s v
  have hkind : (((List.range (bitsOf v 32 22 + 1)).map fun i => (s.clu (bitsOf v 49 44)).parcel (bitsOf v 43 33 + i)).any
      fun p => p.mode == .base || p.cache) = false :=
    any_run_false fun k ⟨h1, h2⟩ => by
      obtain ⟨hbase, hcopy, -⟩ := hp k h1 h2
      simp [hbase, hcopy]
  have hused : (((List.range (bitsOf v 32 22 + 1)).map fun i => (s.clu (bitsOf v 49 44)).parcel (bitsOf v 43 33 + i)).any
      fun p => p.mode == .priv && s.liveOn p.domain (bitsOf v 49 44)) = false :=
    any_run_false fun k ⟨h1, h2⟩ => by
      obtain ⟨-, -, hfree⟩ := hp k h1 h2
      exact Bool.and_eq_false_imp.mpr fun h => hfree (beq_iff_eq.mp h)
  have hdom : ¬ (2 ≤ bitsOf v 63 62 ∨ (bitsOf v 63 62 = 0 ∧ (BitVec.ofNat 12 (bitsOf v 61 50) : Dom) ≠ 0)) := by
    rintro (h | ⟨h0, h⟩)
    · omega
    · exact h (hnone (by omega))
  refine congrArg Host.Outcome.next ?_
  unfold State.retagRun retagParcel at hm ⊢
  rw [memRetag, memCmd_idle hu hb]
  dsimp only
  rw [if_neg hdom, if_neg (Nat.not_lt.mpr hlast), if_neg (by rw [hkind, hcache]; simp),
    if_neg (by rintro ⟨h, hs⟩; simp [hlive h] at hs), if_neg (by simp [hused]), hm]

theorem retagComplete_busy (h : s.mem.retagBusy = true) :
    exec .retagComplete s = .next { s with mem := { s.mem with cmdState := .done, retagBusy := false } } :=
  congrArg Host.Outcome.next (if_pos h)

/-! ### Pages assigned (R170, R171) -/

theorem assignPages_only (s : State) (first n : Nat) (m : MemMode) (d : Dom) :
    ∃ p, s.assignPages first n m d = { s with mem := { s.mem with pages := p } } :=
  foldS_setPage_only (first + ·) (fun _ _ => ⟨m, d, false⟩) _ s

theorem assignPages_page (s : State) (first n : Nat) (m : MemMode) (d : Dom) (p : Nat) :
    (s.assignPages first n m d).page p = if first ≤ p ∧ p < first + n then ⟨m, d, false⟩ else s.page p :=
  page_foldS_setPage (g := fun _ => ⟨m, d, false⟩) (fun _ => rfl) first n s p

/-- An assignment of pages that are free, to a domain with a live session. -/
theorem pageAssign_taken (h : PageRun s v 0)
    (hfree : ∀ k, (pageCmd v).first ≤ k ∧ k < (pageCmd v).first + (pageCmd v).n →
      (s.page k).mode = .free ∧ (s.page k).scrubbing = false)
    (hlive : s.liveSession (pageCmd v).d = true) :
    exec (.pageAssign v) s = .next (s.assignPages (pageCmd v).first (pageCmd v).n .priv (pageCmd v).d).memDone := by
  have hnone : ((s.pagesOf (pageCmd v).first (pageCmd v).n).any fun x => x.mode != .free || x.scrubbing) = false :=
    any_run_false fun k hk => by simp [hfree k hk]
  refine congrArg Host.Outcome.next ((memPage_taken h rfl _).trans ?_)
  rw [if_neg (Bool.eq_false_iff.mp hnone), if_neg (by simp [hlive])]

/-- One of a run that is not all free. -/
theorem pageAssign_refused (h : PageRun s v 0)
    (hused : ∃ k, ((pageCmd v).first ≤ k ∧ k < (pageCmd v).first + (pageCmd v).n) ∧ (s.page k).mode ≠ .free) :
    exec (.pageAssign v) s = .next (s.memRefuse 0x01) := by
  obtain ⟨k, hk, hmode⟩ := hused
  have hany : ((s.pagesOf (pageCmd v).first (pageCmd v).n).any fun x => x.mode != .free || x.scrubbing) = true :=
    (any_run s.page _ _ _).mpr ⟨k, hk, by simp [hmode]⟩
  exact congrArg Host.Outcome.next ((memPage_taken h rfl _).trans (if_pos hany))

/-! ### Pages scrubbed (R170) -/

theorem scrubPages_only (s : State) (first : Nat) {n : Nat} (hn : n ≠ 0) (cmd : Bool) :
    ∃ p, s.scrubPages first n cmd = { s with mem := { s.mem with
      pages := p, scrubs := s.mem.scrubs ++ [⟨first, n, cmd⟩]
      bytes := s.mem.bytes.filter fun e => decide (pageOf e.1 < first) || decide (first + n ≤ pageOf e.1) } } := by
  obtain ⟨p, h⟩ := foldS_setPage_only (first + ·) (fun _ _ => ⟨.free, 0, true⟩) (List.range n) s
  rw [State.scrubPages, if_neg hn, h]
  exact ⟨p, rfl⟩

theorem scrubPages_page (s : State) (first : Nat) {n : Nat} (hn : n ≠ 0) (cmd : Bool) (p : Nat) :
    (s.scrubPages first n cmd).page p = if first ≤ p ∧ p < first + n then ⟨.free, 0, true⟩ else s.page p := by
  rw [State.scrubPages, if_neg hn]
  exact page_foldS_setPage (g := fun _ => ⟨.free, 0, true⟩) (fun _ => rfl) first n s p

/-- The bytes of other pages stay. -/
theorem scrubPages_rawByte (s : State) (first : Nat) {n : Nat} (hn : n ≠ 0) (cmd : Bool) {a : Addr} (ha : a.dev = true)
    (h : ¬ (first ≤ pageOf a.a ∧ pageOf a.a < first + n)) : (s.scrubPages first n cmd).rawByte a = s.rawByte a := by
  obtain ⟨p, hs⟩ := scrubPages_only s first hn cmd
  rw [hs, State.rawByte, State.rawByte, if_pos ha, if_pos ha]
  exact mget_filter_key 0 (fun k => decide (pageOf k < first) || decide (first + n ≤ pageOf k)) s.mem.bytes (by simp; omega)

/-- A scrub of pages that are free, or of a domain with no live job. -/
theorem pageScrub_taken (h : PageRun s v 1) (hd : (pageCmd v).d = 0)
    (hmode : ∀ k, (pageCmd v).first ≤ k ∧ k < (pageCmd v).first + (pageCmd v).n → (s.page k).mode = .free ∨
      (s.page k).mode = .priv ∧ s.liveOf (s.page k).domain = false)
    (hpark : s.parkHolds (pageCmd v).first (pageCmd v).n = false) :
    exec (.pageScrub v) s = .next { s.scrubPages (pageCmd v).first (pageCmd v).n true with
      mem := { (s.scrubPages (pageCmd v).first (pageCmd v).n true).mem with cmdState := .busy, reason := 0 } } := by
  have hkind : ((s.pagesOf (pageCmd v).first (pageCmd v).n).any fun x => x.mode == .base || x.mode == .device) = false :=
    any_run_false fun k hk => by rcases hmode k hk with hf | ⟨hp, -⟩ <;> simp [*]
  have hused : ((s.pagesOf (pageCmd v).first (pageCmd v).n).any fun x => x.mode == .priv && s.liveOf x.domain) = false :=
    any_run_false fun k hk => by rcases hmode k hk with hf | ⟨hp, hl⟩ <;> simp [*]
  refine congrArg Host.Outcome.next ((memPage_taken h (ok := fun p => p.d == 0) (beq_iff_eq.mpr hd) _).trans ?_)
  rw [if_neg (Bool.eq_false_iff.mp hkind), if_neg (by rw [hused, hpark]; simp)]

/-! ### The end of a scrub (R170, R174) -/

/-- Does the run of a scrub hold a page? -/
def Scrub.holds (x : Scrub) (p : Nat) : Bool := decide (x.first ≤ p) && decide (p < x.first + x.count)

/-- The pages of the run can be assigned again. -/
def State.reopen (s : State) (x : Scrub) : State :=
  foldS s (List.range x.count) fun s i => s.setPage (x.first + i) { s.page (x.first + i) with scrubbing := false }

/-- No line of the run is listed as poisoned by a controller, or by any. -/
def MemCtl.unlist (y : MemCtl) (x : Scrub) : MemCtl := { y with poison := y.poison.filter fun l => !x.holds (pageOf l) }
def State.unlist (s : State) (x : Scrub) : State := foldS s (List.range 20) fun s m => s.setCtl m ((s.ctl m).unlist x)

/-- The scrub is no longer under way. -/
def State.dropScrub (s : State) (x : Scrub) : State := { s with mem := { s.mem with scrubs := s.mem.scrubs.erase x } }

/-- What the end of a scrub makes of main memory. -/
def State.endScrub (s : State) (x : Scrub) : State := ((s.reopen x).unlist x).dropScrub x

theorem dropScrub_page (s : State) (x : Scrub) (p : Nat) : (s.dropScrub x).page p = s.page p := rfl
theorem dropScrub_ctl (s : State) (x : Scrub) (m : Nat) : (s.dropScrub x).ctl m = s.ctl m := rfl

theorem reopen_only (s : State) (x : Scrub) : ∃ p, s.reopen x = { s with mem := { s.mem with pages := p } } :=
  foldS_setPage_only (x.first + ·) (fun s i => { s.page (x.first + i) with scrubbing := false }) _ s

theorem reopen_page (s : State) (x : Scrub) (p : Nat) :
    (s.reopen x).page p = { s.page p with scrubbing := (s.page p).scrubbing && !x.holds p } := by
  refine (page_foldS_setPage (g := fun y => { y with scrubbing := false }) (fun _ => rfl) x.first x.count s p).trans ?_
  by_cases h : x.first ≤ p ∧ p < x.first + x.count
  · simp [Scrub.holds, h]
  · rw [if_neg h, show x.holds p = false by simpa [Scrub.holds] using h]
    simp

theorem unlist_only (s : State) (x : Scrub) : ∃ c, s.unlist x = { s with mem := { s.mem with ctls := c } } :=
  foldS_setCtl_only id (fun s m => (s.ctl m).unlist x) _ s

theorem unlist_ctl (s : State) (x : Scrub) {m : Nat} (hm : m < 20) :
    (s.unlist x).ctl m = (s.ctl m).unlist x :=
  ctl_foldS_setCtl (g := (MemCtl.unlist · x)) (fun y => by simp [MemCtl.unlist]) 20 s hm

theorem endScrub_only (s : State) (x : Scrub) :
    ∃ p c, s.endScrub x = { s with mem := { s.mem with pages := p, ctls := c, scrubs := s.mem.scrubs.erase x } } := by
  obtain ⟨p, hp⟩ := reopen_only s x
  obtain ⟨c, hc⟩ := unlist_only (s.reopen x) x
  refine ⟨p, c, ?_⟩
  rw [State.endScrub, hc, hp, State.dropScrub]

theorem endScrub_page (s : State) (x : Scrub) (p : Nat) :
    (s.endScrub x).page p = { s.page p with scrubbing := (s.page p).scrubbing && !x.holds p } := by
  obtain ⟨c, hc⟩ := unlist_only (s.reopen x) x
  rw [State.endScrub, dropScrub_page, hc, ← reopen_page]
  rfl

theorem endScrub_poison (s : State) (x : Scrub) {m : Nat} (hm : m < 20) (l : Nat) :
    l ∈ ((s.endScrub x).ctl m).poison ↔ l ∈ (s.ctl m).poison ∧ ¬ (x.first ≤ pageOf l ∧ pageOf l < x.first + x.count) := by
  have hs : (s.reopen x).ctl m = s.ctl m := by
    obtain ⟨p, hp⟩ := reopen_only s x
    rw [hp]
    rfl
  rw [State.endScrub, dropScrub_ctl, unlist_ctl _ x hm, hs]
  simp only [MemCtl.unlist, Scrub.holds, List.mem_filter, Bool.not_eq_true', Bool.and_eq_false_imp, decide_eq_true_eq,
    decide_eq_false_iff_not, not_and]

/-- The end of a scrub in the events and the command register: a commanded one is done (R171). -/
def State.scrubTold (s : State) (e : Evt) (cmd : Bool) : State :=
  { s with evt := e, mem := { s.mem with
      cmdState := if cmd then .done else s.mem.cmdState, reason := if cmd then 0 else s.mem.reason } }

theorem scrubTold_page (s : State) (e : Evt) (cmd : Bool) (p : Nat) : (s.scrubTold e cmd).page p = s.page p := rfl
theorem scrubTold_ctl (s : State) (e : Evt) (cmd : Bool) (m : Nat) : (s.scrubTold e cmd).ctl m = s.ctl m := rfl

/-- The end of a scrub is told to the tenant removals that wait for it. -/
theorem scrubDone_eq {first : Nat} {x : Scrub} (h : s.mem.scrubs.find? (fun x => x.first == first) = some x) :
    scrubDone first s =
      let u := (s.endScrub x).raise Ev.memScrubDone
      let w := foldS u u.sec.removals fun s r => s.removalScrubbed r first
      if x.byCmd then w.memDone else w := by
  rw [scrubDone, h, State.endScrub, State.reopen, State.unlist]
  dsimp only [MemCtl.unlist, Scrub.holds]
  -- The two folds as one opaque state: comparing the records built on them field by field would run the folds.
  generalize foldS (foldS _ _ _) _ _ = u
  rfl

/-- With no tenant being removed it is told to nobody but the host. -/
theorem told_no_removal (first : Nat) (cmd : Bool) (hr : s.sec.removals = []) :
    (let u := s.raise Ev.memScrubDone
      let w := foldS u u.sec.removals fun s r => s.removalScrubbed r first
      if cmd then w.memDone else w) = s.scrubTold (s.raise Ev.memScrubDone).evt cmd := by
  obtain ⟨e, he⟩ := raise_only s Ev.memScrubDone {}
  rw [he]
  dsimp only
  rw [hr]
  cases cmd <;> rfl

/-- A scrub that ends while no tenant is being removed. -/
theorem scrubDone_found {first : Nat} {x : Scrub} (h : s.mem.scrubs.find? (fun x => x.first == first) = some x)
    (hr : s.sec.removals = []) :
    exec (.scrubDone first) s = .next ((s.endScrub x).scrubTold (s.raise Ev.memScrubDone).evt x.byCmd) := by
  have hexec : exec (.scrubDone first) s = .next (scrubDone first s) := rfl
  obtain ⟨p, c, hs⟩ := endScrub_only s x
  have hevt : ((s.endScrub x).raise Ev.memScrubDone).evt = (s.raise Ev.memScrubDone).evt :=
    raise_evt_congr (by rw [hs]) (by rw [hs]) (by rw [hs]) _ _
  rw [hexec, scrubDone_eq h, told_no_removal first x.byCmd (by rw [hs]; exact hr), hevt]

/-! ### The obligation -/

/-- Settles O26: each command that nothing forbids makes its change to every parcel or page of its run, and to no other. -/
theorem memoryCommandsResult : Obligations.MemoryCommandsResult := by
  refine ⟨?retag, ?pages, ?ended⟩
  case retag =>
    intro s v hu hb d c first n priv hmode hnone hlast hcache hp hlive
    obtain ⟨m, hm⟩ := retagRun_only s v
    have hpar := parcel_foldS_retag c first n (retagParcel v) s
    refine ⟨_, memRetag_taken ⟨hu, hb, hmode, hnone, hlast, hcache, hp, hlive⟩, ?_, rfl, hpar,
      fun c' hc' => clu_foldS_retag_ne hc' _ _ _ _, fun r a ha _ hc h1 h2 => readByte_invalid ha ?_ r, retagComplete_busy rfl⟩
    · rw [hm]
      exact only_step (only_mono (only_cl s m) (by decide)) (only_mem _ _) (by decide)
    · rw [hc]
      exact congrArg Parcel.valid ((hpar _).trans (if_pos ⟨h1, h2⟩))
  case pages =>
    intro s v hu hb p here hn
    have hrun {op : Nat} (ho : p.op = op) : PageRun s v op := ⟨hu, hb, ho, hn⟩
    have hn0 : p.n ≠ 0 := Nat.succ_ne_zero _
    refine ⟨fun ho hfree hlive => ?assign, fun ho hd hmode hpark => ?scrub,
      fun ho hd h1 => congrArg Host.Outcome.next (memPage_taken (hrun ho) (by simpa using ⟨hd, h1⟩) _),
      fun ho hmode => pageAssign_refused (hrun ho) hmode⟩
    case assign =>
      obtain ⟨m, hm⟩ := assignPages_only s p.first p.n .priv p.d
      have hpage (k : Nat) := assignPages_page s p.first p.n .priv p.d k
      refine ⟨_, pageAssign_taken (hrun ho) hfree hlive, ?_, rfl, ?_, fun k hk => (hpage k).trans (if_pos hk),
        fun k hk => (hpage k).trans (if_neg hk)⟩
      · rw [hm]
        exact only_mem s _
      · rw [hm]
        rfl
    case scrub =>
      obtain ⟨m, hm⟩ := scrubPages_only s p.first hn0 true
      have hpage (k : Nat) := scrubPages_page s p.first hn0 true k
      refine ⟨_, pageScrub_taken (hrun ho) hd hmode hpark, ?_, rfl, ?_, fun k hk => (hpage k).trans (if_pos hk),
        fun k hk => (hpage k).trans (if_neg hk), fun a ha hk r => readByte_free ha ?_ r,
        fun a ha hk => scrubPages_rawByte s p.first hn0 true ha hk⟩
      · rw [hm]
        exact only_mem s _
      · rw [hm]
      · exact congrArg Page.mode ((hpage _).trans (if_pos hk))
  case ended =>
    intro s first x hx hr
    obtain ⟨q, c, hs⟩ := endScrub_only s x
    refine ⟨_, scrubDone_found hx hr, ?_, ?_, rfl, ?_, ?_,
      fun p => (scrubTold_page _ _ _ p).trans (endScrub_page s x p), fun m hm => ?_⟩
    · rw [hs]
      exact only_step (b := .mem) (only_mono (only_evt s _) (by decide)) (only_mem _ _) (by decide)
    iterate 3 rw [hs]; rfl
    · rw [scrubTold_ctl]
      exact endScrub_poison s x hm

end Sys2Proof.Machine
end

section
/-! PROOFS. Memory (chapter 07), parity and refresh: the replays of a read, the refetch of a base line, the poison of one of a domain
(R168, R173 to R175). -/

namespace Sys2Proof.Machine

open Sys2Proof Sys2Proof.Safety

variable {s t : State} {line : Nat} {tag : Tag}

/-! ### Counters of a controller (17 R446) -/

theorem bump_below {x : W64} (h : x.toNat + 1 < 2 ^ 64 - 1) : (bump x).1.toNat = x.toNat + 1 ∧ (bump x).2 = false := by
  have hne {y : W64} (hy : y.toNat < 2 ^ 64 - 1) : y ≠ BitVec.allOnes 64 := by
    rintro rfl
    rw [BitVec.toNat_allOnes] at hy
    omega
  have hadd : (x + 1).toNat = x.toNat + 1 := by
    rw [BitVec.toNat_add]
    exact Nat.mod_eq_of_lt (by simp; omega)
  rw [bump, if_neg (hne (by omega))]
  exact ⟨hadd, beq_eq_false_iff_ne.mpr (hne (by omega))⟩

/-! ### Replays (R173) -/

/-- The controller of a line after one replay more. -/
def MemCtl.replayed (x : MemCtl) : MemCtl :=
  { x with replays := (bump x.replays).1, replaysSat := x.replaysSat || (bump x.replays).2 }

theorem countReplay_eq (s : State) (line : Nat) :
    s.countReplay line = ((s.setCtl (ctlOf line) (s.ctl (ctlOf line)).replayed).satEvent (bump (s.ctl (ctlOf line)).replays).2 7
      (0x020_1000 + 0x40 * ctlOf line)).bumpLife 5 := rfl

/-- Replays are counted in main memory and the life counters, and a count that is full raises an event. -/
theorem only_countReplay (s : State) (line : Nat) : Only [.evt, .mem, .life] s (s.countReplay line) := by
  obtain ⟨e, he⟩ := satEvent_only (s.setCtl (ctlOf line) (s.ctl (ctlOf line)).replayed) (bump (s.ctl (ctlOf line)).replays).2 7
    (0x020_1000 + 0x40 * ctlOf line)
  rw [countReplay_eq, he]
  exact only_step (b := .life) (only_step (b := .evt) (only_mono (only_mem s _) (by decide)) (only_evt _ e) (by decide)) (only_life _ _)
    (by decide)

theorem sameMemory_countReplay (s : State) (line : Nat) : SameMemory s (s.countReplay line) := by
  rw [countReplay_eq]
  exact (satEvent_keeps (p := SameMemory s) (fun _ _ _ h => h.trans (sameMemory_raise _ _ _)) _ _ _
    (sameMemory_setCtl s (ctlOf line) (s.ctl (ctlOf line)).replayed rfl)).trans (.of_eq rfl rfl)

/-- One replay whose count stays below its limit. -/
theorem countReplay_below (h : (s.ctl (ctlOf line)).replays.toNat + 1 < 2 ^ 64 - 1) :
    ((s.countReplay line).ctl (ctlOf line)).replays.toNat = (s.ctl (ctlOf line)).replays.toNat + 1 ∧
      (s.countReplay line).evt = s.evt := by
  obtain ⟨hcount, hfull⟩ := bump_below h
  have heq : s.countReplay line = (s.setCtl (ctlOf line) (s.ctl (ctlOf line)).replayed).bumpLife 5 := by
    rw [countReplay_eq, hfull]
    rfl
  have hctl : (s.countReplay line).ctl (ctlOf line) = (s.ctl (ctlOf line)).replayed := by
    rw [heq]
    exact s.ctl_setCtl _ _
  rw [hctl, heq]
  exact ⟨hcount, rfl⟩

/-- A read of a line whose parity failed, after `n` replays. -/
def State.replayed (s : State) (line : Nat) (tag : Tag) (n : Nat) : State :=
  foldS (s.raise Ev.memReplay (s.memInfo line tag)) (List.range n) fun s _ => s.countReplay line

theorem only_replayed (s : State) (line : Nat) (tag : Tag) (n : Nat) : Only [.evt, .mem, .life] s (s.replayed line tag n) :=
  foldS_keeps (p := Only [.evt, .mem, .life] s) _ (fun u _ h => only_trans h (only_countReplay u line)) _
    (only_mono (only_raise s _ _) (by decide))

theorem sameMemory_replayed (s : State) (line : Nat) (tag : Tag) (n : Nat) : SameMemory s (s.replayed line tag n) :=
  foldS_keeps (p := SameMemory s) _ (fun u _ h => h.trans (sameMemory_countReplay u line)) _ (sameMemory_raise s _ _)

/-- Replays change the controllers alone of main memory. -/
theorem replayed_mem (s : State) (line : Nat) (tag : Tag) (n : Nat) : ∃ c, (s.replayed line tag n).mem = { s.mem with ctls := c } := by
  refine foldS_keeps (p := fun u => ∃ c, u.mem = { s.mem with ctls := c }) _ (fun u _ ⟨c, hu⟩ => ?_) _ ?_
  · obtain ⟨e, he⟩ := satEvent_only (u.setCtl (ctlOf line) (u.ctl (ctlOf line)).replayed) (bump (u.ctl (ctlOf line)).replays).2 7
      (0x020_1000 + 0x40 * ctlOf line)
    rw [countReplay_eq, he]
    exact ⟨_, congrArg (fun m : Mem => { m with ctls := mset {} u.mem.ctls (ctlOf line) (u.ctl (ctlOf line)).replayed }) hu⟩
  · obtain ⟨e, he⟩ := raise_only s Ev.memReplay (s.memInfo line tag)
    rw [he]
    exact ⟨_, rfl⟩

/-- Replays whose count stays below its limit raise MEM_REPLAY alone. -/
theorem replayed_below {n : Nat} (h : (s.ctl (ctlOf line)).replays.toNat + n < 2 ^ 64 - 1) :
    ((s.replayed line tag n).ctl (ctlOf line)).replays.toNat = (s.ctl (ctlOf line)).replays.toNat + n ∧
      (s.replayed line tag n).evt = (s.raise Ev.memReplay (s.memInfo line tag)).evt := by
  have hraise : (s.raise Ev.memReplay (s.memInfo line tag)).ctl (ctlOf line) = s.ctl (ctlOf line) := by
    obtain ⟨e, he⟩ := raise_only s Ev.memReplay (s.memInfo line tag)
    rw [he]
    rfl
  induction n with
  | zero => exact ⟨congrArg (·.replays.toNat) hraise, rfl⟩
  | succ n ih =>
    obtain ⟨hcount, hevt⟩ := ih (by omega)
    have hs : s.replayed line tag (n + 1) = (s.replayed line tag n).countReplay line := by
      simp [State.replayed, foldS, List.range_succ]
    obtain ⟨hcount', hevt'⟩ := countReplay_below (s := s.replayed line tag n) (line := line) (by omega)
    rw [hs]
    exact ⟨by omega, hevt'.trans hevt⟩

/-! ### Poison (R174) -/

theorem poisonJob_only (s : State) (line : Nat) (tag : Tag) :
    ∃ e m j b o, s.poisonJob line tag = { s with evt := e, cl := m, jobs := j, bars := b, out := o } := by
  unfold State.poisonJob
  split
  · exact faultJob_only s tag _ _
  · obtain ⟨e, he⟩ := raise_only s Ev.memPoison (s.memInfo line tag)
    exact ⟨e, _, _, _, _, he⟩

theorem poisonJob_mem (s : State) (line : Nat) (tag : Tag) : (s.poisonJob line tag).mem = s.mem := by
  obtain ⟨e, m, j, b, o, h⟩ := poisonJob_only s line tag
  rw [h]

/-- A job that was stopped before is not stopped again. -/
theorem stopJob_stopped {j : Job} {st : Nat} {ev : W16} (hj : s.job tag = some j) (hs : j.stop ≠ none) : s.stopJob tag st ev = s := by
  rw [State.stopJob, State.haltJob, hj]
  exact if_pos (Option.isSome_iff_ne_none.mpr hs)

/-- The job that reads poison is stopped, or was before. -/
theorem poisonJob_stops (s : State) (line : Nat) (tag : Tag) : ∀ j, (s.poisonJob line tag).job tag = some j → j.stop ≠ none := by
  intro j hj
  obtain ⟨e, he⟩ := raiseJob_only s tag Ev.memPoison (s.memInfo line tag)
  unfold State.poisonJob at hj
  cases hs : s.job tag with
  | none =>
    obtain ⟨e', he'⟩ := raise_only s Ev.memPoison (s.memInfo line tag)
    rw [hs, if_neg (by simp), he'] at hj
    exact absurd (hs.symm.trans hj) (by simp)
  | some i =>
    have hi : (s.raiseJob tag Ev.memPoison (s.memInfo line tag)).job tag = some i := by
      rw [he]
      exact hs
    rw [hs, if_pos (by simp), State.faultJob] at hj
    by_cases hstop : i.stop = none
    · rw [stopJob_stops hi hstop j hj]
      simp
    · rw [stopJob_stopped hi hstop] at hj
      exact Option.some.inj (hi.symm.trans hj) ▸ hstop

/-- A line listed as poisoned and counted. -/
def State.listPoison (s : State) (line : Nat) : State :=
  (s.setCtl (ctlOf line) { s.ctl (ctlOf line) with poison := (s.ctl (ctlOf line)).poison ++ [line] }).countPoisoned line

theorem countPoisoned_only (s : State) (line : Nat) :
    ∃ e c, s.countPoisoned line = { s with evt := e, mem := { s.mem with ctls := c } } := by
  unfold State.countPoisoned
  dsimp only
  obtain ⟨e, he⟩ := satEvent_only (s.setCtl (ctlOf line) { s.ctl (ctlOf line) with
    poisoned := (bump (s.ctl (ctlOf line)).poisoned).1
    poisonedSat := (s.ctl (ctlOf line)).poisonedSat || (bump (s.ctl (ctlOf line)).poisoned).2 })
    (bump (s.ctl (ctlOf line)).poisoned).2 7 (0x020_1010 + 0x40 * ctlOf line)
  exact ⟨e, _, he⟩

theorem sameMemory_countPoisoned (s : State) (line : Nat) : SameMemory s (s.countPoisoned line) :=
  satEvent_keeps (p := SameMemory s) (fun _ _ _ h => h.trans (sameMemory_raise _ _ _)) _ _ _
    (sameMemory_setCtl s (ctlOf line) { s.ctl (ctlOf line) with
      poisoned := (bump (s.ctl (ctlOf line)).poisoned).1
      poisonedSat := (s.ctl (ctlOf line)).poisonedSat || (bump (s.ctl (ctlOf line)).poisoned).2 } rfl)

theorem listPoison_only (s : State) (line : Nat) : ∃ e c, s.listPoison line = { s with evt := e, mem := { s.mem with ctls := c } } :=
  countPoisoned_only _ line

theorem listPoison_bytes (s : State) (line : Nat) : (s.listPoison line).mem.bytes = s.mem.bytes := by
  obtain ⟨e, c, h⟩ := listPoison_only s line
  rw [h]

theorem listPoison_poison (s : State) (line : Nat) :
    ((s.listPoison line).ctl (ctlOf line)).poison = (s.ctl (ctlOf line)).poison ++ [line] :=
  ((sameMemory_countPoisoned _ line).poison _).trans (congrArg MemCtl.poison (s.ctl_setCtl _ _))

/-- The pages of the variants turn on the registry alone. -/
theorem variantsAt_congr (h : t.var = s.var) (p : Nat) : t.variantsAt p = s.variantsAt p := by
  rw [State.variantsAt, h, State.variantsAt]

/-- A line enters a list with room; no variant lies in its page. -/
theorem addPoison_room (h : (s.ctl (ctlOf line)).poison.length < 4096) (hv : s.variantsAt (pageOf line) = []) :
    s.addPoison line tag = (s.listPoison line).poisonJob line tag := by
  have hn : (s.listPoison line).variantsAt (pageOf line) = [] := by
    obtain ⟨e, c, hl⟩ := listPoison_only s line
    exact (variantsAt_congr (by rw [hl]) _).trans hv
  have ha : s.addPoison line tag = foldS ((s.listPoison line).poisonJob line tag) ((s.listPoison line).variantsAt (pageOf line))
      fun s v => s.faultVariant v := if_neg (Nat.not_le.mpr h)
  rw [ha, hn]
  rfl

/-! ### LPDDR_PARITY_FAIL (R173) -/

/-- The line waits for the Thaw engine to bring it again. -/
def State.refetch (s : State) (line : Nat) (tag : Tag) : State :=
  { s with mem := { s.mem with refetching := s.mem.refetching ++ [(line, tag)] } }

theorem refetch_mem (s : State) (line : Nat) (tag : Tag) :
    (s.refetch line tag).mem = { s.mem with refetching := s.mem.refetching ++ [(line, tag)] } := rfl

/-- A read of a line that is neither listed nor stuck, in a page that is not free. -/
structure Replays (s : State) (a : BitVec 41) (line : Nat) : Prop where
  ofAddr : line = a.toNat / 64 * 64
  inside : line < s.devBytes
  clean : line ∉ (s.ctl (ctlOf line)).poison
  loose : line ∉ (s.ctl (ctlOf line)).stuck
  held : (s.page (pageOf line)).mode ≠ .free

variable {a : BitVec 41}

/-- It is replayed up to three times, and what follows turns on the mode of its page. -/
theorem parityFail_replays (h : Replays s a line) (n : Nat) :
    exec (.lpddrParityFail a tag n) s = .next (
      if n < 3 then s.replayed line tag (min (n + 1) 3)
      else if (s.page (pageOf line)).mode = .base then (s.replayed line tag (min (n + 1) 3)).refetch line tag
      else if (s.page (pageOf line)).mode = .priv then (s.replayed line tag (min (n + 1) 3)).addPoison line tag
      else (s.replayed line tag (min (n + 1) 3)).deviceFatal Ev.memDeviceParity
        ((s.replayed line tag (min (n + 1) 3)).memInfo line tag)) := by
  obtain ⟨hline, hin, hclean, hloose, hheld⟩ := h
  have hmode : (s.replayed line tag (min (n + 1) 3)).page (pageOf line) = s.page (pageOf line) := by
    rw [State.page, (sameMemory_replayed s line tag _).pages, State.page]
  refine congrArg Host.Outcome.next ?_
  unfold State.replayed at hmode ⊢
  rw [lpddrParityFail]
  dsimp only
  rw [← hline, if_neg (Nat.not_le.mpr hin), if_neg (by simpa using hclean), if_neg (by simpa using hloose), if_neg hheld]
  split
  · rfl
  · rw [hmode]
    cases hm : (s.page (pageOf line)).mode with
    | free => exact absurd hm hheld
    | base => rfl
    | priv => rfl
    | device => rfl

/-- One of the three replays brings the line. -/
theorem parityFail_mended (h : Replays s a line) {n : Nat} (hn : n < 3) :
    exec (.lpddrParityFail a tag n) s = .next (s.replayed line tag (n + 1)) := by
  rw [parityFail_replays h, if_pos hn, Nat.min_eq_left (by omega)]

/-- A shared base line that three replays do not bring is fetched again. -/
theorem parityFail_base (h : Replays s a line) (hm : (s.page (pageOf line)).mode = .base) :
    exec (.lpddrParityFail a tag 3) s = .next ((s.replayed line tag 3).refetch line tag) := by
  rw [parityFail_replays h, if_neg (Nat.lt_irrefl 3), if_pos hm, Nat.min_eq_right (by decide)]

/-- A line of a domain that three replays do not bring is poison. -/
theorem parityFail_priv (h : Replays s a line) (hm : (s.page (pageOf line)).mode = .priv) :
    exec (.lpddrParityFail a tag 3) s = .next ((s.replayed line tag 3).addPoison line tag) := by
  rw [parityFail_replays h, if_neg (Nat.lt_irrefl 3), if_neg (by simp [hm]), if_pos hm, Nat.min_eq_right (by decide)]

/-! ### The obligation -/

/-- Settles O27: three replays are counted at most, and leave the memory as it was; what fails them all is fetched again or poisoned. -/
theorem parityAndRefreshResult : Obligations.ParityAndRefreshResult := by
  intro s a tag m line x
  refine ⟨rfl, fun rate => ?refresh, fun hin hclean hloose hheld => ?_, fun hin hlisted => ?listed⟩
  case refresh =>
    exact ⟨_, rfl, only_mem s _, rfl, rfl, s.ctl_setCtl _ _, fun k hk => (s.ctl_setCtl_eq _ _ _).trans (if_neg hk)⟩
  case listed =>
    refine congrArg Host.Outcome.next ?_
    rw [lpddrParityFail]
    exact (if_neg (Nat.not_le.mpr hin)).trans (if_pos (List.contains_iff_mem.mpr hlisted))
  have hr : Replays s a line := ⟨rfl, hin, hclean, hloose, hheld⟩
  have hsame (n : Nat) : SameMemory s (s.replayed line tag n) := sameMemory_replayed s line tag n
  refine ⟨fun n hn => ?mended, fun hmode => ?base, fun hmode hroom hvar => ?priv⟩
  case mended =>
    refine ⟨_, parityFail_mended hr hn, only_replayed s line tag (n + 1), (hsame (n + 1)).bytes, (hsame (n + 1)).pages, fun h => ?_,
      (hsame (n + 1)).poison _⟩
    rw [Nat.add_assoc] at h ⊢
    exact replayed_below h
  case base =>
    obtain ⟨c, hc⟩ := replayed_mem s line tag 3
    refine ⟨_, parityFail_base hr hmode, only_step (only_replayed s line tag 3) (only_mem _ _) (by decide), ?_⟩
    dsimp only
    rw [refetch_mem, hc]
    exact ⟨rfl, rfl⟩
  case priv =>
    have hpoison := (hsame 3).poison (ctlOf line)
    have hadd : (s.replayed line tag 3).addPoison line tag = ((s.replayed line tag 3).listPoison line).poisonJob line tag :=
      addPoison_room (by rwa [hpoison]) ((variantsAt_congr ((only_replayed s line tag 3).2 .var (by decide)) _).trans hvar)
    refine ⟨_, parityFail_priv hr hmode, ?_⟩
    rw [hadd]
    refine ⟨?_, ?_, poisonJob_stops _ line tag⟩
    · rw [State.ctl, poisonJob_mem, ← State.ctl, listPoison_poison, hpoison]
    · rw [poisonJob_mem, listPoison_bytes, (hsame 3).bytes]

end Sys2Proof.Machine
end

section
/-! PROOFS. Memory (chapter 07), temperatures: the SRAM step and the hold of a tier (R180, R181), and the throttle step that a sample
applies to each field (15 R410, R412). -/

namespace Sys2Proof.Machine

open Sys2Proof Sys2Proof.Safety

variable {s : State}

/-! ### The highest of some readings -/

/-- Taking the greater one after another ends at the greatest. -/
theorem foldl_greatest {α : Type} (f : α → Int) (l : List α) (a : α) :
    (∀ y ∈ a :: l, f y ≤ f (l.foldl (fun a b => if f a < f b then b else a) a)) ∧
      l.foldl (fun a b => if f a < f b then b else a) a ∈ a :: l := by
  induction l generalizing a with
  | nil => simp
  | cons b l ih =>
    obtain ⟨hle, hmem⟩ := ih (if f a < f b then b else a)
    have hstep := hle _ List.mem_cons_self
    refine ⟨fun y hy => ?_, ?_⟩
    · rw [List.foldl_cons]
      rcases List.mem_cons.mp hy with rfl | hy
      · split_ifs at hstep ⊢ <;> omega
      · rcases List.mem_cons.mp hy with rfl | hy
        · split_ifs at hstep ⊢ <;> omega
        · exact hle y (List.mem_cons_of_mem _ hy)
    · rw [List.foldl_cons]
      rcases List.mem_cons.mp hmem with h | h
      · rw [h]
        split_ifs <;> simp
      · exact List.mem_cons_of_mem _ (List.mem_cons_of_mem _ h)

/-- The greatest of a list that is not empty, from its head on. -/
theorem foldl_head_greatest {α : Type} (f : α → Int) {l : List α} (d : α) (h : l ≠ []) :
    (∀ y ∈ l, f y ≤ f (l.foldl (fun a b => if f a < f b then b else a) (l.headD d))) ∧
      l.foldl (fun a b => if f a < f b then b else a) (l.headD d) ∈ l := by
  obtain ⟨a, l, rfl⟩ := List.exists_cons_of_ne_nil h
  obtain ⟨hle, hmem⟩ := foldl_greatest f (a :: l) a
  refine ⟨fun y hy => hle y (List.mem_cons_of_mem a hy), ?_⟩
  rcases List.mem_cons.mp hmem with h | h
  · exact List.mem_cons.mpr (.inl h)
  · exact h

theorem le_hottest {l : List W16} {y : W16} (h : y ∈ l) : y.toInt ≤ (hottest l).toInt :=
  (foldl_head_greatest BitVec.toInt 0 (List.ne_nil_of_mem h)).1 y h

theorem hottest_mem {l : List W16} (h : l ≠ []) : hottest l ∈ l := (foldl_head_greatest BitVec.toInt 0 h).2

/-! ### SRAM steps (R180, R181) -/

/-- Up at 92 + k °C, down below 90 + k °C, in 1/16 °C (07 Table 7.9). -/
theorem sramNext_eq (k : Nat) (t : Int) :
    sramNext k t = if (92 + (k : Int)) * 16 ≤ t then k + 1 else if t < (90 + (k : Int)) * 16 ∧ 0 < k then k - 1 else k := by
  unfold sramNext
  split_ifs <;> omega

/-- What main memory holds of a tier, and whether its sensor has been measured. -/
structure Tier where
  read : Bool
  step : Nat
  temp : W16
  hold : Bool

def State.tier (s : State) (n : Nat) : Tier :=
  ⟨mget false s.rst.tierRead n, mget 0 s.mem.tierStep n, mget 0 s.mem.tierTemp n, mget false s.mem.tierHold n⟩

/-- A tier after a sample of its temperature. -/
def Tier.sampled (x : Tier) (t : W16) : Tier := ⟨true, sramNext x.step t.toInt, t, x.hold && decide (1472 ≤ t.toInt)⟩

/-- A sample of tier n. -/
def State.sampleTier (s : State) (n : Nat) (t : W16) : State :=
  { s with
    rst := { s.rst with tierRead := mset false s.rst.tierRead n true }
    mem := { s.mem with
      tierStep := mset 0 s.mem.tierStep n (sramNext (mget 0 s.mem.tierStep n) t.toInt)
      tierTemp := mset 0 s.mem.tierTemp n t
      tierHold := mset false s.mem.tierHold n (mget false s.mem.tierHold n && decide (1472 ≤ t.toInt)) } }

theorem tier_sampleTier (s : State) (k n : Nat) (t : W16) :
    (s.sampleTier k t).tier n = if n = k then (s.tier n).sampled t else s.tier n := by
  simp only [State.tier, State.sampleTier, mget_mset]
  split_ifs with h
  · subst h
    rfl
  · rfl

/-- Samples of the tiers from `k` on. -/
theorem tier_foldS_sampleTier (n : Nat) : ∀ (l : List W16) (k : Nat) (s : State),
    (foldS s (l.zipIdx k) fun s e => s.sampleTier e.2 e.1).tier n =
      if h : k ≤ n ∧ n - k < l.length then (s.tier n).sampled l[n - k] else s.tier n
  | [], _, _ => by simp [foldS]
  | a :: l, k, s => by
    have ih := tier_foldS_sampleTier n l (k + 1) (s.sampleTier k a)
    rw [tier_sampleTier] at ih
    refine ih.trans ?_
    rcases lt_trichotomy n k with hn | rfl | hn
    · rw [dif_neg (by omega), dif_neg (by omega), if_neg (by omega)]
    · simp
    · obtain ⟨m, rfl⟩ := Nat.exists_eq_add_of_lt hn
      simp [show k + m + 1 - k = m + 1 by omega, show k + m + 1 - (k + 1) = m by omega, show k ≤ k + m + 1 by omega,
        show ¬ k + m + 1 = k by omega]

/-- One sample of every tier, from its temperatures. -/
def State.sampleTiers (s : State) (l : List W16) : State := foldS s l.zipIdx fun s e => s.sampleTier e.2 e.1

theorem tier_sampleTiers (s : State) {l : List W16} {n : Nat} (h : n < l.length) : (s.sampleTiers l).tier n = (s.tier n).sampled l[n] :=
  (tier_foldS_sampleTier n l 0 s).trans (dif_pos ⟨Nat.zero_le n, h⟩)

/-- Samples change the records of the tiers alone. -/
theorem sampleTiers_only (s : State) (l : List W16) : ∃ r st te ho, s.sampleTiers l =
    { s with rst := { s.rst with tierRead := r }, mem := { s.mem with tierStep := st, tierTemp := te, tierHold := ho } } :=
  foldS_keeps (p := fun u => ∃ r st te ho, u =
    { s with rst := { s.rst with tierRead := r }, mem := { s.mem with tierStep := st, tierTemp := te, tierHold := ho } }) _
    (by rintro _ e ⟨r, st, te, ho, rfl⟩; exact ⟨_, _, _, _, rfl⟩) _ ⟨_, _, _, _, rfl⟩

theorem only_sampleTiers (s : State) (l : List W16) : Only [.mem, .rst] s (s.sampleTiers l) := by
  obtain ⟨r, st, te, ho, h⟩ := sampleTiers_only s l
  rw [h]
  exact only_step (b := .mem) (only_mono (only_rst s { s.rst with tierRead := r }) (by decide)) (only_mem _ _) (by decide)

/-- Sensors as they come: 16 of each of four tiers. -/
theorem wf_sramStepSample {l : List (List W16)} : (Instr.sramStepSample l).wf = true ↔ l.length = 4 ∧ ∀ x ∈ l, x.length = 16 := by
  simp [Instr.wf]

theorem sramStepSample_free {l : List (List W16)} (hs : s.rst.held = .none) (hw : (Instr.sramStepSample l).wf = true) :
    exec (.sramStepSample l) s = .next (s.sampleTiers (l.map hottest)) := by
  obtain ⟨hl, hx⟩ := wf_sramStepSample.mp hw
  have ht : (l.take 4).map tierTemp = l.map hottest := by
    rw [List.take_of_length_le hl.le]
    exact List.map_congr_left fun x h => by rw [tierTemp, List.take_of_length_le (hx x h).le]
  have hexec : exec (.sramStepSample l) s = .next (s.sampleTiers ((l.take 4).map tierTemp)) :=
    congrArg Host.Outcome.next (if_neg (by simp [hs]))
  rw [hexec, ht]

theorem raise_mem (s : State) (code : W16) (info : EvInfo) : (s.raise code info).mem = s.mem := by
  obtain ⟨e, h⟩ := raise_only s code info
  rw [h]

theorem sramOver_free (f : FieldId) (hs : s.rst.held = .none) :
    exec (.sramOver f) s = .next (({ s with mem := { s.mem with
      tierOver := mset false s.mem.tierOver f.val true, tierHold := mset false s.mem.tierHold f.val true } } : State).raise
        Ev.memSramOver { unit := BitVec.ofNat 8 f.val }) :=
  congrArg Host.Outcome.next (if_neg (by simp [hs]))

/-! ### Throttle steps (15 R410, R412) -/

/-- The temperature of each field's die. -/
def dieTemps (x : Sensors) : List Int := (List.range 4).map fun i => (hottest (x.die.getD i [])).toInt

/-- The temperature of the compute die. -/
def dieHottest (x : Sensors) : Int := (dieTemps x).foldl (fun a b => if a < b then b else a) ((dieTemps x).headD 0)

theorem le_dieHottest {x : Sensors} (hw : (Instr.throttleSample x).wf = true) {d : List W16} (hd : d ∈ x.die) {y : W16} (hy : y ∈ d) :
    y.toInt ≤ (BitVec.ofInt 16 (dieHottest x)).toInt := by
  have hl : x.die.length = 4 := by simpa [Instr.wf] using hw
  obtain ⟨hle, hmem⟩ := foldl_head_greatest id (l := dieTemps x) 0 (by simp [dieTemps])
  have hfits : (BitVec.ofInt 16 (dieHottest x)).toInt = dieHottest x := by
    obtain ⟨i, -, hi⟩ := List.mem_map.mp (show dieHottest x ∈ dieTemps x from hmem)
    rw [← hi, BitVec.ofInt_toInt]
  obtain ⟨i, hi, rfl⟩ := List.getElem_of_mem hd
  have hin : (hottest x.die[i]).toInt ∈ dieTemps x :=
    List.mem_map.mpr ⟨i, List.mem_range.mpr (hl ▸ hi), by rw [List.getD_eq_getElem _ _ hi]⟩
  rw [hfits]
  exact (le_hottest hy).trans (hle _ hin)

/-- The readings of a sample, taken always. -/
def State.readSensors (s : State) (x : Sensors) : State :=
  { s with rst := { s.rst with
    dieTemp := BitVec.ofInt 16 (dieHottest x), firnTemp := hottest x.firn, powerW := x.powerW, measured := true
    fanPct := curveValue s.cfg.live.fan (curvePoint s.cfg.live.fan (dieHottest x)) } }

/-- Readings do not bear on whether the device is ready. -/
theorem readSensors_down (s : State) (x : Sensors) : (!(s.readSensors x).up) = true ↔ s.up = false := by
  have h : (s.readSensors x).up = s.up := rfl
  rw [h, Bool.not_eq_true']

/-- The thermal point of each field. -/
def State.thermPoints (s : State) (x : Sensors) : List (Option Nat) :=
  (dieTemps x).zipIdx.map fun e => thermalPoint s.cfg.live.thermal (s.rst.thermPoint.getD e.2 none) e.1

/-- The step of each field. -/
def State.fieldSteps (s : State) (x : Sensors) : List Nat := (s.thermPoints x).zipIdx.map fun e => s.fieldStepOf e.2 e.1

theorem fieldSteps_getD (s : State) (x : Sensors) (f : FieldId) : (s.fieldSteps x).getD f.val 0 = s.fieldStepOf f.val
    (thermalPoint s.cfg.live.thermal (s.rst.thermPoint.getD f.val none) (hottest (x.die.getD f.val [])).toInt) := by
  have hf := f.isLt
  simp [State.fieldSteps, State.thermPoints, dieTemps, hf]

/-- No step is taken while the device is not ready, at rest or without its regulator. -/
def State.holdsSteps (s : State) : Prop := s.up = false ∨ s.rst.avsFail = true ∨ s.rst.pwr = .rest ∨ s.rst.pwr = .restQuiet

theorem throttleSample_holds (x : Sensors) (hs : s.rst.held = .none) (h : s.holdsSteps) :
    exec (.throttleSample x) s = .next (s.readSensors x) :=
  congrArg Host.Outcome.next ((if_neg (by simp [hs])).trans (if_pos (h.imp_left (readSensors_down s x).mpr)))

theorem throttleSample_applies (x : Sensors) (hs : s.rst.held = .none) (h : ¬ s.holdsSteps) :
    exec (.throttleSample x) s = .next ((s.readSensors x).applySteps (s.fieldSteps x) (s.thermPoints x)) :=
  congrArg Host.Outcome.next ((if_neg (by simp [hs])).trans (if_neg fun hi => h (hi.imp_left (readSensors_down s x).mp)))

/-- Every cluster shows the step of its field (07 R180). -/
def State.showSteps (s : State) (steps : List Nat) : State :=
  foldS s (List.finRange 64) fun s c => s.modClu c.val fun x => { x with throttleStep := BitVec.ofNat 8 (steps.getD (c.val / 16) 0) }

theorem showSteps_only (s : State) (steps : List Nat) : ∃ m, s.showSteps steps = { s with cl := m } :=
  foldS_keeps (p := fun t => ∃ m, t = { s with cl := m }) _ (by rintro _ c ⟨m, rfl⟩; exact ⟨_, rfl⟩) _ ⟨_, rfl⟩

theorem showSteps_throttleStep (s : State) (steps : List Nat) (c : CId) :
    ((s.showSteps steps).clu c.val).throttleStep = BitVec.ofNat 8 (steps.getD (c.val / 16) 0) := by
  have h := foldS_part (part := fun s => (s.clu c.val).throttleStep) (hit := fun k : CId => c = k)
    (g := fun _ => BitVec.ofNat 8 (steps.getD (c.val / 16) 0)) (fun _ => rfl)
    (f := fun s k => s.modClu k.val fun x => { x with throttleStep := BitVec.ofNat 8 (steps.getD (k.val / 16) 0) })
    (fun s k => by
      rw [State.clu_modClu]
      by_cases hk : c = k
      · simp [hk]
      · rw [if_neg (Fin.val_ne_of_ne hk), if_neg hk]) (List.finRange 64) s
  rwa [if_pos ⟨c, List.mem_finRange c, rfl⟩] at h

/-- Applied steps are those that the clusters show; the rail follows the lowest. -/
theorem applySteps_eq (s : State) (steps : List Nat) (points : List (Option Nat)) : ∃ mv o, s.applySteps steps points =
    { s.showSteps steps with
      rst := { s.rst with fieldStep := steps, thermPoint := points, target := mv, halving := false }, out := o } := by
  obtain ⟨m, hm⟩ := showSteps_only s steps
  unfold State.applySteps
  unfold State.showSteps at hm ⊢
  dsimp only
  rw [hm]
  exact ⟨_, _, rfl⟩

theorem applySteps_rst (s : State) (steps : List Nat) (points : List (Option Nat)) : ∃ mv, (s.applySteps steps points).rst =
    { s.rst with fieldStep := steps, thermPoint := points, target := mv, halving := false } := by
  obtain ⟨mv, o, h⟩ := applySteps_eq s steps points
  rw [h]
  exact ⟨mv, rfl⟩

theorem applySteps_throttleStep (s : State) (steps : List Nat) (points : List (Option Nat)) (c : CId) :
    ((s.applySteps steps points).clu c.val).throttleStep = BitVec.ofNat 8 (steps.getD (c.val / 16) 0) := by
  have hcl : (s.applySteps steps points).cl = (s.showSteps steps).cl := by
    obtain ⟨mv, o, h⟩ := applySteps_eq s steps points
    rw [h]
  rw [State.clu, hcl, ← State.clu, showSteps_throttleStep]

/-- A sample whose steps apply changes the readings, the steps and what shows them. -/
theorem only_applySteps (s : State) (x : Sensors) (steps : List Nat) (points : List (Option Nat)) :
    Only [.rst, .cl, .out] s ((s.readSensors x).applySteps steps points) := by
  obtain ⟨mv, o, h⟩ := applySteps_eq (s.readSensors x) steps points
  obtain ⟨m, hm⟩ := showSteps_only (s.readSensors x) steps
  rw [h, hm]
  exact ⟨rfl, fun b hb => by cases b <;> simp_all [Block.Same, State.readSensors]⟩

/-- The step of a field that is held, and of one that is not (15 R410, 07 R181). -/
theorem fieldStepOf_held {f : Nat} (h : mget false s.mem.tierHold f = true) (p : Option Nat) :
    s.fieldStepOf f p = s.cfg.live.throttle.length - 1 := if_pos h

theorem fieldStepOf_free {f : Nat} (h : mget false s.mem.tierHold f = false) (p : Option Nat) :
    s.fieldStepOf f p = min (s.cfg.live.throttle.length - 1)
      (max (max (max s.rst.powerStep (curveValue s.cfg.live.thermal p)) (mget 0 s.mem.tierStep f))
        (max s.rst.floorStep (if s.anyLive then 0 else idleStep s.cfg.live.throttle))) := if_neg (by simp [h])

theorem fieldStepOf_le (s : State) (f : Nat) (p : Option Nat) : s.fieldStepOf f p ≤ s.cfg.live.throttle.length - 1 := by
  cases h : mget false s.mem.tierHold f
  · rw [fieldStepOf_free h]
    exact Nat.min_le_left _ _
  · rw [fieldStepOf_held h]

/-! ### The obligation -/

/-- Settles O29: a sample moves each tier by its own highest sensor, and each field takes the step of its own tier, die and hold. -/
theorem sramAndThrottleStepsResult : Obligations.SramAndThrottleStepsResult := by
  refine ⟨fun s l f hs => ⟨fun hw => ?sram, ?overheat⟩, ?throttle⟩
  case sram =>
    obtain ⟨-, hx⟩ := wf_sramStepSample.mp hw
    obtain ⟨r, st, te, ho, hu⟩ := sampleTiers_only s (l.map hottest)
    refine ⟨_, sramStepSample_free hs hw, only_sampleTiers s _, by rw [hu], by rw [hu], by rw [hu], by rw [hu],
      fun n h => ?_, fun n h => ?_⟩
    · exact congrArg Tier.read (tier_sampleTiers s (l := l.map hottest) (by simpa using h))
    · have htier := tier_sampleTiers s (l := l.map hottest) (n := n) (by simpa using h)
      rw [List.getElem_map] at htier
      have hne : l[n] ≠ [] := fun h0 => by simpa [h0] using hx l[n] (List.getElem_mem h)
      have htemp : mget 0 (s.sampleTiers (l.map hottest)).mem.tierTemp n = hottest l[n] := congrArg Tier.temp htier
      dsimp only
      rw [htemp]
      refine ⟨hottest_mem hne, fun y hy => le_hottest hy, ?_, congrArg Tier.hold htier⟩
      exact (congrArg Tier.step htier).trans (sramNext_eq _ _)
  case overheat =>
    refine ⟨_, sramOver_free f hs, only_step (b := .evt) (only_mono (only_mem s _) (by decide)) (only_raise _ _ _) (by decide),
      raise_mem _ _ _, raise_evt_congr (by rfl) (by rfl) (by rfl) _ _⟩
  case throttle =>
    intro s x hw hs idle last
    refine ⟨fun hi => ⟨_, throttleSample_holds x hs hi, only_rst s _, rfl, rfl, rfl, rfl⟩, fun hi => ?_⟩
    obtain ⟨mv, hrst⟩ := applySteps_rst (s.readSensors x) (s.fieldSteps x) (s.thermPoints x)
    have hclu := applySteps_throttleStep (s.readSensors x) (s.fieldSteps x) (s.thermPoints x)
    refine ⟨_, throttleSample_applies x hs hi, only_applySteps s x _ _, ?_⟩
    dsimp only
    rw [hrst]
    refine ⟨rfl, fun y hy => le_hottest hy, hottest_mem, fun d hd y hy => le_dieHottest hw hd hy, fun f => ?_⟩
    have hstep := fieldSteps_getD s x f
    refine ⟨?_, fun hh => ?_, fun hh => ?_, fun c hc => ?_⟩
    · exact hstep ▸ fieldStepOf_le s f.val _
    · exact hstep.trans (fieldStepOf_held hh _)
    · exact hstep.trans (fieldStepOf_free hh _)
    · exact hc ▸ hclu c

end Sys2Proof.Machine
end

section
/-! PROOFS. The Firn store (chapter 08), updates: what a catalogue write, an event and a message along the stream path leave, and what
they turn on. -/

namespace Sys2Proof.Machine

open Sys2Proof Sys2Proof.Safety

variable {s t : State}

/-! ### Which blocks change -/

theorem only_firn (s : State) (f : Firn) : Only [.firn] s { s with firn := f } :=
  ⟨rfl, fun b hb => by cases b <;> simp_all [Block.Same]⟩

theorem only_lnk (s : State) (l : Lnk) : Only [.lnk] s { s with lnk := l } := ⟨rfl, fun b hb => by cases b <;> simp_all [Block.Same]⟩

theorem only_setFirn (s : State) (f : Firn → Firn) : Only [.firn] s (s.setFirn f) := only_firn s _

/-! ### What waking leaves (15 R419) -/

@[simp] theorem wakeUp_firn (s : State) : s.wakeUp.firn = s.firn := (only_wakeUp s).2 .firn (by decide)
@[simp] theorem wakeUp_lnk (s : State) : s.wakeUp.lnk = s.lnk := (only_wakeUp s).2 .lnk (by decide)
@[simp] theorem wakeUp_evt (s : State) : s.wakeUp.evt = s.evt := (only_wakeUp s).2 .evt (by decide)
@[simp] theorem wakeUp_life (s : State) : s.wakeUp.life = s.life := (only_wakeUp s).2 .life (by decide)
@[simp] theorem wakeUp_out (s : State) : s.wakeUp.out = s.out := (only_wakeUp s).2 .out (by decide)
@[simp] theorem wakeUp_cfg (s : State) : s.wakeUp.cfg = s.cfg := (only_wakeUp s).2 .cfg (by decide)
@[simp] theorem wakeUp_glb (s : State) : s.wakeUp.glb = s.glb := (only_wakeUp s).2 .glb (by decide)
@[simp] theorem wakeUp_mem (s : State) : s.wakeUp.mem = s.mem := (only_wakeUp s).2 .mem (by decide)
@[simp] theorem wakeUp_cl (s : State) : s.wakeUp.cl = s.cl := (only_wakeUp s).2 .cl (by decide)

theorem wakeUp_held (s : State) : s.wakeUp.rst.held = s.rst.held := by
  unfold State.wakeUp
  split <;> rfl

/-! ### Slots and the catalogue (08 R186) -/

theorem fslot_congr (h : t.firn.slots = s.firn.slots) (k : Nat) : t.fslot k = s.fslot k := by rw [State.fslot, h, State.fslot]

theorem fslot_setFslot (s : State) (k i : Nat) (y : FSlot) : (s.setFslot k y).fslot i = if i = k then y else s.fslot i :=
  mget_mset ({} : FSlot) s.firn.slots k i y

theorem fslot_modFslot (s : State) (k : FSlotId) (f : FSlot → FSlot) (i : Nat) :
    (s.modFslot k f).fslot i = if i = k.val then f (s.fslot k.val) else s.fslot i := fslot_setFslot s k.val i _

/-- A catalogue write changes the numbered copies alone. -/
theorem Firn.written_only (x : Firn) : ∃ n h, x.written = { x with catSeq := n, halves := h } := ⟨_, _, rfl⟩

theorem fslot_catalogue (s : State) (k : Nat) : s.catalogue.fslot k = s.fslot k := rfl

theorem only_modFslot (s : State) (k : FSlotId) (f : FSlot → FSlot) : Only [.firn] s (s.modFslot k f) := only_firn s _
theorem only_catalogue (s : State) : Only [.firn] s s.catalogue := only_setFirn s _

/-- Stripes that are free turn on the slots, the retired stripes and the counts of cycles. -/
theorem freeStripes_wakeUp (s : State) : s.wakeUp.freeStripes = s.freeStripes := by simp [State.freeStripes]

/-! ### Events -/

/-- What a raise makes of the events turns on the events, the node's ID and the life clock. -/
theorem raise_evt_of_node (he : t.evt = s.evt) (hn : t.lnk.node = s.lnk.node) (hc : t.life = s.life) (c : W16) (i : EvInfo) :
    (t.raise c i).evt = (s.raise c i).evt := by
  unfold State.raise
  rw [he, hn, hc]
  dsimp only
  split <;> rfl

theorem raise_firn (s : State) (c : W16) (i : EvInfo) : (s.raise c i).firn = s.firn := (only_raise s c i).2 .firn (by decide)
theorem raise_lnk (s : State) (c : W16) (i : EvInfo) : (s.raise c i).lnk = s.lnk := (only_raise s c i).2 .lnk (by decide)
theorem raise_out (s : State) (c : W16) (i : EvInfo) : (s.raise c i).out = s.out := (only_raise s c i).2 .out (by decide)

/-! ### The chain as messages of an installation see it -/

/-- The chain but for its ports is the same in two states. -/
def SameChain (s t : State) : Prop := ∃ p, t.lnk = { s.lnk with ports := p }

theorem SameChain.refl (s : State) : SameChain s s := ⟨s.lnk.ports, rfl⟩
theorem SameChain.of_eq (h : t.lnk = s.lnk) : SameChain s t := ⟨s.lnk.ports, h⟩

theorem SameChain.trans {u : State} (h : SameChain s t) (k : SameChain t u) : SameChain s u := by
  obtain ⟨p, hp⟩ := h
  obtain ⟨q, hq⟩ := k
  exact ⟨q, by rw [hq, hp]⟩

theorem SameChain.node (h : SameChain s t) : t.lnk.node = s.lnk.node := by
  obtain ⟨p, hp⟩ := h
  rw [hp]

theorem SameChain.position (h : SameChain s t) : t.lnk.position = s.lnk.position := by
  obtain ⟨p, hp⟩ := h
  rw [hp]

theorem SameChain.route (h : SameChain s t) (d : NodeId) : t.route d = s.route d := by
  obtain ⟨p, hp⟩ := h
  rw [State.route, hp, State.route]

theorem SameChain.pathNext (h : SameChain s t) (head : NodeId) : t.pathNext head = s.pathNext head := by
  obtain ⟨p, hp⟩ := h
  rw [State.pathNext, hp, State.pathNext]

theorem SameChain.pathPrev (h : SameChain s t) (head : NodeId) : t.pathPrev head = s.pathPrev head := by
  obtain ⟨p, hp⟩ := h
  rw [State.pathPrev, hp, State.pathPrev]

theorem SameChain.isHead (h : SameChain s t) (x : Install) : t.isHead x = s.isHead x := by rw [State.isHead, h.node, State.isHead]

/-! ### A message to a chip that may be there (11 R297) -/

/-- What leaves for a chip: nothing where there is none, or no route to it. -/
def State.outsTo (s : State) (n : Option NodeId) (o : NodeId → Out) : List Out :=
  match n with
  | some d => if (s.route d).isSome then [o d] else []
  | none => []

/-- There is a route to the chip, or no chip. -/
def State.reaches (s : State) (n : Option NodeId) : Prop := ∀ d, n = some d → (s.route d).isSome = true

/-- Sends to a chip that may be there. -/
def State.sendAny (s : State) (n : Option NodeId) (o : NodeId → Out) : State :=
  match n with
  | some d => s.sendTo d 0 (o d)
  | none => s

theorem toNext_eq (s : State) (head : NodeId) (o : NodeId → Out) : s.toNext head o = s.sendAny (s.pathNext head) o := rfl
theorem toPrev_eq (s : State) (head : NodeId) (o : NodeId → Out) : s.toPrev head o = s.sendAny (s.pathPrev head) o := rfl

theorem SameChain.outsTo (h : SameChain s t) (n : Option NodeId) (o : NodeId → Out) : t.outsTo n o = s.outsTo n o := by
  cases n with
  | none => rfl
  | some d => rw [State.outsTo, h.route, State.outsTo]

/-- Counting an unroutable message changes the ports and the events. -/
theorem countNoRoute_ports (s : State) (p : PortId) :
    ∃ e l, s.countNoRoute p = { s with evt := e, lnk := { s.lnk with ports := l } } := by
  unfold State.countNoRoute
  dsimp only
  obtain ⟨e, h⟩ := satEvent_only (s.modPort p.val fun x => { x with
    noRoute := (bump (s.port p.val).noRoute).1, routeSat := x.routeSat || (bump (s.port p.val).noRoute).2 })
    (bump (s.port p.val).noRoute).2 6 (portOff p.val 0x30)
  exact ⟨e, _, h⟩

/-- It leaves by the outbox, or is counted where it has no route. -/
theorem sendAny_only (s : State) (n : Option NodeId) (o : NodeId → Out) : ∃ e l,
    s.sendAny n o = { s with evt := e, lnk := { s.lnk with ports := l }, out := s.out ++ s.outsTo n o } ∧
      (s.reaches n → e = s.evt) := by
  cases n with
  | none => exact ⟨s.evt, s.lnk.ports, by simp [State.sendAny, State.outsTo], fun _ => rfl⟩
  | some d =>
    unfold State.sendAny State.sendTo State.outsTo State.reaches
    dsimp only
    cases hr : (s.route d).isSome with
    | true => exact ⟨s.evt, s.lnk.ports, rfl, fun _ => rfl⟩
    | false =>
      obtain ⟨e, l, hc⟩ := countNoRoute_ports s 0
      obtain ⟨e', hx⟩ := raise_only (s.countNoRoute 0) Ev.lnkNoRoute { aux := d, tag := 0 }
      refine ⟨e', l, ?_, fun h => absurd (h d rfl) (by simp [hr])⟩
      rw [if_neg (by simp), if_neg (by simp), hx, hc, List.append_nil]

theorem only_sendAny (s : State) (n : Option NodeId) (o : NodeId → Out) : Only [.evt, .lnk, .out] s (s.sendAny n o) := by
  obtain ⟨e, l, h, -⟩ := sendAny_only s n o
  rw [h]
  exact only_step (b := .out) (only_step (b := .lnk) (only_mono (only_evt s e) (by decide)) (only_lnk _ _) (by decide)) (only_out _ _)
    (by decide)

theorem sendAny_firn (s : State) (n : Option NodeId) (o : NodeId → Out) : (s.sendAny n o).firn = s.firn :=
  (only_sendAny s n o).2 .firn (by decide)

theorem sendAny_chain (s : State) (n : Option NodeId) (o : NodeId → Out) : SameChain s (s.sendAny n o) := by
  obtain ⟨e, l, h, -⟩ := sendAny_only s n o
  exact ⟨l, by rw [h]⟩

theorem sendAny_out (s : State) (n : Option NodeId) (o : NodeId → Out) : (s.sendAny n o).out = s.out ++ s.outsTo n o := by
  obtain ⟨e, l, h, -⟩ := sendAny_only s n o
  rw [h]

theorem sendAny_evt {n : Option NodeId} (o : NodeId → Out) (hn : s.reaches n) : (s.sendAny n o).evt = s.evt := by
  obtain ⟨e, l, h, he⟩ := sendAny_only s n o
  rw [h]
  exact he hn

/-! ### A command of the physical function (08 R220) -/

/-- A FIRN_CMD write that no command stands in the way of. -/
theorem firnOp_taken {v : W64} {op : Nat} (hu : s.up = true) (hb : s.firnBusy = false) (ho : (firnCmd v).op = op)
    (k : FirnCmd → State → State) : s.firnOp v op k = k (firnCmd v) s.wakeUp := by
  have hbusy : s.wakeUp.firnBusy = false := by rw [State.firnBusy, wakeUp_firn]; exact hb
  rw [State.firnOp, State.hostReg, if_pos hu]
  dsimp only
  rw [if_neg (by simp [ho]), if_neg (by simp [hbusy]), if_neg (by simp [ho])]

end Sys2Proof.Machine
end

section
/-! PROOFS. The Firn store (chapter 08), copies: sweeps, the daily check and refetches (R215 to R217, 07 R173 step 4). -/

namespace Sys2Proof.Machine

open Sys2Proof Sys2Proof.Safety

variable {s t : State} {g : Gen} {seg : Nat}

/-! ### What a unit's write turns on -/

theorem rawByte_sameByte {a c : Addr} (h : sameByte a c) : s.rawByte c = s.rawByte a := by
  obtain ⟨da, xa⟩ := a
  obtain ⟨dc, xc⟩ := c
  cases da <;> cases dc <;> simp_all [sameByte, State.rawByte]

/-- A write of a byte turns on the bytes and the rights of access. -/
theorem SameStore.writeByte (h : SameStore s t) (r : Req) (a : Addr) (b : Byte) : SameStore (s.writeByte r a b) (t.writeByte r a b) := by
  refine ⟨fun c => ?_, fun q c w => by rw [mayAccess_writeByte, mayAccess_writeByte, h.2]⟩
  by_cases hc : sameByte a c
  · rw [rawByte_sameByte hc, rawByte_sameByte hc, rawByte_writeByte_same, rawByte_writeByte_same, h.1, h.2]
  · rw [rawByte_writeByte_ne r b hc, rawByte_writeByte_ne r b hc, h.1]

theorem SameStore.write (h : SameStore s t) (r : Req) (a : Addr) (l : Bytes) : SameStore (s.write r a l) (t.write r a l) := by
  induction l generalizing s t a with
  | nil => exact h
  | cons b l ih => exact ih (h.writeByte r a b) (a.plus 1)

theorem rawByte_rewrite_congr (h : SameStore s t) (r : Req) (a : Addr) (l : Bytes) (c : Addr) :
    (t.rewrite r a l).rawByte c = (s.rewrite r a l).rawByte c := by
  rw [State.rewrite, State.rewrite, (sameStore_unpoison _ r a _).1, (sameStore_unpoison _ r a _).1, (h.write r a l).1]

/-! ### What a unit's write leaves -/

/-- A write changes bytes of main memory, and clusters. -/
theorem write_bytes_only (r : Req) (l : Bytes) (a : Addr) (s : State) :
    ∃ b c, s.write r a l = { s with mem := { s.mem with bytes := b }, cl := c } := by
  induction l generalizing s a with
  | nil => exact ⟨s.mem.bytes, s.cl, rfl⟩
  | cons b l ih =>
    have hbyte : ∃ m c, s.writeByte r a b = { s with mem := { s.mem with bytes := m }, cl := c } := by
      unfold State.writeByte State.makeValid State.putByte
      split
      · split <;> exact ⟨_, _, rfl⟩
      · exact ⟨s.mem.bytes, s.cl, rfl⟩
    obtain ⟨m, c, hb⟩ := hbyte
    obtain ⟨m', c', hl⟩ := ih (a.plus 1) (s.writeByte r a b)
    exact ⟨m', c', by rw [State.write, hl, hb]⟩

/-- A line that leaves the poison list changes its controller, and none of the counts of refetches. -/
theorem unpoison_ctls_only (s : State) (r : Req) (a : Addr) (n : Nat) :
    ∃ k, s.unpoison r a n = { s with mem := { s.mem with ctls := k } } ∧
      ∀ m, ((s.unpoison r a n).ctl m).refetches = (s.ctl m).refetches := by
  unfold State.unpoison
  split
  · refine foldS_keeps (p := fun u => ∃ k, u = { s with mem := { s.mem with ctls := k } } ∧
      ∀ m, (u.ctl m).refetches = (s.ctl m).refetches) _ (fun u j h => ?_) _ ⟨s.mem.ctls, rfl, fun _ => rfl⟩
    obtain ⟨k, hu, hctl⟩ := h
    split
    · refine ⟨_, by rw [hu, State.setCtl], fun m => ?_⟩
      rw [State.ctl_setCtl_eq]
      split
      · next hm => rw [hm]; exact hctl _
      · exact hctl m
    · exact ⟨k, hu, hctl⟩
  · exact ⟨s.mem.ctls, rfl, fun _ => rfl⟩

theorem rewrite_only (s : State) (r : Req) (a : Addr) (l : Bytes) :
    ∃ b k c, s.rewrite r a l = { s with mem := { s.mem with bytes := b, ctls := k }, cl := c } := by
  obtain ⟨b, c, hw⟩ := write_bytes_only r l a s
  obtain ⟨k, hu, -⟩ := unpoison_ctls_only (s.write r a l) r a l.length
  exact ⟨b, k, c, by rw [State.rewrite, hu, hw]⟩

theorem rewrite_refetches (s : State) (r : Req) (a : Addr) (l : Bytes) (m : Nat) :
    ((s.rewrite r a l).ctl m).refetches = (s.ctl m).refetches := by
  obtain ⟨b, c, hw⟩ := write_bytes_only r l a s
  obtain ⟨k, -, hctl⟩ := unpoison_ctls_only (s.write r a l) r a l.length
  rw [State.rewrite, hctl, hw]
  rfl

/-! ### A segment laid down again -/

/-- The store's bytes of a segment and their place turn on the slots alone. -/
theorem relay_eq {u : State} (h : s.relay g seg = some u) : ∃ a l, u = s.rewrite .thaw a l ∧
    ∀ t : State, t.firn.slots = s.firn.slots → t.relay g seg = some (t.rewrite .thaw a l) := by
  unfold State.relay at h ⊢
  dsimp only at h ⊢
  split at h
  · simp at h
  · next e he =>
    split at h
    · simp at h
    · next b hb =>
      refine ⟨_, _, (Option.some.inj h).symm, fun t ht => ?_⟩
      rw [fslot_congr ht, he]
      dsimp only
      rw [hb]

theorem damage_evt (s : State) (k : FSlotId) (code : W16) (seg : Nat) (n : W32) :
    (s.damage k code seg n).evt = (s.raise code (firnInfo k.val seg n)).evt := raise_evt_congr (by rfl) (by rfl) (by rfl) _ _

theorem damage_mem (s : State) (k : FSlotId) (code : W16) (seg : Nat) (n : W32) : (s.damage k code seg n).mem = s.mem := raise_mem _ _ _

theorem damage_fslot (s : State) (k : FSlotId) (code : W16) (seg : Nat) (n : W32) (i : Nat) :
    (s.damage k code seg n).fslot i = if i = k.val then
      (if (s.fslot k.val).state = .valid then { s.fslot k.val with state := .damaged } else s.fslot k.val) else s.fslot i :=
  (fslot_congr (congrArg Firn.slots (raise_firn _ _ _)) i).trans (fslot_modFslot s k _ i)

/-! ### The first device fatal event (17 R441) -/

theorem Evt.write_fatalCode (e : Evt) (r : EvRec) : (e.write r).fatalCode = e.fatalCode := by
  have hlost : e.countLost.fatalCode = e.fatalCode := by
    unfold Evt.countLost
    split
    · rfl
    · split <;> rfl
  unfold Evt.write
  split
  · rfl
  · split
    · exact hlost
    · split <;> exact hlost

/-- The latch takes the first device fatal code that is raised. -/
theorem Evt.raise_fatalCode (e : Evt) (r : EvRec) :
    (e.raise r).fatalCode = if Ev.severity r.code = 3 ∧ e.fatalCode = 0 then r.code else e.fatalCode := by
  unfold Evt.raise
  split
  · next hlow =>
    rw [if_neg (by omega)]
    split
    · rfl
    · exact e.write_fatalCode r
  · rw [Evt.write_fatalCode]
    split <;> rfl

theorem raise_fatalCode (s : State) (c : W16) (i : EvInfo) :
    (s.raise c i).evt.fatalCode = if Ev.severity c = 3 ∧ s.evt.fatalCode = 0 then c else s.evt.fatalCode := by
  unfold State.raise
  dsimp only
  split
  · rw [Evt.raise_fatalCode, if_neg (fun h => absurd (h.1 : Ev.severity (Ev.saturated 0) = 3) (by decide)), Evt.raise_fatalCode]
  · rw [Evt.raise_fatalCode]

/-- A device fatal event raises its event, latches the fault and stops the jobs. -/
theorem deviceFatal_only (s : State) (c : W16) (i : EvInfo) : ∃ m j b o, s.deviceFatal c i = { s.raise c i with
    glb := { (s.raise c i).glb with fatal := true, faultN := true }, cl := m, jobs := j, bars := b, out := o } := by
  unfold State.deviceFatal
  dsimp only
  refine foldS_keeps (p := fun t => ∃ m j b o, t = { s.raise c i with
    glb := { (s.raise c i).glb with fatal := true, faultN := true }, cl := m, jobs := j, bars := b, out := o }) _ ?_ _ ⟨_, _, _, _, rfl⟩
  rintro _ x ⟨m, j, b, o, rfl⟩
  obtain ⟨m', j', b', o', h⟩ := stopJob_only ({ s.raise c i with
    glb := { (s.raise c i).glb with fatal := true, faultN := true }, cl := m, jobs := j, bars := b, out := o } : State) x.tag Stat.fault c
  exact ⟨m', j', b', o', h⟩

/-! ### Sweeps (R215, R217) -/

/-- A sweep goes on: the device is neither held in reset nor at rest, and the current generation has the segment. -/
structure Sweeps (s : State) (g : Gen) (seg : Nat) : Prop where
  current : s.firn.current = some g
  free : s.rst.held = .none
  awake : s.rst.pwr ≠ .rest
  heard : s.rst.pwr ≠ .restQuiet
  inside : seg < (s.fslot g.slot.val).segments.length

/-- The sweep has passed a segment. -/
def State.sweptTo (s : State) (g : Gen) (seg : Nat) : State :=
  s.setFirn fun x => { x with
    sweepOn := decide (seg + 1 < (s.fslot g.slot.val).segments.length)
    sweepAt := (seg + 1) % (s.fslot g.slot.val).segments.length }

theorem Sweeps.passes (h : Sweeps s g seg) : ¬ ((s.fslot g.slot.val).segments.length ≤ seg ∨ s.rst.held ≠ .none ∨ s.rst.pwr = .rest ∨
    s.rst.pwr = .restQuiet) := by
  obtain ⟨-, hfree, hawake, hheard, hin⟩ := h
  simpa [hfree, hawake, hheard] using hin

theorem sweepSegment_same (h : Sweeps s g seg) (ok again : Bool) :
    exec (.sweepSegment false seg true ok again) s = .next (s.sweptTo g seg) := by
  refine congrArg Host.Outcome.next ?_
  rw [sweepSegment, if_neg (by decide), h.current]
  exact (if_neg h.passes).trans (if_pos rfl)

/-- A segment that differs and is laid down again. -/
theorem sweepSegment_repaired (h : Sweeps s g seg) {ok again : Bool} (hr : (s.sweptTo g seg).repair g seg ok again = (t, true)) :
    exec (.sweepSegment false seg false ok again) s = .next (t.raise Ev.sweepRepair (firnInfo g.slot.val seg g.num)) := by
  refine congrArg Host.Outcome.next ?_
  rw [sweepSegment, if_neg (by decide), h.current]
  refine (if_neg h.passes).trans ((if_neg (by decide)).trans ?_)
  unfold State.sweptTo at hr
  rw [hr]

/-- A segment that is past repair. -/
theorem sweepSegment_lost (h : Sweeps s g seg) {ok again : Bool} (hr : (s.sweptTo g seg).repair g seg ok again = (t, false)) :
    exec (.sweepSegment false seg false ok again) s = .next (t.deviceFatal Ev.baseUnrepairable (firnInfo g.slot.val seg g.num)) := by
  refine congrArg Host.Outcome.next ?_
  rw [sweepSegment, if_neg (by decide), h.current]
  refine (if_neg h.passes).trans ((if_neg (by decide)).trans ?_)
  unfold State.sweptTo at hr
  rw [hr]

theorem repair_again {u : State} (h : s.relay g seg = some u) : s.repair g seg true true = (u, true) := by
  rw [State.repair, if_pos rfl, h]

/-- Without the store or a matching digest no repair ends well, and none latches a device fatal event. -/
theorem repair_fails {ok again : Bool} (h : (ok && again) = false) :
    ∃ t, s.repair g seg ok again = (t, false) ∧ t.evt.fatalCode = s.evt.fatalCode := by
  unfold State.repair
  split
  · next u hu =>
    cases ok with
    | false => simp at hu
    | true =>
      obtain ⟨a, l, rfl, -⟩ := relay_eq (hu : s.relay g seg = some u)
      obtain ⟨b, k, c, hw⟩ := rewrite_only s .thaw a l
      exact ⟨_, congrArg _ h, by rw [hw]⟩
  · refine ⟨_, rfl, ?_⟩
    rw [damage_evt, raise_fatalCode, if_neg (fun h => absurd h.1 (by decide))]

/-! ### The daily check (R215) -/

theorem firnDailyCheck_one {k : FSlotId} (hs : s.rst.held = .none) (hv : (s.fslot k.val).state = .valid) :
    exec (.firnDailyCheck [k] []) s = .next (s.damage k Ev.firnSlotDamaged 0 0) :=
  congrArg Host.Outcome.next ((if_neg (by simp [hs])).trans (if_pos (by simp [hv])))

theorem firnDailyCheck_none (hs : s.rst.held = .none) : exec (.firnDailyCheck [] []) s = .next s :=
  congrArg Host.Outcome.next (if_neg (by simp [hs]))

/-! ### Refetches (R216) -/

variable {line : Nat} {tag : Tag}

/-- The line no longer waits for the store. -/
def State.fetched (s : State) (line : Nat) (tag : Tag) : State :=
  { s with mem := { s.mem with refetching := s.mem.refetching.erase (line, tag) } }

/-- One refetch whose count stays below its limit. -/
theorem countRefetch_below (h : (s.ctl (ctlOf line)).refetches.toNat + 1 < 2 ^ 64 - 1) : ∃ y : MemCtl,
    s.countRefetch line = s.setCtl (ctlOf line) y ∧ y.refetches = (s.ctl (ctlOf line)).refetches + 1 := by
  obtain ⟨hcount, hfull⟩ := bump_below h
  refine ⟨{ s.ctl (ctlOf line) with
    refetches := (bump (s.ctl (ctlOf line)).refetches).1
    refetchesSat := (s.ctl (ctlOf line)).refetchesSat || (bump (s.ctl (ctlOf line)).refetches).2 }, ?_, ?_⟩
  · rw [State.countRefetch]
    dsimp only
    rw [State.satEvent, hfull]
    rfl
  · refine BitVec.eq_of_toNat_eq (hcount.trans ?_)
    rw [BitVec.toNat_add]
    exact (Nat.mod_eq_of_lt (by simp; omega)).symm

/-- The line of a generation is found, and laid down again, whatever waits for the store. -/
theorem rewriteLine_fetched {u : State} (h : s.rewriteLine line = some u) : ∃ a l, u = s.rewrite .thaw a l ∧
    (s.fetched line tag).rewriteLine line = some ((s.fetched line tag).rewrite .thaw a l) := by
  have hat : (s.fetched line tag).genAt line = s.genAt line := rfl
  unfold State.rewriteLine at h ⊢
  rw [hat]
  cases hg : s.genAt line with
  | none => simp [hg] at h
  | some e =>
    obtain ⟨a, l, hu, hrelay⟩ := relay_eq (by simpa [hg] using h : s.relay e.1 e.2 = some u)
    exact ⟨a, l, hu, hrelay (s.fetched line tag) rfl⟩

/-- A refetch that the store answers and whose read-back is good. -/
theorem lineRefetch_rewrites {a : BitVec 41} {v : State} (hb : bitOf s.rst.blockAct 18 = false)
    (hm : (a.toNat / 64 * 64, tag) ∈ s.mem.refetching)
    (hv : (s.fetched (a.toNat / 64 * 64) tag).rewriteLine (a.toNat / 64 * 64) = some v) :
    exec (.lineRefetch a tag true 0) s = .next ((v.countRefetch (a.toNat / 64 * 64)).raise Ev.memRefetch
      (v.memInfo (a.toNat / 64 * 64) tag)) := by
  refine congrArg Host.Outcome.next ?_
  unfold State.fetched at hv
  rw [lineRefetch]
  dsimp only
  rw [if_neg (by simp [hb]), if_neg (by simpa using hm), if_pos rfl, hv]
  dsimp only
  split
  · rfl
  · exact if_pos (Nat.zero_le 3)

/-! ### The obligation -/

/-- Settles O36: what a sweep, the daily check or a refetch finds is laid down again from the store, or the device is past repair. -/
theorem copyCheckResult : Obligations.CopyCheckResult := by
  intro s g hg hheld hrest hquiet n
  refine ⟨fun seg hseg => ?sweep, fun k hk => ?daily, firnDailyCheck_none hheld,
    fun a tag u => ?refetch⟩
  case sweep =>
    have h : Sweeps s g seg := ⟨hg, hheld, hrest, hquiet, hseg⟩
    refine ⟨sweepSegment_same h, fun ok again hbad => ?_, fun u hu => ?_⟩
    · obtain ⟨t, ht, hlatch⟩ := repair_fails (s := s.sweptTo g seg) (g := g) (seg := seg) hbad
      obtain ⟨m, j, b, o, hfatal⟩ := deviceFatal_only t Ev.baseUnrepairable (firnInfo g.slot.val seg g.num)
      refine ⟨_, sweepSegment_lost h ht, ?_⟩
      rw [hfatal]
      refine ⟨rfl, rfl, fun h0 => ?_⟩
      dsimp only
      rw [raise_fatalCode, if_pos ⟨by decide, hlatch.trans h0⟩]
    · obtain ⟨a, l, rfl, hrelay⟩ := relay_eq hu
      obtain ⟨b, k, c, hw⟩ := rewrite_only (s.sweptTo g seg) .thaw a l
      refine ⟨_, sweepSegment_repaired h (repair_again (hrelay (s.sweptTo g seg) rfl)), fun p => ?_, ?_, ?_, ?_⟩
      · rw [(sameStore_raise _ _ _).1]
        exact rawByte_rewrite_congr (s := s) (t := s.sweptTo g seg) (.of_mem rfl rfl rfl) .thaw a l p
      · exact raise_evt_congr (by rw [hw]; rfl) (by rw [hw]; rfl) (by rw [hw]; rfl) _ _
      · rw [(only_raise _ _ _).2 .jobs (by decide), hw]
        rfl
      · rw [raise_firn, hw]
        rfl
  case daily =>
    have hslot := damage_fslot s k Ev.firnSlotDamaged 0 0
    exact ⟨_, firnDailyCheck_one hheld hk, (hslot _).trans ((if_pos rfl).trans (if_pos hk)), fun i hi => (hslot i).trans (if_neg hi),
      damage_evt s k _ 0 0, damage_mem s k _ 0 0⟩
  case refetch =>
    intro line hblock hwaits hline _ hcount
    obtain ⟨p, l, rfl, hrewrite⟩ := rewriteLine_fetched (tag := tag) hline
    obtain ⟨b, k, c, hw⟩ := rewrite_only (s.fetched line tag) .thaw p l
    have hctl : (((s.fetched line tag).rewrite .thaw p l).ctl (ctlOf line)).refetches = (s.ctl (ctlOf line)).refetches :=
      rewrite_refetches _ _ _ _ _
    obtain ⟨y, hy, hrefetches⟩ := countRefetch_below (s := (s.fetched line tag).rewrite .thaw p l) (line := line) (by rwa [hctl])
    refine ⟨_, lineRefetch_rewrites hblock hwaits hrewrite, fun q => ?_, ?_, ?_, ?_, ?_⟩
    · rw [(sameStore_raise _ _ _).1, hy]
      exact rawByte_rewrite_congr (s := s) (t := s.fetched line tag) (.of_mem rfl rfl rfl) .thaw p l q
    · rw [raise_mem, hy, hw]
      rfl
    · rw [State.ctl, raise_mem, ← State.ctl, hy, State.ctl_setCtl, hrefetches, hctl]
    · have hinfo : ((s.fetched line tag).rewrite .thaw p l).memInfo line tag = s.memInfo line tag := by rw [hw]; rfl
      rw [hinfo, hy]
      exact raise_evt_congr (by rw [hw]; rfl) (by rw [hw]; rfl) (by rw [hw]; rfl) _ _
    · rw [(only_raise _ _ _).2 .jobs (by decide), hy, hw]
      rfl

end Sys2Proof.Machine
end

section
/-! PROOFS. The Firn store (chapter 08), commands: FIRN_INSTALL, FIRN_ERASE, the doorbell and the stop of a hot die (R197, R201, R219,
R220, 15 R413), and the end of an erase with the wear it counts (R187, R218). -/

namespace Sys2Proof.Machine

open Sys2Proof Sys2Proof.Safety

variable {s t : State} {v : W64}

/-! ### FIRN_INSTALL (R201) -/

/-- An install command that is taken, but for the stripes that it needs: its source is a ring of a power of two of frames, or a port,
and its slot is empty. -/
structure TakesInstall (s : State) (v : W64) : Prop where
  ready : s.up = true
  idle : s.firnBusy = false
  isOp : (firnCmd v).op = 1
  source : (firnCmd v).src = false ∧ 16 ≤ (firnCmd v).ringFrames ∧ (∃ n, n < 32 ∧ (firnCmd v).ringFrames = 2 ^ n) ∨
    (firnCmd v).src = true ∧ (firnCmd v).ringFrames = 0 ∧ (firnCmd v).port < 12
  some : 0 < (firnCmd v).positions.toNat
  most : (firnCmd v).positions.toNat ≤ 256
  empty : (s.fslot (firnCmd v).slot.val).state = .empty

theorem TakesInstall.sourceOk (h : TakesInstall s v) :
    (if (firnCmd v).src then (firnCmd v).ringFrames == 0 && decide ((firnCmd v).port < 12)
      else decide (16 ≤ (firnCmd v).ringFrames) && (List.range 32).any fun i => (firnCmd v).ringFrames == 2 ^ i) = true := by
  rcases h.source with ⟨hsrc, hmin, n, hn, hpow⟩ | ⟨hsrc, hring, hport⟩
  · rw [if_neg (by simp [hsrc]), decide_eq_true hmin, Bool.true_and, List.any_eq_true]
    exact ⟨n, List.mem_range.mpr hn, beq_iff_eq.mpr hpow⟩
  · rw [if_pos hsrc, hring, decide_eq_true hport]
    rfl

theorem TakesInstall.positionsOk (h : TakesInstall s v) : ¬ ((firnCmd v).positions = 0 ∨ 256 < (firnCmd v).positions.toNat) := by
  rintro (h0 | h256)
  · exact absurd h.some (by simp [h0])
  · exact absurd h.most (by omega)

/-- The head's part of an installation begins. -/
def State.installing (s : State) (c : FirnCmd) : State :=
  (s.openSlot c.slot s.lnk.node).setFirn fun x => { x with cmdState := .busy, reason := 0, progress := 0, cmd := some c }

/-- The head asks the next chip of the path to open its slot. -/
def State.installOpened (s : State) (c : FirnCmd) : State :=
  (s.installing c).toNext s.lnk.node fun n => .installOpen n s.lnk.node c.slot c.positions

theorem installOpened_eq (s : State) (c : FirnCmd) : s.installOpened c =
    (s.installing c).sendAny (s.pathNext s.lnk.node) fun n => .installOpen n s.lnk.node c.slot c.positions := by
  rw [State.installOpened, toNext_eq, (SameChain.of_eq (s := s) (t := s.installing c) rfl).pathNext]

theorem only_installing (s : State) (c : FirnCmd) : Only [.firn] s (s.installing c) :=
  only_trans (only_trans (only_trans (only_modFslot s c.slot _) (only_catalogue _)) (only_setFirn _ _)) (only_setFirn _ _)

theorem installing_firn (s : State) (c : FirnCmd) : ∃ l n h, (s.installing c).firn = { s.firn with
    slots := l, catSeq := n, halves := h, install := some { slot := c.slot, head := s.lnk.node }
    cmdState := .busy, reason := 0, progress := 0, cmd := some c } := ⟨_, _, _, rfl⟩

theorem installing_fslot (s : State) (c : FirnCmd) (k : Nat) : (s.installing c).fslot k =
    if k = c.slot.val then { s.fslot c.slot.val with state := .installing } else s.fslot k :=
  fslot_modFslot s c.slot (fun x => { x with state := .installing }) k

theorem only_installOpened (s : State) (c : FirnCmd) : Only [.firn, .evt, .lnk, .out] s (s.installOpened c) := by
  rw [installOpened_eq]
  exact only_trans (only_mono (only_installing s c) (by decide)) (only_mono (only_sendAny _ _ _) (by decide))

theorem installOpened_firn (s : State) (c : FirnCmd) : (s.installOpened c).firn = (s.installing c).firn := by
  rw [installOpened_eq, sendAny_firn]

theorem installOpened_fslot (s : State) (c : FirnCmd) (k : Nat) : (s.installOpened c).fslot k = (s.installing c).fslot k :=
  fslot_congr (congrArg Firn.slots (installOpened_firn s c)) k

theorem installOpened_out (s : State) (c : FirnCmd) : (s.installOpened c).out =
    s.out ++ s.outsTo (s.pathNext s.lnk.node) fun n => .installOpen n s.lnk.node c.slot c.positions := by
  rw [installOpened_eq, sendAny_out, (only_installing s c).2 .out (by decide),
    (SameChain.of_eq ((only_installing s c).2 .lnk (by decide))).outsTo]

theorem firnInstall_taken (h : TakesInstall s v) : exec (.firnInstall v) s = .next (
    if s.freeStripes.isEmpty then s.wakeUp.firnRefuse 0x02 else s.wakeUp.installOpened (firnCmd v)) := by
  refine congrArg Host.Outcome.next ((firnOp_taken h.ready h.idle h.isOp _).trans ?_)
  have hslot : (s.wakeUp.fslot (firnCmd v).slot.val).state = .empty :=
    (congrArg FSlot.state (fslot_congr (by rw [wakeUp_firn]) _)).trans h.empty
  have hargs : ¬ ((!true) = true ∨ (firnCmd v).positions = 0 ∨ 256 < (firnCmd v).positions.toNat) := by simpa using h.positionsOk
  dsimp only
  rw [h.sourceOk, if_neg hargs, if_neg (not_not_intro hslot), freeStripes_wakeUp]
  rfl

theorem firnInstall_full (h : TakesInstall s v) (hf : s.freeStripes = []) :
    exec (.firnInstall v) s = .next (s.wakeUp.firnRefuse 0x02) := by
  rw [firnInstall_taken h, hf]
  rfl

theorem firnInstall_opens (h : TakesInstall s v) (hf : s.freeStripes ≠ []) :
    exec (.firnInstall v) s = .next (s.wakeUp.installOpened (firnCmd v)) := by
  rw [firnInstall_taken h, if_neg (by simpa using hf)]

/-! ### FIRN_ERASE (R219) -/

/-- The slot of an erase command turns to Erasing. -/
def State.erasing (s : State) (c : FirnCmd) : State :=
  ((s.modFslot c.slot fun x => { x with state := .erasing }).catalogue).setFirn fun x =>
    { x with cmdState := .busy, reason := 0, progress := 0, cmd := some c }

section Erase

variable (hu : s.up = true) (hb : s.firnBusy = false) (ho : (firnCmd v).op = 2)

include hu hb ho

theorem firnErase_live (hl : s.firn.liveSlot (firnCmd v).slot = true) : exec (.firnErase v) s = .next (s.wakeUp.firnRefuse 0x09) := by
  refine congrArg Host.Outcome.next ((firnOp_taken hu hb ho _).trans ?_)
  rw [if_pos (by rwa [wakeUp_firn])]

theorem firnErase_installing (hl : s.firn.liveSlot (firnCmd v).slot = false) (hs : (s.fslot (firnCmd v).slot.val).state = .installing) :
    exec (.firnErase v) s = .next (s.wakeUp.firnRefuse 0x01) := by
  refine congrArg Host.Outcome.next ((firnOp_taken hu hb ho _).trans ?_)
  rw [if_neg (by rw [wakeUp_firn, hl]; simp), fslot_congr (s := s) (by rw [wakeUp_firn]), hs]

theorem firnErase_begins (hl : s.firn.liveSlot (firnCmd v).slot = false)
    (hs : (s.fslot (firnCmd v).slot.val).state = .valid ∨ (s.fslot (firnCmd v).slot.val).state = .damaged) :
    exec (.firnErase v) s = .next (s.wakeUp.erasing (firnCmd v)) := by
  refine congrArg Host.Outcome.next ((firnOp_taken hu hb ho _).trans ?_)
  rw [if_neg (by rw [wakeUp_firn, hl]; simp), fslot_congr (s := s) (by rw [wakeUp_firn])]
  rcases hs with hs | hs <;> rw [hs] <;> rfl

end Erase

theorem only_erasing (s : State) (c : FirnCmd) : Only [.firn] s (s.erasing c) :=
  only_trans (only_trans (only_modFslot s c.slot _) (only_catalogue _)) (only_setFirn _ _)

theorem erasing_fslot (s : State) (c : FirnCmd) (k : Nat) : (s.erasing c).fslot k =
    if k = c.slot.val then { s.fslot c.slot.val with state := .erasing } else s.fslot k := 
  fslot_modFslot s c.slot (fun x => { x with state := .erasing }) k

/-! ### The doorbell and a hot die (R197, 15 R413) -/

theorem firnRingDoorbell_up (hu : s.up = true) (prod : W32) :
    exec (.firnRingDoorbell prod) s = .next { s with firn := { s.firn with prod := prod } } := congrArg Host.Outcome.next (if_pos hu)

theorem firnHotStop_stops (hh : s.firn.hotStop = false) (hc : s.rst.held ≠ .cold) :
    exec .firnHotStop s = .next (({ s with firn := { s.firn with hotStop := true } } : State).raise Ev.firnHot) :=
  congrArg Host.Outcome.next (if_neg (by simp [hh, hc]))

theorem firnHotStop_again (hh : s.firn.hotStop = true) : exec .firnHotStop s = .next s :=
  congrArg Host.Outcome.next (if_pos (.inl hh))

/-! ### Wear (R218) -/

/-- `t` is `s` after some wear: the life record, the events and the records of wear differ; stripes that were retired stay so. -/
structure Worn (s t : State) : Prop where
  only : Only [.evt, .life, .firn] s t
  slots : t.firn.slots = s.firn.slots
  cmd : t.firn.cmd = s.firn.cmd
  retired : s.firn.retired ⊆ t.firn.retired

theorem Worn.refl (s : State) : Worn s s := ⟨only_refl _ s, rfl, rfl, fun _ h => h⟩

theorem Worn.trans {u : State} (h : Worn s t) (k : Worn t u) : Worn s u :=
  ⟨only_trans h.only k.only, k.slots.trans h.slots, k.cmd.trans h.cmd, fun _ hn => k.retired (h.retired hn)⟩

theorem worn_raise (s : State) (c : W16) (i : EvInfo) : Worn s (s.raise c i) := by
  refine ⟨only_mono (only_raise s c i) (by decide), ?_, ?_, ?_⟩ <;> rw [raise_firn]
  exact fun _ h => h

theorem worn_setFirn {f : Firn → Firn} (hs : (f s.firn).slots = s.firn.slots) (hc : (f s.firn).cmd = s.firn.cmd)
    (hr : s.firn.retired ⊆ (f s.firn).retired) : Worn s (s.setFirn f) := ⟨only_mono (only_setFirn s f) (by decide), hs, hc, hr⟩

theorem worn_catalogue (s : State) : Worn s s.catalogue := worn_setFirn rfl rfl fun _ h => h

theorem worn_retireStripe (s : State) (k n : Nat) : Worn s (s.retireStripe k n) := by
  unfold State.retireStripe
  split
  · exact .refl s
  · exact ((worn_setFirn (f := fun x => { x with retired := x.retired ++ [n] }) rfl rfl (List.subset_append_left _ _)).trans
      (worn_catalogue _)).trans (worn_raise _ _ _)

theorem retireStripe_retires (s : State) (k n : Nat) : n ∈ (s.retireStripe k n).firn.retired := by
  unfold State.retireStripe
  split
  · next h => exact List.contains_iff_mem.mp h
  · rw [raise_firn]
    exact List.mem_append_right _ (List.mem_singleton.mpr rfl)

theorem retireStripe_life (s : State) (k n : Nat) : (s.retireStripe k n).life = s.life := by
  unfold State.retireStripe
  split
  · rfl
  · exact (only_raise _ _ _).2 .life (by decide)

/-- The cycle that ends is one more of its stripe. -/
def State.cycled (s : State) (n : Nat) : State :=
  { s with life := { s.life with pe := mset 0 s.life.pe n (bump48 (mget 0 s.life.pe n)) } }

/-- What the count of a stripe tells of its wear. -/
def State.wearNoted (s : State) (k n : Nat) : State :=
  if 2700 ≤ (mget 0 s.life.pe n).toNat ∧ !s.firn.wearHigh.contains n then
    (s.setFirn fun x => { x with wearHigh := x.wearHigh ++ [n] }).raise Ev.firnWearHigh (firnInfo k 0 0)
  else s

theorem countCycle_eq (s : State) (k n : Nat) : s.countCycle k n =
    if 3000 ≤ (bump48 (mget 0 s.life.pe n)).toNat then ((s.cycled n).wearNoted k n).retireStripe k n else (s.cycled n).wearNoted k n := by
  have hpe : mget 0 (s.cycled n).life.pe n = bump48 (mget 0 s.life.pe n) := mget_mset_same _ _ _ _
  unfold State.countCycle State.wearNoted
  rw [hpe]
  rfl

theorem worn_wearNoted (s : State) (k n : Nat) : Worn s (s.wearNoted k n) := by
  unfold State.wearNoted
  split
  · exact (worn_setFirn (f := fun x => { x with wearHigh := x.wearHigh ++ [n] }) rfl rfl fun _ h => h).trans (worn_raise _ _ _)
  · exact .refl s

theorem wearNoted_life (s : State) (k n : Nat) : (s.wearNoted k n).life = s.life := by
  unfold State.wearNoted
  split
  · exact (only_raise _ _ _).2 .life (by decide)
  · rfl

theorem worn_countCycle (s : State) (k n : Nat) : Worn s (s.countCycle k n) := by
  have hcycled : Worn s (s.cycled n) := ⟨only_mono (only_life s _) (by decide), rfl, rfl, fun _ h => h⟩
  rw [countCycle_eq]
  split
  · exact (hcycled.trans (worn_wearNoted _ k n)).trans (worn_retireStripe _ k n)
  · exact hcycled.trans (worn_wearNoted _ k n)

theorem countCycle_pe (s : State) (k n : Nat) : (s.countCycle k n).life.pe = mset 0 s.life.pe n (bump48 (mget 0 s.life.pe n)) := by
  rw [countCycle_eq]
  split
  · rw [retireStripe_life, wearNoted_life]
    rfl
  · rw [wearNoted_life]
    rfl

/-- One cycle of each of some stripes. -/
theorem foldS_countCycle_pe (k n : Nat) {l : List Nat} (hl : l.Nodup) (s : State) :
    mget 0 (foldS s l fun s n => s.countCycle k n).life.pe n = if n ∈ l then bump48 (mget 0 s.life.pe n) else mget 0 s.life.pe n := by
  induction l generalizing s with
  | nil => rfl
  | cons a l ih =>
    obtain ⟨ha, hl⟩ := List.nodup_cons.mp hl
    rw [foldS_cons, ih hl, countCycle_pe, mget_mset]
    by_cases hn : n = a
    · subst hn
      simp [ha]
    · simp [hn]

theorem foldS_retireStripe_retires (k : Nat) {n : Nat} {l : List Nat} (hn : n ∈ l) (s : State) :
    n ∈ (foldS s l fun s n => s.retireStripe k n).firn.retired := by
  have hworn (l : List Nat) (s : State) : Worn s (foldS s l fun s n => s.retireStripe k n) :=
    foldS_keeps (p := Worn s) _ (fun _ _ h => h.trans (worn_retireStripe _ k _)) l (.refl s)
  induction l generalizing s with
  | nil => simp at hn
  | cons a l ih =>
    rw [foldS_cons]
    rcases List.mem_cons.mp hn with rfl | hn
    · exact (hworn l _).retired (retireStripe_retires s k n)
    · exact ih hn _

/-- A record that is written leaves the counts of cycles. -/
theorem lifeWrite_only (s : State) : ∃ l, s.lifeWrite = { s with life := l } ∧ l.pe = s.life.pe := by
  unfold State.lifeWrite
  dsimp only
  split <;> exact ⟨_, rfl, rfl⟩

/-! ### The end of an erase (R187, R218) -/

/-- Programming and erasing wait (R211, 15 R413). -/
def State.eraseWaits (s : State) : Prop := s.firn.hotStop = true ∨ ∃ w, s.firn.swap = some w ∧ w.thawed = false

theorem eraseWaits_iff : s.eraseWaits ↔ s.firn.hotStop = true ∨ (s.firn.swap.any fun w => !w.thawed) = true := by
  cases hw : s.firn.swap <;> simp [State.eraseWaits, hw]

/-- The slot is empty, and its stripes have one cycle more; those of `bad` are retired. -/
def State.erased (s : State) (k : FSlotId) (bad : List Nat) : State :=
  foldS (foldS (s.setFslot k.val {}).catalogue (s.fslot k.val).stripes fun s n => s.countCycle k.val n)
    (bad.filter fun n => (s.fslot k.val).stripes.contains n) fun s n => s.retireStripe k.val n

theorem worn_erased (s : State) (k : FSlotId) (bad : List Nat) : Worn (s.setFslot k.val {}).catalogue (s.erased k bad) :=
  foldS_keeps (p := Worn (s.setFslot k.val {}).catalogue) _ (fun _ _ h => h.trans (worn_retireStripe _ _ _)) _
    (foldS_keeps (p := Worn (s.setFslot k.val {}).catalogue) _ (fun _ _ h => h.trans (worn_countCycle _ _ _)) _ (.refl _))

theorem erased_fslot (s : State) (k : FSlotId) (bad : List Nat) (i : Nat) :
    (s.erased k bad).fslot i = if i = k.val then {} else s.fslot i :=
  (fslot_congr (worn_erased s k bad).slots i).trans (fslot_setFslot s k.val i {})

theorem erased_pe (k : FSlotId) (bad : List Nat) (hn : (s.fslot k.val).stripes.Nodup) (n : Nat) :
    mget 0 (s.erased k bad).life.pe n =
      if n ∈ (s.fslot k.val).stripes then bump48 (mget 0 s.life.pe n) else mget 0 s.life.pe n := by
  refine Eq.trans (congrArg (fun l : Life => mget 0 l.pe n) ?_) (foldS_countCycle_pe k.val n hn (s.setFslot k.val {}).catalogue)
  exact foldS_keeps (p := fun t => t.life = _) _ (fun t n h => (retireStripe_life t k.val n).trans h) _ rfl

theorem erased_retired {k : FSlotId} {bad : List Nat} {n : Nat} (hb : n ∈ bad) (hn : n ∈ (s.fslot k.val).stripes) :
    n ∈ (s.erased k bad).firn.retired :=
  foldS_retireStripe_retires k.val (List.mem_filter.mpr ⟨hb, List.contains_iff_mem.mpr hn⟩) _

theorem slotEraseDone_waits {k : FSlotId} (bad : List Nat) (h : (s.fslot k.val).state ≠ .erasing ∨ s.eraseWaits) :
    exec (.slotEraseDone k bad) s = .next s := congrArg Host.Outcome.next (if_pos (by rwa [eraseWaits_iff] at h))

/-- The wear is recorded, and the command that asked for the erase is done. -/
theorem slotEraseDone_ends {k : FSlotId} (bad : List Nat) (hs : (s.fslot k.val).state = .erasing) (hw : ¬ s.eraseWaits) :
    ∃ l f, exec (.slotEraseDone k bad) s = .next { s.erased k bad with life := l, firn := f } ∧ l.pe = (s.erased k bad).life.pe ∧
      f.slots = (s.erased k bad).firn.slots ∧ f.retired = (s.erased k bad).firn.retired ∧
      ∀ c, s.firn.cmd = some c → c.op = 2 → c.slot = k → f.cmdState = .done ∧ f.cmd = none := by
  have hwritten : ∃ l, (if (s.fslot k.val).stripes.isEmpty then s.erased k bad else (s.erased k bad).lifeWrite) =
      { s.erased k bad with life := l } ∧ l.pe = (s.erased k bad).life.pe := by
    split
    · exact ⟨_, rfl, rfl⟩
    · exact lifeWrite_only _
  obtain ⟨l, hl, hpe⟩ := hwritten
  have hcmd : (s.erased k bad).firn.cmd = s.firn.cmd := (worn_erased s k bad).cmd
  have hexec : exec (.slotEraseDone k bad) s = .next (slotEraseDone k bad s) := rfl
  unfold State.erased at hl hcmd hpe ⊢
  rw [hexec, slotEraseDone]
  dsimp only
  rw [if_neg (by rw [← eraseWaits_iff]; simp [hs, hw]), hl]
  dsimp only
  rw [hcmd]
  cases hc : s.firn.cmd with
  | none => exact ⟨l, _, rfl, hpe, rfl, rfl, by simp⟩
  | some c =>
    dsimp only
    split
    · exact ⟨l, _, rfl, hpe, rfl, rfl, fun _ _ _ _ => ⟨rfl, rfl⟩⟩
    · next hno => exact ⟨l, _, rfl, hpe, rfl, rfl, fun d hd ho hk => absurd (Option.some.inj hd ▸ ⟨ho, hk⟩) hno⟩

/-- Programming goes on, and nothing waits in the staging area. -/
theorem firnHotResume_eq (s : State) : exec .firnHotResume s = .next { s with firn := { s.firn with
    hotStop := false
    install := s.firn.install.map fun i => { i with staged := 0 }
    progress := match s.firn.install with
      | some i => ({ i with staged := 0 } : Install).progress
      | none => s.firn.progress } } := by
  have hexec : exec .firnHotResume s = .next (firnHotResume s) := rfl
  rw [hexec, firnHotResume, State.setFirn]
  dsimp only
  cases s.firn.install <;> rfl

/-! ### The obligation -/

/-- Settles O33: a command that nothing forbids changes its own slot and starts; the end of an erase counts a cycle of every stripe. -/
theorem firnCommandsResult : Obligations.FirnCommandsResult := by
  refine ⟨fun s v hu hb => ?commands, fun s k bad => ?erased⟩
  case commands =>
    intro c u x
    refine ⟨fun ho hsrc h0 h256 he => ?install, fun ho => ⟨firnErase_live hu hb ho, firnErase_installing hu hb ho, fun hl hs => ?erase⟩,
      firnRingDoorbell_up hu, firnHotStop_stops, firnHotStop_again, firnHotResume_eq s⟩
    case install =>
      have h : TakesInstall s v := ⟨hu, hb, ho, hsrc, h0, h256, he⟩
      refine ⟨firnInstall_full h, fun hf => ⟨_, firnInstall_opens h hf, ?_, ?_⟩⟩
      · exact only_trans (only_mono (only_wakeUp s) (by decide)) (only_mono (only_installOpened _ _) (by decide))
      · have hslot (i : Nat) := (installOpened_fslot s.wakeUp c i).trans (installing_fslot s.wakeUp c i)
        have hout : (s.wakeUp.installOpened c).out = s.out ++ s.outsTo (s.pathNext s.lnk.node) fun n =>
            .installOpen n s.lnk.node c.slot c.positions := by
          have hchain : SameChain s s.wakeUp := .of_eq (wakeUp_lnk s)
          rw [installOpened_out, hchain.pathNext, hchain.outsTo, wakeUp_lnk, wakeUp_out]
        obtain ⟨l, n, h, hfirn⟩ := installing_firn s.wakeUp c
        dsimp only
        rw [installOpened_firn, hfirn, hout, wakeUp_firn, wakeUp_lnk]
        refine ⟨congrArg FSlot.state ((hslot _).trans (if_pos rfl)), rfl, rfl, rfl, rfl, fun i hi => ?_, rfl, rfl, ?_⟩
        · exact (hslot i).trans ((if_neg hi).trans (fslot_congr (by rw [wakeUp_firn]) i))
        · unfold State.outsTo
          cases s.pathNext s.lnk.node with
          | none => exact List.append_nil _
          | some n => cases h : (s.route n).isSome <;> simp [h]
    case erase =>
      have hslot := erasing_fslot s.wakeUp c
      refine ⟨_, firnErase_begins hu hb ho hl hs, only_trans (only_mono (only_wakeUp s) (by decide))
        (only_mono (only_erasing _ _) (by decide)), ?_, rfl, rfl, fun i hi => ?_⟩
      · refine (hslot _).trans ((if_pos rfl).trans ?_)
        rw [fslot_congr (s := s) (by rw [wakeUp_firn])]
      · exact (hslot i).trans ((if_neg hi).trans (fslot_congr (by rw [wakeUp_firn]) i))
  case erased =>
    intro x waits
    refine ⟨fun hs hw => ?_, slotEraseDone_waits bad⟩
    obtain ⟨l, f, hexec, hpe, hslots, hretired, hcmd⟩ := slotEraseDone_ends bad hs hw
    have hslot (i : Nat) := (fslot_congr (s := s.erased k bad) (t := { s.erased k bad with life := l, firn := f }) hslots i).trans
      (erased_fslot s k bad i)
    have hworn := (worn_erased s k bad).only
    refine ⟨_, hexec, (hslot _).trans (if_pos rfl), fun i hi => (hslot i).trans (if_neg hi), hworn.2 .mem (by decide),
      hworn.2 .jobs (by decide), fun hn n => ?_, fun n hb hn => ?_, hcmd⟩
    · exact (congrArg (fun m => mget 0 m n) hpe).trans (erased_pe k bad hn n)
    · exact hretired ▸ erased_retired hb hn

end Sys2Proof.Machine
end

section
/-! PROOFS. The Firn store (chapter 08), installations: how one fails, what a frame of another position leaves, and how the messages of
the stream path are taken (R187, R197 to R201, 11 R292, R298). -/

namespace Sys2Proof.Machine

open Sys2Proof Sys2Proof.Safety

variable {s t : State} {x : Install} {m : Msg} {b l : Bytes} {f : Frame} {r : Nat}

/-! ### A CONTROL message one hop further (11 R298) -/

theorem passOn_heard {vcs : List Nat} (h : Heard s m vcs) (hl : s.lnk.left = false) (k : State → State) :
    s.passOn m vcs k = k s.wakeUp := by
  obtain ⟨hport, hvc, hkey, hlive, hverifies⟩ := h
  rw [State.passOn, if_neg (by simp [hport])]
  dsimp only
  rw [if_neg (by simp only [hvc, hkey]; simp), if_neg (by simp [hl]), if_neg (by simp [hlive]), if_neg (by simp [hverifies])]

theorem receiveHop_here (h : Heard s m [0]) (o : Out) (k : State → State) : s.receiveHop m s.lnk.node o k = k s.wakeUp :=
  (if_pos rfl).trans (receive_heard h k)

theorem receiveHop_elsewhere (h : Heard s m [0]) {n : NodeId} (hn : n ≠ s.lnk.node) (hl : s.lnk.left = false) (o : Out)
    (k : State → State) : s.receiveHop m n o k = s.wakeUp.sendTo n m.tag o := (if_neg hn).trans (passOn_heard h hl _)

/-! ### What an installation's messages leave before they act -/

/-- `t` is `s` but for the power state and what the ports hold. -/
structure Stands (s t : State) : Prop where
  only : Only [.rst, .lnk] s t
  chain : SameChain s t

theorem stands_refl (s : State) : Stands s s := ⟨only_refl _ s, .refl s⟩

theorem stands_wakeUp (s : State) : Stands s s.wakeUp := ⟨only_mono (only_wakeUp s) (by decide), .of_eq (wakeUp_lnk s)⟩

theorem Stands.trans {u : State} (h : Stands s t) (k : Stands t u) : Stands s u := ⟨only_trans h.only k.only, h.chain.trans k.chain⟩

theorem Stands.firn (h : Stands s t) : t.firn = s.firn := h.only.2 .firn (by decide)
theorem Stands.evt (h : Stands s t) : t.evt = s.evt := h.only.2 .evt (by decide)
theorem Stands.out (h : Stands s t) : t.out = s.out := h.only.2 .out (by decide)
theorem Stands.life (h : Stands s t) : t.life = s.life := h.only.2 .life (by decide)

theorem stands_stageSlots (s : State) (p : PortId) (n : Nat) : Stands s (s.stageSlots p n) := 
  ⟨only_mono (only_lnk s _) (by decide), _, rfl⟩

/-- Receive slots that are free again take no port down. -/
theorem heard_stageSlots {vcs : List Nat} (h : Heard s m vcs) (p : PortId) (n : Nat) : Heard (s.stageSlots p n) m vcs := by
  obtain ⟨hport, hvc, hkey, hlive, hverifies⟩ := h
  have hstate : ((s.stageSlots p n).port m.port.val).state = (s.port m.port.val).state := by
    have hget := mget_mset ({} : Port) s.lnk.ports p.val m.port.val
    unfold State.stageSlots State.modPort State.setPort
    rw [State.port, hget]
    split
    · next hp => rw [hp]; rfl
    · rfl
  have hretired : (s.stageSlots p n).wakeUp.retiredKey m.tag = s.wakeUp.retiredKey m.tag := by
    obtain ⟨q, hq⟩ := wakeUp_only (s.stageSlots p n)
    obtain ⟨q', hq'⟩ := wakeUp_only s
    rw [hq, hq']
    rfl
  refine ⟨?_, hvc, hkey, hretired.trans hlive, hverifies⟩
  rw [State.portCarries, hstate]
  exact hport

/-! ### An installation that fails (R200) -/

theorem SameChain.reaches (h : SameChain s t) {n : Option NodeId} (hn : s.reaches n) : t.reaches n := fun d hd =>
  (h.route d).symm ▸ hn d hd

/-- `t` is `s` with the slot of `x` Erasing and no installation. -/
structure Ended (s t : State) (x : Install) (reason : Nat) : Prop where
  only : Only [.firn] s t
  install : t.firn.install = none
  slot : ∀ i, t.fslot i = if i = x.slot.val then { s.fslot x.slot.val with state := .erasing } else s.fslot i
  current : t.firn.current = s.firn.current
  told : s.isHead x = true → t.firn.cmdState = .refused ∧ t.firn.reason = reason

/-- The slot turns to Erasing. -/
def State.abandon (s : State) (x : Install) : State :=
  ((s.modFslot x.slot fun y => { y with state := .erasing }).catalogue).setFirn fun f => { f with install := none }

theorem endInstall_eq (s : State) (x : Install) (r : Nat) :
    s.endInstall x r = if s.isHead x then (s.abandon x).firnFailed r else s.abandon x := rfl

theorem abandon_fslot (s : State) (x : Install) (i : Nat) :
    (s.abandon x).fslot i = if i = x.slot.val then { s.fslot x.slot.val with state := .erasing } else s.fslot i :=
  fslot_modFslot s x.slot (fun y => { y with state := .erasing }) i

theorem only_abandon (s : State) (x : Install) : Only [.firn] s (s.abandon x) :=
  only_trans (only_trans (only_modFslot s x.slot _) (only_catalogue _)) (only_setFirn _ _)

theorem abandon_firn (s : State) (x : Install) : ∃ l n h, (s.abandon x).firn = { s.firn with
    slots := l, catSeq := n, halves := h, install := none } := ⟨_, _, _, rfl⟩

theorem ended_endInstall (s : State) (x : Install) (r : Nat) : Ended s (s.endInstall x r) x r := by
  obtain ⟨l, n, h, hfirn⟩ := abandon_firn s x
  rw [endInstall_eq]
  split
  · refine ⟨only_trans (only_abandon s x) (only_setFirn _ _), ?_, abandon_fslot s x, ?_, fun _ => ⟨rfl, rfl⟩⟩ <;>
      rw [State.firnFailed, State.setFirn, hfirn]
  · next hh => exact ⟨only_abandon s x, by rw [hfirn], abandon_fslot s x, by rw [hfirn], fun h => absurd h hh⟩

theorem Ended.chain (h : Ended s t x r) : SameChain s t := .of_eq (h.only.2 .lnk (by decide))

/-- The abort goes from here along the path, first back and then on. -/
theorem failInstall_eq (s : State) (x : Install) (r : Nat) : s.failInstall x r =
    (((s.raise Ev.firnInstallFail (argReason r)).endInstall x r).sendAny (s.pathPrev x.head) fun n =>
      .installAbort n false x.slot).sendAny (s.pathNext x.head) fun n => .installAbort n true x.slot := by
  have hraise : SameChain s (s.raise Ev.firnInstallFail (argReason r)) := .of_eq (raise_lnk _ _ _)
  have hend := hraise.trans (ended_endInstall (s.raise Ev.firnInstallFail (argReason r)) x r).chain
  rw [State.failInstall, State.abortBack, toPrev_eq, hend.pathPrev, State.abortOnward, toNext_eq, (hend.trans (sendAny_chain _ _ _)).pathNext]

/-- What an installation that fails here leaves. -/
structure Failed (s t : State) (x : Install) (r : Nat) : Prop where
  install : t.firn.install = none
  slot : (t.fslot x.slot.val).state = .erasing
  told : s.isHead x = true → t.firn.cmdState = .refused ∧ t.firn.reason = r
  out : t.out = s.out ++ (s.outsTo (s.pathPrev x.head) fun n => .installAbort n false x.slot) ++
    s.outsTo (s.pathNext x.head) fun n => .installAbort n true x.slot
  evt : s.reaches (s.pathPrev x.head) → s.reaches (s.pathNext x.head) → t.evt = (s.raise Ev.firnInstallFail (argReason r)).evt

theorem failed_failInstall (s : State) (x : Install) (r : Nat) : Failed s (s.failInstall x r) x r := by
  have hraise : SameChain s (s.raise Ev.firnInstallFail (argReason r)) := .of_eq (raise_lnk _ _ _)
  have hend := ended_endInstall (s.raise Ev.firnInstallFail (argReason r)) x r
  have hchain := hraise.trans hend.chain
  rw [failInstall_eq]
  refine ⟨?_, ?_, fun hh => ?_, ?_, fun hp hn => ?_⟩
  · rw [sendAny_firn, sendAny_firn, hend.install]
  · exact congrArg FSlot.state ((fslot_congr (by rw [sendAny_firn, sendAny_firn]) _).trans ((hend.slot _).trans (if_pos rfl)))
  · rw [sendAny_firn, sendAny_firn]
    exact hend.told (hraise.isHead x ▸ hh)
  · rw [sendAny_out, sendAny_out, (hchain.trans (sendAny_chain _ _ _)).outsTo, hchain.outsTo, hend.only.2 .out (by decide), raise_out]
  · rw [sendAny_evt _ ((hchain.trans (sendAny_chain _ _ _)).reaches hn), sendAny_evt _ (hchain.reaches hp), hend.only.2 .evt (by decide)]

/-- What holds of a failure in `t` holds of one in `s` that differs in the power state, the ports and the store's registers. -/
theorem Failed.of_chain {u : State} {y : Install} (h : Failed t u y r) (hc : SameChain s t) (ho : t.out = s.out) (he : t.evt = s.evt)
    (hl : t.life = s.life) (hs : y.slot = x.slot) (hd : y.head = x.head) : Failed s u x r := by
  obtain ⟨hinstall, hslot, htold, hout, hevt⟩ := h
  have hhead : t.isHead y = s.isHead x := by rw [State.isHead, hc.node, hd, State.isHead]
  rw [hd, hs, hc.pathPrev, hc.pathNext, hc.outsTo, hc.outsTo, ho] at hout
  rw [hd, hc.pathPrev, hc.pathNext, raise_evt_of_node he hc.node hl] at hevt
  exact ⟨hinstall, hs ▸ hslot, hhead ▸ htold, hout, fun hp hn => hevt (hc.reaches hp) (hc.reaches hn)⟩

/-! ### A frame (R197, R198) -/

/-- The installation as it stands. -/
def State.hold (s : State) (x : Install) : State := s.setFirn fun y => { y with install := some x }

theorem hold_firn (s : State) (x : Install) : (s.hold x).firn = { s.firn with install := some x } := rfl

theorem hold_self (h : s.firn.install = some x) : s.hold x = s := by
  rw [State.hold, State.setFirn, ← h]

theorem keepFrame_passes (hk : f.kind ≠ 5) (hp : f.position ≠ s.lnk.position) : s.keepFrame x f = .ok s := (if_neg hk).trans (if_pos hp)

/-- A good frame of another position is counted and goes no further here. -/
theorem takeFrame_passes (hf : frameOf b = .ok f) (hq : f.seq = x.nextSeq) (ht : ∀ t, x.chainTag = some t → t = f.tag) (hk : f.kind ≠ 5)
    (hp : f.position ≠ s.lnk.position) :
    s.takeFrame x b [] = .ok (s.hold { x with nextSeq := x.nextSeq + 1, chainTag := some f.tag }) := by
  have htag : x.chainTag.getD f.tag = f.tag := by
    cases hx : x.chainTag with
    | none => rfl
    | some t => exact ht t hx
  have hkeep := keepFrame_passes (s := s.hold { x with nextSeq := x.nextSeq + 1, chainTag := some f.tag })
    (x := { x with nextSeq := x.nextSeq + 1, chainTag := some f.tag }) hk hp
  unfold State.hold at hkeep ⊢
  rw [State.takeFrame, hf]
  dsimp only
  rw [if_neg (not_not_intro hq), if_neg (not_not_intro htag), hkeep]
  dsimp only
  split <;> rfl

/-- A frame is bad that is malformed or out of turn. -/
def BadFrame (x : Install) (b : Bytes) (r : Nat) : Prop :=
  frameOf b = .error r ∨ ∃ f, frameOf b = .ok f ∧ f.seq ≠ x.nextSeq ∧ r = 0x05

theorem takeFrame_bad (h : BadFrame x b r) : s.takeFrame x b [] = .error r := by
  rw [State.takeFrame]
  rcases h with hf | ⟨f, hf, hq, rfl⟩
  · rw [hf]
  · rw [hf]
    exact if_pos hq

/-- The head counts the frames that it has consumed. -/
def State.consumed (s : State) (x : Install) : State := if s.isHead x then s.setFirn fun y => { y with cons := y.cons + 1 } else s

theorem only_consumed (s : State) (x : Install) : Only [.firn] s (s.consumed x) := by
  unfold State.consumed
  split
  · exact only_setFirn s _
  · exact only_refl _ s

theorem consumed_hold_firn (s : State) (x y : Install) : ((s.consumed x).hold y).firn =
    { s.firn with install := some y, cons := if s.isHead x then s.firn.cons + 1 else s.firn.cons } := by
  unfold State.consumed
  split <;> rfl

theorem wholeFrame_passes (hf : frameOf b = .ok f) (hq : f.seq = x.nextSeq) (ht : ∀ t, x.chainTag = some t → t = f.tag) (hk : f.kind ≠ 5)
    (hp : f.position ≠ s.lnk.position) : s.wholeFrame x b [] false =
      ((s.consumed x).hold { x with nextSeq := x.nextSeq + 1, chainTag := some f.tag }).sendAny (s.pathNext x.head) fun n =>
        .installFrame n b := by
  have hlnk : (s.consumed x).lnk = s.lnk := (only_consumed s x).2 .lnk (by decide)
  have htake := takeFrame_passes (s := s.consumed x) hf hq ht hk (by rwa [hlnk])
  unfold State.consumed at hlnk htake ⊢
  rw [State.wholeFrame, if_neg (by decide), htake]
  dsimp only
  rw [toNext_eq, (SameChain.of_eq (s := s) (t := State.hold _ _) hlnk).pathNext]

theorem wholeFrame_fails (h : BadFrame x b r) : s.wholeFrame x b [] false = (s.consumed x).failInstall x r := by
  have htake := takeFrame_bad (s := s.consumed x) h
  unfold State.consumed at htake ⊢
  rw [State.wholeFrame, if_neg (by decide), htake]

/-! ### Frames from the ring and from messages (R197, 11 R292) -/

/-- The head reads its frames from the host ring. -/
def FromRing (s : State) (x : Install) : Prop := s.isHead x = true ∧ s.firn.cmd.any (·.src) = false

/-- A message of the stream comes as it should. -/
def IsPiece (s : State) (m : Msg) (x : Install) : Prop :=
  Heard s m [1] ∧ m.dst = s.lnk.node ∧ s.streamPort x m.port = true ∧ x.ended = false ∧ s.frameWaits = false

theorem installFrame_ring (hx : s.firn.install = some x) (he : x.ended = false) (hw : s.frameWaits = false) (hr : FromRing s x) :
    exec (.installFrame none b [] false) s = .next (s.wholeFrame x b [] false) := by
  refine congrArg Host.Outcome.next ?_
  rw [installFrame, hx]
  exact if_neg (by simp [he, hw, hr.1, hr.2])

/-- Its receive slots are free again, and it is joined to what came before. -/
theorem installFrame_piece (hx : s.firn.install = some x) (hp : IsPiece s m x) : ∃ t, Stands s t ∧
    exec (.installFrame (some m) l [] false) s = .next (t.framePiece x l [] false) := by
  obtain ⟨hheard, hdst, hport, hended, hwaits⟩ := hp
  have hstands := (stands_stageSlots s m.port l.length).trans (stands_wakeUp _)
  refine ⟨_, hstands, congrArg Host.Outcome.next ?_⟩
  have hstream : (s.stageSlots m.port l.length).wakeUp.streamPort x m.port = true := by
    rw [State.streamPort, hstands.chain.isHead, hstands.firn]
    exact hport
  rw [installFrame, if_neg (by simp [hwaits]), if_pos hdst, receiveTo_heard (heard_stageSlots hheard _ _) hdst, hstands.firn, hx]
  exact if_neg (by simp [hended, hstream])

/-- A frame comes whole: from the ring, or with the message that completes it. -/
def Comes (s : State) (m : Msg) (x : Install) (cmd : Instr) (b : Bytes) : Prop :=
  x.ended = false ∧ s.frameWaits = false ∧ (cmd = .installFrame none b [] false ∧ FromRing s x ∨
    ∃ a l, cmd = .installFrame (some m) l [] false ∧ IsPiece s m x ∧ x.piece = some a ∧ l.length = 80 ∧ b = a ++ l)

/-- What is left of the piece that waits: a frame of the ring leaves it, a message completes it. -/
def PieceLeft (x : Install) (cmd : Instr) (p : Option Bytes) : Prop :=
  (∃ b bad unread, cmd = .installFrame none b bad unread) ∧ p = x.piece ∨
    (∃ m b bad unread, cmd = .installFrame (some m) b bad unread) ∧ p = none

/-- The installation with another piece that waits. -/
def Install.withPiece (x : Install) (p : Option Bytes) : Install := { x with piece := p }

theorem comes_whole {cmd : Instr} (hx : s.firn.install = some x) (hc : Comes s m x cmd b) : ∃ t p, Stands s t ∧ PieceLeft x cmd p ∧
    exec cmd s = .next ((t.hold (x.withPiece p)).wholeFrame (x.withPiece p) b [] false) := by
  obtain ⟨hended, hwaits, ⟨rfl, hring⟩ | ⟨a, l, rfl, hpiece, ha, hl, rfl⟩⟩ := hc
  · exact ⟨s, x.piece, stands_refl s, .inl ⟨⟨b, [], false, rfl⟩, rfl⟩,
      (installFrame_ring hx hended hwaits hring).trans (by rw [show x.withPiece x.piece = x from rfl, hold_self hx])⟩
  · obtain ⟨t, ht, hexec⟩ := installFrame_piece (l := l) hx hpiece
    refine ⟨t, none, ht, .inr ⟨⟨m, l, [], false, rfl⟩, rfl⟩, hexec.trans (congrArg Host.Outcome.next ?_)⟩
    rw [State.framePiece, ha]
    exact if_pos hl

/-- A frame of another position is counted and passed on. -/
theorem frame_passes {cmd : Instr} (hx : s.firn.install = some x) (hc : Comes s m x cmd b) (hf : frameOf b = .ok f)
    (hq : f.seq = x.nextSeq) (ht : ∀ t, x.chainTag = some t → t = f.tag) (hk : f.kind ≠ 5) (hp : f.position ≠ s.lnk.position) :
    ∃ t p, PieceLeft x cmd p ∧ exec cmd s = .next t ∧ Only [.firn, .out, .lnk, .evt, .rst] s t ∧
      t.firn = { s.firn with
        install := some { x with nextSeq := x.nextSeq + 1, chainTag := some f.tag, piece := p }
        cons := if s.isHead x then s.firn.cons + 1 else s.firn.cons } ∧
      t.out = s.out ++ s.outsTo (s.pathNext x.head) fun n => .installFrame n b := by
  obtain ⟨u, p, hu, hleft, hexec⟩ := comes_whole hx hc
  have hhold : SameChain s (u.hold (x.withPiece p)) := hu.chain.trans (.of_eq (t := u.hold _) rfl)
  have hconsumed := only_consumed (u.hold (x.withPiece p)) (x.withPiece p)
  rw [wholeFrame_passes (x := x.withPiece p) hf hq ht hk (by rw [hhold.position]; exact hp), hhold.pathNext] at hexec
  refine ⟨_, p, hleft, hexec, ?_, ?_, ?_⟩
  · exact only_trans (only_trans (only_trans (only_trans (only_mono hu.only (by decide)) (only_mono (only_setFirn _ _) (by decide)))
      (only_mono hconsumed (by decide))) (only_mono (only_setFirn _ _) (by decide))) (only_mono (only_sendAny _ _ _) (by decide))
  · have hhead : (u.hold (x.withPiece p)).isHead (x.withPiece p) = s.isHead x := hhold.isHead x
    rw [sendAny_firn, consumed_hold_firn, hhead, hold_firn, hu.firn]
    rfl
  · have hout := hconsumed.2 .out (by decide)
    rw [sendAny_out, (hhold.trans ((SameChain.of_eq (hconsumed.2 .lnk (by decide))).trans
      (.of_eq (t := State.hold _ _) rfl))).outsTo]
    exact congrArg (· ++ _) (hout.trans hu.out)

/-- A bad frame fails the installation. -/
theorem frame_fails {cmd : Instr} (hx : s.firn.install = some x) (hc : Comes s m x cmd b) (hbad : BadFrame x b r) :
    ∃ t, exec cmd s = .next t ∧ Failed s t x r := by
  obtain ⟨u, p, hu, -, hexec⟩ := comes_whole hx hc
  have hconsumed := only_consumed (u.hold (x.withPiece p)) (x.withPiece p)
  rw [wholeFrame_fails (x := (x.withPiece p)) hbad] at hexec
  refine ⟨_, hexec, (failed_failInstall _ (x.withPiece p) r).of_chain
    ((hu.chain.trans (.of_eq (t := u.hold _) rfl)).trans (.of_eq (hconsumed.2 .lnk (by decide)))) ?_ ?_ ?_ rfl rfl⟩
  · exact (hconsumed.2 .out (by decide)).trans hu.out
  · exact (hconsumed.2 .evt (by decide)).trans hu.evt
  · exact (hconsumed.2 .life (by decide)).trans hu.life

/-! ### Completion (R199) -/

theorem installTry_all (hm : x.mineDone = true) (hall : ∀ d ∈ s.lnk.members, d = s.lnk.node ∨ d ∈ x.done) : s.installTry x =
    ((s.setFirn fun y => { y with install := none }).firnDone).raise Ev.firnInstallDone (firnInfo x.slot.val 0 0) :=
  if_pos ⟨hm, List.all_eq_true.mpr fun d hd => by simpa using hall d hd⟩

/-- The slot is Valid, with what its header says. -/
def State.installed (s : State) (x : Install) (h : ImgHeader) : State :=
  (s.modFslot x.slot fun y => { y with
    state := .valid, position := BitVec.ofNat 16 h.position, imageVersion := h.version, chainTag := h.chainTag
    header := x.header, segments := x.segs }).catalogue

theorem installMine_ends {h : ImgHeader} (he : x.ended = true) (hm : x.mineDone = false) (hs : s.firn.hotStop = false)
    (hh : imgHeader x.header = some h) : s.installMine x =
      if s.isHead x then (s.installed x h).installTry { x with mineDone := true }
      else ((s.installed x h).setFirn fun y => { y with install := none }).toPrev x.head fun n => .installDone n s.lnk.node x.head x.slot := by
  rw [State.installMine, if_neg (by simp [he, hm, hs]), hh]
  rfl

theorem installed_fslot (s : State) (x : Install) (h : ImgHeader) : (s.installed x h).fslot x.slot.val =
    { s.fslot x.slot.val with
      state := .valid, position := BitVec.ofNat 16 h.position, imageVersion := h.version, chainTag := h.chainTag
      header := x.header, segments := x.segs } :=
  (fslot_catalogue _ _).trans ((fslot_modFslot s x.slot _ x.slot.val).trans (if_pos rfl))

theorem only_installed (s : State) (x : Install) (h : ImgHeader) : Only [.firn] s (s.installed x h) :=
  only_trans (only_modFslot s x.slot _) (only_catalogue _)

/-- Waiting for the members, or done, leaves the slots. -/
theorem installTry_fslot (s : State) (x : Install) (i : Nat) : (s.installTry x).fslot i = s.fslot i := by
  unfold State.installTry
  split
  · exact fslot_congr (congrArg Firn.slots (raise_firn _ _ _)) i
  · rfl

/-- The installation is done at the head: FIRN_INSTALL_DONE is all that is raised. -/
theorem installTry_done (hm : x.mineDone = true) (hall : ∀ d ∈ s.lnk.members, d = s.lnk.node ∨ d ∈ x.done) :
    (s.installTry x).firn.cmdState = .done ∧ (s.installTry x).firn.install = none ∧
      (s.installTry x).evt = (s.raise Ev.firnInstallDone (firnInfo x.slot.val 0 0)).evt := by
  rw [installTry_all hm hall, raise_firn]
  exact ⟨rfl, rfl, raise_evt_congr (by rfl) (by rfl) (by rfl) _ _⟩

end Sys2Proof.Machine
end

section
/-! PROOFS. The Firn store (chapter 08), installations: INSTALL_OPEN, INSTALL_ABORT, FIRN_ABORT_INSTALL and INSTALL_COMPLETE (R199 to R201),
and the obligation. -/

namespace Sys2Proof.Machine

open Sys2Proof Sys2Proof.Safety

variable {s t : State} {x : Install} {m : Msg} {k : FSlotId} {head : NodeId}

/-! ### INSTALL_OPEN (R201) -/

theorem only_openSlot (s : State) (k : FSlotId) (head : NodeId) : Only [.firn] s (s.openSlot k head) :=
  only_trans (only_trans (only_modFslot s k _) (only_catalogue _)) (only_setFirn _ _)

theorem openSlot_fslot (s : State) (k : FSlotId) (head : NodeId) (i : Nat) : (s.openSlot k head).fslot i =
    if i = k.val then { s.fslot k.val with state := .installing } else s.fslot i :=
  fslot_modFslot s k (fun x => { x with state := .installing }) i

theorem openSlot_install (s : State) (k : FSlotId) (head : NodeId) :
    (s.openSlot k head).firn.install = some { slot := k, head := head } := rfl

/-- A member whose slot is empty opens it and asks the next chip. -/
theorem installOpen_opens (hh : Heard s m [0]) (hb : s.firnBusy = false) (he : (s.fslot k.val).state = .empty) (hf : s.freeStripes ≠ [])
    (n : W16) : exec (.installOpen m s.lnk.node head k n) s =
      .next ((s.wakeUp.openSlot k head).sendAny (s.pathNext head) fun d => .installOpen d head k n) := by
  refine congrArg Host.Outcome.next ((receiveHop_here hh _ _).trans ?_)
  have hbusy : s.wakeUp.firnBusy = false := by rw [State.firnBusy, wakeUp_firn]; exact hb
  have hslot : (s.wakeUp.fslot k.val).state = .empty := (congrArg FSlot.state (fslot_congr (by rw [wakeUp_firn]) _)).trans he
  have hchain := (SameChain.of_eq (wakeUp_lnk s)).trans (.of_eq ((only_openSlot s.wakeUp k head).2 .lnk (by decide)))
  dsimp only
  rw [if_neg (by simp [hbusy]), if_neg (not_not_intro hslot), if_neg (by rw [freeStripes_wakeUp]; simpa using hf), toNext_eq,
    hchain.pathNext]

theorem installOpen_refuses (hh : Heard s m [0]) (hb : s.firnBusy = false) (he : (s.fslot k.val).state ≠ .empty) (n : W16) :
    exec (.installOpen m s.lnk.node head k n) s = .next ((s.wakeUp.raise Ev.firnCmdRefused (argReason 0x01)).toPrev head fun d =>
      .installAbort d false k) := by
  refine congrArg Host.Outcome.next ((receiveHop_here hh _ _).trans ?_)
  have hbusy : s.wakeUp.firnBusy = false := by rw [State.firnBusy, wakeUp_firn]; exact hb
  have hslot : (s.wakeUp.fslot k.val).state ≠ .empty := by rwa [fslot_congr (s := s) (by rw [wakeUp_firn])]
  dsimp only
  rw [if_neg (by simp [hbusy]), if_pos hslot]

/-! ### Aborts (R200) -/

theorem installAbort_ends (hx : s.firn.install = some x) (hh : Heard s m [0]) (hq : 0 < x.nextSeq) (onward : Bool) :
    exec (.installAbort m s.lnk.node onward x.slot) s = .next ((s.wakeUp.endInstall x 0x06).sendAny
      (if onward then s.pathNext x.head else s.pathPrev x.head) fun n => .installAbort n onward x.slot) := by
  refine congrArg Host.Outcome.next ((receiveHop_here hh _ _).trans ?_)
  have hchain := (SameChain.of_eq (wakeUp_lnk s)).trans (ended_endInstall s.wakeUp x 0x06).chain
  rw [wakeUp_firn, hx]
  dsimp only
  rw [if_neg (not_not_intro (rfl : x.slot = x.slot)), if_neg (show ¬ (s.wakeUp.isHead x = true ∧ x.nextSeq = 0) by omega)]
  cases onward with
  | true => rw [if_pos rfl, if_pos rfl, State.abortOnward, toNext_eq, hchain.pathNext]
  | false => rw [if_neg (by decide), if_neg (by decide), State.abortBack, toPrev_eq, hchain.pathPrev]

/-- FIRN_ABORT_INSTALL of the installation that runs is no write that a running command keeps out. -/
theorem firnAbortInstall_fails {v : W64} (hx : s.firn.install = some x) (hu : s.up = true) (ho : (firnCmd v).op = 4)
    (hk : (firnCmd v).slot = x.slot) : exec (.firnAbortInstall v) s = .next (s.wakeUp.failInstall x 0x00) := by
  refine congrArg Host.Outcome.next ?_
  rw [firnAbortInstall, State.firnOp, State.hostReg, if_pos hu]
  dsimp only
  rw [if_neg (by simp [ho]), if_neg (by simp [ho, hx]), if_neg (by simp [ho]), wakeUp_firn, hx]
  exact if_pos hk.symm

/-! ### INSTALL_COMPLETE (R199) -/

theorem installComplete_mine (hx : s.firn.install = some x) : exec (.installComplete none) s = .next (s.installMine x) := by
  refine congrArg Host.Outcome.next ?_
  rw [installComplete, hx]

theorem installComplete_back (hh : Heard s m [0]) (hd : head ≠ s.lnk.node) (n : NodeId) :
    exec (.installComplete (some (m, s.lnk.node, n, head, k))) s = .next (s.wakeUp.toPrev head fun d => .installDone d n head k) := by
  refine congrArg Host.Outcome.next ((receiveHop_here hh _ _).trans ?_)
  rw [wakeUp_lnk, if_pos hd]

theorem installComplete_head (hx : s.firn.install = some x) (hh : Heard s m [0]) (n : NodeId) :
    exec (.installComplete (some (m, s.lnk.node, n, s.lnk.node, x.slot))) s =
      .next (s.wakeUp.installTry { x with done := x.done ++ [n] }) := by
  refine congrArg Host.Outcome.next ((receiveHop_here hh _ _).trans ?_)
  rw [wakeUp_lnk, if_neg (by simp), wakeUp_firn, hx]
  exact if_pos rfl

/-- What a chip's own completion leaves. -/
structure Mine (s t : State) (x : Install) (h : ImgHeader) : Prop where
  slot : t.fslot x.slot.val = { s.fslot x.slot.val with
    state := .valid, position := BitVec.ofNat 16 h.position, imageVersion := h.version, chainTag := h.chainTag
    header := x.header, segments := x.segs }
  alone : s.isHead x = true → s.lnk.members = [s.lnk.node] → t.firn.cmdState = .done ∧ t.firn.install = none ∧
    t.evt = (s.raise Ev.firnInstallDone (firnInfo x.slot.val 0 0)).evt
  member : s.isHead x = false → t.firn.install = none ∧
    t.out = s.out ++ (s.outsTo (s.pathPrev x.head) fun d => .installDone d s.lnk.node x.head x.slot) ∧
    (s.reaches (s.pathPrev x.head) → t.evt = s.evt)

theorem mine_installMine {h : ImgHeader} (he : x.ended = true) (hm : x.mineDone = false) (hs : s.firn.hotStop = false)
    (hh : imgHeader x.header = some h) : Mine s (s.installMine x) x h := by
  have honly := only_installed s x h
  have hlnk : (s.installed x h).lnk = s.lnk := honly.2 .lnk (by decide)
  rw [installMine_ends he hm hs hh]
  split
  · next hhead =>
    refine ⟨(installTry_fslot _ _ _).trans (installed_fslot s x h), fun _ hone => ?_, fun hno => absurd hhead (by simp [hno])⟩
    obtain ⟨hdone, hinstall, hevt⟩ := installTry_done (s := s.installed x h) (x := { x with mineDone := true }) rfl
      fun d hd => .inl (by rw [hlnk] at hd ⊢; exact List.mem_singleton.mp (hone ▸ hd))
    exact ⟨hdone, hinstall, hevt.trans (raise_evt_congr (honly.2 .evt (by decide)) hlnk (honly.2 .life (by decide)) _ _)⟩
  · next hhead =>
    have hchain : SameChain s ((s.installed x h).setFirn fun y => { y with install := none }) := .of_eq hlnk
    rw [toPrev_eq, hchain.pathPrev]
    refine ⟨(fslot_congr (congrArg Firn.slots (sendAny_firn _ _ _)) _).trans (installed_fslot s x h), fun h => absurd h hhead,
      fun _ => ⟨?_, ?_, fun hp => ?_⟩⟩
    · rw [sendAny_firn]
      rfl
    · rw [sendAny_out, hchain.outsTo]
      exact congrArg (· ++ _) (honly.2 .out (by decide))
    · rw [sendAny_evt _ (hchain.reaches hp)]
      exact honly.2 .evt (by decide)

/-! ### The obligation -/

/-- Settles O34: each message of an installation changes its own slot and goes on along the stream path. -/
theorem installationResult : Obligations.InstallationResult := by
  intro s m k head u next prev routed
  have hwake : SameChain s s.wakeUp := .of_eq (wakeUp_lnk s)
  refine ⟨fun n hh hb => ⟨fun he hf => ?opened, fun he => installOpen_refuses hh hb he n⟩, fun n hh hd => installComplete_back hh hd n,
    fun n w onward hh hn hl => ⟨?relayed, ?_, ?_⟩, fun hw b bad unread => ⟨?ringWaits, fun hd => congrArg Host.Outcome.next (if_pos ⟨hd, hw⟩)⟩,
    fun x hx hk hs => ?running⟩
  case opened =>
    have hopen := only_openSlot s.wakeUp k head
    have hfirn := sendAny_firn (s.wakeUp.openSlot k head) (s.pathNext head) fun d => .installOpen d head k n
    have hslot (i : Nat) := (fslot_congr (congrArg Firn.slots hfirn) i).trans (openSlot_fslot s.wakeUp k head i)
    refine ⟨_, installOpen_opens hh hb he hf n, only_trans (only_trans (only_mono (only_wakeUp s) (by decide))
      (only_mono hopen (by decide))) (only_mono (only_sendAny _ _ _) (by decide)), congrArg FSlot.state ((hslot _).trans (if_pos rfl)),
      ?_, ?_, fun i hi => (hslot i).trans ((if_neg hi).trans (fslot_congr (by rw [wakeUp_firn]) i))⟩
    · rw [hfirn, openSlot_install]
    · rw [sendAny_out, (hwake.trans (.of_eq (hopen.2 .lnk (by decide)))).outsTo, hopen.2 .out (by decide), wakeUp_out]
      rfl
  case relayed => exact congrArg Host.Outcome.next (receiveHop_elsewhere hh hn hl _ _)
  iterate 2 exact congrArg Host.Outcome.next (receiveHop_elsewhere hh hn hl _ _)
  case ringWaits =>
    refine congrArg Host.Outcome.next ?_
    rw [installFrame]
    cases s.firn.install with
    | none => rfl
    | some x => exact if_pos (.inr (.inl hw))
  case running =>
    subst hk
    intro ring piece comes joined
    have hreach {h : NodeId} (hr : routed h) : s.reaches (s.pathPrev h) ∧ s.reaches (s.pathNext h) :=
      ⟨fun d hd => hr d (.inr hd), fun d hd => hr d (.inl hd)⟩
    refine ⟨fun l hp hl hnone => ?half, fun cmd b f hc hf hq ht hk hp => ?passes, fun cmd b r hc hbad => ?faulty,
      fun onward hh hq => ?aborted, fun v hu ho hk => ?commanded, fun h he hm hhot hh => ?mine, fun n hh hm hall => ?done⟩
    case half =>
      obtain ⟨t, ht, hexec⟩ := installFrame_piece (l := l) hx hp
      refine ⟨t.hold { x with piece := some l }, ?_, only_trans (only_mono ht.only (by decide))
        (only_mono (only_setFirn t _) (by decide)), ?_⟩
      · rw [hexec, State.framePiece, hnone]
        exact congrArg Host.Outcome.next (if_pos hl)
      · exact (hold_firn t _).trans (by rw [ht.firn])
    case passes =>
      obtain ⟨t, p, hleft, hexec, honly, hfirn, hout⟩ := frame_passes hx hc hf hq ht hk hp
      have hpiece : p = joined cmd := by
        rcases hleft with ⟨⟨_, _, _, rfl⟩, rfl⟩ | ⟨⟨_, _, _, _, rfl⟩, rfl⟩ <;> rfl
      subst hpiece
      refine ⟨t, hexec, honly, ?_, ?_, ?_, hout⟩ <;> rw [hfirn]
    case faulty =>
      obtain ⟨t, hexec, ht⟩ := frame_fails hx hc hbad
      exact ⟨t, hexec, ht.install, ht.slot, fun hr => ht.evt (hreach hr).1 (hreach hr).2, ht.told, ht.out⟩
    case aborted =>
      have hend := ended_endInstall s.wakeUp x 0x06
      have hfirn := sendAny_firn (s.wakeUp.endInstall x 0x06) (if onward then s.pathNext x.head else s.pathPrev x.head) fun n =>
        .installAbort n onward x.slot
      have hslot (i : Nat) := (fslot_congr (congrArg Firn.slots hfirn) i).trans (hend.slot i)
      refine ⟨_, installAbort_ends hx hh hq onward, only_trans (only_trans (only_mono (only_wakeUp s) (by decide))
        (only_mono hend.only (by decide))) (only_mono (only_sendAny _ _ _) (by decide)), ?_,
        congrArg FSlot.state ((hslot _).trans (if_pos rfl)), ?_,
        fun i hi => (hslot i).trans ((if_neg hi).trans (fslot_congr (by rw [wakeUp_firn]) i)), ?_⟩
      · rw [hfirn, hend.install]
      · rw [sendAny_out, (hwake.trans hend.chain).outsTo, hend.only.2 .out (by decide), wakeUp_out]
        cases onward <;> rfl
      · rw [hfirn, hend.current, wakeUp_firn]
    case commanded =>
      have ht := (failed_failInstall s.wakeUp x 0x00).of_chain hwake (wakeUp_out s) (wakeUp_evt s) (wakeUp_life s) rfl rfl
      exact ⟨_, firnAbortInstall_fails hx hu ho hk, ht.install, ht.slot, fun hr => ht.evt (hreach hr).1 (hreach hr).2⟩
    case mine =>
      have ht := mine_installMine he hm hhot hh
      refine ⟨_, installComplete_mine hx, ht.slot, ht.alone, fun hno => ?_⟩
      obtain ⟨hinstall, hout, hevt⟩ := ht.member hno
      exact ⟨hinstall, hout, fun hr => hevt (hreach hr).1⟩
    case done =>
      obtain ⟨hdone, hinstall, hevt⟩ := installTry_done (s := s.wakeUp) (x := { x with done := x.done ++ [n] }) hm fun d hd => by
        rw [wakeUp_lnk] at hd ⊢
        rcases hall d hd with h | h | h <;> simp [h]
      exact ⟨_, installComplete_head hx hh n, hdone, hinstall, hevt.trans (raise_evt_congr (wakeUp_evt s) (wakeUp_lnk s) (wakeUp_life s) _ _)⟩

end Sys2Proof.Machine
end

section
/-! PROOFS. The Firn store (chapter 08), generations: the pages and parcels that one takes and gives back, its thaw, and the checks before a
swap (R203, R208, R209, R211). -/

namespace Sys2Proof.Machine

open Sys2Proof Sys2Proof.Safety

variable {s t : State} {k : FSlotId} {g : W32} {y : Gen}

/-! ### Numbers (R208) -/

/-- The number 0 is passed over. -/
theorem nextGen_ne_zero (g : W32) : nextGen g ≠ 0 := by
  unfold nextGen
  split
  · decide
  · next h => exact h

/-! ### Messages down the control tree (11 R299) -/

theorem only_sendDown (s : State) (o : Out) : Only [.out] s (s.sendDown o) := by
  unfold State.sendDown
  split
  · exact only_refl _ s
  · exact only_out s _

theorem sendDown_out (s : State) (o : Out) : (s.sendDown o).out = s.out ++ if s.childEdges = [] then [] else [o] := by
  unfold State.sendDown
  by_cases h : s.childEdges = []
  · rw [if_pos (List.isEmpty_iff.mpr h), if_pos h, List.append_nil]
  · rw [if_neg (by simpa using h), if_neg h]
    rfl

/-- The children of this node turn on the configuration and the chain. -/
theorem childEdges_congr (hc : t.cfg = s.cfg) (hl : t.lnk = s.lnk) : t.childEdges = s.childEdges := by
  rw [State.childEdges, hc, hl, State.childEdges]

/-! ### Pages and parcels taken (R209, R211) -/

/-- Placing segments tags parcels. -/
theorem placeAll_only : ∀ {l : List Segment} {s t : State} {r : List (CId × Nat)}, s.placeAll l = some (t, r) → ∃ m, t = { s with cl := m }
  | [], s, _, _, h => by
    obtain ⟨rfl, -⟩ := Prod.mk.inj (Option.some.inj h)
    exact ⟨s.cl, rfl⟩
  | e :: l, s, t, r, h => by
    unfold State.placeAll at h
    split at h
    · exact placeAll_only h
    · next c n _ =>
      split at h
      · simp at h
      · next p _ =>
        split at h
        · simp at h
        · next u r' hu =>
          obtain ⟨rfl, -⟩ := Prod.mk.inj (Option.some.inj h)
          obtain ⟨m, hm⟩ := foldS_retag_only c.val p n { mode := .base } s
          obtain ⟨m', hm'⟩ := placeAll_only hu
          unfold State.tagParcels at hm'
          exact ⟨m', by rw [hm', hm]⟩

/-- A generation that is taken: a run of pages that are shared base, and the parcels of its placements. The definition opens as a
function and not applied: there, Lean's kernel would count down from the bytes of a page. -/
theorem takeGen_eq_some (h : s.takeGen k g = some (t, y)) : ∃ n p r, (s.assignPages p n .base 0).placeAll (s.fslot k.val).segments = some (t, r) ∧
    y = ⟨g, k, p, n, r, [], []⟩ := by
  generalize hf : @State.takeGen = f at h
  delta State.takeGen at hf
  subst hf
  dsimp only at h
  split at h
  · simp at h
  · next p _ =>
    split at h
    · simp at h
    · next u r hu =>
      obtain ⟨ht, hy⟩ := Prod.mk.inj (Option.some.inj h)
      exact ⟨_, p, r, ht ▸ hu, hy.symm⟩

/-- A generation that is taken has its number, and its pages are shared base. -/
theorem takeGen_takes (h : s.takeGen k g = some (t, y)) : (∃ p m, t = { s with mem := { s.mem with pages := p }, cl := m }) ∧
    y.num = g ∧ ∀ q, y.first ≤ q → q < y.first + y.pages → (t.page q).mode = .base := by
  obtain ⟨n, p, r, hplace, rfl⟩ := takeGen_eq_some h
  obtain ⟨m, rfl⟩ := placeAll_only hplace
  obtain ⟨l, hl⟩ := assignPages_only s p n .base 0
  refine ⟨⟨l, m, by rw [hl]⟩, rfl, fun q h1 h2 => ?_⟩
  exact congrArg Page.mode ((assignPages_page s p n .base 0 q).trans (if_pos ⟨h1, h2⟩))

/-! ### The checks before a swap (R211) -/

/-- The clusters have room for the parcels that a slot's image asks of each. -/
def State.hasRoom (s : State) (k : FSlotId) : Prop :=
  leAt (s.fslot k.val).header 56 4 = 0 ∨ ∀ c, c < 64 → leAt (s.fslot k.val).header 56 4 ≤ s.freeParcels c

theorem freeParcels_congr (hc : t.cfg = s.cfg) (hl : t.cl = s.cl) (c : Nat) : t.freeParcels c = s.freeParcels c := by
  simp only [State.freeParcels, State.cacheParcels, State.parcelFree, State.clu, hc, hl]

theorem hasRoom_congr (hf : t.firn = s.firn) (hc : t.cfg = s.cfg) (hl : t.cl = s.cl) (h : s.hasRoom k) : t.hasRoom k := by
  unfold State.hasRoom at h ⊢
  rw [fslot_congr (s := s) (by rw [hf])]
  exact h.imp_right fun h c hk => freeParcels_congr hc hl c ▸ h c hk

/-- A swap whose pages and parcels are taken. -/
def Swap.begun (k : FSlotId) (y : Gen) : Swap :=
  { slot := k, gen := y, ready := [], mineReady := false, thawed := false, recorded := false }

/-- A slot that a swap may thaw on this member. -/
structure Swappable (s : State) (k : FSlotId) : Prop where
  valid : (s.fslot k.val).state = .valid
  free : s.firn.old = none
  room : s.hasRoom k

theorem Swappable.congr (h : Swappable s k) (hf : t.firn = s.firn) (hc : t.cfg = s.cfg) (hl : t.cl = s.cl) : Swappable t k :=
  ⟨(congrArg FSlot.state (fslot_congr (by rw [hf]) _)).trans h.valid, by rw [hf]; exact h.free, hasRoom_congr hf hc hl h.room⟩

theorem prepare_takes {own : Option (W64 × W32)} (h : Swappable s k)
    (ho : ∀ e, own = some e → e = ((s.fslot k.val).chainTag, (s.fslot k.val).imageVersion)) (hg : s.takeGen k g = some (t, y)) :
    s.prepare k g own = .ok (t.setFirn fun z => { z with swap := some (.begun k y) }) := by
  obtain ⟨hvalid, hfree, hroom⟩ := h
  have hown : (own.any fun o => o.1 != (s.fslot k.val).chainTag || o.2 != (s.fslot k.val).imageVersion) = false := by
    cases own with
    | none => rfl
    | some e => simp [ho e rfl]
  have hspd : ¬ (leAt (s.fslot k.val).header 56 4 ≠ 0 ∧
      (!(List.range 64).all fun c => decide (leAt (s.fslot k.val).header 56 4 ≤ s.freeParcels c)) = true) := by
    rintro ⟨h0, hall⟩
    rcases hroom with h | h
    · exact h0 h
    · simp only [Bool.not_eq_true', List.all_eq_false, List.mem_range, decide_eq_true_eq] at hall
      obtain ⟨c, hc, hn⟩ := hall
      exact hn (h c hc)
  rw [State.prepare, if_neg (not_not_intro hvalid), if_neg (by rw [hown]; decide), if_neg (by rw [hfree]; decide), if_neg hspd, hg]
  rfl

/-! ### A thaw (R203, R209) -/

/-- What `s` becomes by writes of the device's own units: main memory and the clusters change. -/
def StoresOnly (s t : State) : Prop := ∃ m c, t = { s with mem := m, cl := c }

theorem StoresOnly.refl (s : State) : StoresOnly s s := ⟨s.mem, s.cl, rfl⟩

theorem StoresOnly.rewrite (h : StoresOnly s t) (r : Req) (a : Addr) (l : Bytes) : StoresOnly s (t.rewrite r a l) := by
  obtain ⟨m, c, rfl⟩ := h
  obtain ⟨b, k, c', hw⟩ := rewrite_only ({ s with mem := m, cl := c } : State) r a l
  exact ⟨_, _, hw⟩

theorem writeGen_only (s : State) (y : Gen) (segs : List Segment) (bs : List Bytes) : StoresOnly s (s.writeGen y segs bs).1 := by
  unfold State.writeGen
  refine foldS_keeps (p := StoresOnly s) _ (fun u e h => ?_) _ (foldS_keeps (p := StoresOnly s) _ (fun u e h => h.rewrite _ _ _) _
    ((StoresOnly.refl s).rewrite _ _ _))
  split
  · exact h.rewrite _ _ _
  · exact h

/-- A thaw that succeeds writes the memories alone. -/
theorem thawGen_ok {u : State} {z : Gen} {bad unread : List Nat} (h : s.thawGen y bad unread = (u, .ok z)) : StoresOnly s u := by
  unfold State.thawGen at h
  dsimp only at h
  split at h
  · simp at h
  · next bs _ =>
    obtain ⟨rfl, -⟩ := Prod.mk.inj h
    exact writeGen_only s y _ bs

/-! ### Pages and parcels given back (R211) -/

theorem scrubPages_frees (s : State) (first n : Nat) (cmd : Bool) : StoresOnly s (s.scrubPages first n cmd) ∧
    ∀ q, first ≤ q → q < first + n → ((s.scrubPages first n cmd).page q).mode = .free := by
  by_cases h0 : n = 0
  · rw [State.scrubPages, if_pos h0]
    exact ⟨.refl s, fun q h1 h2 => by omega⟩
  · obtain ⟨p, hp⟩ := scrubPages_only s first h0 cmd
    refine ⟨⟨_, _, hp⟩, fun q h1 h2 => ?_⟩
    rw [scrubPages_page s first h0, if_pos ⟨h1, h2⟩]

theorem foldS_retag_free_only (l : List (CId × Nat)) (s : State) :
    ∃ m, foldS s l (fun s e => s.retag e.1.val e.2 {}) = { s with cl := m } :=
  foldS_keeps (p := fun t => ∃ m, t = { s with cl := m }) _ (by rintro _ e ⟨m, rfl⟩; exact ⟨_, rfl⟩) l ⟨_, rfl⟩

/-- A generation that is given back changes the memories alone, and its pages are free. -/
theorem dropGen_frees (s : State) (y : Gen) : StoresOnly s (s.dropGen y) ∧
    ∀ q, y.first ≤ q → q < y.first + y.pages → ((s.dropGen y).page q).mode = .free := by
  obtain ⟨⟨m, c, hscrub⟩, hfree⟩ := scrubPages_frees s y.first y.pages false
  obtain ⟨c', hretag⟩ := foldS_retag_free_only y.parcels (s.scrubPages y.first y.pages false)
  obtain ⟨k, hctl⟩ := foldS_setCtl_only id (fun s m => { s.ctl m with stuck := (s.ctl m).stuck.filter fun l =>
    !(decide (y.first ≤ pageOf l) && decide (pageOf l < y.first + y.pages)) }) (List.range 20)
    ({ s.scrubPages y.first y.pages false with cl := c' } : State)
  have heq : s.dropGen y = { s.scrubPages y.first y.pages false with
      mem := { (s.scrubPages y.first y.pages false).mem with ctls := k }, cl := c' } := by
    unfold State.dropGen
    dsimp only
    rw [hretag]
    exact hctl
  rw [heq]
  exact ⟨⟨{ m with ctls := k }, c', by rw [hscrub]⟩, hfree⟩

end Sys2Proof.Machine
end

section
/-! PROOFS. The Firn store (chapter 08), base swaps: preparation, the thaw, the commit and the abort of a swap, the commit of a start, and
the end of an old generation (R203, R208, R210, R211, R214). -/

namespace Sys2Proof.Machine

open Sys2Proof Sys2Proof.Safety

variable {s t : State} {m : Msg} {k : FSlotId} {g : W32} {y : Gen} {w : Swap}

/-! ### Preparation (R208, R211) -/

theorem page_congr (h : t.mem = s.mem) (q : Nat) : t.page q = s.page q := by rw [State.page, h, State.page]

theorem sendDown_firn (s : State) (o : Out) : (s.sendDown o).firn = s.firn := (only_sendDown s o).2 .firn (by decide)

/-- What the coordinator becomes where `t` holds the pages and parcels of the swap: the command runs, and the members hear of it. -/
def State.prepared (t : State) (y : Gen) (c : FirnCmd) (g : W32) : State :=
  let x := t.fslot c.slot.val
  ((t.setFirn fun z => { z with swap := some (.begun c.slot y) }).setFirn fun x =>
    { x with cmdState := .busy, reason := 0, progress := 0, cmd := some c }).sendDown (.swapPrepare c.slot g x.chainTag x.imageVersion)

theorem prepared_firn (t : State) (y : Gen) (c : FirnCmd) (g : W32) : (t.prepared y c g).firn = { t.firn with
    swap := some (.begun c.slot y), cmdState := .busy, reason := 0, progress := 0, cmd := some c } := by
  rw [State.prepared, sendDown_firn]
  rfl

theorem prepared_mem (t : State) (y : Gen) (c : FirnCmd) (g : W32) : (t.prepared y c g).mem = t.mem := by
  rw [State.prepared, (only_sendDown _ _).2 .mem (by decide)]
  rfl

theorem Swappable.wakeUp (h : Swappable s k) : Swappable s.wakeUp k := h.congr (wakeUp_firn s) (wakeUp_cfg s) (wakeUp_cl s)

theorem firnSwap_prepares {v : W64} (hu : s.up = true) (hb : s.firnBusy = false) (ho : (firnCmd v).op = 3) (hc : s.isCoord = true)
    (hg : nextGen (genMax s.firn.greatest s.firn.seen) = g) (hw : Swappable s (firnCmd v).slot)
    (ht : s.wakeUp.takeGen (firnCmd v).slot g = some (t, y)) : exec (.firnSwap v) s = .next (t.prepared y (firnCmd v) g) := by
  have hcoord : s.wakeUp.isCoord = true := by rw [State.isCoord, wakeUp_lnk]; exact hc
  show Host.Outcome.next (firnSwap v s) = _
  rw [firnSwap, firnOp_taken hu hb ho]
  dsimp only
  rw [if_neg (by simp [hcoord]), wakeUp_firn, hg, prepare_takes hw.wakeUp (by simp) ht]
  rfl

theorem swapPrepare_prepares {tag : W64} {ver : W32} (hh : Heard s m [0]) (hm : s.lnk.member = true) (hn : s.firn.swap = none)
    (hw : Swappable s k) (hx : (s.fslot k.val).chainTag = tag ∧ (s.fslot k.val).imageVersion = ver)
    (ht : (s.wakeUp.sendDown (.swapPrepare k g tag ver)).takeGen k g = some (t, y)) :
    exec (.swapPrepare m k g tag ver) s = .next (t.setFirn fun z => { z with swap := some (.begun k y) }) := by
  have hdown := only_sendDown s.wakeUp (.swapPrepare k g tag ver)
  have hfirn : (s.wakeUp.sendDown (.swapPrepare k g tag ver)).firn = s.firn := (sendDown_firn _ _).trans (wakeUp_firn s)
  have hslot := fslot_congr (congrArg Firn.slots hfirn) k.val
  show Host.Outcome.next (swapPrepare m k g tag ver s) = _
  rw [swapPrepare, receive_heard hh]
  dsimp only
  rw [if_neg (by simp [hm]), if_neg (by simp [hfirn, hn]),
    prepare_takes (hw.wakeUp.congr (sendDown_firn _ _) (hdown.2 .cfg (by decide)) (hdown.2 .cl (by decide))) ?_ ht]
  rintro _ ⟨⟩
  rw [hslot, hx.1, hx.2]

/-! ### The device opens (15 R406, Table 15.7) -/

theorem freeBytes_only (s : State) (n : Nat) : ∃ f, (s.freeBytes n).2 = { s with free := f } := by
  induction n generalizing s with
  | zero => exact ⟨s.free, rfl⟩
  | succ n ih =>
    obtain ⟨f, hf⟩ := ih s.fresh.2
    exact ⟨f, hf⟩

theorem firstPace_only (s : State) : ∃ f m g q, s.firstPace = { s with free := f, cl := m, glb := g, hif := q } := by
  unfold State.firstPace
  dsimp only
  obtain ⟨f, hf⟩ := freeBytes_only s 3
  rw [hf]
  obtain ⟨m, g, q, h⟩ := takePace_only { s with free := f } ((List.range 64).map fun i =>
    (BitVec.ofNat 12 (leAt (s.freeBytes 3).1 (3 * i) 3), BitVec.ofNat 12 (leAt (s.freeBytes 3).1 (3 * i) 3 / 4096)))
  exact ⟨f, m, g, q, h⟩

theorem modPorts_only {α : Type} (p : α → Nat) (f : Port → Port) (l : List α) (s : State) :
    ∃ r, foldS s l (fun s a => s.modPort (p a) f) = { s with lnk := { s.lnk with ports := r } } :=
  foldS_keeps (p := fun t => ∃ r, t = { s with lnk := { s.lnk with ports := r } }) _ (by rintro _ a ⟨r, rfl⟩; exact ⟨_, rfl⟩) l
    ⟨s.lnk.ports, rfl⟩

theorem only_glb_rst_sec (s : State) (g : Glb) (r : Rst) (x : Sec) : Only [.glb, .rst, .sec] s { s with glb := g, rst := r, sec := x } :=
  ⟨rfl, fun b hb => by cases b <;> simp_all [Block.Same]⟩

theorem only_lnk_evt (s : State) (l : Lnk) (e : Evt) : Only [.lnk, .evt] s { s with lnk := l, evt := e } :=
  ⟨rfl, fun b hb => by cases b <;> simp_all [Block.Same]⟩

/-- `s` opens: the store and main memory stay, and of the node's links the ports alone change. -/
def OpensPorts (s t : State) : Prop := Only [.cl, .glb, .hif, .rst, .sec, .lnk, .evt, .out] s t ∧ SameChain s t

theorem OpensPorts.of_eq {u : State} (h : OpensPorts s t) (hk : Only [.cl, .glb, .hif, .rst, .sec, .evt, .out] t u) : OpensPorts s u :=
  ⟨only_trans h.1 (only_mono hk (by decide)), h.2.trans (.of_eq (hk.2 .lnk (by decide)))⟩

theorem opens_openDevice (s : State) : OpensPorts s s.openDevice ∧ s.openDevice.glb.ready = true := by
  unfold State.openDevice
  extract_lets cv mv s₁ s₂ glb rst sec s₃
  have h₀ : OpensPorts s s.firstPace := by
    obtain ⟨f, m, g, q, h⟩ := firstPace_only s
    rw [h]
    exact ⟨⟨rfl, fun b hb => by cases b <;> simp_all [Block.Same]⟩, .of_eq rfl⟩
  have h₁ : OpensPorts s s₁ := by
    unfold s₁
    split
    · exact h₀
    · exact h₀.of_eq (only_mono (only_out _ _) (by decide))
  have h₂ : OpensPorts s s₂ := by
    obtain ⟨p, h⟩ := modPorts_only (fun p : PortId => p.val) (fun x => if x.state = .upVc0 ∧ x.agreed then x.open' true else x)
      (List.finRange 12) s₁
    rw [show s₂ = _ from h]
    exact ⟨only_trans h₁.1 (only_mono (only_lnk _ _) (by decide)), h₁.2.trans ⟨p, rfl⟩⟩
  have h₃ : OpensPorts s s₃ := h₂.of_eq (only_mono (only_glb_rst_sec s₂ _ _ _) (by decide))
  have hready : s₃.glb.ready = true := rfl
  clear_value s₃
  refine ⟨(h₃.of_eq (only_mono (only_raise _ _ _) (by decide))).of_eq (only_mono (only_raise _ _ _) (by decide)), ?_⟩
  rw [(only_raise _ _ _).2 .glb (by decide), (only_raise _ _ _).2 .glb (by decide), hready]

/-! ### The commit of a start (R214) -/

theorem mem_inOrder {n : NodeId} {l : List NodeId} : n ∈ s.inOrder l ↔ n ∈ topoMembers s.cfg.live.topo ∧ n ∈ l := by
  simp [State.inOrder]

/-- This node is a member, the device is ready, and the store and main memory are as they were. -/
theorem openMember_opens (s : State) : Only [.cl, .glb, .hif, .rst, .sec, .lnk, .evt, .out] s s.openMember ∧
    s.openMember.glb.ready = true ∧ s.openMember.lnk.member = true ∧
    (s.lnk.node ∈ topoMembers s.cfg.live.topo → s.lnk.node ∈ s.openMember.lnk.members) := by
  unfold State.openMember
  extract_lets ms l s₁
  have h : ∃ e, (if ms.length ≤ 1 then s₁ else foldS s₁ ms fun s n => s.raise Ev.lnkMemberJoined { aux := n }) = { s₁ with evt := e } := by
    split
    · exact ⟨s₁.evt, rfl⟩
    · refine foldS_keeps (p := fun t => ∃ e, t = { s₁ with evt := e }) _ ?_ ms ⟨s₁.evt, rfl⟩
      rintro _ n ⟨e, rfl⟩
      exact raise_only _ _ _
  obtain ⟨e, h⟩ := h
  rw [h]
  obtain ⟨⟨honly, p, hp⟩, hready⟩ := opens_openDevice { s₁ with evt := e }
  refine ⟨only_trans (only_mono (only_lnk_evt s _ e) (by decide)) honly, hready, by rw [hp], fun hn => ?_⟩
  rw [hp]
  exact mem_inOrder.mpr ⟨hn, List.mem_cons_self⟩

theorem starting_congr (hr : t.rst.held = s.rst.held) (hg : t.glb = s.glb) (hl : t.lnk = s.lnk) : t.starting = s.starting := by
  simp only [State.starting, hr, hg, hl]

end Sys2Proof.Machine
end

section
/-! PROOFS. The Firn store (chapter 08), base swaps: the commit of a start and of a swap, its thaw, its abort, and the end of an old
generation (R203, R208, R210, R211, R214). -/

namespace Sys2Proof.Machine

open Sys2Proof Sys2Proof.Safety

variable {s t u : State} {m : Msg} {k : FSlotId} {g : W32} {y : Gen} {w : Swap}

/-! ### The commit of a start (R214) -/

/-- A start commits: what this node has thawed is current under the number that comes, and the device is ready. -/
structure StartCommitted (s t : State) (w : Swap) (g : W32) : Prop where
  current : t.firn.current = some { w.gen with num := g }
  swap : t.firn.swap = none
  greatest : t.firn.greatest = genMax g s.firn.greatest
  old : t.firn.old = s.firn.old
  ready : t.glb.ready = true
  member : t.lnk.member = true
  members : s.lnk.node ∈ topoMembers s.cfg.live.topo → s.lnk.node ∈ t.lnk.members
  mem : t.mem = s.mem

/-- The catalogue is written after a change of the store's registers. -/
theorem setFirn_catalogue (s : State) (f : Firn → Firn) : Only [.firn] s (s.setFirn f).catalogue ∧
    ∃ n l, (s.setFirn f).catalogue.firn = { f s.firn with catSeq := n, halves := l } :=
  ⟨only_trans (only_setFirn s f) (only_catalogue _), _, _, rfl⟩

theorem commitStart_commits (h : s.firn.swap = some w) (g : W32) : StartCommitted s (s.commitStart g) w g := by
  rw [State.commitStart, h]
  dsimp only
  obtain ⟨hset, n, l, hrec⟩ := setFirn_catalogue s fun x => { x with
    greatest := genMax g x.greatest, current := some { w.gen with num := g }, swap := none }
  generalize (s.setFirn _).catalogue = v at hset hrec ⊢
  have hr : Only [.firn, .evt] s (v.raise Ev.baseSwapDone (firnInfo w.slot.val 0 g)) :=
    only_trans (only_mono hset (by decide)) (only_mono (only_raise _ _ _) (by decide))
  obtain ⟨honly, hready, hmember, hmembers⟩ := openMember_opens (v.raise Ev.baseSwapDone (firnInfo w.slot.val 0 g))
  rw [hr.2 .lnk (by decide), hr.2 .cfg (by decide)] at hmembers
  have hfirn := (honly.2 .firn (by decide)).trans ((raise_firn _ _ _).trans hrec)
  constructor
  case ready => exact hready
  case member => exact hmember
  case members => exact hmembers
  case mem => exact (honly.2 .mem (by decide)).trans (hr.2 .mem (by decide))
  all_goals rw [hfirn]

theorem commitMsg_starts (hh : Heard s m [0]) (h : s.firn.swap = some w) (hs : w.start = true) (ht : w.thawed = true)
    (hg : s.starting = true) (g : W32) :
    exec (.commitMsg m g) s = .next ((s.wakeUp.sendDown (.swapCommit g)).commitStart g) := by
  have hdown := only_sendDown s.wakeUp (.swapCommit g)
  have hstart : (s.wakeUp.sendDown (.swapCommit g)).starting = true := by
    rw [starting_congr (by rw [hdown.2 .rst (by decide), wakeUp_held]) ((hdown.2 .glb (by decide)).trans (wakeUp_glb s))
      ((hdown.2 .lnk (by decide)).trans (wakeUp_lnk s)), hg]
  show Host.Outcome.next (commitMsg m g s) = _
  rw [commitMsg, receive_heard hh]
  dsimp only
  rw [sendDown_firn, wakeUp_firn, h]
  simp only [hs, ht, hstart, if_true, and_self]

/-! ### The commit of a swap (Table 8.8) -/

/-- A swap commits: its generation is current, the one before is old. -/
structure SwapCommitted (s t : State) (w : Swap) : Prop where
  only : Only [.firn, .evt, .rst, .out] s t
  current : t.firn.current = some w.gen
  old : t.firn.old = s.firn.current
  swap : t.firn.swap = none
  evt : t.evt = (s.raise Ev.baseSwapDone (firnInfo w.slot.val 0 w.gen.num)).evt

theorem SwapCommitted.of_only (h : SwapCommitted u t w) (hu : Only [.firn, .rst, .out] s u) (hc : u.firn.current = s.firn.current) :
    SwapCommitted s t w where
  only := only_trans (only_mono hu (by decide)) h.only
  current := h.current
  old := h.old.trans hc
  swap := h.swap
  evt := h.evt.trans (raise_evt_congr (hu.2 .evt (by decide)) (hu.2 .lnk (by decide)) (hu.2 .life (by decide)) _ _)

theorem commitSwap_commits (s : State) (w : Swap) : SwapCommitted s (s.commitSwap w) w ∧ (s.commitSwap w).out = s.out ∧
    (s.commitSwap w).firn.greatest = genMax w.gen.num s.firn.greatest := by
  rw [State.commitSwap]
  obtain ⟨hset, n, l, hrec⟩ := setFirn_catalogue s fun x => { x with
    greatest := genMax w.gen.num x.greatest, old := x.current, current := some w.gen, swap := none }
  generalize (s.setFirn _).catalogue = v at hset hrec ⊢
  have hfirn := (raise_firn v Ev.baseSwapDone (firnInfo w.slot.val 0 w.gen.num)).trans hrec
  have hout := (raise_out v Ev.baseSwapDone (firnInfo w.slot.val 0 w.gen.num)).trans (hset.2 .out (by decide))
  have h : SwapCommitted s (v.raise Ev.baseSwapDone (firnInfo w.slot.val 0 w.gen.num)) w :=
    ⟨only_trans (only_mono hset (by decide)) (only_mono (only_raise _ _ _) (by decide)), by rw [hfirn], by rw [hfirn], by rw [hfirn],
      raise_evt_congr (hset.2 .evt (by decide)) (hset.2 .lnk (by decide)) (hset.2 .life (by decide)) _ _⟩
  have hgreatest : (v.raise Ev.baseSwapDone (firnInfo w.slot.val 0 w.gen.num)).firn.greatest = genMax w.gen.num s.firn.greatest := by
    rw [hfirn]
  split
  · exact ⟨⟨only_trans h.only (only_mono (only_setFirn _ _) (by decide)), h.current, h.old, h.swap, h.evt⟩, hout, hgreatest⟩
  · exact ⟨h, hout, hgreatest⟩

theorem commitMsg_commits (hh : Heard s m [0]) (h : s.firn.swap = some w) (hs : w.start = false) (ht : w.thawed = true) :
    ∃ t, exec (.commitMsg m w.gen.num) s = .next t ∧ SwapCommitted s t w ∧ t.firn.greatest = genMax w.gen.num s.firn.greatest := by
  have hdown : Only [.firn, .rst, .out] s (s.wakeUp.sendDown (.swapCommit w.gen.num)) :=
    only_trans (only_mono (only_wakeUp s) (by decide)) (only_mono (only_sendDown _ _) (by decide))
  have hfirn := (sendDown_firn s.wakeUp (.swapCommit w.gen.num)).trans (wakeUp_firn s)
  have hexec : exec (.commitMsg m w.gen.num) s = .next ((s.wakeUp.sendDown (.swapCommit w.gen.num)).commitSwap w) := by
    show Host.Outcome.next (commitMsg m w.gen.num s) = _
    rw [commitMsg, receive_heard hh]
    dsimp only
    rw [hfirn, h]
    simp only [hs, ht, if_true, and_self, Bool.false_eq_true, if_false]
  obtain ⟨hc, -, hgreatest⟩ := commitSwap_commits (s.wakeUp.sendDown (.swapCommit w.gen.num)) w
  exact ⟨_, hexec, hc.of_only hdown (congrArg Firn.current hfirn), hfirn ▸ hgreatest⟩

/-- The coordinator has THAW_READY of every member. -/
def State.allReady (s : State) (w : Swap) : Prop := ∀ n ∈ s.lnk.members, n = s.lnk.node ∨ n ∈ w.ready

/-- The coordinator records the number and sends COMMIT. -/
def State.recordSwap (s : State) (w : Swap) : State :=
  ((s.setFirn fun x => { x with greatest := genMax w.gen.num x.greatest }).catalogue).sendDown (.swapCommit w.gen.num)

theorem swapTry_commits (hm : w.mineReady = true) (hs : w.settle = false) (ha : s.allReady w) :
    s.swapTry w = (s.recordSwap w).commitSwap w := by
  have hall : (s.lnk.members.all fun n => n == s.lnk.node || w.ready.contains n) = true := by
    rw [List.all_eq_true]
    intro n hn
    simpa using ha n hn
  rw [State.swapTry, if_pos ⟨hm, by rw [hs]; rfl, hall⟩]
  rfl

theorem only_recordSwap (s : State) (w : Swap) : Only [.firn, .out] s (s.recordSwap w) :=
  only_trans (only_trans (only_mono (only_setFirn s _) (by decide)) (only_mono (only_catalogue _) (by decide)))
    (only_mono (only_sendDown _ _) (by decide))

theorem recordSwap_current (s : State) (w : Swap) : (s.recordSwap w).firn.current = s.firn.current := by
  obtain ⟨-, n, l, hrec⟩ := setFirn_catalogue s fun x => { x with greatest := genMax w.gen.num x.greatest }
  rw [State.recordSwap, sendDown_firn, hrec]

theorem recordSwap_out (s : State) (w : Swap) :
    (s.recordSwap w).out = s.out ++ if s.childEdges = [] then [] else [.swapCommit w.gen.num] := by
  rw [State.recordSwap, sendDown_out]
  rfl

theorem coordStarts_of_not_starting (h : s.starting = false) : s.coordStarts = false := by rw [State.coordStarts, h]; rfl

theorem starting_wakeUp (s : State) : s.wakeUp.starting = s.starting := starting_congr (wakeUp_held s) (wakeUp_glb s) (wakeUp_lnk s)

theorem isCoord_congr (h : t.lnk = s.lnk) : t.isCoord = s.isCoord := by rw [State.isCoord, h, State.isCoord]

theorem thawReady_tries {n : NodeId} (hh : Heard s m [0]) (h : s.firn.swap = some w) (hg : s.starting = false) (hc : s.isCoord = true)
    (hn : n ∉ w.ready) : exec (.thawReady m n w.gen.num) s = .next (s.wakeUp.swapTry { w with ready := w.ready ++ [n] }) := by
  show Host.Outcome.next (thawReady m n w.gen.num s) = _
  rw [thawReady, receive_heard hh,
    if_neg (by rw [coordStarts_of_not_starting ((starting_wakeUp s).trans hg)]; decide),
    if_neg (by rw [isCoord_congr (wakeUp_lnk s), hc]; decide), wakeUp_firn, h]
  simp [hn]

theorem thawReady_commits {n : NodeId} (hh : Heard s m [0]) (h : s.firn.swap = some w) (hg : s.starting = false) (hc : s.isCoord = true)
    (hset : w.settle = false) (hn : n ∉ w.ready) (hall : ∀ k ∈ s.lnk.members, k = s.lnk.node ∨ k ∈ w.ready ∨ k = n)
    (hmine : w.mineReady = true) : ∃ t, exec (.thawReady m n w.gen.num) s = .next t ∧ SwapCommitted s t w ∧
      t.out = s.out ++ if s.childEdges = [] then [] else [.swapCommit w.gen.num] := by
  have hready : s.wakeUp.allReady { w with ready := w.ready ++ [n] } := by
    intro k hk
    rw [wakeUp_lnk] at hk ⊢
    rcases hall k hk with h | h | h <;> simp [h]
  have hrec := only_recordSwap s.wakeUp { w with ready := w.ready ++ [n] }
  have hcurrent := recordSwap_current s.wakeUp { w with ready := w.ready ++ [n] }
  have hsent := recordSwap_out s.wakeUp { w with ready := w.ready ++ [n] }
  have hexec := (thawReady_tries hh h hg hc hn).trans (congrArg Host.Outcome.next (swapTry_commits hmine hset hready))
  generalize s.wakeUp.recordSwap _ = v at hrec hcurrent hsent hexec
  obtain ⟨hcommit, hout, -⟩ := commitSwap_commits v { w with ready := w.ready ++ [n] }
  have hcommit := hcommit.of_only (only_trans (only_mono (only_wakeUp s) (by decide)) (only_mono hrec (by decide)))
    (hcurrent.trans (congrArg Firn.current (wakeUp_firn s)))
  refine ⟨_, hexec, ⟨hcommit.only, hcommit.current, hcommit.old, hcommit.swap, hcommit.evt⟩, ?_⟩
  rw [hout, hsent, wakeUp_out, childEdges_congr (wakeUp_cfg s) (wakeUp_lnk s)]

/-! ### The thaw of a swap (R203) -/

theorem only_of_storesOnly (h : StoresOnly s t) : Only [.mem, .cl] s t := by
  obtain ⟨p, c, rfl⟩ := h
  exact ⟨rfl, fun b hb => by cases b <;> simp_all [Block.Same]⟩

/-- A swap whose thaw has ended in generation `z`. -/
def Swap.thawedAs (w : Swap) (z : Gen) : Swap := { w with gen := z, thawed := true, mineReady := true }

theorem thawDone_sends {z : Gen} (h : s.firn.swap = some w) (hs : w.start = false) (ht : w.thawed = false) (hc : s.isCoord = false)
    (hu : s.thawGen w.gen [] [] = (u, .ok z)) : ∃ t, exec (.thawDone [] []) s = .next t ∧ t.out = s.out ++ [.thawReady s.lnk.node z.num] ∧
      t.firn = { s.firn with progress := z.pages * 8, swap := some (w.thawedAs z) } := by
  have honly := only_of_storesOnly (thawGen_ok hu)
  have hl : (u.setFirn fun x => { x with progress := z.pages * 8 }).lnk = s.lnk := honly.2 .lnk (by decide)
  have hexec : exec (.thawDone [] []) s = .next (((u.setFirn fun x => { x with progress := z.pages * 8 }).setFirn
      fun x => { x with swap := some (w.thawedAs z) }).emit (.thawReady s.lnk.node z.num)) := by
    show Host.Outcome.next (thawDone [] [] s) = _
    rw [thawDone, h]
    dsimp only
    rw [if_neg (by rw [ht]; decide), State.swapThawed, hu]
    dsimp only
    rw [if_neg (by rw [hs]; simp), if_neg (by rw [isCoord_congr hl, hc]; decide), hl]
    rfl
  refine ⟨_, hexec, ?_, ?_⟩
  · rw [State.emit, (only_setFirn _ _).2 .out (by decide), (only_setFirn _ _).2 .out (by decide), honly.2 .out (by decide)]
  · rw [State.emit, State.setFirn, State.setFirn, honly.2 .firn (by decide)]

/-! ### The abort (R211) -/

/-- A swap has ended without a commit: the current generation stays, the new pages are free. -/
structure SwapDropped (s t : State) (w : Swap) (c : W16) (i : EvInfo) : Prop where
  swap : t.firn.swap = none
  current : t.firn.current = s.firn.current
  greatest : t.firn.greatest = s.firn.greatest
  evt : t.evt = (s.raise c i).evt
  free : ∀ p, w.gen.first ≤ p → p < w.gen.first + w.gen.pages → (t.page p).mode = .free

theorem only_swapFailed (s : State) (r : Nat) : Only [.firn] s (s.swapFailed r) := by
  unfold State.swapFailed
  split
  · exact only_setFirn s _
  · exact only_refl _ s

theorem swapFailed_firn (s : State) (r : Nat) : ∃ a b c, (s.swapFailed r).firn = { s.firn with cmdState := a, reason := b, cmd := c } := by
  unfold State.swapFailed
  split
  · exact ⟨_, _, _, rfl⟩
  · exact ⟨_, _, _, rfl⟩

/-- The swap ends with event `c`, and the coordinator's command with reason `r`. -/
def State.endSwap (s : State) (w : Swap) (c : W16) (i : EvInfo) (r : Nat) : State := ((s.dropSwap w).raise c i).swapFailed r

theorem abortSwap_eq (s : State) (w : Swap) (r : Nat) : s.abortSwap w r = s.endSwap w Ev.baseSwapFail (argReason r) r := rfl

theorem only_dropSwap (s : State) (w : Swap) : Only [.firn, .mem, .cl] s (s.dropSwap w) :=
  only_trans (only_mono (only_of_storesOnly (dropGen_frees s w.gen).1) (by decide)) (only_mono (only_setFirn _ _) (by decide))

theorem only_endSwap (s : State) (w : Swap) (c : W16) (i : EvInfo) (r : Nat) : Only [.firn, .mem, .cl, .evt] s (s.endSwap w c i r) :=
  only_trans (only_trans (only_mono (only_dropSwap s w) (by decide)) (only_mono (only_raise _ _ _) (by decide)))
    (only_mono (only_swapFailed _ _) (by decide))

theorem endSwap_drops (hu : Only [.rst, .out] s u) (w : Swap) (c : W16) (i : EvInfo) (r : Nat) :
    SwapDropped s (u.endSwap w c i r) w c i := by
  obtain ⟨hstores, hfree⟩ := dropGen_frees u w.gen
  have hgen := (only_of_storesOnly hstores).2 .firn (by decide)
  have hdrop := only_dropSwap u w
  obtain ⟨a, b, d, hfirn⟩ := swapFailed_firn ((u.dropSwap w).raise c i) r
  have hfirn' : (u.endSwap w c i r).firn = { s.firn with swap := none, cmdState := a, reason := b, cmd := d } := by
    rw [State.endSwap, hfirn, raise_firn, State.dropSwap, State.setFirn, hgen, hu.2 .firn (by decide)]
  refine ⟨by rw [hfirn'], by rw [hfirn'], by rw [hfirn'], ?_, fun p h1 h2 => ?_⟩
  · rw [State.endSwap, (only_swapFailed _ r).2 .evt (by decide)]
    exact raise_evt_congr ((hdrop.2 .evt (by decide)).trans (hu.2 .evt (by decide))) ((hdrop.2 .lnk (by decide)).trans (hu.2 .lnk (by decide)))
      ((hdrop.2 .life (by decide)).trans (hu.2 .life (by decide))) c i
  · rw [page_congr (s := u.dropGen w.gen)]
    · exact hfree p h1 h2
    · rw [State.endSwap, (only_swapFailed _ r).2 .mem (by decide), raise_mem, State.dropSwap, (only_setFirn _ _).2 .mem (by decide)]

theorem isRoot_congr (hc : t.cfg = s.cfg) (hl : t.lnk = s.lnk) : t.isRoot = s.isRoot := by
  rw [State.isRoot, State.parentEdge, hc, hl, State.isRoot, State.parentEdge]

theorem isChildPort_congr (hc : t.cfg = s.cfg) (hl : t.lnk = s.lnk) (p : PortId) : t.isChildPort p = s.isChildPort p := by
  rw [State.isChildPort, childEdges_congr hc hl, State.isChildPort]

end Sys2Proof.Machine
end

section
/-! PROOFS. The Firn store (chapter 08), base swaps: the commands that end a swap, the end of an old generation, and the statement itself
(R203, R208, R210, R211, R214). -/

namespace Sys2Proof.Machine

open Sys2Proof Sys2Proof.Safety

variable {s t u : State} {m : Msg} {g : Gen} {w : Swap}

/-! ### The commands that end a swap (R211) -/

/-- The state in which a SWAP_ABORT that this node acts on finds the swap. -/
def State.abortHeard (s : State) (w : Swap) (r : Option Nat) : State := s.wakeUp.sendDown (.swapAbort .down w.gen.num r)

theorem only_abortHeard (s : State) (w : Swap) (r : Option Nat) : Only [.rst, .out] s (s.abortHeard w r) :=
  only_trans (only_mono (only_wakeUp s) (by decide)) (only_mono (only_sendDown _ _) (by decide))

theorem held_abortHeard (s : State) (w : Swap) (r : Option Nat) : (s.abortHeard w r).rst.held = s.rst.held := by
  rw [State.abortHeard, (only_sendDown _ _).2 .rst (by decide), wakeUp_held]

theorem startEnds_of_not_starting (h : s.starting = false) : s.startEnds = s := by rw [State.startEnds, h]; rfl

section
variable (hh : Heard s m [0]) (h : s.firn.swap = some w) (hp : s.isRoot = true ∨ s.isChildPort m.port = false)
include hh h hp

theorem swapAbort_acts (r : Option Nat) : exec (.swapAbort m w.gen.num r) s = .next (match r with
    | some r' => (s.abortHeard w r).endSwap w Ev.firnCmdRefused (argReason r') r'
    | none => ((s.abortHeard w r).abortSwap w 0x06).startEnds) := by
  have hmine : (s.wakeUp.firn.swap.filter fun x => x.gen.num == w.gen.num) = some w := by
    rw [wakeUp_firn, h]
    simp
  have hpass : ¬ ((!s.wakeUp.isRoot) = true ∧ s.wakeUp.isChildPort m.port = true) := by
    rw [isRoot_congr (wakeUp_cfg s) (wakeUp_lnk s), isChildPort_congr (wakeUp_cfg s) (wakeUp_lnk s)]
    rcases hp with h | h <;> simp [h]
  show Host.Outcome.next (swapAbort m w.gen.num r s) = _
  rw [swapAbort, receive_heard hh]
  dsimp only
  rw [if_neg hpass, hmine, if_neg (by simp)]
  cases r <;> rfl

theorem swapAbort_refused (n : Nat) : ∃ t, exec (.swapAbort m w.gen.num (some n)) s = .next t ∧
    SwapDropped s t w Ev.firnCmdRefused (argReason n) :=
  ⟨_, swapAbort_acts hh h hp (some n), endSwap_drops (only_abortHeard s w _) w _ _ n⟩

theorem swapAbort_fails (hg : s.starting = false) : ∃ t, exec (.swapAbort m w.gen.num none) s = .next t ∧
    SwapDropped s t w Ev.baseSwapFail (argReason 0x06) := by
  have hheard := only_abortHeard s w none
  have hend := only_endSwap (s.abortHeard w none) w Ev.baseSwapFail (argReason 0x06) 0x06
  have hstart : ((s.abortHeard w none).abortSwap w 0x06).starting = false := by
    rw [abortSwap_eq, starting_congr (s := s) (by rw [hend.2 .rst (by decide), held_abortHeard])
      ((hend.2 .glb (by decide)).trans (hheard.2 .glb (by decide))) ((hend.2 .lnk (by decide)).trans (hheard.2 .lnk (by decide))), hg]
  refine ⟨_, swapAbort_acts hh h hp none, ?_⟩
  dsimp only
  rw [startEnds_of_not_starting hstart, abortSwap_eq]
  exact endSwap_drops hheard w _ _ _

end

theorem swapSettle_fails (h : s.firn.swap = some w) (l : List NodeId) : ∃ t, exec (.swapSettle false l) s = .next t ∧
    SwapDropped s t w Ev.baseSwapFail (argReason 0x06) := by
  have hexec : exec (.swapSettle false l) s =
      .next ((if s.isCoord then s.sendDown (.swapAbort .down w.gen.num none) else s).abortSwap w 0x06) := by
    show Host.Outcome.next (swapSettle false l s) = _
    rw [swapSettle, h]
    rfl
  refine ⟨_, hexec, ?_⟩
  rw [abortSwap_eq]
  refine endSwap_drops ?_ w _ _ _
  split
  · exact only_mono (only_sendDown _ _) (by decide)
  · exact only_refl _ s

/-! ### The end of an old generation (R210) -/

theorem oldGenFree_frees (h : s.firn.old = some g) (h0 : s.genRefs g.num = 0) : ∃ t, exec .oldGenFree s = .next t ∧
    t.firn = { s.firn with old := none } ∧ t.evt = (s.raise Ev.baseGenFreed (firnInfo g.slot.val 0 g.num)).evt ∧
    ∀ p, g.first ≤ p → p < g.first + g.pages → (t.page p).mode = .free := by
  obtain ⟨hstores, hfree⟩ := dropGen_frees s g
  have honly := only_of_storesOnly hstores
  have hexec : exec .oldGenFree s =
      .next (((s.dropGen g).setFirn fun x => { x with old := none }).raise Ev.baseGenFreed (firnInfo g.slot.val 0 g.num)) := by
    show Host.Outcome.next (oldGenFree s) = _
    rw [oldGenFree, h]
    dsimp only
    rw [if_neg (not_not_intro h0)]
  generalize s.dropGen g = v at honly hfree hexec
  have hset : Only [.firn, .mem, .cl] s (v.setFirn fun x => { x with old := none }) :=
    only_trans (only_mono honly (by decide)) (only_mono (only_setFirn v _) (by decide))
  refine ⟨_, hexec, ?_, raise_evt_congr (hset.2 .evt (by decide)) (hset.2 .lnk (by decide)) (hset.2 .life (by decide)) _ _,
    fun p h1 h2 => ?_⟩
  · rw [raise_firn, State.setFirn, honly.2 .firn (by decide)]
  · rw [page_congr (s := v) (by rw [raise_mem, (only_setFirn _ _).2 .mem (by decide)])]
    exact hfree p h1 h2

theorem oldGenFree_waits (h : s.firn.old = some g) (h0 : s.genRefs g.num ≠ 0) : exec .oldGenFree s = .next s := by
  show Host.Outcome.next (oldGenFree s) = _
  rw [oldGenFree, h]
  dsimp only
  rw [if_pos h0]

/-! ### The statement -/

/-- Settles O35: a swap takes pages and parcels of its own and gives them back; what is current changes at a commit alone. -/
theorem baseSwapResult : Obligations.BaseSwapResult := by
  intro s m u begun room
  refine ⟨?prepares, ?member, ?start, ?runs, ?freed, fun g h h0 => oldGenFree_waits h h0⟩
  case prepares =>
    intro v hu hb ho hc k g hvalid hold hroom t y ht
    obtain ⟨⟨p, c, htaken⟩, hnum, hbase⟩ := takeGen_takes ht
    have hfirn : t.firn = s.firn := by
      rw [htaken]
      exact wakeUp_firn s
    refine ⟨_, firnSwap_prepares hu hb ho hc rfl ⟨hvalid, hold, hroom⟩ ht, by rw [prepared_firn], by rw [prepared_firn, hfirn],
      by rw [prepared_firn, hfirn], by rw [prepared_firn]; rfl, hnum, hnum ▸ nextGen_ne_zero _, fun q h1 h2 => ?_⟩
    rw [page_congr (prepared_mem t y (firnCmd v) g)]
    exact hbase q h1 h2
  case member =>
    intro k g tag ver t y hh hm hn hold hvalid htag hver hroom ht
    obtain ⟨⟨p, c, hmem⟩, -, -⟩ := takeGen_takes ht
    have hfirn : t.firn = s.firn := by
      rw [hmem]
      exact (sendDown_firn _ _).trans (wakeUp_firn s)
    refine ⟨_, swapPrepare_prepares hh hm hn ⟨hvalid, hold, hroom⟩ ⟨htag, hver⟩ ht, rfl, ?_, ?_⟩
    · rw [State.setFirn, hfirn]
    · rw [(only_setFirn _ _).2 .evt (by decide), hmem]
      exact ((only_sendDown _ _).2 .evt (by decide)).trans (wakeUp_evt s)
  case start =>
    intro w h hs hg ht hh g
    have hdown := only_sendDown s.wakeUp (.swapCommit g)
    have hfirn := (sendDown_firn s.wakeUp (.swapCommit g)).trans (wakeUp_firn s)
    have hc := commitStart_commits (w := w) (hfirn ▸ h) g
    refine ⟨_, commitMsg_starts hh h hs ht hg g, hc.current, hc.swap, hfirn ▸ hc.greatest, hfirn ▸ hc.old, hc.ready, hc.member, ?_, ?_⟩
    · have := hc.members
      rwa [hdown.2 .lnk (by decide), hdown.2 .cfg (by decide), wakeUp_lnk, wakeUp_cfg] at this
    · rw [hc.mem, hdown.2 .mem (by decide), wakeUp_mem]
  case runs =>
    intro w h hs hg
    refine ⟨fun ht hc u z hu => ?thawed, fun n hh hc hset hn hall hmine => ?ready, fun hh ht => ?commit, fun cmd r hcmd hh hp => ?abort⟩
    case thawed =>
      obtain ⟨t, hexec, hout, hfirn⟩ := thawDone_sends h hs ht hc hu
      exact ⟨t, hexec, hout, by rw [hfirn], by rw [hfirn]; rfl⟩
    case ready =>
      obtain ⟨t, hexec, hd, hout⟩ := thawReady_commits hh h hg hc hset hn hall hmine
      exact ⟨t, hexec, hd.current, hd.old, hd.swap, hout, hd.evt, hd.only.2 .mem (by decide)⟩
    case commit =>
      obtain ⟨t, hexec, hd, hgreatest⟩ := commitMsg_commits hh h hs ht
      exact ⟨t, hexec, hd.only.2 .mem (by decide), hd.only.2 .cl (by decide), hd.current, hd.old, hd.swap, hgreatest, hd.evt⟩
    case abort =>
      rcases hcmd with hcmd | ⟨l, hcmd⟩ | ⟨n, hcmd⟩ <;> obtain ⟨rfl, rfl⟩ := Prod.mk.inj hcmd
      · obtain ⟨t, ht, hd⟩ := swapAbort_fails hh h hp hg
        exact ⟨t, ht, hd.swap, hd.current, hd.greatest, hd.evt, hd.free⟩
      · obtain ⟨t, ht, hd⟩ := swapSettle_fails h l
        exact ⟨t, ht, hd.swap, hd.current, hd.greatest, hd.evt, hd.free⟩
      · obtain ⟨t, ht, hd⟩ := swapAbort_refused hh h hp n
        exact ⟨t, ht, hd.swap, hd.current, hd.greatest, hd.evt, hd.free⟩
  case freed =>
    intro g h h0
    obtain ⟨t, hexec, hfirn, hevt, hfree⟩ := oldGenFree_frees h h0
    exact ⟨t, hexec, by rw [hfirn], by rw [hfirn], hevt, hfree⟩

end Sys2Proof.Machine
end

section
/-! PROOFS. Variants (chapter 09), records: what an update makes of the registered variants, and the VAR_CMD writes that are taken up. -/

namespace Sys2Proof.Machine

open Sys2Proof Sys2Proof.Safety

variable {s t : State}

/-! ### The record of a variant -/

theorem find_merase_same {α : Type} (i : Nat) (m : SMap α) : (merase i m).find? (·.1 == i) = none :=
  List.find?_eq_none.mpr fun e he => by simpa using merase_not_mem i m e he

theorem find_merase_ne {α : Type} {i k : Nat} (h : k ≠ i) (m : SMap α) : (merase i m).find? (·.1 == k) = m.find? (·.1 == k) := by
  induction m with
  | nil => rfl
  | cons e r ih =>
    by_cases he : e.1 = i
    · rw [merase, if_pos he, ih, List.find?_cons_of_neg (by simp [he, Ne.symm h])]
    · rw [merase, if_neg he, List.find?_cons, List.find?_cons, ih]

theorem find_minsert_same {α : Type} {i : Nat} {m : SMap α} (x : α) (h : ∀ e ∈ m, e.1 ≠ i) :
    (minsert i x m).find? (·.1 == i) = some (i, x) := by
  induction m with
  | nil => simp [minsert]
  | cons e r ih =>
    rw [minsert]
    split
    · simp
    · rw [List.find?_cons_of_neg (by simpa using h e List.mem_cons_self), ih fun a ha => h a (List.mem_cons_of_mem e ha)]

theorem find_minsert_ne {α : Type} {i k : Nat} (x : α) (h : k ≠ i) (m : SMap α) :
    (minsert i x m).find? (·.1 == k) = m.find? (·.1 == k) := by
  induction m with
  | nil => simp [minsert, Ne.symm h]
  | cons e r ih =>
    rw [minsert]
    split
    · rw [List.find?_cons_of_neg (by simp [Ne.symm h])]
    · rw [List.find?_cons, List.find?_cons, ih]

@[simp] theorem variant_setVariant (s : State) (v : Nat) (y : Variant) (k : Nat) :
    (s.setVariant v y).variant k = if k = v then some y else s.variant k := by
  unfold State.variant State.setVariant
  split
  · next h => rw [h, find_minsert_same y (merase_not_mem v s.var.reg)]; rfl
  · next h => rw [find_minsert_ne y h, find_merase_ne h]

@[simp] theorem variant_dropVariant (s : State) (v k : Nat) :
    (s.dropVariant v).variant k = if k = v then none else s.variant k := by
  unfold State.variant State.dropVariant
  split
  · next h => rw [h, find_merase_same]; rfl
  · next h => rw [find_merase_ne h]

theorem modVariant_found {v : Nat} {x : Variant} (h : s.variant v = some x) (f : Variant → Variant) :
    s.modVariant v f = s.setVariant v (f x) := by rw [State.modVariant, h]

theorem variant_congr (h : t.var.reg = s.var.reg) (v : Nat) : t.variant v = s.variant v := by rw [State.variant, h, State.variant]

/-! ### Which blocks change -/

theorem only_var (s : State) (x : Var) : Only [.var] s { s with var := x } := ⟨rfl, fun b hb => by cases b <;> simp_all [Block.Same]⟩
theorem only_setVar (s : State) (f : Var → Var) : Only [.var] s (s.setVar f) := only_var s _
theorem only_setVariant (s : State) (v : Nat) (y : Variant) : Only [.var] s (s.setVariant v y) := only_var s _
theorem only_dropVariant (s : State) (v : Nat) : Only [.var] s (s.dropVariant v) := only_var s _

/-! ### What waking leaves (15 R419) -/

/-- What does not turn on the resets and the power state is the same in a device that was woken. -/
theorem wakeUp_keeps {α : Type} (f : State → α) (hf : ∀ r, f { s with rst := r } = f s) : f s.wakeUp = f s := by
  obtain ⟨r, h⟩ := wakeUp_only s
  rw [h, hf]

@[simp] theorem wakeUp_var (s : State) : s.wakeUp.var = s.var := wakeUp_keeps _ fun _ => rfl
@[simp] theorem wakeUp_variant (s : State) (v : Nat) : s.wakeUp.variant v = s.variant v := wakeUp_keeps (·.variant v) fun _ => rfl
@[simp] theorem wakeUp_isCoord (s : State) : s.wakeUp.isCoord = s.isCoord := wakeUp_keeps _ fun _ => rfl
@[simp] theorem wakeUp_childEdges (s : State) : s.wakeUp.childEdges = s.childEdges := wakeUp_keeps _ fun _ => rfl
@[simp] theorem wakeUp_liveSession (s : State) (d : Dom) : s.wakeUp.liveSession d = s.liveSession d :=
  wakeUp_keeps (·.liveSession d) fun _ => rfl
@[simp] theorem wakeUp_modelId (s : State) : s.wakeUp.modelId = s.modelId := wakeUp_keeps _ fun _ => rfl

/-! ### A VAR_CMD write that is taken up (R249) -/

theorem varOp_asks {v : W64} {op n : Nat} (h : VarAsks s v op n) (k : Nat → State → State) : s.varOp v op k = k n s.wakeUp := by
  obtain ⟨hu, hb, ho, hn, h0, hd⟩ := h
  have hdom : ¬ (bitsOf v 63 60 ≠ op ∨ n = 0 ∨ (op ≠ 1 ∧ op ≠ 2 ∧ bitsOf v 43 32 ≠ 0)) := by
    rintro (h | h | ⟨h1, h2, h⟩)
    · exact h ho
    · exact h0 h
    · exact h (hd h1 h2)
  rw [State.varOp, State.hostReg, if_pos hu]
  dsimp only
  rw [hn, if_neg (fun h => h.1 ho), if_neg (by simpa using hb), if_neg hdom]

theorem varOn_found {v : W64} {op n : Nat} {x : Variant} (h : VarAsks s v op n) (hx : s.variant n = some x)
    (k : Nat → Variant → State → State) : s.varOn v op k = k n x s.wakeUp := by
  rw [State.varOn, varOp_asks h, wakeUp_variant, hx]

theorem varOn_missing {v : W64} {op n : Nat} (h : VarAsks s v op n) (hx : s.variant n = none) (k : Nat → Variant → State → State) :
    s.varOn v op k = s.wakeUp.varRefuse 0x01 := by
  rw [State.varOn, varOp_asks h, wakeUp_variant, hx]

/-- An operation of the coordinator, and one that another node refuses. -/
theorem varCoord_wakeUp (hc : s.isCoord = true) (k : State → State) : s.wakeUp.varCoord k = k s.wakeUp :=
  if_pos ((wakeUp_isCoord s).trans hc)

theorem varCoord_member (hc : s.isCoord = false) (k : State → State) : s.wakeUp.varCoord k = s.wakeUp.varRefuse 0x0B :=
  if_neg (by rw [wakeUp_isCoord, hc]; decide)

end Sys2Proof.Machine
end

section
/-! PROOFS. Variants (chapter 09), the registry: registration, its copies on the members, and the query (R221, R224, R249, R250). -/

namespace Sys2Proof.Machine

open Sys2Proof Sys2Proof.Safety

variable {s : State} {v : W64} {vid : Vid} {x : Variant}

/-! ### The registry and what the members hear of it (R221) -/

/-- A change of the registry that goes on down the control tree. -/
structure Registered (s t : State) (n : Nat) (e : Option Variant) (o : Out) : Prop where
  only : Only [.var, .out, .rst] s t
  variant : t.variant n = e
  others : ∀ k, k ≠ n → t.variant k = s.variant k
  out : t.out = if s.childEdges = [] then s.out else s.out ++ [o]

theorem sendDown_var (s : State) (o : Out) : (s.sendDown o).var = s.var := (only_sendDown s o).2 .var (by decide)

/-- A change of the registry alone, then the message. -/
theorem registered_sendDown {u : State} {n : Nat} {e : Option Variant} (hu : Only [.var] s.wakeUp u) (he : u.variant n = e)
    (hk : ∀ k, k ≠ n → u.variant k = s.variant k) (o : Out) : Registered s (u.sendDown o) n e o := by
  have hvar := congrArg Var.reg (sendDown_var u o)
  refine ⟨?_, (variant_congr hvar n).trans he, fun k h => (variant_congr hvar k).trans (hk k h), ?_⟩
  · exact only_trans (only_trans (only_mono (only_wakeUp s) (by decide)) (only_mono hu (by decide)))
      (only_mono (only_sendDown u o) (by decide))
  · rw [sendDown_out, hu.2 .out (by decide), wakeUp_out,
      childEdges_congr ((hu.2 .cfg (by decide)).trans (wakeUp_cfg s)) ((hu.2 .lnk (by decide)).trans (wakeUp_lnk s))]
    split
    · exact List.append_nil _
    · rfl

/-- The message, then a change of the registry alone. -/
theorem registered_after_sendDown {t : State} {n : Nat} {e : Option Variant} {o : Out} (ht : Only [.var] (s.wakeUp.sendDown o) t)
    (he : t.variant n = e) (hk : ∀ k, k ≠ n → t.variant k = s.variant k) : Registered s t n e o := by
  refine ⟨?_, he, hk, ?_⟩
  · exact only_trans (only_trans (only_mono (only_wakeUp s) (by decide)) (only_mono (only_sendDown _ o) (by decide)))
      (only_mono ht (by decide))
  · rw [ht.2 .out (by decide), sendDown_out, wakeUp_out, wakeUp_childEdges]
    split
    · exact List.append_nil _
    · rfl

theorem sendDown_wakeUp_variant (s : State) (o : Out) (k : Nat) : (s.wakeUp.sendDown o).variant k = s.variant k :=
  (variant_congr (congrArg Var.reg (sendDown_var _ o)) k).trans (wakeUp_variant s k)

/-! ### VAR_REGISTER and VAR_UNREGISTER (R224, R250) -/

/-- A descriptor that a VAR_REGISTER of `v` may bring for variant `n`. -/
structure Registers (s : State) (v : W64) (n : Nat) (d : BitVec 512) : Prop where
  new : s.variant n = none
  ok : descOk d = true
  id : bitsOf d 511 496 = n
  domain : (descVariant d).domain.toNat = bitsOf v 43 32
  session : s.liveSession (descVariant d).domain = true
  model : s.modelId = some (descVariant d).modelId

theorem varRegister_registers {n : Nat} {d : BitVec 512} (h : VarAsks s v 1 n) (hc : s.isCoord = true) (hd : Registers s v n d) :
    ∃ t, exec (.varRegister v d) s = .next t ∧ Registered s t n (some (descVariant d)) (.registry n (some d)) ∧
      t.var.cmdState = .done := by
  obtain ⟨hnew, hok, hid, hdom, hses, hmodel⟩ := hd
  have hexec : exec (.varRegister v d) s =
      .next ((s.wakeUp.setVariant n (descVariant d)).varDone.sendDown (.registry n (some d))) := by
    show Host.Outcome.next (varRegister v d s) = _
    rw [varRegister, varOp_asks h, varCoord_wakeUp hc]
    dsimp only
    rw [if_neg (by simp [hnew]), if_neg (by simp [hok, hid, hdom]), if_neg (by simp [hses]), if_neg (by simp [hmodel])]
  have honly : Only [.var] s.wakeUp (s.wakeUp.setVariant n (descVariant d)).varDone :=
    only_trans (only_setVariant _ _ _) (only_setVar _ _)
  refine ⟨_, hexec, registered_sendDown honly ?_ (fun k hk => ?_) _, congrArg Var.cmdState (sendDown_var _ _)⟩
  · exact (variant_setVariant _ _ _ _).trans (if_pos rfl)
  · exact (variant_setVariant _ _ _ _).trans ((if_neg hk).trans (wakeUp_variant s k))

theorem varRegister_known {n : Nat} (h : VarAsks s v 1 n) (hc : s.isCoord = true) (hx : (s.variant n).isSome = true) (d : BitVec 512) :
    exec (.varRegister v d) s = .next (s.wakeUp.varRefuse 0x01) := by
  show Host.Outcome.next (varRegister v d s) = _
  rw [varRegister, varOp_asks h, varCoord_wakeUp hc]
  dsimp only
  rw [if_pos (by rw [wakeUp_variant, hx])]

theorem varRegister_member {n : Nat} (h : VarAsks s v 1 n) (hc : s.isCoord = false) (d : BitVec 512) :
    exec (.varRegister v d) s = .next (s.wakeUp.varRefuse 0x0B) := by
  show Host.Outcome.next (varRegister v d s) = _
  rw [varRegister, varOp_asks h, varCoord_member hc]

theorem varUnregister_drops {n : Nat} (h : VarAsks s v 7 n) (hc : s.isCoord = true) (hx : s.variant n = some x) (hd : x.state = .dormant) :
    ∃ t, exec (.varUnregister v true) s = .next t ∧ Registered s t n none (.registry n none) ∧ t.var.cmdState = .done := by
  have hexec : exec (.varUnregister v true) s = .next ((s.wakeUp.dropVariant n).varDone.sendDown (.registry n none)) := by
    show Host.Outcome.next (varUnregister v true s) = _
    rw [varUnregister, varOn_found h hx, varCoord_wakeUp hc, if_neg (by simp [hd])]
  have honly : Only [.var] s.wakeUp (s.wakeUp.dropVariant n).varDone := only_trans (only_dropVariant _ _) (only_setVar _ _)
  refine ⟨_, hexec, registered_sendDown honly ?_ (fun k hk => ?_) _, congrArg Var.cmdState (sendDown_var _ _)⟩
  · exact (variant_dropVariant _ _ _).trans (if_pos rfl)
  · exact (variant_dropVariant _ _ _).trans ((if_neg hk).trans (wakeUp_variant s k))

theorem varUnregister_refused {n : Nat} {dormant : Bool} (h : VarAsks s v 7 n) (hc : s.isCoord = true) (hx : s.variant n = some x)
    (hd : x.state ≠ .dormant ∨ dormant = false) : exec (.varUnregister v dormant) s = .next (s.wakeUp.varRefuse 0x0D) := by
  show Host.Outcome.next (varUnregister v dormant s) = _
  rw [varUnregister, varOn_found h hx, varCoord_wakeUp hc, if_pos (by simpa using hd)]

/-! ### A member's copy (R221) -/

theorem registryUpdate_copies {m : Msg} (h : Heard s m [0]) (vid : Vid) (e : Option (BitVec 512))
    (he : ∀ d, e = some d → s.variant vid.toNat = none) : ∃ t, exec (.registryUpdate m vid e) s = .next t ∧
      Registered s t vid.toNat (e.map descVariant) (.registry vid.toNat e) := by
  have hsent := sendDown_wakeUp_variant s (.registry vid.toNat e)
  have hexec : exec (.registryUpdate m vid e) s = .next (match e with
      | some d => (s.wakeUp.sendDown (.registry vid.toNat e)).setVariant vid.toNat (descVariant d)
      | none => (s.wakeUp.sendDown (.registry vid.toNat e)).dropVariant vid.toNat) := by
    show Host.Outcome.next (registryUpdate m vid e s) = _
    rw [registryUpdate, receive_heard h]
    cases e with
    | none => rfl
    | some d =>
      dsimp only
      rw [if_neg (by rw [hsent, he d rfl]; decide)]
  refine ⟨_, hexec, ?_⟩
  cases e with
  | none =>
    refine registered_after_sendDown (only_dropVariant _ _) ?_ fun k hk => ?_
    · exact (variant_dropVariant _ _ _).trans (if_pos rfl)
    · exact (variant_dropVariant _ _ _).trans ((if_neg hk).trans (hsent k))
  | some d =>
    refine registered_after_sendDown (only_setVariant _ _ _) ?_ fun k hk => ?_
    · exact (variant_setVariant _ _ _ _).trans (if_pos rfl)
    · exact (variant_setVariant _ _ _ _).trans ((if_neg hk).trans (hsent k))

/-! ### The query (R249) -/

theorem varQuery_answers {n : Nat} (h : VarAsks s v 10 n) (hx : s.variant n = some x) :
    exec (.varQuery v) s = .next { s.wakeUp with var := { s.var with
      cmdState := .done, reason := 0, qstate := varCode x.state, qdomain := x.domain
      qgen := match x.cur with | some g => g.num | none => 0 } } := by
  show Host.Outcome.next (varQuery v s) = _
  rw [varQuery, varOp_asks h]
  dsimp only
  rw [wakeUp_variant, hx]
  rw [← wakeUp_var s]
  rfl

/-- Settles O37: every change of the registry is one record set or dropped, and the message that tells the members. -/
theorem variantRegistryResult : Obligations.VariantRegistryResult := by
  intro s v vid d n u
  refine ⟨fun h hc => ⟨fun hnew hok hid hdom hses hmodel => ?register, fun hx => varRegister_known h hc hx d⟩,
    fun h hc => varRegister_member h hc d, fun m hh e he => ?copy, fun x h hc hx => ⟨fun hd => ?unregister, fun hd => ?_, ?_⟩,
    fun x h hx => varQuery_answers h hx, fun h hx => ?unknown⟩
  case register =>
    obtain ⟨t, ht, hr, hdone⟩ := varRegister_registers h hc ⟨hnew, hok, hid, hdom, hses, hmodel⟩
    exact ⟨t, ht, hr.only, hr.variant, rfl, hdone, hr.others, hr.out⟩
  case copy =>
    obtain ⟨t, ht, hr⟩ := registryUpdate_copies hh vid e he
    exact ⟨t, ht, hr.only, hr.variant, hr.others, hr.out⟩
  case unregister =>
    obtain ⟨t, ht, hr, hdone⟩ := varUnregister_drops h hc hx hd
    exact ⟨t, ht, hr.only, hr.variant, hdone, hr.others, hr.out⟩
  · exact varUnregister_refused h hc hx (.inl hd)
  · exact varUnregister_refused h hc hx (.inr rfl)
  case unknown =>
    exact congrArg Host.Outcome.next (varOn_missing h hx _)

end Sys2Proof.Machine
end

section
/-! PROOFS. Variants (chapter 09), memory: what a working directory, a copy in the variant cache and memory given back leave. -/

namespace Sys2Proof.Machine

open Sys2Proof Sys2Proof.Safety

variable {s t u : State} {n : Nat} {x y : Variant} {g : ServGen} {r : Req}

/-! ### A unit's writes to main memory -/

theorem rawByte_rewrite_denied {a : Addr} (h : s.mayAccess r a true = false) (b : Addr) (l : Bytes) :
    (s.rewrite r b l).rawByte a = s.rawByte a := by
  rw [State.rewrite, (sameStore_unpoison _ _ _ _).1, rawByte_write_denied r l h]

/-- A write to main memory leaves what lies below it. -/
theorem rawByte_rewrite_lower {a c : Addr} (ha : a.dev = true) (hc : c.a < a.a) (l : Bytes) :
    (s.rewrite r a l).rawByte c = s.rawByte c := by
  refine rawByte_rewrite_out r l a c fun k _ h => ?_
  rw [sameByte, if_pos (show (a.plus k).dev = true from ha)] at h
  have : c.a = a.a + k := h.2
  omega

theorem write_dev_cl (r : Req) (l : Bytes) {a : Addr} (ha : a.dev = true) (s : State) : (s.write r a l).cl = s.cl := by
  induction l generalizing s a with
  | nil => rfl
  | cons b l ih =>
    rw [State.write, ih (a := a.plus 1) ha, State.writeByte, State.makeValid, State.putByte, if_pos ha, if_pos ha]
    split <;> rfl

theorem rewrite_dev_cl (s : State) (r : Req) {a : Addr} (ha : a.dev = true) (l : Bytes) : (s.rewrite r a l).cl = s.cl := by
  obtain ⟨k, hk, -⟩ := unpoison_ctls_only (s.write r a l) r a l.length
  rw [State.rewrite, hk]
  exact write_dev_cl r l ha s

theorem rewrite_page (s : State) (r : Req) (a : Addr) (l : Bytes) (p : Nat) : (s.rewrite r a l).page p = s.page p := by
  obtain ⟨b, k, c, h⟩ := rewrite_only s r a l
  rw [h]
  rfl

/-! ### Which blocks change -/

theorem StoresOnly.trans (h : StoresOnly s t) (k : StoresOnly t u) : StoresOnly s u := by
  obtain ⟨m, c, rfl⟩ := h
  obtain ⟨m', c', rfl⟩ := k
  exact ⟨m', c', rfl⟩

theorem StoresOnly.setVariant (h : StoresOnly s t) (n : Nat) (x : Variant) : StoresOnly (s.setVariant n x) (t.setVariant n x) := by
  obtain ⟨m, c, rfl⟩ := h
  exact ⟨m, c, rfl⟩

theorem StoresOnly.var (h : StoresOnly s t) : t.var = s.var := (only_of_storesOnly h).2 .var (by decide)

theorem StoresOnly.variant (h : StoresOnly s t) (k : Nat) : t.variant k = s.variant k := variant_congr (congrArg Var.reg h.var) k

/-- A record set, and then writes of the device's own units. -/
theorem StoresOnly.recorded (h : StoresOnly (s.setVariant n y) t) (k : Nat) : t.variant k = if k = n then some y else s.variant k :=
  (h.variant k).trans (variant_setVariant s n y k)

theorem raise_var (s : State) (c : W16) (i : EvInfo) : (s.raise c i).var = s.var := (only_raise s c i).2 .var (by decide)

/-- What a raise makes of the events does not turn on the blocks of `l`. -/
theorem raise_evt_of_only {l : List Block} (h : Only l s t) (he : .evt ∉ l) (hl : .lnk ∉ l) (hc : .life ∉ l) (c : W16) (i : EvInfo) :
    (t.raise c i).evt = (s.raise c i).evt := raise_evt_congr (h.2 .evt he) (h.2 .lnk hl) (h.2 .life hc) c i

theorem StoresOnly.retagFree (h : StoresOnly s t) (l : List (CId × Nat)) : StoresOnly s (foldS t l fun s e => s.retag e.1.val e.2 {}) := by
  obtain ⟨m, hm⟩ := foldS_retag_free_only l t
  exact h.trans ⟨t.mem, m, hm⟩

/-! ### Working directories (Table 9.5) -/

/-- What a write of the variant's domain to main memory and a change of the records keep, a new working directory keeps. -/
theorem redir_keeps {p : State → Prop} (hw : ∀ u i l, p u → p (u.rewrite (.dom x.domain) (x.dirAt i) l)) (h : p (s.setVariant n x)) :
    p (s.redir n x) := foldS_keeps _ (fun u g hu => hw u g.area (x.workDir g) hu) _ h

theorem redir_stores (s : State) (n : Nat) (x : Variant) : StoresOnly (s.setVariant n x) (s.redir n x) :=
  redir_keeps (fun _ _ _ h => h.rewrite _ _ _) (.refl _)

theorem redir_cl (s : State) (n : Nat) (x : Variant) : (s.redir n x).cl = s.cl :=
  redir_keeps (p := fun u => u.cl = s.cl) (fun u _ _ h => (rewrite_dev_cl u _ rfl _).trans h) rfl

theorem redir_page (s : State) (n : Nat) (x : Variant) (p : Nat) : (s.redir n x).page p = s.page p :=
  redir_keeps (p := fun u => u.page p = s.page p) (fun u _ _ h => (rewrite_page u _ _ _ p).trans h) rfl

/-! ### Copies in the variant cache (R240, R242) -/

/-- The record of a variant whose current generation `g` is cached. -/
def Variant.filled (x : Variant) (g : ServGen) : Variant :=
  { x with
    state := .hot, cur := some { g with spd := true }, old := x.old.map fun g => { g with spd := false }, filling := false
    evicting := false, copyNo := x.copyNo + 1 }

theorem fillCache_stores (hg : x.cur = some g) : StoresOnly (s.setVariant n (x.filled g)) (s.fillCache n x) := by
  unfold State.fillCache
  rw [hg]
  refine StoresOnly.trans (StoresOnly.setVariant ?_ n _) (redir_stores _ n (x.filled g))
  refine foldS_keeps (p := StoresOnly s) _ (fun u e h => ?_) _ (.refl s)
  split
  · exact h.rewrite _ _ _
  · exact h

/-- The record of a variant whose spd pointers are null: its copy is to be evicted (`State.nullSpd`). -/
def Variant.nulled (x : Variant) : Variant :=
  { x with
    state := if x.state = .hot then .live else x.state
    cur := x.cur.map fun g => { g with spd := false }, old := x.old.map fun g => { g with spd := false }
    evicting := true }

/-! ### Memory given back (R243, R246) -/

theorem scrubPages_keeps_free (first m : Nat) (cmd : Bool) {p : Nat} (h : (s.page p).mode = .free) :
    ((s.scrubPages first m cmd).page p).mode = .free := by
  by_cases hm : m = 0
  · rw [State.scrubPages, if_pos hm]
    exact h
  · rw [scrubPages_page s first hm]
    split
    · rfl
    · exact h

/-- The record of a variant that holds no page and no parcel. -/
def Variant.emptied (x : Variant) : Variant :=
  { x with
    cacheParcels := [], oldCopies := [], filling := false, evicting := false, first := 0, pages := 0, sfirst := 0, spages := 0, dir := []
    weightBytes := 0, stateBytes := 0, cur := none, old := none, stateIn := false, noState := false, pinned := false, stateOut := false
    stateWait := none, copied := false }

/-- A variant has given its memory back: its record is empty, and the pages of its areas are free. -/
structure GivenBack (s t : State) (n : Nat) (x : Variant) : Prop where
  only : Only [.mem, .cl, .var] s t
  variant : t.variant n = some x.emptied
  free : ∀ p, x.first ≤ p → p < x.first + x.pages → (t.page p).mode = .free

theorem freeVariant_givesBack (hx : s.variant n = some x) : GivenBack s (s.freeVariant n x) n x := by
  obtain ⟨hfirst, hfree⟩ := scrubPages_frees s x.first x.pages false
  generalize hu : (s.scrubPages x.first x.pages false).scrubPages x.sfirst x.spages false = u
  have hstores : StoresOnly s u := hu ▸ hfirst.trans (scrubPages_frees _ x.sfirst x.spages false).1
  have hpages : ∀ p, x.first ≤ p → p < x.first + x.pages → (u.page p).mode = .free := fun p h1 h2 =>
    hu ▸ scrubPages_keeps_free x.sfirst x.spages false (hfree p h1 h2)
  have hcache : u.freeCache n = (foldS u (x.cacheParcels ++ x.oldCopies.flatMap (·.2)) fun s e => s.retag e.1.val e.2 {}).setVariant n
      { x with cacheParcels := [], oldCopies := [], filling := false, evicting := false } := by
    rw [State.freeCache, (hstores.variant n).trans hx]
  obtain ⟨c, hc⟩ := foldS_retag_free_only (x.cacheParcels ++ x.oldCopies.flatMap (·.2)) u
  have heq : s.freeVariant n x = (u.freeCache n).setVariant n x.emptied := by
    have hrec : (u.freeCache n).variant n = some { x with cacheParcels := [], oldCopies := [], filling := false, evicting := false } := by
      rw [hcache, variant_setVariant, if_pos rfl]
    unfold State.freeVariant
    dsimp only
    rw [hu, modVariant_found hrec]
    rfl
  rw [heq, hcache, hc]
  refine ⟨?_, by rw [variant_setVariant, if_pos rfl], fun p h1 h2 => hpages p h1 h2⟩
  have h1 : Only [.mem, .cl, .var] s u := only_mono (only_of_storesOnly hstores) (by decide)
  have h2 : Only [.mem, .cl, .var] s { u with cl := c } := only_step h1 (only_cl u c) (by decide)
  exact only_step (only_step h2 (only_setVariant _ n _) (by decide)) (only_setVariant _ n _) (by decide)

/-! ### Envelopes (13 R352) -/

/-- Sealing an image takes free values and counts a request of the DRBG. -/
theorem sealImage_only {kind : Nat} {p b : Bytes} (h : s.sealImage kind n x p = some (b, u)) : Only [.sec] s u := by
  unfold State.sealImage at h
  dsimp only at h
  split at h
  · simp at h
  · obtain ⟨-, rfl⟩ := Prod.mk.inj (Option.some.inj h)
    obtain ⟨f, hf⟩ := freeBytes_only s (ceilDiv 32 64)
    rw [State.random, hf]
    exact ⟨rfl, fun b hb => by cases b <;> simp_all [Block.Same]⟩

theorem only_emit (s : State) (o : Out) : Only [.out] s (s.emit o) := only_out s _

end Sys2Proof.Machine
end

section
/-! PROOFS. Variants (chapter 09), load and unload (R227, R228, R243, R250). -/

namespace Sys2Proof.Machine

open Sys2Proof Sys2Proof.Safety

variable {s u : State} {v : W64} {n : Nat} {x : Variant} {img p w : Bytes} {g : W32} {im : SliceImage}

/-! ### What waking leaves (15 R419) -/

@[simp] theorem wakeUp_contract (s : State) (d : Dom) : s.wakeUp.contract d = s.contract d := wakeUp_keeps (·.contract d) fun _ => rfl
@[simp] theorem wakeUp_pinnedIn (s : State) (d : Dom) (n : Nat) : s.wakeUp.pinnedIn d n = s.pinnedIn d n :=
  wakeUp_keeps (·.pinnedIn d n) fun _ => rfl
@[simp] theorem wakeUp_liveCount (s : State) (d : Dom) : s.wakeUp.liveCount d = s.liveCount d := wakeUp_keeps (·.liveCount d) fun _ => rfl
@[simp] theorem wakeUp_liveAll (s : State) : s.wakeUp.liveAll = s.liveAll := wakeUp_keeps _ fun _ => rfl
@[simp] theorem wakeUp_unseal (s : State) (kind n : Nat) (d : Dom) (l : Bytes) : s.wakeUp.unseal kind n d l = s.unseal kind n d l :=
  wakeUp_keeps (·.unseal kind n d l) fun _ => rfl
@[simp] theorem wakeUp_baseSegs (s : State) : s.wakeUp.baseSegs = s.baseSegs := wakeUp_keeps _ fun _ => rfl
@[simp] theorem wakeUp_runOk (s : State) (d : Dom) (first n need : Nat) : s.wakeUp.runOk d first n need = s.runOk d first n need :=
  wakeUp_keeps (·.runOk d first n need) fun _ => rfl
@[simp] theorem wakeUp_parkedOn (s : State) (n : Nat) : s.wakeUp.parkedOn n = s.parkedOn n := wakeUp_keeps (·.parkedOn n) fun _ => rfl
@[simp] theorem wakeUp_mayAccess (s : State) (r : Req) (a : Addr) (b : Bool) : s.wakeUp.mayAccess r a b = s.mayAccess r a b :=
  wakeUp_keeps (·.mayAccess r a b) fun _ => rfl
@[simp] theorem wakeUp_rawByte (s : State) (a : Addr) : s.wakeUp.rawByte a = s.rawByte a := wakeUp_keeps (·.rawByte a) fun _ => rfl

/-! ### The areas of a variant (R227, R229) -/

theorem le_ceilDiv_mul (k : Nat) : k ≤ ceilDiv k (2 ^ 23) * 2 ^ 23 := by
  unfold ceilDiv
  omega

/-- The pages of an area hold its weight copy. -/
theorem weightBytes_le_area (x : Variant) : x.weightBytes ≤ x.areaPages * 2 ^ 23 :=
  Nat.le_trans (Nat.le_add_right _ _) (le_ceilDiv_mul (x.weightBytes + 64 * x.dir.length))

/-- A byte of the weight copy in area 0 lies below the other areas. -/
theorem area_zero_lower {k i : Nat} (hk : k < x.weightBytes) (hi : 0 < i) : ((x.area 0).plus k).a < (x.area i).a := by
  have hle : x.weightBytes ≤ i * x.areaPages * 2 ^ 23 :=
    Nat.le_trans (weightBytes_le_area x) (Nat.mul_le_mul_right _ (Nat.le_mul_of_pos_left _ hi))
  show (x.first + 0 * x.areaPages) * 2 ^ 23 + k < (x.first + i * x.areaPages) * 2 ^ 23
  omega

/-- A byte of a weight copy lies below the working directory of its area. -/
theorem area_lower_dirAt {k : Nat} (i : Nat) (hk : k < x.weightBytes) : ((x.area i).plus k).a < (x.dirAt i).a :=
  Nat.add_lt_add_left hk _

/-- The domain may write the pages of a run that the unit takes. -/
theorem mayAccess_of_runOk {d : Dom} {first m need : Nat} (h : s.runOk d first m need = true) {a : Addr} (ha : a.dev = true)
    (h1 : first ≤ pageOf a.a) (h2 : pageOf a.a < first + m) : s.mayAccess (.dom d) a true = true := by
  simp only [State.runOk, State.pagesOf, Bool.and_eq_true, List.all_eq_true, List.mem_map, List.mem_range, beq_iff_eq] at h
  obtain ⟨⟨⟨-, hpages⟩, -⟩, -⟩ := h
  obtain ⟨hmode, hdom⟩ := hpages (s.page (pageOf a.a)) ⟨pageOf a.a - first, by omega, by rw [Nat.add_sub_cancel' h1]⟩
  rw [State.mayAccess, if_pos ha]
  simp [hmode, hdom, allowed]

theorem runOk_holds {d : Dom} {first m need : Nat} (h : s.runOk d first m need = true) : need ≤ m := by
  simp only [State.runOk, Bool.and_eq_true, decide_eq_true_eq] at h
  exact h.1.1.1.1

/-! ### A variant laid out in its run (R228) -/

theorem setVar_rawByte (s : State) (f : Var → Var) (a : Addr) : (s.setVar f).rawByte a = s.rawByte a := rfl

/-- What a write of the variant's domain and a change of the unit's registers keep, the layout of a variant keeps. -/
theorem layVariant_keeps {q : State → Prop} (hw : ∀ u a l, q u → q (u.rewrite (.dom x.domain) a l))
    (hv : ∀ u y, q u → q { u with var := y }) (h : q s) (w : Bytes) (st : Option Bytes) : q (s.layVariant n x w st) := by
  have either {c : Prop} [Decidable c] {a b : State} (ha : q a) (hb : q b) : q (if c then a else b) := by
    split
    · exact ha
    · exact hb
  have hserve := hw s (x.area 0) w h
  have htrain := either (c := x.trainable = true) (hw _ (x.area 2) w hserve) hserve
  have hstate := either (c := x.stateIn = true) (hw _ x.stateAt (st.getD (List.replicate x.stateBytes 0)) htrain) htrain
  exact hv _ _ (redir_keeps (fun u i l => hw u (x.dirAt i) l) (hv _ _ hstate))

theorem only_layVariant (s : State) (n : Nat) (x : Variant) (w : Bytes) (st : Option Bytes) :
    Only [.mem, .cl, .var] s (s.layVariant n x w st) :=
  layVariant_keeps (q := Only [.mem, .cl, .var] s)
    (fun _ a l h => only_trans h (only_mono (only_of_storesOnly ((StoresOnly.refl _).rewrite _ a l)) (by decide)))
    (fun u y h => only_step h (only_var u y) (by decide)) (only_refl _ s) w st

theorem layVariant_denied {a : Addr} (h : s.mayAccess (.dom x.domain) a true = false) (w : Bytes) (st : Option Bytes) :
    (s.layVariant n x w st).rawByte a = s.rawByte a :=
  (layVariant_keeps (q := fun u => u.mayAccess (.dom x.domain) a true = false ∧ u.rawByte a = s.rawByte a)
    (fun _ b l hu => ⟨(mayAccess_rewrite _ _ _ _ _ _).trans hu.1, (rawByte_rewrite_denied hu.1 b l).trans hu.2⟩) (fun _ _ hu => hu)
    ⟨h, rfl⟩ w st).2

/-- The layout of a variant without a state area. -/
theorem layVariant_eq (hs : x.stateIn = false) (w : Bytes) (st : Option Bytes) : s.layVariant n x w st =
    ((if x.trainable then (s.rewrite (.dom x.domain) (x.area 0) w).rewrite (.dom x.domain) (x.area 2) w
      else s.rewrite (.dom x.domain) (x.area 0) w).redir n x).setVar fun y =>
        { y with cmdState := .busy, reason := 0, loading := some n } := by
  unfold State.layVariant
  dsimp only
  rw [if_neg (show ¬ x.stateIn = true by rw [hs]; decide)]

theorem layVariant_var (hs : x.stateIn = false) (w : Bytes) (st : Option Bytes) : (s.layVariant n x w st).var =
    { (s.setVariant n x).var with cmdState := .busy, reason := 0, loading := some n } := by
  rw [layVariant_eq hs]
  generalize hu : (if x.trainable then (s.rewrite (.dom x.domain) (x.area 0) w).rewrite (.dom x.domain) (x.area 2) w
      else s.rewrite (.dom x.domain) (x.area 0) w) = u
  have hstores : StoresOnly s u := by
    rw [← hu]
    split
    · exact ((StoresOnly.refl s).rewrite _ _ _).rewrite _ _ _
    · exact (StoresOnly.refl s).rewrite _ _ _
  rw [State.setVar, ((hstores.setVariant n x).trans (redir_stores u n x)).var]

/-- The first area holds the weight copy: the training copy lies above it, and the working directory behind it. -/
theorem layVariant_weights (hs : x.stateIn = false) {d : ServGen} (hc : x.cur = some d) (hd : d.area = 0) (ho : x.old = none) {k : Nat}
    (hk : k < x.weightBytes) (hw : k < w.length) (hmay : s.mayAccess (.dom x.domain) ((x.area 0).plus k) true = true)
    (st : Option Bytes) : (s.layVariant n x w st).rawByte ((x.area 0).plus k) = w.getD k 0 := by
  have hfirst : (s.rewrite (.dom x.domain) (x.area 0) w).rawByte ((x.area 0).plus k) = w.getD k 0 := by
    rw [rawByte_rewrite_in _ _ _ (.inl rfl) _ hw, if_pos hmay]
  have hredir (u : State) : (u.redir n x).rawByte ((x.area 0).plus k) = u.rawByte ((x.area 0).plus k) := by
    have heq : u.redir n x = (u.setVariant n x).rewrite (.dom x.domain) (x.dirAt d.area) (x.workDir d) := by
      rw [State.redir, hc, ho]
      rfl
    rw [heq, hd, rawByte_rewrite_lower rfl (area_lower_dirAt 0 hk)]
    rfl
  rw [layVariant_eq hs, setVar_rawByte, hredir]
  split
  · rw [rawByte_rewrite_lower rfl (area_zero_lower hk (by decide)), hfirst]
  · exact hfirst

/-! ### VAR_LOAD (R227, R228) -/

/-- The record of a variant that a load without state lays down from an image of generation `g`. -/
def Variant.loadedFrom (x : Variant) (s : State) (im : SliceImage) (g : W32) : Variant :=
  { x with
    state := .loading, first := s.var.pFirst, pages := s.var.pCount, sfirst := 0, spages := 0, dir := im.dir
    weightBytes := im.weightBytes, stateBytes := im.stateBytes, stateIn := false, noState := true, pinned := false, old := none
    cur := some ⟨if g = 0 then 1 else g, 0, s.var.pFirst * 2 ^ 23 + im.weightBytes, false⟩, cacheParcels := [] }

/-- A load without state that every check lets through (R227). -/
structure Loads (s : State) (v : W64) (n : Nat) (x : Variant) (img : Bytes) (g : W32) (p : Bytes) (im : SliceImage) : Prop where
  asks : VarAsks s v 2 n
  noDomain : bitsOf v 43 32 = 0
  noState : bitOf v 31 = true
  dormant : x.state = .dormant
  room : s.liveCount x.domain < (s.contract x.domain).liveLimit
  roomAll : s.liveAll < 8192
  opens : s.unseal 0 n x.domain img = some (g, p)
  slice : sliceImage (s.baseSegs.map fun e => segEntry e.entry) n x p = some im
  unpinned : s.pinnedIn x.domain n = false
  run : s.runOk x.domain s.var.pFirst s.var.pCount (areaPages im.weightBytes im.dir.length * (if x.trainable then 3 else 1)) = true

theorem varLoad_lays (h : Loads s v n x img g p im) (hx : s.variant n = some x) (hw : initWeights s.baseSegs true im.dir im.weights = .ok w) :
    exec (.varLoad v img true) s = .next (s.wakeUp.layVariant n (x.loadedFrom s im g) w im.state) := by
  obtain ⟨hask, hd, hbit, hdorm, hroom, hall, hopen, hslice, hpin, hrun⟩ := h
  show Host.Outcome.next (varLoad v img true s) = _
  rw [varLoad, varOn_found hask hx]
  dsimp only
  rw [if_neg (not_not_intro hd), if_neg (not_not_intro hdorm),
    if_neg (by rw [wakeUp_contract, wakeUp_liveCount, wakeUp_liveAll]; omega), wakeUp_unseal, hopen]
  dsimp only
  rw [wakeUp_baseSegs, hslice]
  dsimp only
  rw [wakeUp_var, wakeUp_runOk, wakeUp_pinnedIn, hrun, hbit, hpin]
  simp only [Bool.not_true, Bool.and_false, Bool.false_eq_true, false_and, or_false, if_false, hw]
  rfl

theorem varLoad_weights (h : Loads s v n x img g p im) {k : Nat} (hk : k < im.weightBytes) (hw : k < w.length) :
    (s.wakeUp.layVariant n (x.loadedFrom s im g) w im.state).rawByte (((x.loadedFrom s im g).area 0).plus k) = w.getD k 0 := by
  refine layVariant_weights (by rfl) (by rfl) (by rfl) (by rfl) hk hw ?_ _
  rw [wakeUp_mayAccess]
  have hpages : areaPages im.weightBytes im.dir.length ≤ s.var.pCount :=
    Nat.le_trans (Nat.le_mul_of_pos_right _ (by split <;> decide)) (runOk_holds h.run)
  have harea : im.weightBytes ≤ areaPages im.weightBytes im.dir.length * 2 ^ 23 := weightBytes_le_area (x.loadedFrom s im g)
  have haddr : (((x.loadedFrom s im g).area 0).plus k).a = s.var.pFirst * 2 ^ 23 + k := by simp [Variant.area, Addr.plus, Variant.loadedFrom]
  generalize areaPages im.weightBytes im.dir.length = c at hpages harea
  refine mayAccess_of_runOk h.run rfl ?_ ?_ <;> rw [haddr, pageOf] <;> omega

theorem varLoad_other_domain (h : VarAsks s v 2 n) (hx : s.variant n = some x) (h0 : bitsOf v 43 32 ≠ 0)
    (hd : bitsOf v 43 32 ≠ x.domain.toNat) (img : Bytes) : exec (.varLoad v img true) s = .next (s.wakeUp.varRefuse 0x01) := by
  show Host.Outcome.next (varLoad v img true s) = _
  rw [varLoad, varOn_found h hx]
  dsimp only
  rw [if_pos h0, if_neg hd]

/-! ### The end of a load, and an unload (R227, R243) -/

theorem varLoadDone_live {vid : Vid} (hx : s.variant vid.toNat = some x) (hl : s.var.loading = some vid.toNat) (hs : x.state = .loading)
    (hp : x.pinned = false) : exec (.varLoadDone vid) s =
      .next (((s.setVar fun y => { y with loading := none }).setVariant vid.toNat { x with state := .live }).varDone) := by
  have hrec : (s.setVar fun y => { y with loading := none }).variant vid.toNat = some x := hx
  show Host.Outcome.next (varLoadDone vid s) = _
  rw [varLoadDone, if_neg (not_not_intro hl)]
  dsimp only
  rw [hrec]
  dsimp only
  rw [if_neg (not_not_intro hs), if_neg (by rw [hp]; decide)]

theorem varUnload_starts (h : VarAsks s v 3 n) (hx : s.variant n = some x) (hl : x.isLive = true) (hp : s.parkedOn n = false) :
    exec (.varUnload v) s = .next (s.wakeUp.setVariant n { x with state := .unloading, unloadTo := s.var.arg }).varDone := by
  show Host.Outcome.next (varUnload v s) = _
  rw [varUnload, varOn_found h hx, if_neg (by simp [hl, hp]), wakeUp_var]

/-- Arguments of an event of a variant (17 Table 17.3), by its ID. -/
def variantInfo (vid : Vid) (x : Variant) : EvInfo :=
  { aux := vid, domain := x.domain, arg := match x.cur with | some g => g.num.setWidth 64 | none => 0 }

/-- The image `b` of an unload has been written: the variant is Dormant, and its memory is given back. -/
structure ImageWritten (s t : State) (vid : Vid) (x : Variant) (b : Bytes) : Prop where
  variant : t.variant vid.toNat = some { x.emptied with state := .dormant }
  out : t.out = s.out ++ [.hostWrite x.unloadTo b]
  free : ∀ p, x.first ≤ p → p < x.first + x.pages → (t.page p).mode = .free
  jobs : t.jobs = s.jobs
  evt : t.evt = (s.raise Ev.varUnloaded (variantInfo vid x)).evt

/-- An unload's image is written and its memory given back once no job references the variant. -/
theorem varImageWrite_writes {vid : Vid} {b : Bytes} (hx : s.variant vid.toNat = some x) (hs : x.state = .unloading)
    (href : s.refsOn vid.toNat = []) (hu : s.up = true) (he : s.sec.entropyOk = true)
    (hseal : s.sealImage 0 vid.toNat x (s.sliceBytes vid.toNat x) = some (b, u)) :
    ∃ t, exec (.varImageWrite vid) s = .next t ∧ ImageWritten s t vid x b := by
  have hsec := sealImage_only hseal
  have hrec : (u.emit (.hostWrite x.unloadTo b)).variant vid.toNat = some x :=
    (variant_congr (congrArg Var.reg (hsec.2 .var (by decide))) _).trans hx
  have hback := freeVariant_givesBack hrec
  generalize hv : (u.emit (.hostWrite x.unloadTo b)).freeVariant vid.toNat x = t at hback
  have hexec : exec (.varImageWrite vid) s =
      .next ((t.setVariant vid.toNat { x.emptied with state := .dormant }).raise Ev.varUnloaded (variantInfo vid x)) := by
    show Host.Outcome.next (varImageWrite vid s) = _
    rw [varImageWrite, hx]
    dsimp only
    rw [if_neg (by simp [hs, href, hu, he]), hseal]
    dsimp only
    rw [hv, modVariant_found hback.variant]
    rfl
  have hout : t.out = s.out ++ [.hostWrite x.unloadTo b] := by rw [hback.only.2 .out (by decide), State.emit, hsec.2 .out (by decide)]
  have hset : Only [.mem, .cl, .var, .sec, .out] s (t.setVariant vid.toNat { x.emptied with state := .dormant }) :=
    only_trans (only_trans (only_trans (only_mono hsec (by decide)) (only_mono (only_emit u _) (by decide)))
      (only_mono hback.only (by decide))) (only_mono (only_setVariant t _ _) (by decide))
  generalize hy : t.setVariant vid.toNat { x.emptied with state := .dormant } = w at hexec hset
  refine ⟨_, hexec, ?_, ?_, fun p h1 h2 => ?_, ?_, ?_⟩
  · rw [variant_congr (congrArg Var.reg (raise_var w _ _)), ← hy, variant_setVariant, if_pos rfl]
  · rw [raise_out, ← hy]
    exact hout
  · rw [page_congr (s := t) (by rw [raise_mem, ← hy]; rfl)]
    exact hback.free p h1 h2
  · exact ((only_raise w _ _).2 .jobs (by decide)).trans (hset.2 .jobs (by decide))
  · exact raise_evt_of_only hset (by decide) (by decide) (by decide) _ _

/-- Settles O38: a load writes through the domain's own rights alone, and an unload gives the run of its pages back when the image has
been written. -/
theorem variantLoadUnloadResult : Obligations.VariantLoadUnloadResult := by
  intro s v vid x n hx
  refine ⟨fun img g p im w hask hd hbit hdorm hroom hall hopen hslice hpin hrun hw => ?load,
    fun img h h0 hd => varLoad_other_domain h hx h0 hd img, fun hl hs hp => ?done, fun h hl hp => ?unload,
    fun b u hs href hu he hseal => ?image⟩
  case load =>
    have hload : Loads s v n x img g p im := ⟨hask, hd, hbit, hdorm, hroom, hall, hopen, hslice, hpin, hrun⟩
    generalize ht : s.wakeUp.layVariant n (x.loadedFrom s im g) w im.state = t
    have hvar : t.var = { (s.wakeUp.setVariant n (x.loadedFrom s im g)).var with cmdState := .busy, reason := 0, loading := some n } :=
      ht ▸ layVariant_var rfl w im.state
    have honly : Only [.mem, .cl, .var] s.wakeUp t := ht ▸ only_layVariant _ _ _ _ _
    have hrec (k : Nat) : t.variant k = if k = n then some (x.loadedFrom s im g) else s.variant k :=
      (variant_congr (s := s.wakeUp.setVariant n (x.loadedFrom s im g)) (by rw [hvar]) k).trans
        ((variant_setVariant _ _ _ _).trans (by rw [wakeUp_variant]))
    refine ⟨t, x.loadedFrom s im g, ht ▸ varLoad_lays hload hx hw, (hrec n).trans (if_pos rfl), rfl, rfl, rfl, rfl, rfl, rfl,
      by rw [hvar], by rw [hvar], fun k hk => (hrec k).trans (if_neg hk), ?_, ?_, ?_, ?_⟩
    · exact (honly.2 .evt (by decide)).trans (wakeUp_evt s)
    · exact (honly.2 .jobs (by decide)).trans ((only_wakeUp s).2 .jobs (by decide))
    · exact fun k hk hkw => ht ▸ varLoad_weights hload hk hkw
    · intro a _ hdenied
      exact ht ▸ (layVariant_denied (x := x.loadedFrom s im g) ((wakeUp_mayAccess _ _ _ _).trans hdenied) w _).trans (wakeUp_rawByte s a)
  case done =>
    refine ⟨_, varLoadDone_live hx hl hs hp, ?_, (variant_setVariant _ _ _ _).trans (if_pos rfl), rfl, rfl⟩
    exact only_trans (only_trans (only_setVar _ _) (only_setVariant _ _ _)) (only_setVar _ _)
  case unload =>
    refine ⟨_, varUnload_starts h hx hl hp, ?_, (variant_setVariant _ _ _ _).trans (if_pos rfl), rfl⟩
    exact only_trans (only_trans (only_mono (only_wakeUp s) (by decide)) (only_mono (only_setVariant _ _ _) (by decide)))
      (only_mono (only_setVar _ _) (by decide))
  case image =>
    obtain ⟨t, hexec, hw⟩ := varImageWrite_writes hx hs href hu he hseal
    exact ⟨t, { x.emptied with state := .dormant }, hexec, hw.variant, rfl, rfl, rfl, rfl, rfl, rfl,
      hw.out ▸ List.mem_append_right _ (List.mem_singleton.mpr rfl), hw.free, hw.jobs, hw.evt⟩

end Sys2Proof.Machine
end

section
/-! PROOFS. Variants (chapter 09), the variant cache: evictions, fills and the copies of pinned variants (R238 to R242, 14 R382). -/

namespace Sys2Proof.Machine

open Sys2Proof Sys2Proof.Safety

variable {s t u : State} {v : W64} {n : Nat} {vid : Vid} {x : Variant} {g : ServGen}

@[simp] theorem wakeUp_isPinned (s : State) (n : Nat) (x : Variant) : s.wakeUp.isPinned n x = s.isPinned n x :=
  wakeUp_keeps (·.isPinned n x) fun _ => rfl

/-! ### Counters of the unit (17 R446) -/

theorem bump_fst_below {k : W64} (h : k.toNat + 1 < 2 ^ 64 - 1) : (bump k).1 = k + 1 := by
  obtain ⟨hval, -⟩ := bump_below h
  refine BitVec.eq_of_toNat_eq (hval.trans ?_)
  rw [BitVec.toNat_add]
  exact (Nat.mod_eq_of_lt (by simp; omega)).symm

theorem countEviction_below (h : s.var.evictions.toNat + 1 < 2 ^ 64 - 1) :
    s.countEviction = s.setVar fun y => { y with evictions := s.var.evictions + 1 } := by
  unfold State.countEviction
  dsimp only
  rw [(bump_below h).2, bump_fst_below h]
  simp only [Bool.or_false]
  rfl

/-- The ID of an event's arguments is the variant's. -/
theorem varInfo_vid (vid : Vid) (x : Variant) : varInfo vid.toNat x = variantInfo vid x := by
  rw [varInfo, BitVec.ofNat_toNat, BitVec.setWidth_eq]
  rfl

/-! ### VAR_EVICT (R242) -/

theorem varEvict_nulls (h : VarAsks s v 4 n) (hx : s.variant n = some x) (hp : s.isPinned n x = false) (hs : x.state = .hot) :
    exec (.varEvict v) s = .next (s.wakeUp.nullSpd n x).varDone := by
  show Host.Outcome.next (varEvict v s) = _
  rw [varEvict, varOn_found h hx, if_neg (by simp [hp, hs])]

theorem varEvict_pinned (h : VarAsks s v 4 n) (hx : s.variant n = some x) (hp : s.isPinned n x = true) :
    exec (.varEvict v) s = .next (s.wakeUp.varRefuse 0x09) := by
  show Host.Outcome.next (varEvict v s) = _
  rw [varEvict, varOn_found h hx, if_pos (by simp [hp])]

theorem nulled_cur_spd (x : Variant) : ∀ g, x.nulled.cur = some g → g.spd = false := by
  intro g hg
  obtain ⟨g₀, -, rfl⟩ := Option.map_eq_some_iff.mp hg
  rfl

/-! ### The count of Hot variants (R223) -/

theorem merase_sublist {α : Type} (i : Nat) (m : SMap α) : (merase i m).Sublist m := by
  induction m with
  | nil => exact List.Sublist.slnil
  | cons e r ih =>
    rw [merase]
    split
    · exact ih.cons e
    · exact ih.cons_cons e

theorem minsert_perm {α : Type} (i : Nat) (y : α) (m : SMap α) : (minsert i y m).Perm ((i, y) :: m) := by
  induction m with
  | nil => exact .refl _
  | cons e r ih =>
    rw [minsert]
    split
    · exact .refl _
    · exact (ih.cons e).trans (List.Perm.swap _ _ _)

/-- An entry that a lookup finds, and the entries of the other keys, are among the entries. -/
theorem found_merase_subperm {α : Type} {i : Nat} {y : α} {m : SMap α} (h : m.find? (·.1 == i) = some (i, y)) :
    ((i, y) :: merase i m).Subperm m := by
  induction m with
  | nil => simp at h
  | cons e r ih =>
    rw [merase]
    by_cases he : e.1 = i
    · rw [List.find?_cons_of_pos (by simp [he])] at h
      rw [if_pos he, Option.some.inj h]
      exact ((merase_sublist i r).cons_cons _).subperm
    · rw [List.find?_cons_of_neg (by simp [he])] at h
      rw [if_neg he]
      exact (List.Perm.swap _ _ _).subperm.trans ((List.subperm_cons e).mpr (ih h))

/-- A record set to what it was adds no Hot variant. -/
theorem hotCount_setVariant_le (hx : s.variant n = some x) : (s.setVariant n x).hotCount ≤ s.hotCount := by
  obtain ⟨e, he, rfl⟩ := Option.map_eq_some_iff.mp hx
  have hkey : e = (n, e.2) := Prod.ext (by simpa using List.find?_some he) rfl
  have hsub := (minsert_perm n e.2 (merase n s.var.reg)).subperm.trans (found_merase_subperm (he.trans (congrArg some hkey)))
  exact (hsub.filter _).length_le

/-! ### Copies whose references have cleared (R241, R242) -/

theorem freeCopies_none (hx : s.variant n = some x) (ho : x.oldCopies = []) : s.freeCopies n x = s.setVariant n x := by
  have hsame : ({ x with oldCopies := [] } : Variant) = x := by rw [← ho]
  unfold State.freeCopies
  dsimp only
  rw [modVariant_found hx, ho, List.filter_nil, List.filter_nil, hsame]
  rfl

/-- An EVICT_RELEASE with no older copy: the copy stays while it is held, and otherwise a pinned variant takes its parcels again. -/
theorem evictRelease_cases (hx : s.variant vid.toNat = some x) (he : x.evicting = true) (ho : x.oldCopies = []) :
    exec (.evictRelease vid) s = .next (
      let u := s.setVariant vid.toNat x
      if s.cacheHeld vid.toNat x.copyNo then u
      else if s.isPinned vid.toNat x ∧ x.isLive ∧ u.hotCount ≤ 512 then u.fillCache vid.toNat x else u.releaseCache vid.toNat x) := by
  have hrec : (s.setVariant vid.toNat x).variant vid.toNat = some x := by rw [variant_setVariant, if_pos rfl]
  show Host.Outcome.next (evictRelease vid s) = _
  rw [evictRelease, hx]
  dsimp only
  rw [freeCopies_none hx ho, hrec]
  dsimp only
  refine congrArg Host.Outcome.next ?_
  show (if (!x.evicting) = true ∨ s.cacheHeld vid.toNat x.copyNo = true then _ else _) = _
  simp only [he, Bool.not_true, Bool.false_eq_true, false_or]
  rfl

theorem parcel_foldS_retag_free (l : List (CId × Nat)) (s : State) {e : CId × Nat} (he : e ∈ l) :
    ((foldS s l fun s e => s.retag e.1.val e.2 {}).clu e.1.val).parcel e.2 = {} := by
  have h := foldS_part (part := fun s => (s.clu e.1.val).parcel e.2) (hit := fun q : CId × Nat => q = e) (g := fun _ => {})
    (fun _ => rfl) (f := fun s q => s.retag q.1.val q.2 {}) (fun s q => by
      by_cases hc : e.1.val = q.1.val
      · rw [hc, parcel_retag]
        exact if_congr ⟨fun h => Prod.ext (Fin.ext hc.symm) h.symm, fun h => h ▸ rfl⟩ rfl rfl
      · rw [if_neg (fun h => hc (congrArg (·.1.val) h.symm)), State.retag, State.clu_modClu, if_neg hc]) l s
  rwa [if_pos ⟨e, he, rfl⟩] at h

/-- The spd pointers of a variant nulled, and the parcels of its copy freed. -/
def State.freeParcelsOf (s : State) (n : Nat) (x : Variant) : State :=
  foldS (s.nullSpd n x) x.cacheParcels fun s e => s.retag e.1.val e.2 {}

/-- The record of a variant whose copy has been evicted. -/
def Variant.uncached (x : Variant) : Variant := { x.nulled with cacheParcels := [], filling := false, evicting := false }

/-- The parcels of a copy have returned to free, and the eviction is counted and told. -/
structure CopyReleased (s t : State) (n : Nat) (x : Variant) : Prop where
  variant : t.variant n = some x.uncached
  parcels : ∀ e ∈ x.cacheParcels, (t.clu e.1.val).parcel e.2 = {}
  count : t.var.evictions = s.var.evictions + 1
  evt : t.evt = (s.raise Ev.varEvicted (varInfo n x)).evt

theorem releaseCache_releases (s : State) (n : Nat) (x : Variant) (h : s.var.evictions.toNat + 1 < 2 ^ 64 - 1) :
    CopyReleased s (s.releaseCache n x) n x := by
  have hstores : StoresOnly (s.setVariant n x.nulled) (s.freeParcelsOf n x) := (redir_stores s n x.nulled).retagFree x.cacheParcels
  have hparcels : ∀ e ∈ x.cacheParcels, ((s.freeParcelsOf n x).clu e.1.val).parcel e.2 = {} := fun e he => parcel_foldS_retag_free _ _ he
  have heq : s.releaseCache n x = ((s.freeParcelsOf n x).modVariant n fun y =>
    { y with cacheParcels := [], filling := false, evicting := false }).evicted n x := rfl
  generalize s.freeParcelsOf n x = w at hstores hparcels heq
  have hvar : (w.setVariant n x.uncached).var.evictions = s.var.evictions := by
    show w.var.evictions = _
    rw [hstores.var]
    rfl
  have hcounted : s.releaseCache n x =
      ((w.setVariant n x.uncached).setVar fun y => { y with evictions := s.var.evictions + 1 }).raise Ev.varEvicted (varInfo n x) := by
    rw [heq, modVariant_found ((hstores.recorded n).trans (if_pos rfl)), State.evicted]
    exact congrArg (·.raise Ev.varEvicted (varInfo n x)) ((countEviction_below (hvar ▸ h)).trans (by rw [hvar]))
  have hset : Only [.mem, .cl, .var] s w :=
    only_trans (only_mono (only_setVariant s n _) (by decide)) (only_mono (only_of_storesOnly hstores) (by decide))
  have honly := only_step (only_step hset (only_setVariant w n x.uncached) (by decide))
    (only_setVar _ fun y => { y with evictions := s.var.evictions + 1 }) (by decide)
  rw [hcounted]
  refine ⟨?_, fun e he => ?_, ?_, raise_evt_of_only honly (by decide) (by decide) (by decide) _ _⟩
  · rw [variant_congr (congrArg Var.reg (raise_var _ _ _))]
    exact (variant_setVariant _ _ _ _).trans (if_pos rfl)
  · rw [raise_clu]
    exact hparcels e he
  · rw [raise_var]
    rfl

theorem evictRelease_releases (hx : s.variant vid.toNat = some x) (he : x.evicting = true) (ho : x.oldCopies = [])
    (hh : s.cacheHeld vid.toNat x.copyNo = false) (hp : s.isPinned vid.toNat x = true → x.isLive = false)
    (hc : s.var.evictions.toNat + 1 < 2 ^ 64 - 1) :
    ∃ t, exec (.evictRelease vid) s = .next t ∧ CopyReleased s t vid.toNat x := by
  have hgo : ¬ (s.isPinned vid.toNat x = true ∧ x.isLive = true ∧ (s.setVariant vid.toNat x).hotCount ≤ 512) :=
    fun h => Bool.false_ne_true ((hp h.1).symm.trans h.2.1)
  obtain ⟨hvar, hparcels, hcount, hevt⟩ := releaseCache_releases (s.setVariant vid.toNat x) vid.toNat x hc
  refine ⟨_, evictRelease_cases hx he ho, ?_⟩
  dsimp only
  rw [if_neg (by rw [hh]; decide), if_neg hgo]
  exact ⟨hvar, hparcels, hcount, hevt.trans (raise_evt_of_only (only_setVariant s _ x) (by decide) (by decide) (by decide) _ _)⟩

theorem evictRelease_refills (hx : s.variant vid.toNat = some x) (he : x.evicting = true) (ho : x.oldCopies = [])
    (hh : s.cacheHeld vid.toNat x.copyNo = false) (hp : s.isPinned vid.toNat x = true) (hl : x.isLive = true) (hhot : s.hotCount ≤ 512)
    (hg : x.cur = some g) : ∃ t, exec (.evictRelease vid) s = .next t ∧
      StoresOnly ((s.setVariant vid.toNat x).setVariant vid.toNat (x.filled g)) t := by
  refine ⟨_, evictRelease_cases hx he ho, ?_⟩
  dsimp only
  rw [if_neg (by rw [hh]; decide), if_pos ⟨hp, hl, Nat.le_trans (hotCount_setVariant_le hx) hhot⟩]
  exact fillCache_stores hg

theorem evictRelease_held (hx : s.variant vid.toNat = some x) (he : x.evicting = true) (ho : x.oldCopies = [])
    (hh : s.cacheHeld vid.toNat x.copyNo = true) : exec (.evictRelease vid) s = .next (s.setVariant vid.toNat x) :=
  (evictRelease_cases hx he ho).trans (congrArg Host.Outcome.next (if_pos hh))

/-! ### CACHE_FILL_DONE (R240) -/

theorem cacheFillDone_fills (hx : s.variant vid.toNat = some x) (hf : x.filling = true) (hs : x.state = .live) (hg : x.cur = some g)
    (hc : s.var.fills.toNat + 1 < 2 ^ 64 - 1) : ∃ w, exec (.cacheFillDone vid) s =
      .next (w.setVar fun y => { y with fills := s.var.fills + 1 }) ∧ StoresOnly (s.setVariant vid.toNat (x.filled g)) w := by
  have hstores := fillCache_stores (s := s) (n := vid.toNat) hg
  have hvar : (s.fillCache vid.toNat x).var.fills = s.var.fills := by
    rw [hstores.var]
    rfl
  refine ⟨_, ?_, hstores⟩
  show Host.Outcome.next (cacheFillDone vid s) = _
  rw [cacheFillDone, hx]
  dsimp only
  rw [if_neg (by simp [hf, hs]), hvar, (bump_below hc).2, bump_fst_below hc]
  simp only [Bool.or_false]
  rfl

end Sys2Proof.Machine
end

section
/-! PROOFS. Variants (chapter 09), state on its own: how it leaves and enters main memory (R244), and the statement with the cache's. -/

namespace Sys2Proof.Machine

open Sys2Proof Sys2Proof.Safety

variable {s u : State} {v : W64} {n : Nat} {vid : Vid} {x : Variant} {g : ServGen} {b p img : Bytes}

@[simp] theorem wakeUp_trainRefs (s : State) (n : Nat) : s.wakeUp.trainRefs n = s.trainRefs n := wakeUp_keeps (·.trainRefs n) fun _ => rfl

/-! ### The state leaves (R244) -/

theorem varStateOut_starts (h : VarAsks s v 8 n) (hx : s.variant n = some x) (ht : x.trainable = true) (hl : x.isLive = true)
    (hi : x.stateIn = true) (ho : x.stateOut = false) :
    exec (.varStateOut v) s = .next (s.wakeUp.setVariant n { x with stateOut := true, unloadTo := s.var.arg }).varDone := by
  show Host.Outcome.next (varStateOut v s) = _
  rw [varStateOut, varOn_found h hx, if_neg (by simp [ht, hl, hi, ho]), wakeUp_var]

/-- The record of a variant whose state has left main memory. -/
def Variant.stateless (x : Variant) : Variant := { x with stateOut := false, stateIn := false, sfirst := 0, spages := 0 }

/-- The image `b` of a state has been written, and its pages are free. -/
structure StateWritten (s t : State) (n : Nat) (x : Variant) (b : Bytes) : Prop where
  variant : t.variant n = some x.stateless
  out : t.out = s.out ++ [.hostWrite x.unloadTo b]
  free : ∀ p, x.sfirst ≤ p → p < x.sfirst + x.spages → (t.page p).mode = .free

theorem stateOutWrite_writes (hx : s.variant vid.toNat = some x) (ho : x.stateOut = true) (hl : x.isLive = true)
    (href : s.trainRefs vid.toNat = false) (hu : s.up = true) (he : s.sec.entropyOk = true)
    (hseal : s.sealImage 1 vid.toNat x (s.read (.dom x.domain) x.stateAt x.stateBytes) = some (b, u)) :
    ∃ t, exec (.stateOutWrite vid) s = .next t ∧ StateWritten s t vid.toNat x b := by
  obtain ⟨hscrub, hfree⟩ := scrubPages_frees (u.emit (.hostWrite x.unloadTo b)) x.sfirst x.spages false
  have hexec : exec (.stateOutWrite vid) s =
      .next (((u.emit (.hostWrite x.unloadTo b)).scrubPages x.sfirst x.spages false).redir vid.toNat x.stateless) := by
    show Host.Outcome.next (stateOutWrite vid s) = _
    rw [stateOutWrite, hx]
    dsimp only
    rw [if_neg (by simp [ho, hl, href, hu, he]), hseal]
    rfl
  generalize (u.emit (.hostWrite x.unloadTo b)).scrubPages x.sfirst x.spages false = w at hscrub hfree hexec
  have hstores := redir_stores w vid.toNat x.stateless
  refine ⟨_, hexec, (hstores.recorded _).trans (if_pos rfl), ?_, fun p h1 h2 => ?_⟩
  · rw [(only_of_storesOnly hstores).2 .out (by decide), State.setVariant_out, (only_of_storesOnly hscrub).2 .out (by decide), State.emit,
      (sealImage_only hseal).2 .out (by decide)]
  · rw [redir_page]
    exact hfree p h1 h2

/-! ### The state enters (R244) -/

/-- The record of a variant whose state `p` waits for its pages, and of one whose state has entered them. -/
def Variant.stateWaits (x : Variant) (s : State) (p : Bytes) : Variant :=
  { x with sfirst := s.var.sFirst, spages := s.var.sCount, stateWait := some p }

def Variant.stateEntered (x : Variant) : Variant := { x with stateWait := none, stateIn := true }

/-- A state area that waits while a training job references its variant, and one that enters. -/
theorem stateInTry_held (hx : s.variant n = some x) (hw : x.stateWait = some p) (href : s.trainRefs n = true) : s.stateInTry n = s := by
  rw [State.stateInTry, hx]
  dsimp only
  rw [hw]
  dsimp only
  rw [if_pos (.inl href)]

theorem stateInTry_enters (hx : s.variant n = some x) (hw : x.stateWait = some p) (href : s.trainRefs n = false) (hl : x.isLive = true) :
    s.stateInTry n = (s.rewrite (.dom x.domain) x.stateAt p).redir n x.stateEntered := by
  rw [State.stateInTry, hx]
  dsimp only
  rw [hw]
  dsimp only
  rw [if_neg (by simp [href, hl])]
  rfl

theorem varStateIn_tries {k : W32} (h : VarAsks s v 9 n) (hx : s.variant n = some x) (ht : x.trainable = true) (hl : x.isLive = true)
    (hi : x.stateIn = false) (hw : x.stateWait = none) (hopen : s.unseal 1 n x.domain img = some (k, p)) (hp : p.length = x.stateBytes)
    (hrun : s.runOk x.domain s.var.sFirst s.var.sCount (ceilDiv x.stateBytes (2 ^ 23)) = true) :
    exec (.varStateIn v img) s = .next ((s.wakeUp.setVariant n (x.stateWaits s p)).stateInTry n).varDone := by
  show Host.Outcome.next (varStateIn v img s) = _
  rw [varStateIn, varOn_found h hx, if_neg (by simp [ht, hl, hi, hw]), wakeUp_unseal, hopen]
  dsimp only
  rw [if_neg (not_not_intro hp), wakeUp_var, wakeUp_runOk, hrun, if_neg (by decide)]
  rfl

/-- The state that a VAR_STATE_IN brings is in main memory unless a training job references the variant; then it waits. -/
theorem stateInTry_variant (hl : x.isLive = true) : ((s.wakeUp.setVariant n (x.stateWaits s p)).stateInTry n).variant n =
    some (if s.trainRefs n then x.stateWaits s p else (x.stateWaits s p).stateEntered) := by
  have hrec : (s.wakeUp.setVariant n (x.stateWaits s p)).variant n = some (x.stateWaits s p) := by rw [variant_setVariant, if_pos rfl]
  have href : (s.wakeUp.setVariant n (x.stateWaits s p)).trainRefs n = s.trainRefs n := wakeUp_trainRefs s n
  cases hr : s.trainRefs n with
  | true => rw [stateInTry_held hrec rfl (href.trans hr), hrec]; rfl
  | false =>
    rw [stateInTry_enters hrec rfl (href.trans hr) hl]
    exact ((redir_stores _ n _).recorded n).trans (if_pos rfl)

/-- Settles O39: a copy that nothing holds is released, or filled again where its variant is pinned; the state leaves and enters with the
working directories written anew. -/
theorem variantCacheAndStateResult : Obligations.VariantCacheAndStateResult := by
  intro s v vid x n hx
  refine ⟨fun h hp hs => ?evict, fun h hp => varEvict_pinned h hx hp, fun he ho hh hp hc => ?release,
    fun g he ho hh hp hl hhot hg => ?refill, fun ho he hh => ?held, fun g hf hs hg hc => ?fill, fun ht hl => ⟨fun h hi ho => ?stateOut,
      fun b u ho href hu hent hseal => ?written, fun img k p h hi hw hopen hp hrun => ?stateIn⟩⟩
  case evict =>
    have hrec : (s.wakeUp.nullSpd n x).variant n = some x.nulled := ((redir_stores _ n x.nulled).recorded n).trans (if_pos rfl)
    exact ⟨_, x.nulled, varEvict_nulls h hx hp hs, hrec, if_pos hs, rfl, nulled_cur_spd x, rfl, rfl,
      (redir_cl s.wakeUp n x.nulled).trans (wakeUp_cl s)⟩
  case release =>
    obtain ⟨t, hexec, hr⟩ := evictRelease_releases hx he ho hh hp hc
    exact ⟨t, _, hexec, hr.variant, rfl, rfl, hr.parcels, hr.count,
      hr.evt.trans (congrArg (fun i => (s.raise Ev.varEvicted i).evt) (varInfo_vid vid x))⟩
  case refill =>
    obtain ⟨t, hexec, hstores⟩ := evictRelease_refills hx he ho hh hp hl hhot hg
    exact ⟨t, x.filled g, hexec, (hstores.recorded n).trans (if_pos rfl), rfl, rfl, rfl, rfl, by rw [hstores.var]; rfl,
      (only_of_storesOnly hstores).2 .evt (by decide)⟩
  case held =>
    exact ⟨_, evictRelease_held hx he ho hh, (variant_setVariant _ _ _ _).trans (if_pos rfl), rfl, rfl, rfl⟩
  case fill =>
    obtain ⟨w, hexec, hstores⟩ := cacheFillDone_fills hx hf hs hg hc
    exact ⟨_, x.filled g, hexec, (hstores.recorded n).trans (if_pos rfl), rfl, rfl, rfl, rfl, rfl,
      (only_of_storesOnly hstores).2 .evt (by decide)⟩
  case stateOut =>
    refine ⟨_, varStateOut_starts h hx ht hl hi ho, ?_, (variant_setVariant _ _ _ _).trans (if_pos rfl), rfl⟩
    exact only_trans (only_trans (only_mono (only_wakeUp s) (by decide)) (only_mono (only_setVariant _ _ _) (by decide)))
      (only_mono (only_setVar _ _) (by decide))
  case written =>
    obtain ⟨t, hexec, hw⟩ := stateOutWrite_writes hx ho hl href hu hent hseal
    exact ⟨t, x.stateless, hexec, hw.variant, rfl, rfl, rfl, hw.out ▸ List.mem_append_right _ (List.mem_singleton.mpr rfl), hw.free⟩
  case stateIn =>
    refine ⟨_, _, varStateIn_tries h hx ht hl hi hw hopen hp hrun, stateInTry_variant hl, ?_⟩
    cases hr : s.trainRefs n with
    | true => exact ⟨rfl, rfl, rfl, hi, rfl⟩
    | false => exact ⟨rfl, rfl, rfl, rfl, rfl⟩

end Sys2Proof.Machine
end

section
/-! PROOFS. Variants (chapter 09), publish: what the commit of a Hot variant keeps of the generation before. -/

namespace Sys2Proof.Machine

open Sys2Proof Sys2Proof.Safety

/-! ### The publish of a variant that is Hot

A commit turns the generation before into one without cached copies: its spd pointers are nulled, since the copy is to be evicted (R230,
R242). What is kept is therefore not the record that was current, when that one had its spd pointers set. -/

namespace HotPublish

/-- Generation 1, in serving area A, its spd pointers set. -/
def gen : ServGen := ⟨1, 0, 64, true⟩

/-- A trainable variant of domain 5 that is Hot, with one tensor of 64 B; its training weights are copied for the publish. -/
def variant : Variant :=
  { domain := 5, trainable := true, cacheable := true, rule := 0, modelId := 0, baseMask := 0, state := .hot, pages := 3, weightBytes := 64
    dir := [{ offset := 0, stateOff := noStateOff, layer := 0, kind := 5, slot := 0, baseSeg := 0xFFFF, init := 0, spdCluster := 0
              rows := 1, cols := 1, raw := [] }]
    cur := some gen, cacheParcels := [(0, 2047)], copied := true }

/-- A serving job of domain 5 that holds generation 1 of variant 9. -/
def job : Job :=
  { tag := 0x11, fn := 0, q := 0, sqIndex := 0, phase := .running, admitted := true
    bindings := [{ vid := 9, first := 0, count := 1, gen := 1, dir := 64, spd := true, mask := 0 }]
    d := { jobId := 9, domain := 5, mode := 0, semFirst := 0, semCount := 0, barriers := 0, origin := 1, memberCount := 0, vid := 9
           est := 0, collCount := 0, evidCount := 0, clusters := 1, streams := 0, members := 0, barDesc := 0, admRecord := 0
           requestTable := 0, training := 0, collTable := 0, evidList := 0, inList := 0, outList := 0 } }

/-- Node 1, ready, with the variant's pages and cache parcel, and node 2 at port 0. -/
def state : State :=
  { State.reset with
    rst := { held := .none }, glb := { ready := true }, jobs := { list := [job] }, var := { reg := [(9, variant)] }
    mem := { usablePages := 1024, pages := [(0, ⟨.priv, 5, false⟩), (1, ⟨.priv, 5, false⟩), (2, ⟨.priv, 5, false⟩)] }
    cl := [(0, { parcels := [(2047, { mode := .priv, cache := true, domain := 5 })] })]
    lnk := { node := 1, coordinator := 2, members := [1, 2], member := true
             ports := [(0, { state := .up, enabled := true, peer := 2, granted := [true, true, true, true] })] } }

/-- The coordinator's PUBLISH_COMMIT, from node 2. -/
def commit : Msg := { port := 0, src := 2, dst := 1, tag := 0, keyId := 0, vc := 0, verifies := true }

theorem commit_heard : Heard state commit [0] := by
  refine ⟨?_, ?_, ?_, ?_, ?_⟩ <;> decide +kernel

/-- The job keeps generation 1 alive: the record of the generation before has its number and area, and null spd pointers. -/
theorem commit_nulls_spd_of_old :
    ((publishCommit commit 9 2 state).variant 9).map (·.old) = some (some { gen with spd := false }) := by decide +kernel

end HotPublish

/-- Refutes O40: a PUBLISH_COMMIT for a Hot variant that a job references keeps the generation before with its spd pointers nulled, and
not the record that was current, as the statement has it; in `HotPublish.state` the current generation has them set. -/
theorem not_publishAndRemovalResult : ¬ Obligations.PublishAndRemovalResult := by
  rintro ⟨h, -⟩
  obtain ⟨-, -, -, -, hcommit, -⟩ := h HotPublish.state 0 9 HotPublish.variant (by rfl) (by rfl) (by rfl)
  obtain ⟨t, y, ht, hy, -, -, -, hkept, -⟩ := hcommit HotPublish.commit 2 HotPublish.commit_heard (by rfl) (by rfl)
  obtain rfl : publishCommit HotPublish.commit 9 2 HotPublish.state = t := Host.Outcome.next.inj ht
  have hold : y.old = some HotPublish.gen := hkept HotPublish.gen (by rfl) (by decide +kernel)
  have hnull : y.old = some { HotPublish.gen with spd := false } := by
    have h := HotPublish.commit_nulls_spd_of_old
    rw [show (publishCommit HotPublish.commit 9 2 HotPublish.state).variant 9 = some y from hy] at h
    exact Option.some.inj h
  rw [hold] at hnull
  exact absurd hnull (by decide)

end Sys2Proof.Machine
end

section
/-! PROOFS. Training (chapter 10), what the lanes' stores, signals and job stops leave: the contexts and everything else outside the memories,
the jobs, the events, the barrier objects and the outbox. -/

namespace Sys2Proof.Machine

open Sys2Proof Sys2Proof.Safety

variable {s t u : State} {r : Req}

/-! ### The blocks that the lanes' work reaches -/

/-- The blocks that a store, a signal or a job's stop changes at most. -/
def laneBlocks : List Block := [.mem, .cl, .jobs, .evt, .bars, .out]

theorem only_foldS {α : Type} {l : List Block} {f : State → α → State} (hf : ∀ s a, Only l s (f s a)) (xs : List α) (s : State) :
    Only l s (foldS s xs f) := foldS_keeps (p := Only l s) f (fun _ a h => only_trans h (hf _ a)) xs (only_refl l s)

theorem only_upd (s : State) (m : SMap Ctx) : Only [.upd] s { s with upd := m } :=
  ⟨rfl, fun b hb => by cases b <;> simp_all [Block.Same]⟩

theorem only_setCtx (s : State) (k : Nat) (y : Ctx) : Only [.upd] s (s.setCtx k y) := only_upd s _
theorem only_modCtx (s : State) (k : Nat) (f : Ctx → Ctx) : Only [.upd] s (s.modCtx k f) := only_upd s _

theorem lanes_of_fields (s : State) (m : Mem) (c : SMap Cluster) (j : Jobs) (e : Evt) (b : SMap Bar) (o : List Out) :
    Only laneBlocks s { s with mem := m, cl := c, jobs := j, evt := e, bars := b, out := o } :=
  ⟨rfl, fun k hk => by cases k <;> simp_all [Block.Same, laneBlocks]⟩

theorem lanes_raise (s : State) (c : W16) (i : EvInfo) : Only laneBlocks s (s.raise c i) := only_mono (only_raise s c i) (by decide)

theorem lanes_countMiss (s : State) (a : Addr) : Only laneBlocks s (s.countMiss a) := by
  have hraise (u : State) (c : W16) (i : EvInfo) (h : Only laneBlocks s u) := only_trans h (lanes_raise u c i)
  unfold State.countMiss
  split
  · exact satEvent_keeps hraise _ _ _ (only_mono (only_mem s _) (by decide))
  · exact satEvent_keeps hraise _ _ _ (only_mono (only_cl s _) (by decide))

theorem lanes_noteMiss (s : State) (w : Who) (a : Addr) (n : Nat) (wr : Bool) : Only laneBlocks s (s.noteMiss w a n wr) :=
  noteMiss_keeps (fun _ _ h => only_trans h (lanes_countMiss _ _)) (fun _ _ _ h => only_trans h (only_mono (only_jobs _ _) (by decide)))
    (fun _ _ _ h => only_trans h (lanes_raise _ _ _)) w a n wr (only_refl _ s)

theorem lanes_noteReads (s : State) (w : Who) (l : List (Addr × Nat)) : Only laneBlocks s (s.noteReads w l) :=
  only_foldS (fun _ _ => lanes_noteMiss _ _ _ _ _) l s

theorem lanes_rewrite (s : State) (r : Req) (a : Addr) (l : Bytes) : Only laneBlocks s (s.rewrite r a l) := by
  obtain ⟨b, k, c, h⟩ := rewrite_only s r a l
  rw [h]
  exact lanes_of_fields s _ _ _ _ _ _

theorem lanes_store (s : State) (w : Who) (a : Addr) (l : Bytes) : Only laneBlocks s (s.store w a l) :=
  only_trans (lanes_noteMiss s w a l.length true) (lanes_rewrite _ _ _ _)

theorem lanes_faultJob (s : State) (g : Tag) (c : W16) (i : EvInfo) : Only laneBlocks s (s.faultJob g c i) := by
  obtain ⟨e, m, j, b, o, h⟩ := faultJob_only s g c i
  rw [h]
  exact lanes_of_fields s _ _ _ _ _ _

theorem lanes_signalSem (s : State) (g : Tag) (c i : Nat) (n : W32) (sub : Byte) : Only laneBlocks s (s.signalSem g c i n sub) := by
  obtain ⟨e, m, j, b, o, h⟩ := signalSem_only s g c i n sub
  rw [h]
  exact lanes_of_fields s _ _ _ _ _ _

theorem lanes_signalAll (s : State) (cx : Ctx) (i : Nat) : Only laneBlocks s (s.signalAll cx i) :=
  only_foldS (fun _ _ => lanes_signalSem _ _ _ _ _ _) _ s

/-! ### What stays with the contexts -/

theorem ctx_of_lanes (h : Only laneBlocks s t) (k : Nat) : t.ctx k = s.ctx k := by
  have hupd : t.upd = s.upd := h.2 .upd (by decide)
  rw [State.ctx, State.ctx, hupd]

theorem lanes_lnk (h : Only laneBlocks s t) : t.lnk = s.lnk := h.2 .lnk (by decide)
theorem lanes_sec (h : Only laneBlocks s t) : t.sec = s.sec := h.2 .sec (by decide)

theorem lanes_jobChildren (h : Only laneBlocks s t) (j : Job) : t.jobChildren j = s.jobChildren j := by
  have hcfg : t.cfg = s.cfg := h.2 .cfg (by decide)
  unfold State.jobChildren State.jobRoot State.jobTops State.jobParent
  rw [hcfg, lanes_lnk h]

@[simp] theorem ctx_modCtx (s : State) (k : Nat) (f : Ctx → Ctx) : (s.modCtx k f).ctx k = f (s.ctx k) := State.ctx_setCtx s k _

theorem ctx_setCtx_ne {k i : Nat} (y : Ctx) (h : i ≠ k) : (s.setCtx k y).ctx i = s.ctx i := mget_mset_ne _ _ _ _ h

/-! ### A signal or a stop leaves the memories -/

/-- A slot's abort reaches the waiters, counts, slots and groups of its cluster, and the jobs. -/
theorem sameMemory_abortSlot (s : State) (c : CId) (k : SId) : SameMemory s (s.abortSlot c k) := by
  unfold State.abortSlot
  dsimp only
  generalize (s.clu c.val).waiters.filter _ = left
  have hleft : SameMemory s (s.modClu c.val fun x =>
      left.foldl (fun x w => x.release w.sem) { x with waiters := x.waiters.filter fun w => w.slot != k }) := by
    obtain ⟨m, w, l, h⟩ := foldl_release_only left { s.clu c.val with waiters := (s.clu c.val).waiters.filter fun w => w.slot != k }
    exact sameMemory_modClu _ _ _ (by rw [h]) (by rw [h])
  generalize State.modClu s _ _ = u at hleft ⊢
  have hgroups {f : Cluster → SMap Group} : SameMemory s (u.modClu c.val fun x => { x with groups := f x }) :=
    hleft.trans (sameMemory_modClu _ _ _ rfl rfl)
  split
  · exact hgroups.trans ((sameMemory_setSlot _ _ _ _).trans (.of_eq rfl rfl))
  · exact hgroups.trans (sameMemory_setSlot _ _ _ _)

theorem sameMemory_grantArrays (s : State) (c : Nat) : SameMemory s (s.grantArrays c) := by
  obtain ⟨o, a, h⟩ := (s.clu c).grantLoop_only 16 ((s.clu c).owners.flatMap fun g => ((s.clu c).group g.val).arrays) (s.clu c).wanting
  exact sameMemory_modClu _ _ _ (by rw [Cluster.grant, h]) (by rw [Cluster.grant, h])

theorem sameMemory_haltJob (s : State) (g : Tag) (st : Nat) (ev : W16) (tell : Out) : SameMemory s (s.haltJob g st ev tell) := by
  unfold State.haltJob
  split
  · exact .refl s
  · next j _ =>
    dsimp only
    split
    · exact .refl s
    · have hslots := foldS_keeps (p := SameMemory s) (fun s (e : CId × SId) => s.abortSlot e.1 e.2)
        (fun _ _ h => h.trans (sameMemory_abortSlot _ _ _)) j.live (s := s.modJob g fun j => { j with stop := some (st, ev) }) (.of_eq rfl rfl)
      have hgrant := foldS_keeps (p := SameMemory s) (fun s (c : CId) => s.grantArrays c.val)
        (fun _ _ h => h.trans (sameMemory_grantArrays _ _)) (clustersOf j.d.clusters) hslots
      split <;> exact hgrant.trans (.of_eq rfl rfl)

theorem sameMemory_faultJob (s : State) (g : Tag) (c : W16) (i : EvInfo) : SameMemory s (s.faultJob g c i) :=
  (sameMemory_raise s _ _).trans (sameMemory_haltJob _ _ _ _ _)

theorem sameMemory_dropSignal (s : State) (g : Tag) (c i : Nat) (sub : Byte) : SameMemory s (s.dropSignal g c i sub) := by
  unfold State.dropSignal
  dsimp only
  refine SameMemory.trans (satEvent_keeps (p := SameMemory s) (fun _ _ _ h => h.trans (sameMemory_raise _ _ _)) _ _ _ ?_)
    (sameMemory_raise _ _ _)
  exact sameMemory_modClu s c (fun x => { x with semDrop := _, semDropSat := _ }) rfl rfl

theorem sameMemory_setSem (s : State) (c i : Nat) (v : W32) (x : Cluster) (hb : x.bytes = (s.clu c).bytes)
    (hp : x.parcels = (s.clu c).parcels) : SameMemory s (s.setClu c (x.setSem i v)) := by
  obtain ⟨m, w, l, h⟩ := x.setSem_only i v
  rw [h]
  exact sameMemory_modClu s c (fun _ => { x with sems := m, waiters := w, slots := l }) hb hp

/-- A signal changes no byte, no right of access, no valid line and no poisoned line, whether it counts, is dropped or saturates. -/
theorem sameMemory_signalSem (s : State) (g : Tag) (c i : Nat) (n : W32) (sub : Byte) : SameMemory s (s.signalSem g c i n sub) := by
  unfold State.signalSem
  split
  · exact sameMemory_dropSignal _ _ _ _ _
  · split
    · exact sameMemory_dropSignal _ _ _ _ _
    · dsimp only
      split
      · exact .refl s
      · split
        · refine SameMemory.trans ?_ (sameMemory_faultJob _ _ _ _)
          exact sameMemory_setSem s c i _ { s.clu c with stuck := i :: (s.clu c).stuck } rfl rfl
        · exact sameMemory_setSem s c i _ _ rfl rfl

theorem sameMemory_signalAll (s : State) (cx : Ctx) (i : Nat) : SameMemory s (s.signalAll cx i) :=
  foldS_keeps (p := SameMemory s) _ (fun _ _ h => h.trans (sameMemory_signalSem _ _ _ _ _ _)) _ (.refl s)

/-! ### Poison that a requester's stores clear (07 R174) -/

/-- From `s` to `t` poisoned lines went at most where the requester may read. -/
structure Cleared (r : Req) (s t : State) : Prop where
  pages : t.mem.pages = s.mem.pages
  fewer : ∀ m k, k ∈ (t.ctl m).poison → k ∈ (s.ctl m).poison
  denied : ∀ m k, s.mayAccess r ⟨true, k⟩ false = false → k ∈ (s.ctl m).poison → k ∈ (t.ctl m).poison

theorem mayAccess_dev_congr (h : t.mem.pages = s.mem.pages) (r : Req) (k : Nat) (w : Bool) :
    t.mayAccess r ⟨true, k⟩ w = s.mayAccess r ⟨true, k⟩ w := by
  simp only [State.mayAccess, State.page, h, if_true]

theorem Cleared.trans (h : Cleared r s t) (k : Cleared r t u) : Cleared r s u :=
  ⟨k.pages.trans h.pages, fun m x hx => h.fewer m x (k.fewer m x hx),
    fun m x hd hx => k.denied m x ((mayAccess_dev_congr h.pages r x false).trans hd) (h.denied m x hd hx)⟩

theorem Cleared.of_same (hp : t.mem.pages = s.mem.pages) (hk : ∀ m, (t.ctl m).poison = (s.ctl m).poison) : Cleared r s t :=
  ⟨hp, fun m _ h => hk m ▸ h, fun m _ _ h => (hk m).symm ▸ h⟩

theorem SameMemory.cleared (h : SameMemory s t) : Cleared r s t := .of_same h.pages h.poison

theorem Cleared.refl (s : State) : Cleared r s s := .of_same rfl fun _ => rfl

theorem allowed_read_of_write {m : MemMode} {d : Dom} (h : allowed m d r true = true) : allowed m d r false = true := by
  cases m <;> simp_all [allowed]

theorem cleared_unpoison (s : State) (r : Req) (a : Addr) (n : Nat) : Cleared r s (s.unpoison r a n) := by
  unfold State.unpoison
  split
  · refine foldS_keeps (p := Cleared r s) _ (fun u k h => ?_) _ (.refl s)
    split
    · next hw =>
      refine h.trans ⟨rfl, fun m x hx => ?_, fun m x hd hx => ?_⟩
      · rw [State.ctl_setCtl_eq] at hx
        split at hx
        · next hm => exact hm ▸ List.mem_of_mem_filter hx
        · exact hx
      · have hne : x ≠ 64 * k := by
          rintro rfl
          simp only [State.mayAccess, if_true] at hd hw
          rw [allowed_read_of_write hw] at hd
          exact Bool.noConfusion hd
        rw [State.ctl_setCtl_eq]
        split
        · next hm => exact List.mem_filter.mpr ⟨hm ▸ hx, by simpa using hne⟩
        · exact hx
    · exact h
  · exact .refl s

theorem cleared_store (s : State) (w : Who) (a : Addr) (l : Bytes) : Cleared w.req s (s.store w a l) := by
  obtain ⟨b, c, hw⟩ := write_bytes_only w.req l a (s.noteMiss w a l.length true)
  have hwrite : Cleared w.req (s.noteMiss w a l.length true) ((s.noteMiss w a l.length true).write w.req a l) := by
    rw [hw]
    exact .of_same rfl fun _ => rfl
  exact ((sameMemory_noteMiss s w a l.length true).cleared.trans hwrite).trans (cleared_unpoison _ _ _ _)

/-- The first that a predicate finds is the first of a stronger one that holds of it. -/
theorem find?_eq_of_found {α : Type} {p q : α → Bool} (l : List α) (hsub : ∀ a, q a = true → p a = true)
    (hfound : ∀ a, l.find? p = some a → q a = true) : l.find? q = l.find? p := by
  induction l with
  | nil => rfl
  | cons a l ih =>
    cases hp : p a with
    | true =>
      have hfirst : (a :: l).find? p = some a := List.find?_cons_of_pos hp
      rw [hfirst, List.find?_cons_of_pos (hfound a hfirst)]
    | false =>
      have hq : ¬ q a = true := fun h => Bool.false_ne_true (hp.symm.trans (hsub a h))
      have hp' : ¬ p a = true := by simp [hp]
      rw [List.find?_cons_of_neg hp'] at hfound ⊢
      rw [List.find?_cons_of_neg hq]
      exact ih hfound

/-- A read that meets no poison it may read meets none after such stores: its first poisoned line is one that the requester may not
read, and stays. -/
theorem Cleared.poisonCheck_ok (h : Cleared r s t) {a : Addr} {n : Nat} (hs : poisonCheck s r a n = .ok ()) : poisonCheck t r a n = .ok () := by
  have hdenied {k : Nat} (hk : s.poisonIn a n = some k) : s.mayAccess r ⟨true, k⟩ false = false := by
    unfold poisonCheck at hs
    rw [hk] at hs
    dsimp only at hs
    split at hs
    · cases hs
    · next hd => simpa using hd
  have hin : t.poisonIn a n = s.poisonIn a n := by
    unfold State.poisonIn at hdenied ⊢
    split
    · next hdev =>
      rw [if_pos hdev] at hdenied
      congr 1
      refine find?_eq_of_found _ (fun k hk => ?_) fun k hk => ?_
      · exact List.contains_iff_mem.mpr (h.fewer _ _ (List.contains_iff_mem.mp hk))
      · exact List.contains_iff_mem.mpr (h.denied _ _ (hdenied (by rw [hk]; rfl)) (List.contains_iff_mem.mp (by simpa using List.find?_some hk)))
    · rfl
  unfold poisonCheck
  rw [hin]
  split
  · rfl
  · next hk =>
    rw [mayAccess_dev_congr h.pages, hdenied hk]
    rfl

theorem Cleared.poisonAll_ok (h : Cleared r s t) {l : List (Addr × Nat)} (hs : poisonAll s r l = .ok ()) : poisonAll t r l = .ok () := by
  induction l with
  | nil => rfl
  | cons x l ih =>
    rw [poisonAll] at hs ⊢
    cases hx : poisonCheck s r x.1 x.2 with
    | ok v =>
      rw [hx] at hs
      rw [h.poisonCheck_ok hx]
      exact ih hs
    | error f =>
      rw [hx] at hs
      cases hs

/-! ### Reads outside a job's instructions (07 R159, R162, R174) -/

/-- Reads that meet neither poison nor a parity failure count their misses and go on. -/
theorem readThen_clean {w : Who} {reads : List (Addr × Nat)} (h : poisonAll s w.req reads = .ok ()) (k : State → State) :
    s.readThen w reads [] k = k (s.noteReads w reads) := by
  have hnoted : poisonAll (s.noteReads w reads) w.req reads = .ok () := ((sameMemory_noteReads s w reads).poisonAll _ _).trans h
  have hparity : spdParity (s.noteReads w reads) w reads [] = (s.noteReads w reads, none) := by
    rw [spdParity, failures, List.zip_nil_right, parityReads]
  unfold State.readThen
  dsimp only
  rw [hnoted, hparity]

end Sys2Proof.Machine
end

section
/-! PROOFS. Training (chapter 10), gradient slices (R257, R273, R274): the rows that wait, and those that are taken once. -/

namespace Sys2Proof.Machine

open Sys2Proof Sys2Proof.Safety

variable {s t : State} {tg : Tag} {vid : Vid} {layer : W16} {step : W32} {j : Job} {x : CtxId} {v : TVar} {y : Variant}
  {ts : List (Nat × Nat × DirEntry × Bytes)}

/-! ### A context's variants -/

theorem var_setVar {cx : Ctx} {n : Nat} {f : TVar → TVar} (h : cx.var n = some v) (hf : ∀ w, (f w).vid = w.vid) :
    (cx.setVar n f).var n = some (f v) := by
  have hvid : v.vid = n := by simpa using List.find?_some h
  have hkey : ((fun w : TVar => w.vid == n) ∘ fun w => if w.vid = n then f w else w) = fun w => w.vid == n := by
    funext w
    simp only [Function.comp_apply]
    split <;> simp [hf]
  unfold Ctx.var at h
  rw [Ctx.var, Ctx.setVar, List.find?_map, hkey, h, Option.map_some, if_pos hvid]

/-! ### Counters of a context (17 R446) -/

theorem countFrozen_below (h : (s.ctx x.val).frozen.toNat + 1 < 2 ^ 64 - 1) :
    s.countFrozen x = s.modCtx x.val fun y => { y with frozen := (s.ctx x.val).frozen + 1 } := by
  unfold State.countFrozen
  dsimp only
  rw [(bump_below h).2, bump_fst_below h]
  simp only [Bool.or_false]
  rfl

theorem countSkew_below (h : (s.ctx x.val).skew.toNat + 1 < 2 ^ 64 - 1) :
    s.countSkew x = s.modCtx x.val fun y => { y with skew := (s.ctx x.val).skew + 1 } := by
  unfold State.countSkew
  dsimp only
  rw [(bump_below h).2, bump_fst_below h]
  simp only [Bool.or_false]
  rfl

/-! ### Rows that fill a layer -/

/-- A row of the slice that a GRAD_SLICE names. -/
def SliceRow.partOf (vid : Vid) (layer : W16) (step : W32) (r : SliceRow) : Bool :=
  r.vid == vid.toNat && r.layer == layer.toNat && r.step == step

/-- The layer's tensors with the rows handed over, while they fill them exactly. -/
def Ctx.handed (cx : Ctx) (y : Variant) (vid : Vid) (layer : W16) (step : W32) : Option (List (Nat × Nat × DirEntry × Bytes)) :=
  shareRows (y.gradsOf layer.toNat) ((cx.slice.filter (SliceRow.partOf vid layer step)).foldr insertRow [])

/-- The context once the slice's rows have been taken. -/
def Ctx.taken (cx : Ctx) (vid : Vid) (layer : W16) (step : W32) : Ctx :=
  { cx with slice := cx.slice.filter fun r => !SliceRow.partOf vid layer step r }

/-- A job's context, a variant that it trains, and the registered record of that variant. -/
structure Trains (s : State) (tg : Tag) (vid : Vid) (j : Job) (x : CtxId) (v : TVar) (y : Variant) : Prop where
  ctxOf : s.ctxOf tg = some (j, x)
  var : (s.ctx x.val).var vid.toNat = some v
  variant : s.variant vid.toNat = some y

theorem gradSlice_waits (h : Trains s tg vid j x v y) (hr : (s.ctx x.val).handed y vid layer step = none) :
    gradSlice tg vid layer step s = s := by
  unfold Ctx.handed SliceRow.partOf at hr
  unfold gradSlice
  simp only [h.ctxOf, h.var, h.variant, hr]

/-- Rows that fill the layer leave the context; what they do turns on the layer and the step. -/
theorem gradSlice_filled (h : Trains s tg vid j x v y) (hr : (s.ctx x.val).handed y vid layer step = some ts) (hne : ts ≠ []) :
    gradSlice tg vid layer step s =
      let u := s.setCtx x.val ((s.ctx x.val).taken vid layer step)
      if v.frozen layer.toNat then
        (u.countFrozen x).modCtx x.val fun cx => cx.setVar vid.toNat fun v => { v with got := layer.toNat :: v.got }
      else if step ≠ (s.ctx x.val).stepNow.truncate 32 then
        ((u.modCtx x.val fun cx => cx.setVar vid.toNat fun v =>
          { v with got := layer.toNat :: v.got
                   skewed := if v.skewed.contains layer.toNat then v.skewed else layer.toNat :: v.skewed }).countSkew x).raise Ev.stepSkew
          (updInfo x (s.ctx x.val) vid.toNat layer.toNat
            (if serialAhead 32 step.toNat ((s.ctx x.val).stepNow.toNat % 2 ^ 32) then 1 else 2 ^ 32 - 1))
      else u.takeSlice x vid.toNat layer.toNat ts := by
  have hempty : ts.isEmpty = false := by simpa using hne
  unfold Ctx.handed SliceRow.partOf at hr
  unfold gradSlice
  simp only [h.ctxOf, h.var, h.variant, hr, hempty]
  rfl

/-! ### A slice of a frozen layer, and one of another step (R273, R274) -/

theorem gradSlice_frozen (h : Trains s tg vid j x v y) (hr : (s.ctx x.val).handed y vid layer step = some ts) (hne : ts ≠ [])
    (hf : v.frozen layer.toNat = true) (hc : (s.ctx x.val).frozen.toNat + 1 < 2 ^ 64 - 1) :
    Does (.gradSlice tg vid layer step) s [.upd] fun t =>
      (t.ctx x.val).frozen = (s.ctx x.val).frozen + 1 ∧ (t.ctx x.val).bad = (s.ctx x.val).bad ∧
      (t.ctx x.val).slice = ((s.ctx x.val).taken vid layer step).slice := by
  have hcount : ((s.setCtx x.val ((s.ctx x.val).taken vid layer step)).ctx x.val).frozen.toNat + 1 < 2 ^ 64 - 1 := by
    rw [State.ctx_setCtx]
    exact hc
  refine ⟨_, congrArg Host.Outcome.next (gradSlice_filled h hr hne), ?_⟩
  dsimp only
  rw [if_pos hf, countFrozen_below hcount]
  refine ⟨only_trans (only_trans (only_setCtx _ _ _) (only_modCtx _ _ _)) (only_modCtx _ _ _), ?_⟩
  simp [Ctx.setVar, Ctx.taken]

theorem gradSlice_skewed (h : Trains s tg vid j x v y) (hr : (s.ctx x.val).handed y vid layer step = some ts) (hne : ts ≠ [])
    (hf : v.frozen layer.toNat = false) (hs : step ≠ (s.ctx x.val).stepNow.truncate 32)
    (hc : (s.ctx x.val).skew.toNat + 1 < 2 ^ 64 - 1) :
    Does (.gradSlice tg vid layer step) s [.upd, .evt] fun t =>
      (t.ctx x.val).skew = (s.ctx x.val).skew + 1 ∧
      (∃ w, (t.ctx x.val).var vid.toNat = some w ∧ layer.toNat ∈ w.skewed ∧ layer.toNat ∈ w.got) ∧
      t.evt = (s.raise Ev.stepSkew (updInfo x (s.ctx x.val) vid.toNat layer.toNat
        (if serialAhead 32 step.toNat ((s.ctx x.val).stepNow.toNat % 2 ^ 32) then 1 else 2 ^ 32 - 1))).evt := by
  refine ⟨_, congrArg Host.Outcome.next (gradSlice_filled h hr hne), ?_⟩
  dsimp only
  rw [if_neg (by simp [hf]), if_pos hs]
  generalize hu : (s.setCtx x.val ((s.ctx x.val).taken vid layer step)).modCtx x.val _ = u
  have hctx : u.ctx x.val = ((s.ctx x.val).taken vid layer step).setVar vid.toNat fun v =>
      { v with got := layer.toNat :: v.got
               skewed := if v.skewed.contains layer.toNat then v.skewed else layer.toNat :: v.skewed } := by
    rw [← hu, ctx_modCtx, State.ctx_setCtx]
  have hcount : (u.ctx x.val).skew.toNat + 1 < 2 ^ 64 - 1 := by
    rw [hctx]
    exact hc
  have honly : Only [.upd] s (u.countSkew x) := by
    rw [countSkew_below hcount, ← hu]
    exact only_trans (only_trans (only_setCtx _ _ _) (only_modCtx _ _ _)) (only_modCtx _ _ _)
  have hraised (i : EvInfo) : ((u.countSkew x).raise Ev.stepSkew i).ctx x.val = { u.ctx x.val with skew := (u.ctx x.val).skew + 1 } := by
    rw [ctx_of_lanes (lanes_raise _ _ _), countSkew_below hcount, ctx_modCtx]
  refine ⟨only_step (only_mono honly (by decide)) (only_raise _ _ _) (by decide), ?_, ?_,
    raise_evt_congr (honly.2 .evt (by decide)) (honly.2 .lnk (by decide)) (honly.2 .life (by decide)) _ _⟩
  · rw [hraised, hctx]
    rfl
  · rw [hraised, hctx]
    refine ⟨_, var_setVar (v := v) h.var fun _ => rfl, ?_, List.mem_cons_self⟩
    dsimp only
    split
    · next hin => exact List.contains_iff_mem.mp hin
    · exact List.mem_cons_self

/-! ### A slice of the current step (R257) -/

/-- The gradient area once the tensors of a slice have been written. -/
def State.gradsStored (s : State) (cx : Ctx) (start : Nat) (ts : List (Nat × Nat × DirEntry × Bytes)) : State :=
  foldS s ts fun s t =>
    match cx.gradAt start t.2.1 with
    | some a => s.store cx.who a t.2.2.2
    | none => s

theorem lanes_gradsStored (s : State) (cx : Ctx) (start : Nat) (ts : List (Nat × Nat × DirEntry × Bytes)) :
    Only laneBlocks s (s.gradsStored cx start ts) :=
  only_foldS (fun u t => by
    split
    · exact lanes_store _ _ _ _
    · exact only_refl _ u) ts s

/-- What a slice of the current step makes of its variant. -/
def TVar.received (v : TVar) (layer : Nat) (ts : List (Nat × Nat × DirEntry × Bytes)) : TVar :=
  { v with
    got := layer :: v.got
    normParts := (v.normParts.filter fun p => p.1 != layer) ++ ts.map fun t => (layer, t.1, gradNorm (t.2.2.1.gradVals t.2.2.2)) }

/-- What it makes of its context. -/
def Ctx.received (cx : Ctx) (n layer : Nat) (ts : List (Nat × Nat × DirEntry × Bytes)) : Ctx :=
  { cx.setVar n (·.received layer ts) with bad := cx.bad || ts.any fun q => q.2.2.1.gradBad q.2.2.2 }

theorem takeSlice_eq (s : State) (x : CtxId) (n l : Nat) (ts : List (Nat × Nat × DirEntry × Bytes)) :
    s.takeSlice x n l ts =
      (s.gradsStored (s.ctx x.val) (s.gradStart 0 n (s.ctx x.val).vars) ts).modCtx x.val (·.received n l ts) := rfl

/-- What the rows of the current step leave. -/
structure SliceTaken (s t : State) (x : CtxId) (vid : Vid) (layer : W16) (step : W32) (v : TVar) (ts : List (Nat × Nat × DirEntry × Bytes)) :
    Prop where
  var : (t.ctx x.val).var vid.toNat = some (v.received layer.toNat ts)
  bad : (t.ctx x.val).bad = ((s.ctx x.val).bad || ts.any fun q => q.2.2.1.gradBad q.2.2.2)
  slice : (t.ctx x.val).slice = ((s.ctx x.val).taken vid layer step).slice
  others : ∀ k, k ≠ x.val → t.ctx k = s.ctx k
  lnk : t.lnk = s.lnk
  sec : t.sec = s.sec
  bytes : ∀ q a, ts = [q] → (s.ctx x.val).gradAt (s.gradStart 0 vid.toNat (s.ctx x.val).vars) q.2.1 = some a →
    (a.dev = true ∨ a.a + q.2.2.2.length ≤ 2 ^ 33) → ∀ n, n < q.2.2.2.length →
    t.rawByte (a.plus n) = if s.mayAccess (s.ctx x.val).who.req (a.plus n) true then q.2.2.2.getD n 0 else s.rawByte (a.plus n)

theorem gradStart_congr (h : t.var = s.var) (off n : Nat) (l : List TVar) : t.gradStart off n l = s.gradStart off n l := by
  induction l generalizing off with
  | nil => rfl
  | cons v l ih => rw [State.gradStart, State.gradStart, ih, variant_congr (congrArg Var.reg h)]

theorem gradSlice_current (h : Trains s tg vid j x v y) (hr : (s.ctx x.val).handed y vid layer step = some ts) (hne : ts ≠ [])
    (hf : v.frozen layer.toNat = false) (hs : step = (s.ctx x.val).stepNow.truncate 32) :
    ∃ t, exec (.gradSlice tg vid layer step) s = .next t ∧ SliceTaken s t x vid layer step v ts := by
  refine ⟨_, congrArg Host.Outcome.next (gradSlice_filled h hr hne), ?_⟩
  dsimp only
  rw [if_neg (by simp [hf]), if_neg (not_not_intro hs), takeSlice_eq, State.ctx_setCtx,
    gradStart_congr (s := s) (t := s.setCtx _ _) rfl]
  generalize hu : s.setCtx x.val _ = u
  have hctx : u.ctx x.val = (s.ctx x.val).taken vid layer step := by rw [← hu, State.ctx_setCtx]
  generalize hstart : s.gradStart 0 vid.toNat ((s.ctx x.val).taken vid layer step).vars = start
  have hlanes := lanes_gradsStored u ((s.ctx x.val).taken vid layer step) start ts
  refine ⟨?_, ?_, ?_, fun k hk => ?_, ?_, ?_, ?_⟩
  · rw [ctx_modCtx, ctx_of_lanes hlanes, hctx]
    exact var_setVar h.var fun _ => rfl
  · rw [ctx_modCtx, ctx_of_lanes hlanes, hctx]
    rfl
  · rw [ctx_modCtx, ctx_of_lanes hlanes, hctx]
    rfl
  · rw [State.modCtx, ctx_setCtx_ne _ hk, ctx_of_lanes hlanes, ← hu, ctx_setCtx_ne _ hk]
  · exact (lanes_lnk hlanes).trans (by rw [← hu]; rfl)
  · exact (lanes_sec hlanes).trans (by rw [← hu]; rfl)
  · rintro q a rfl ha hfit n hn
    have hat : ((s.ctx x.val).taken vid layer step).gradAt start q.2.1 = some a := by rw [← hstart]; exact ha
    have hstored : u.gradsStored ((s.ctx x.val).taken vid layer step) start [q] = u.store (s.ctx x.val).who a q.2.2.2 := by
      rw [State.gradsStored, foldS_cons, hat]
      rfl
    rw [hstored, ← hu]
    exact rawByte_store_in (s := s.setCtx x.val _) _ _ _ hfit n hn

end Sys2Proof.Machine
end

section
/-! PROOFS. Training (chapter 10), votes (R258): what a vote takes from the semaphores and reads of the control block, and a child's vote. -/

namespace Sys2Proof.Machine

open Sys2Proof Sys2Proof.Safety

variable {s t u : State} {m : Msg} {j : Job} {x : CtxId} {rd : List Nat}

/-! ### Counts that stores leave -/

/-- The counts of every cluster are the same in two states. -/
def SameSems (s t : State) : Prop := ∀ c, (t.clu c).sems = (s.clu c).sems

theorem SameSems.trans (h : SameSems s t) (k : SameSems t u) : SameSems s u := fun c => (k c).trans (h c)

theorem SameSems.of_cl (h : t.cl = s.cl) : SameSems s t := fun c => by rw [State.clu, State.clu, h]

theorem sameSems_modClu (s : State) (c : Nat) (f : Cluster → Cluster) (h : (f (s.clu c)).sems = (s.clu c).sems) :
    SameSems s (s.modClu c f) := modClu_field Cluster.sems s c f h

theorem sameSems_raise (s : State) (c : W16) (i : EvInfo) : SameSems s (s.raise c i) := .of_cl ((only_raise s c i).2 .cl (by decide))

theorem sameSems_countMiss (s : State) (a : Addr) : SameSems s (s.countMiss a) := by
  have hraise (u : State) (c : W16) (i : EvInfo) (h : SameSems s u) := h.trans (sameSems_raise u c i)
  unfold State.countMiss
  split
  · exact satEvent_keeps hraise _ _ _ (.of_cl rfl)
  · exact satEvent_keeps hraise _ _ _ (sameSems_modClu s _ (fun _ => _) rfl)

theorem sameSems_noteMiss (s : State) (w : Who) (a : Addr) (n : Nat) (wr : Bool) : SameSems s (s.noteMiss w a n wr) :=
  noteMiss_keeps (fun _ _ h => h.trans (sameSems_countMiss _ _)) (fun _ _ _ h => h.trans (.of_cl rfl))
    (fun _ _ _ h => h.trans (sameSems_raise _ _ _)) w a n wr (.of_cl rfl)

theorem sameSems_noteReads (s : State) (w : Who) (l : List (Addr × Nat)) : SameSems s (s.noteReads w l) :=
  foldS_keeps (p := SameSems s) _ (fun _ _ h => h.trans (sameSems_noteMiss _ _ _ _ _)) l (.of_cl rfl)

theorem sameSems_writeByte (s : State) (r : Req) (a : Addr) (b : Byte) : SameSems s (s.writeByte r a b) := by
  unfold State.writeByte State.makeValid State.putByte
  split
  · split
    · exact .of_cl rfl
    · exact (sameSems_modClu s _ _ rfl).trans (sameSems_modClu _ _ _ rfl)
  · exact .of_cl rfl

theorem sameSems_write (r : Req) (l : Bytes) (a : Addr) (s : State) : SameSems s (s.write r a l) := by
  induction l generalizing s a with
  | nil => exact .of_cl rfl
  | cons b l ih => exact (sameSems_writeByte s r a b).trans (ih _ _)

theorem sameSems_store (s : State) (w : Who) (a : Addr) (l : Bytes) : SameSems s (s.store w a l) := by
  obtain ⟨m, h⟩ := unpoison_only ((s.noteMiss w a l.length true).write w.req a l) w.req a l.length
  have hcl : (s.store w a l).cl = ((s.noteMiss w a l.length true).write w.req a l).cl := by rw [State.store, State.rewrite, h]
  exact ((sameSems_noteMiss s w a l.length true).trans (sameSems_write w.req l a _)).trans (.of_cl hcl)

theorem SameSems.sem (h : SameSems s t) (c i : Nat) : (t.clu c).sem i = (s.clu c).sem i := by rw [Cluster.sem, Cluster.sem, h c]

/-! ### The counts that the vote takes -/

/-- vote_count taken from a cluster's vote semaphore. -/
def Ctx.takeVote (cx : Ctx) (k : Cluster) : Cluster := k.setSem cx.voteSem (k.sem cx.voteSem - BitVec.ofNat 32 cx.voteCount)

/-- vote_count taken on every cluster of the context. -/
def State.takeVotes (s : State) (cx : Ctx) : State := foldS s (clustersOf cx.clusters) fun s c => s.modClu c.val cx.takeVote

theorem clu_foldS_modClu_ids (f : Cluster → Cluster) {l : List CId} (hl : l.Nodup) (s : State) (c : CId) :
    (foldS s l fun s c => s.modClu c.val f).clu c.val = if c ∈ l then f (s.clu c.val) else s.clu c.val := by
  induction l generalizing s with
  | nil => rfl
  | cons d l ih =>
    obtain ⟨hd, hl⟩ := List.nodup_cons.mp hl
    rw [foldS_cons, ih hl, State.clu_modClu]
    by_cases hc : c = d
    · subst hc
      rw [if_neg hd, if_pos rfl, if_pos List.mem_cons_self]
    · rw [if_neg fun h => hc (Fin.ext h)]
      simp only [List.mem_cons, hc, false_or]

theorem clustersOf_nodup (w : W64) : (clustersOf w).Nodup := (List.nodup_finRange 64).filter _

theorem takeVote_sem (cx : Ctx) {k : Cluster} (hw : k.waiters = []) (hs : k.stuck = []) :
    (cx.takeVote k).sem cx.voteSem = k.sem cx.voteSem - BitVec.ofNat 32 cx.voteCount := by
  have hnone (i : Nat) : k.takers i = [] := by rw [Cluster.takers, hw]; rfl
  rw [Ctx.takeVote, Cluster.setSem_free _ _ (by simp [hs]), hnone, takePass, BitVec.ofNat_toNat, BitVec.setWidth_eq]

theorem takeVotes_sem (cx : Ctx) {c : CId} (hc : c ∈ clustersOf cx.clusters) (hw : (s.clu c.val).waiters = [])
    (hs : (s.clu c.val).stuck = []) :
    ((s.takeVotes cx).clu c.val).sem cx.voteSem = (s.clu c.val).sem cx.voteSem - BitVec.ofNat 32 cx.voteCount := by
  rw [State.takeVotes, clu_foldS_modClu_ids _ (clustersOf_nodup _), if_pos hc, takeVote_sem cx hw hs]

theorem only_takeVotes (s : State) (cx : Ctx) : Only [.cl] s (s.takeVotes cx) := only_foldS (fun u _ => only_cl u _) _ s

/-! ### STEP_VOTE -/

theorem ctxOf_job {g : Tag} (h : s.ctxOf g = some (j, x)) : s.job g = some j := by
  unfold State.ctxOf at h
  split at h
  · next i hi =>
    split at h
    · cases h
    · obtain ⟨_, -, he⟩ := Option.map_eq_some_iff.mp h
      cases he
      exact hi
  · cases h

/-- The reads of the control block that a vote makes. -/
def Ctx.ctrlReads (cx : Ctx) : List (Addr × Nat) := match ptrAddr cx.ctrl.toNat with | some a => [(a.plus 16, 16)] | none => []

/-- A member may vote: every slice is in, its streams have passed, and its job was not stopped. -/
structure MayVote (s : State) (j : Job) (x : CtxId) : Prop where
  ctxOf : s.ctxOf (s.ctx x.val).tag = some (j, x)
  receiving : (s.ctx x.val).state = .receiving
  stepLeft : (s.ctx x.val).stepLeft = true
  allGot : s.allGot (s.ctx x.val) = true
  passed : s.streamsPassed (s.ctx x.val) = true
  clean : poisonAll s (s.ctx x.val).who.req (s.ctx x.val).ctrlReads = .ok ()

/-- The member's own vote, with the streams' bad flag. -/
def Ctx.votes (cx : Ctx) (b : Bool) : Ctx := { cx with state := .voting, voted := true, bad := cx.bad || b }

/-- What stands when a member casts its vote: the lanes have read and cleared the control block, if there is one. -/
structure VoteCast (s w : State) (cx : Ctx) (b : Bool) : Prop where
  lanes : Only laneBlocks s w
  sems : SameSems (s.takeVotes cx) w
  noCtrl : ptrAddr cx.ctrl.toNat = none → b = false

theorem stepVote_casts (h : MayVote s j x) : ∃ w b, VoteCast s w (s.ctx x.val) b ∧
    stepVote x [] s = (w.modCtx x.val (·.votes b)).voteTry j x [] := by
  have hclean : poisonAll (s.takeVotes (s.ctx x.val)) (s.ctx x.val).who.req (s.ctx x.val).ctrlReads = .ok () := by
    refine Cleared.poisonAll_ok (.of_same ?_ fun m => ?_) h.clean
    · rw [(only_takeVotes s (s.ctx x.val)).2 .mem (by decide)]
    · rw [State.ctl, State.ctl, (only_takeVotes s (s.ctx x.val)).2 .mem (by decide)]
  have hlanes : Only laneBlocks s ((s.takeVotes (s.ctx x.val)).noteReads (s.ctx x.val).who (s.ctx x.val).ctrlReads) :=
    only_trans (only_mono (only_takeVotes s _) (by decide)) (lanes_noteReads _ _ _)
  have hsems := sameSems_noteReads (s.takeVotes (s.ctx x.val)) (s.ctx x.val).who (s.ctx x.val).ctrlReads
  unfold stepVote
  dsimp only
  rw [h.ctxOf]
  dsimp only
  rw [if_neg (by simp [h.receiving, h.stepLeft, h.allGot, h.passed]), List.take_nil, List.drop_nil]
  refine ⟨_, _, ?_, readThen_clean hclean _⟩
  cases hctrl : ptrAddr (s.ctx x.val).ctrl.toNat with
  | none => exact ⟨hlanes, hsems, fun _ => rfl⟩
  | some a =>
    exact ⟨only_trans hlanes (lanes_store _ _ _ _), hsems.trans (sameSems_store _ _ _ _),
      fun hn => absurd (hctrl.symm.trans hn) (by simp)⟩

/-- Votes of children that are still missing hold the member's own. -/
theorem voteTry_waits (h : (s.ctx x.val).childVotes.length < s.jobChildren j) : s.voteTry j x rd = s := if_pos (.inr (.inr h))

theorem voteTry_early (h : (s.ctx x.val).voted = false) : s.voteTry j x rd = s := if_pos (.inl (by simp [h]))

/-- What a vote that waits for the children leaves. -/
structure Voted (s t : State) (x : CtxId) : Prop where
  state : (t.ctx x.val).state = .voting
  voted : (t.ctx x.val).voted = true
  sems : ∀ c ∈ clustersOf (s.ctx x.val).clusters, (s.clu c.val).waiters = [] → (s.clu c.val).stuck = [] →
    (t.clu c.val).sem (s.ctx x.val).voteSem = (s.clu c.val).sem (s.ctx x.val).voteSem - BitVec.ofNat 32 (s.ctx x.val).voteCount
  bad : (s.ctx x.val).bad = true → (t.ctx x.val).bad = true
  noCtrl : ptrAddr (s.ctx x.val).ctrl.toNat = none → (t.ctx x.val).bad = (s.ctx x.val).bad

theorem stepVote_waits (h : MayVote s j x) (hw : (s.ctx x.val).childVotes.length < s.jobChildren j) :
    ∃ t, exec (.stepVote x []) s = .next t ∧ Voted s t x := by
  obtain ⟨w, b, hc, heq⟩ := stepVote_casts h
  have hctx : (w.modCtx x.val (·.votes b)).ctx x.val = (s.ctx x.val).votes b := by rw [ctx_modCtx, ctx_of_lanes hc.lanes]
  have hlack : ((w.modCtx x.val (·.votes b)).ctx x.val).childVotes.length < (w.modCtx x.val (·.votes b)).jobChildren j := by
    rw [hctx]
    exact hw.trans_eq (lanes_jobChildren hc.lanes j).symm
  refine ⟨_, congrArg Host.Outcome.next (heq.trans (voteTry_waits hlack)), ?_, ?_, fun c hin hwait hstuck => ?_, fun hb => ?_, fun hn => ?_⟩
  · rw [hctx]
    rfl
  · rw [hctx]
    rfl
  · exact (hc.sems.sem c.val _).trans (takeVotes_sem _ hin hwait hstuck)
  · rw [hctx, Ctx.votes, hb]
    rfl
  · rw [hctx, Ctx.votes, hc.noCtrl hn, Bool.or_false]

/-! ### The vote of a child -/

theorem ctx_wakeUp (s : State) (k : Nat) : s.wakeUp.ctx k = s.ctx k := wakeUp_keeps (·.ctx k) fun _ => rfl

theorem vote_early {bad : Bool} {norms : List W32} (h : Heard s m [0]) (hx : s.wakeUp.ctxOf m.tag = some (j, x))
    (hp : s.fromChild j m.port = true) (hn : norms.length = (s.ctx x.val).vars.length) (hv : (s.ctx x.val).voted = false) :
    vote m ((s.ctx x.val).stepNow.truncate 32) bad norms rd s = s.wakeUp.setCtx x.val { s.ctx x.val with
      childVotes := insertVote (s.gangPort m.port, bad, norms) (s.ctx x.val).childVotes } := by
  have hport : s.wakeUp.fromChild j m.port = true := (wakeUp_keeps (·.fromChild j m.port) fun _ => rfl).trans hp
  have hgang : s.wakeUp.gangPort m.port = s.gangPort m.port := wakeUp_keeps (·.gangPort m.port) fun _ => rfl
  rw [vote, receiveJob_member h ((wakeUp_job s m.tag).symm.trans (ctxOf_job hx)), hx]
  dsimp only
  rw [ctx_wakeUp, hgang, if_neg (by simp [hport, hn])]
  exact voteTry_early (by rw [State.ctx_setCtx]; exact hv)

end Sys2Proof.Machine
end

section
/-! PROOFS. Training (chapter 10), verdicts (R259, R263): what a SKIP makes of the context, and how the next step begins. -/

namespace Sys2Proof.Machine

open Sys2Proof Sys2Proof.Safety

variable {s t u : State} {r : Req} {m : Msg} {j : Job} {x : CtxId} {v : VerdictMsg}

/-! ### A step begins (R273) -/

/-- The reads of the freeze bitmaps as a step begins. -/
def Ctx.freezeReads (cx : Ctx) : List (Addr × Nat) :=
  cx.vars.filterMap fun v => (ptrAddr v.freeze.toNat).map fun a => (a, ceilDiv cx.layers 8)

/-- A context with its step's notes clear. -/
def Ctx.begun (cx : Ctx) (step : W64) (vars : List TVar) : Ctx :=
  { cx with state := .receiving, stepNow := step, bad := false, childVotes := [], voted := false, vars := vars, stale := false, nextLayer := 0 }

theorem beginStep_clean (step : W64) (h : poisonAll s (s.ctx x.val).who.req (s.ctx x.val).freezeReads = .ok ()) :
    ∃ vars, (s.beginStep x step []).ctx x.val = (s.ctx x.val).begun step vars := by
  unfold State.beginStep
  dsimp only
  have hclean : poisonAll (s.setCtx x.val { s.ctx x.val with state := .receiving }) (s.ctx x.val).who.req (s.ctx x.val).freezeReads = .ok () :=
    (SameMemory.poisonAll (s := s) (t := s.setCtx _ _) (.of_eq rfl rfl) _ _).trans h
  unfold Ctx.freezeReads at hclean
  rw [readThen_clean hclean, State.ctx_setCtx]
  exact ⟨_, rfl⟩

/-! ### The lanes' work between a verdict and the next step -/

/-- The lanes' work that leaves the contexts, and the poison that a requester may not read. -/
structure LaneWork (r : Req) (s t : State) : Prop where
  lanes : Only laneBlocks s t
  cleared : Cleared r s t

theorem LaneWork.refl (s : State) : LaneWork r s s := ⟨only_refl _ s, .refl s⟩

theorem LaneWork.trans (h : LaneWork r s t) (k : LaneWork r t u) : LaneWork r s u :=
  ⟨only_trans h.lanes k.lanes, h.cleared.trans k.cleared⟩

theorem laneWork_foldS {α : Type} {f : State → α → State} (hf : ∀ s a, LaneWork r s (f s a)) (l : List α) (s : State) :
    LaneWork r s (foldS s l f) := foldS_keeps (p := LaneWork r s) f (fun _ a h => h.trans (hf _ a)) l (.refl s)

theorem laneWork_store (s : State) (w : Who) (a : Addr) (l : Bytes) : LaneWork w.req s (s.store w a l) :=
  ⟨lanes_store s w a l, cleared_store s w a l⟩

theorem laneWork_signalAll (s : State) (cx : Ctx) (i : Nat) : LaneWork r s (s.signalAll cx i) :=
  ⟨lanes_signalAll s cx i, (sameMemory_signalAll s cx i).cleared⟩

theorem laneWork_raise (s : State) (c : W16) (i : EvInfo) : LaneWork r s (s.raise c i) :=
  ⟨lanes_raise s c i, (sameMemory_raise s c i).cleared⟩

theorem laneWork_putEntry (s : State) (cx : Ctx) (i off : Nat) (l : Bytes) : LaneWork cx.who.req s (s.putEntry cx i off l) := by
  unfold State.putEntry
  split
  · exact laneWork_store _ _ _ _
  · exact .refl s

theorem laneWork_writeLog (s : State) (x : CtxId) (v : VerdictMsg) (outs : List (TVar × VerdictPart × Outcome)) :
    LaneWork (s.ctx x.val).who.req s (s.writeLog x v outs) := by
  unfold State.writeLog
  dsimp only
  refine LaneWork.trans ?_ (laneWork_foldS (fun u e => (laneWork_putEntry _ _ _ _ _).trans (laneWork_putEntry _ _ _ _ _)) _ _)
  cases ptrAddr (s.ctx x.val).ctrl.toNat with
  | none =>
    cases ptrAddr (s.ctx x.val).stepLog.toNat with
    | none => exact .refl s
    | some b => exact laneWork_store _ _ _ _
  | some a =>
    have hctrl (k l : Bytes) : LaneWork (s.ctx x.val).who.req s ((s.store (s.ctx x.val).who a k).store (s.ctx x.val).who (a.plus 32) l) :=
      (laneWork_store _ _ _ _).trans (laneWork_store _ _ _ _)
    cases ptrAddr (s.ctx x.val).stepLog.toNat with
    | none => exact hctrl _ _
    | some b => exact (hctrl _ _).trans (laneWork_store _ _ _ _)

/-! ### A SKIP verdict (R259) -/

theorem parkAll_none (s : State) (x : CtxId) {outs : List (TVar × VerdictPart × Outcome)} (h : ∀ e ∈ outs, e.2.2 ≠ .deferred) :
    s.parkAll x outs = s := by
  refine foldS_keeps_mem (p := (· = s)) (fun u e he hu => ?_) rfl
  exact (if_pos (h e.1 (List.fst_mem_of_mem_zipIdx he))).trans hu

/-- The scale of the step that ends is kept, the verdict's is taken, and the run of clean steps is over. -/
def Ctx.rescaled (cx : Ctx) (scale : W32) : Ctx := { cx with scaleUsed := cx.scale, scale := scale, clean := 0 }

/-- One more skipped step. -/
def Ctx.skippedOne (cx : Ctx) : Ctx :=
  { cx with skipped := (bump cx.skipped).1, skippedSat := cx.skippedSat || (bump cx.skipped).2 }

theorem ctx_countSkipped (s : State) (x : CtxId) : (s.countSkipped x).ctx x.val = (s.ctx x.val).skippedOne :=
  satEvent_keeps (p := fun u => u.ctx x.val = (s.ctx x.val).skippedOne) (fun _ _ _ h => (ctx_of_lanes (lanes_raise _ _ _) _).trans h) _ _ _
    (ctx_modCtx s x.val _)

theorem sameMemory_countSkipped (s : State) (x : CtxId) : SameMemory s (s.countSkipped x) :=
  satEvent_keeps (p := SameMemory s) (fun _ _ _ h => h.trans (sameMemory_raise _ _ _)) _ _ _ (.of_eq rfl rfl)

/-- The outcomes of a skipped step. -/
def skippedOutcomes (cx : Ctx) (v : VerdictMsg) : List (TVar × VerdictPart × Outcome) :=
  (cx.vars.zip v.parts).map fun e => (e.1, e.2, Outcome.skipped)

/-- A SKIP rescales, is logged and signalled, counts the step, and signals every layer before the next step begins. -/
theorem applyVerdict_skip_eq (s : State) (x : CtxId) (hs : v.skip = true) (bad : List Nat) :
    s.applyVerdict x v bad =
      let cx := s.ctx x.val
      let u := ((s.setCtx x.val (cx.rescaled v.scale)).writeLog x v (skippedOutcomes cx v)).signalAll cx (cx.voteSem + 1)
      (foldS (((u.countSkipped x).modCtx x.val fun cx => { cx with skippedAny := true }).raise Ev.updStepSkipped
        { tag := cx.tag, domain := cx.domain }) (List.range cx.layers) fun s l => s.signalAll cx (cx.updSem + l)).beginStep x
          (cx.stepNow + 1) bad := by
  have hparked (u : State) : u.parkAll x (skippedOutcomes (s.ctx x.val) v) = u := parkAll_none u x fun e he => by
    obtain ⟨_, -, rfl⟩ := List.mem_map.mp he
    exact (by decide : Outcome.skipped ≠ .deferred)
  unfold skippedOutcomes at hparked
  unfold State.applyVerdict
  simp only [hs, State.outcomeOf, if_true, true_or, hparked]
  rfl

theorem applyVerdict_skip (hs : v.skip = true) (h : poisonAll s (s.ctx x.val).who.req (s.ctx x.val).freezeReads = .ok ()) :
    ∃ vars, (s.applyVerdict x v []).ctx x.val =
      { ((s.ctx x.val).rescaled v.scale).skippedOne with skippedAny := true }.begun ((s.ctx x.val).stepNow + 1) vars := by
  rw [applyVerdict_skip_eq s x hs]
  dsimp only
  have hlog := (laneWork_writeLog (s.setCtx x.val ((s.ctx x.val).rescaled v.scale)) x v (skippedOutcomes (s.ctx x.val) v)).trans
    (laneWork_signalAll _ (s.ctx x.val) ((s.ctx x.val).voteSem + 1))
  rw [State.ctx_setCtx] at hlog
  generalize State.signalAll (State.writeLog _ x v _) _ _ = u at hlog ⊢
  have hcount : ((u.countSkipped x).modCtx x.val fun cx => { cx with skippedAny := true }).ctx x.val =
      { ((s.ctx x.val).rescaled v.scale).skippedOne with skippedAny := true } := by
    rw [ctx_modCtx, ctx_countSkipped, ctx_of_lanes hlog.lanes, State.ctx_setCtx]
  have hcounted (f : Ctx → Ctx) : SameMemory u ((u.countSkipped x).modCtx x.val f) :=
    (sameMemory_countSkipped u x).trans (.of_eq rfl rfl)
  have hrescaled : Cleared (s.ctx x.val).who.req s (s.setCtx x.val ((s.ctx x.val).rescaled v.scale)) := .of_same rfl fun _ => rfl
  have hclear := (hrescaled.trans hlog.cleared).trans (hcounted fun cx => { cx with skippedAny := true }).cleared
  generalize State.modCtx (u.countSkipped x) _ _ = w at hcount hclear ⊢
  have hlast : LaneWork (s.ctx x.val).who.req w (foldS (w.raise Ev.updStepSkipped { tag := (s.ctx x.val).tag, domain := (s.ctx x.val).domain })
      (List.range (s.ctx x.val).layers) fun s' l => s'.signalAll (s.ctx x.val) ((s.ctx x.val).updSem + l)) :=
    (laneWork_raise _ _ _).trans (laneWork_foldS (fun _ _ => laneWork_signalAll _ _ _) _ _)
  generalize foldS _ _ _ = z at hlast ⊢
  have hctx := (ctx_of_lanes hlast.lanes x.val).trans hcount
  obtain ⟨vars, hbegun⟩ := beginStep_clean (s := z) (x := x) ((s.ctx x.val).stepNow + 1) (by
    rw [hctx]
    exact (hclear.trans hlast.cleared).poisonAll_ok h)
  exact ⟨vars, by rw [hbegun, hctx]⟩

/-! ### VERDICT of the parent -/

theorem giveVerdict_skip (hs : v.skip = true) (h : poisonAll s (s.ctx x.val).who.req (s.ctx x.val).freezeReads = .ok ()) :
    ∃ vars, (s.giveVerdict j x v []).ctx x.val =
      { ((s.ctx x.val).rescaled v.scale).skippedOne with skippedAny := true }.begun ((s.ctx x.val).stepNow + 1) vars := by
  unfold State.giveVerdict
  split
  · exact applyVerdict_skip hs h
  · exact applyVerdict_skip (s := s.emit _) hs ((SameMemory.poisonAll (s := s) (t := s.emit _) (.of_eq rfl rfl) _ _).trans h)

/-- What a parent's verdict needs to be taken: it is for the step that has voted, and of the variants listed. -/
structure TakesVerdict (s : State) (m : Msg) (v : VerdictMsg) (j : Job) (x : CtxId) : Prop where
  heard : Heard s m [0]
  ctxOf : s.wakeUp.ctxOf m.tag = some (j, x)
  parent : s.isParentPort m.port = true
  voting : (s.ctx x.val).state = .voting
  step : v.step = (s.ctx x.val).stepNow
  parts : v.parts.length = (s.ctx x.val).vars.length

theorem verdict_taken (h : TakesVerdict s m v j x) (rd : List Nat) : verdict m v rd s = s.wakeUp.giveVerdict j x v rd := by
  have hport : s.wakeUp.fromParent m.port = true := (wakeUp_keeps (·.fromParent m.port) fun _ => rfl).trans h.parent
  rw [verdict, receiveJob_member h.heard ((wakeUp_job s m.tag).symm.trans (ctxOf_job h.ctxOf)), h.ctxOf]
  dsimp only
  rw [ctx_wakeUp, if_neg (by simp [hport, h.voting, h.step, h.parts])]

theorem verdict_skip (h : TakesVerdict s m v j x) (hs : v.skip = true)
    (hp : poisonAll s (s.ctx x.val).who.req (s.ctx x.val).freezeReads = .ok ()) :
    ∃ t vars, exec (.verdict m v []) s = .next t ∧ t.ctx x.val =
      { ((s.ctx x.val).rescaled v.scale).skippedOne with skippedAny := true }.begun ((s.ctx x.val).stepNow + 1) vars := by
  have hwake : poisonAll s.wakeUp (s.wakeUp.ctx x.val).who.req (s.wakeUp.ctx x.val).freezeReads = .ok () := by
    rw [ctx_wakeUp]
    exact (SameMemory.poisonAll (.of_eq (wakeUp_mem s) (wakeUp_cl s)) _ _).trans hp
  obtain ⟨vars, hctx⟩ := giveVerdict_skip (j := j) hs hwake
  rw [ctx_wakeUp] at hctx
  exact ⟨_, vars, congrArg Host.Outcome.next (verdict_taken h []), hctx⟩

/-- A counter that stands below its limit takes one more. -/
theorem bump_fst_of_lt {k : W64} (h : k.toNat + 1 < 2 ^ 64) : (bump k).1 = k + 1 := by
  have hne : k ≠ BitVec.allOnes 64 := by
    rintro rfl
    rw [BitVec.toNat_allOnes] at h
    omega
  rw [bump, if_neg hne]

/-! ### A node without the job (log 15) -/

variable {rd : List Nat}

theorem vote_relayed {st : W32} {bad : Bool} {norms : List W32} (h : Heard s m [0]) (hj : s.job m.tag = none) (ht : m.tag ≠ 0)
    (hl : s.lnk.left = false) : vote m st bad norms rd s = s.wakeUp.emit (.vote (s.relayEdge m.port) m.tag st bad norms) :=
  receiveJob_elsewhere h hj ht hl _ _

theorem verdict_relayed (h : Heard s m [0]) (hj : s.job m.tag = none) (ht : m.tag ≠ 0) (hl : s.lnk.left = false) :
    verdict m v rd s = s.wakeUp.emit (.verdict (s.relayEdge m.port) m.tag v) := receiveJob_elsewhere h hj ht hl _ _

end Sys2Proof.Machine
end

section
/-! PROOFS. Training (chapter 10), layers (R261, R263), parked updates (R276) and the step size of the live job (12 R333). -/

namespace Sys2Proof.Machine

open Sys2Proof Sys2Proof.Safety

variable {s t u : State} {x : CtxId} {f : FnId} {q : QId} {v : W64}

/-! ### A layer ends (R261, R263) -/

/-- A layer that the lanes update for no variant is signalled, and the next one is entered. -/
theorem layerUpdateDone_kept {layer : Nat} {rd : List Nat} (hs : (s.ctx x.val).state = .updating)
    (hl : s.layerNow (s.ctx x.val) = some layer)
    (hkept : ∀ v ∈ (s.ctx x.val).vars, v.apply = false ∨ v.frozen layer = true ∨ layer ∈ v.skewed) :
    layerUpdateDone x layer rd s = ((s.signalAll (s.ctx x.val) ((s.ctx x.val).updSem + layer)).modCtx x.val fun y =>
      { y with nextLayer := layer + 1 }).layerEnd x rd := by
  have hfold : foldS s (s.ctx x.val).vars (fun u v =>
      if v.apply ∧ !v.frozen layer ∧ !v.skewed.contains layer then
        u.updLayer x v ⟨(s.ctx x.val).scaleUsed, v.c, (s.ctx x.val).lrLast, (s.ctx x.val).stepNow, u.gradStart 0 v.vid (s.ctx x.val).vars⟩ layer
      else u) = s := by
    refine foldS_keeps_mem (p := (· = s)) (fun u v hv hu => ?_) rfl
    have hkeep : ¬ (v.apply = true ∧ (!v.frozen layer) = true ∧ (!v.skewed.contains layer) = true) := by
      rcases hkept v hv with h | h | h <;> simp [h]
    exact (if_neg hkeep).trans hu
  unfold layerUpdateDone
  dsimp only
  rw [if_neg (by simp [hs, hl]), hfold]

/-! ### What an update reaches (R261, R265 to R269) -/

theorem lanes_putStateRow (s : State) (r : Req) (rows scl : Addr) (e : DirEntry) (i : Nat) (l : List W32) :
    Only laneBlocks s (putStateRow s r rows scl e i l) := only_trans (lanes_rewrite _ _ _ _) (lanes_rewrite _ _ _ _)

theorem lanes_ite {p : Prop} [Decidable p] (ht : Only laneBlocks s t) (hu : Only laneBlocks s u) :
    Only laneBlocks s (if p then t else u) := by
  split
  · exact ht
  · exact hu

/-- A part of the lanes' work that some rules leave out. -/
theorem lanes_part {p : Prop} [Decidable p] (h : Only laneBlocks s t) (k : Only laneBlocks t u) : Only laneBlocks s (if p then u else t) :=
  lanes_ite (only_trans h k) h

/-- A row raises an event, or writes weights and the state that its rule has. -/
theorem lanes_row (a : UpdArgs) (x : CtxId) (cx : Ctx) (e : DirEntry) (wAt grad : Addr) (sr : StateRec) (cs : List W32) (acc : UpdAcc)
    (i : Nat) : Only laneBlocks acc.s (a.row x cx e wAt grad sr cs acc i).s :=
  lanes_ite (lanes_raise _ _ _)
    (lanes_part (lanes_part (lanes_part (lanes_rewrite _ _ _ _) (lanes_putStateRow _ _ _ _ _ _ _)) (lanes_putStateRow _ _ _ _ _ _ _))
      (lanes_rewrite _ _ _ _))

theorem lanes_rows (a : UpdArgs) (x : CtxId) (cx : Ctx) (e : DirEntry) (wAt grad : Addr) (sr : StateRec) (cs : List W32) (l : List Nat)
    (acc : UpdAcc) : Only laneBlocks acc.s (l.foldl (a.row x cx e wAt grad sr cs) acc).s := by
  induction l generalizing acc with
  | nil => exact only_refl _ _
  | cons i l ih => exact only_trans (lanes_row a x cx e wAt grad sr cs acc i) (ih _)

theorem lanes_updTensor (s : State) (x : CtxId) (cx : Ctx) (v : TVar) (y : Variant) (p : Applied) (off : Nat) (e : DirEntry) :
    Only laneBlocks s (s.updTensor x cx v y p off e) := by
  unfold State.updTensor
  split
  · exact only_refl _ s
  · dsimp only
    exact only_trans (lanes_part (lanes_rows _ x cx e _ _ _ _ _ ⟨s, [], [], [], _⟩) (lanes_rewrite _ _ _ _)) (lanes_rewrite _ _ _ _)

theorem lanes_poisonStop (s : State) (g : Tag) (r : Req) (l : List (Addr × Nat)) : Only laneBlocks s (s.poisonStop g r l) := by
  unfold State.poisonStop
  split
  · exact only_refl _ s
  · exact lanes_faultJob _ _ _ _

theorem lanes_updLayer (s : State) (x : CtxId) (v : TVar) (p : Applied) (layer : Nat) : Only laneBlocks s (s.updLayer x v p layer) := by
  unfold State.updLayer
  split
  · exact only_refl _ s
  · exact only_foldS (fun u e => only_trans (only_trans (lanes_updTensor _ _ _ _ _ _ _ _) (lanes_noteReads _ _ _)) (lanes_poisonStop _ _ _ _)) _ s

/-! ### Parked updates (R276) -/

theorem lanes_clearPark (s : State) (cx : Ctx) (n : Nat) : Only laneBlocks s (s.clearPark cx n) := by
  unfold State.clearPark
  split
  · exact lanes_store _ _ _ _
  · exact only_refl _ s

theorem lanes_applyPark (s : State) (x : CtxId) (p : Park) : Only laneBlocks s (s.applyPark x p) := by
  unfold State.applyPark
  dsimp only
  split
  · refine only_trans (only_trans (only_foldS (fun u l => ?_) _ s) (lanes_clearPark _ _ _)) (lanes_raise _ _ _)
    split
    · exact only_refl _ u
    · exact lanes_updLayer _ _ _ _ _
  · exact only_refl _ s

/-- The updates of a variant that a context does not hold parked. -/
def Ctx.parksBut (cx : Ctx) (n : Nat) : List Park := cx.parks.filter fun p => p.vid != n

/-- The parked updates of a variant are applied, and leave their context; one left with none whose job has ended is free. -/
def State.applyParks (s : State) (n : Nat) (x : CtxId) : State :=
  let mine := (s.ctx x.val).parks.filter fun p => p.vid == n
  if mine.isEmpty then s
  else
    let s := foldS s mine fun s p => s.applyPark x p
    let cx := s.ctx x.val
    let l := cx.parks.filter fun p => p.vid != n
    s.setCtx x.val (if l.isEmpty ∧ cx.ended then cx.freed else { cx with parks := l })

theorem parkedApply_eq {vid : Vid} {y : Variant} (hy : s.variant vid.toNat = some y) (hs : y.stateIn = true) :
    parkedApply vid s = foldS s (List.finRange 64) fun s x => s.applyParks vid.toNat x := by
  unfold parkedApply
  rw [hy]
  dsimp only
  rw [if_neg (by simp [hs])]
  rfl

theorem lanes_foldApplyPark (s : State) (x : CtxId) (l : List Park) : Only laneBlocks s (foldS s l fun s p => s.applyPark x p) :=
  only_foldS (fun _ _ => lanes_applyPark _ _ _) l s

theorem applyParks_same (s : State) (n : Nat) (x : CtxId) : ((s.applyParks n x).ctx x.val).parks = (s.ctx x.val).parksBut n := by
  unfold State.applyParks
  dsimp only
  split
  · next hnone =>
    have hother := List.filter_eq_nil_iff.mp (List.isEmpty_iff.mp hnone)
    exact (List.filter_eq_self.mpr fun p hp => by simpa using hother p hp).symm
  · rw [ctx_of_lanes (lanes_foldApplyPark _ _ _), State.ctx_setCtx]
    split
    · next hfree => exact (List.isEmpty_iff.mp hfree.1).symm
    · rfl

theorem applyParks_other (s : State) (n : Nat) {x : CtxId} {k : Nat} (hk : k ≠ x.val) : (s.applyParks n x).ctx k = s.ctx k := by
  unfold State.applyParks
  dsimp only
  split
  · rfl
  · rw [ctx_setCtx_ne _ hk, ctx_of_lanes (lanes_foldApplyPark _ _ _)]

theorem applyParks_parks (s : State) (n : Nat) (x : CtxId) (k : Nat) :
    ((s.applyParks n x).ctx k).parks = if k = x.val then (s.ctx k).parksBut n else (s.ctx k).parks := by
  split
  · next hk => rw [hk, applyParks_same]
  · next hk => rw [applyParks_other s n hk]

theorem parkedApply_parks {vid : Vid} {y : Variant} (hy : s.variant vid.toNat = some y) (hs : y.stateIn = true) {k : Nat} (hk : k < 64) :
    ((parkedApply vid s).ctx k).parks = (s.ctx k).parksBut vid.toNat := by
  rw [parkedApply_eq hy hs]
  refine (foldS_part (part := fun s => (s.ctx k).parks) (hit := fun x : CtxId => k = x.val)
    (g := List.filter fun p => p.vid != vid.toNat) (fun l => by simp [List.filter_filter])
    (fun s x => applyParks_parks s vid.toNat x k) _ s).trans (if_pos ⟨⟨k, hk⟩, List.mem_finRange _, rfl⟩)

/-! ### WQ_STEP_LR (12 R333) -/

/-- The live training job of a queue. -/
def State.trainingOf (s : State) (f : FnId) (q : QId) : Option Job :=
  s.jobs.list.find? fun j => j.admitted && j.phase != .ended && j.fn == f && j.q == q && j.ctx.isSome

theorem wqStepLr_disabled (h : s.fnOn f = false) : wqStepLr f q v s = s := if_neg (by simp [h])

theorem wqStepLr_job {j : Job} (hu : s.up = true) (hf : s.fnOn f = true) (hj : s.trainingOf f q = some j) (hx : j.ctx = some x) :
    wqStepLr f q v s = s.setCtx x.val { s.ctx x.val with lrTag := v.extractLsb' 32 32, lr := v.truncate 32 } := by
  unfold State.trainingOf at hj
  rw [wqStepLr, State.fnReg, if_pos hf, State.hostReg, if_pos hu, hj]
  dsimp only
  rw [Option.bind_some, hx]
  rfl

theorem wqStepLr_noJob (hu : s.up = true) (hf : s.fnOn f = true) (hj : s.trainingOf f q = none) :
    wqStepLr f q v s = s.raise Ev.hifLrNoJob := by
  unfold State.trainingOf at hj
  rw [wqStepLr, State.fnReg, if_pos hf, State.hostReg, if_pos hu, hj]
  rfl

end Sys2Proof.Machine
end

section
/-! PROOFS. Training (chapter 10): the statement on slices, votes, verdicts, layers, parked updates and the step size. -/

namespace Sys2Proof.Machine

open Sys2Proof Sys2Proof.Safety

variable {s : State} {x : CtxId}

/-- The vote's reads of the control block, if there is one, meet no poison. -/
theorem ctrlReads_clean (h : ∀ a, ptrAddr (s.ctx x.val).ctrl.toNat = some a → poisonAll s (s.ctx x.val).who.req [(a.plus 16, 16)] = .ok ()) :
    poisonAll s (s.ctx x.val).who.req (s.ctx x.val).ctrlReads = .ok () := by
  unfold Ctx.ctrlReads
  split
  · next a ha => exact h a ha
  · rfl

/-- Settles O41: a slice by the branches of GRAD_SLICE, on the lemma that filled rows leave their context (`gradSlice_filled`); a vote and a
SKIP by following what the lanes' work leaves of the contexts (`laneBlocks`) and of the poison that their reads meet (`Cleared`); a
parked update as a fold over the contexts that filters each one's parks. -/
theorem trainingResult : Obligations.TrainingResult := by
  unfold Obligations.TrainingResult
  refine ⟨fun s tg vid layer step j x v y hx hv hy => ?_, fun s m x j => ?_⟩
  · have h : Trains s tg vid j x v y := ⟨hx, hv, hy⟩
    refine ⟨fun hr => congrArg Host.Outcome.next (gradSlice_waits h hr),
      fun ts hr hne => ⟨fun hf hs => ?_, fun hf hc => ?_, fun hf hs hc => ?_⟩⟩
    · obtain ⟨t, ht, hk⟩ := gradSlice_current h hr hne hf hs
      exact ⟨t, _, ht, hk.var, rfl, rfl, hk.bad, hk.slice, hk.lnk, hk.sec, hk.others, hk.bytes⟩
    · exact gradSlice_frozen h hr hne hf hc
    · exact gradSlice_skewed h hr hne hf hs hc
  · refine ⟨fun hx hp hs hl hg hw hc => ?_, fun bad norms rd h hx hp hn hv => ?_,
      fun hj h ht hl => ⟨fun st bad norms rd => ?_, fun v rd => ?_⟩, fun v h hx hp hs hstep hparts hskip hclean => ?_,
      fun layer rd hs hl hk => ⟨?_, fun a => ?_⟩, fun vid y hy hs => ?_, fun f q v hf => ?_, fun f q v hu hf hj hx => ?_,
      fun f q v hu hf hj => ?_⟩
    · have hpassed : s.streamsPassed (s.ctx x.val) = true := List.all_eq_true.mpr fun c hin => decide_eq_true (hc c hin).1
      obtain ⟨t, ht, hk⟩ := stepVote_waits ⟨hx, hs, hl, hg, hpassed, ctrlReads_clean hp⟩ hw
      exact ⟨t, ht, hk.state, hk.voted, fun c hin => hk.sems c hin (hc c hin).2.1 (hc c hin).2.2, hk.bad, hk.noCtrl⟩
    · exact congrArg Host.Outcome.next (vote_early h hx hp hn hv)
    · exact congrArg Host.Outcome.next (vote_relayed h hj ht hl)
    · exact congrArg Host.Outcome.next (verdict_relayed h hj ht hl)
    · obtain ⟨t, vars, ht, hctx⟩ := verdict_skip ⟨h, hx, hp, hs, hstep, hparts⟩ hskip hclean
      refine ⟨t, ht, ?_⟩
      rw [hctx]
      exact ⟨rfl, rfl, rfl, rfl, rfl, rfl, bump_fst_of_lt, rfl⟩
    · exact congrArg Host.Outcome.next (layerUpdateDone_kept hs hl hk)
    · exact (sameMemory_signalAll _ _ _).sameStore.1 a
    · exact ⟨_, rfl, fun k hk => parkedApply_parks hy hs hk⟩
    · exact congrArg Host.Outcome.next (wqStepLr_disabled hf)
    · exact congrArg Host.Outcome.next (wqStepLr_job hu hf hj hx)
    · exact congrArg Host.Outcome.next (wqStepLr_noJob hu hf hj)

end Sys2Proof.Machine
end

section
/-! PROOFS. The chain (chapter 11), parity of flits (R286): the check of a word counts its ones. -/

namespace Sys2Proof.Machine

open Sys2Proof

/-- A fold of exclusive ors is odd as often as its terms are true. -/
theorem foldl_xor_eq (p : Nat → Bool) : ∀ (l : List Nat) (b : Bool), l.foldl (fun q i => q ^^ p i) b = (b ^^ decide (l.countP p % 2 = 1))
  | [], b => by simp
  | i :: l, b => by
    rw [List.foldl_cons, foldl_xor_eq p l, List.countP_cons]
    rcases Nat.mod_two_eq_zero_or_one (l.countP p) with h | h <;> cases hp : p i <;> simp [Nat.add_mod, h]

/-- Where two predicates differ oddly often, one holds evenly and the other oddly often. -/
theorem countP_bne_mod_two (p q : Nat → Bool) :
    ∀ l : List Nat, (l.countP fun i => p i != q i) % 2 = (l.countP p + l.countP q) % 2
  | [] => rfl
  | i :: l => by
    have ih := countP_bne_mod_two p q l
    rw [List.countP_cons, List.countP_cons, List.countP_cons]
    cases p i <;> cases q i <;> simp <;> omega

variable {f g : BitVec 2048} {w : Nat}

/-- The ones of word w of a flit. -/
def wordOnes (f : BitVec 2048) (w : Nat) : Nat := (List.range 32).countP fun b => bitOf f (32 * w + b)

theorem testBit_flitWord (f : BitVec 2048) (w : Nat) {b : Nat} (hb : b < 32) : (flitWord f w).testBit b = bitOf f (32 * w + b) := by
  rw [flitWord, bitsOf, fld, show 32 * w + 31 + 1 - 32 * w = 32 by omega, Nat.testBit_mod_two_pow, Nat.testBit_div_two_pow,
    bitOf_eq_testBit, Nat.add_comm]
  simp [hb]

theorem oddOnes_flitWord (f : BitVec 2048) (w : Nat) : oddOnes (flitWord f w) = decide (wordOnes f w % 2 = 1) := by
  have hcount : (List.range 32).countP (fun i => (flitWord f w).testBit i) = wordOnes f w :=
    List.countP_congr fun b hb => by rw [testBit_flitWord f w (List.mem_range.mp hb)]
  rw [oddOnes, foldl_xor_eq, hcount, Bool.false_xor]

/-- The ones that the check of a word counts: its own and, but for word 6, that of its bit of the parity field. -/
def checkedOnes (f : BitVec 2048) (w : Nat) : Nat := wordOnes f w + if w = 6 then 0 else b2n (bitOf f (192 + w))

theorem wordOk_iff : wordOk f w = true ↔ checkedOnes f w % 2 = 0 := by
  rw [wordOk, checkedOnes]
  rcases Nat.mod_two_eq_zero_or_one (wordOnes f w) with h | h
  all_goals
    split
    · next h6 => subst h6; rw [oddOnes_flitWord]; simp [h]
    · rw [oddOnes_flitWord]; cases bitOf f (192 + w) <;> simp [b2n, Nat.add_mod, h]

/-- The four groups of 16 words are the 64 words. -/
theorem groupsOk_iff : (List.range 4).all (fun i => groupOk f i) = true ↔ ∀ w, w < 64 → wordOk f w = true := by
  simp only [groupOk, List.all_eq_true, List.mem_range]
  constructor
  · intro h w hw
    have := h (w / 16) (by omega) (w % 16) (by omega)
    rwa [Nat.div_add_mod] at this
  · exact fun h i hi k hk => h _ (by omega)

/-- The bit of the parity field for a word lies in another word, so that errors in the word leave it. -/
theorem parityBit_outside (hw : w < 64) (h6 : w ≠ 6) : (192 + w) / 32 ≠ w := by omega

/-- Settles O43: the check of a word is the parity of what it counts (`wordOk_iff`), and errors in one word leave its bit of the parity
field, so an odd number of them makes an even count odd. -/
theorem flitParityDetectsOddErrors : Obligations.FlitParityDetectsOddErrors := by
  unfold Obligations.FlitParityDetectsOddErrors
  refine fun f => ⟨?_, fun g w hf hw hsame hodd => ?_⟩
  · rw [groupsOk_iff]
    exact forall₂_congr fun w _ => wordOk_iff
  · have hbit : (if w = 6 then 0 else b2n (bitOf g (192 + w))) = if w = 6 then 0 else b2n (bitOf f (192 + w)) := by
      split
      · rfl
      · next h6 => rw [hsame _ (by omega) (parityBit_outside hw h6)]
    have hcount : (wordOnes g w + wordOnes f w) % 2 = 1 := (countP_bne_mod_two _ _ _).symm.trans hodd
    have hfw : checkedOnes f w % 2 = 0 := wordOk_iff.mp (groupsOk_iff.mp hf w hw)
    refine Bool.eq_false_iff.mpr fun hg => ?_
    have hgw : checkedOnes g w % 2 = 0 := wordOk_iff.mp (groupsOk_iff.mp hg w hw)
    rw [checkedOnes] at hfw hgw
    rw [hbit] at hgw
    omega

end Sys2Proof.Machine
end

section
/-! PROOFS. The chain (chapter 11), collectives (R300 to R305): the layout of a message, the start of a run and its ends, and what is
kept or refused of a member's messages. -/

namespace Sys2Proof.Machine

open Sys2Proof Sys2Proof.Safety

variable {s : State} {j : Job} {cv : Coll}

/-! ### The bytes of a message (Table 11.9) -/

theorem leAt_first {n x : Nat} (h : x < 256 ^ n) (l : Bytes) : leAt (leBytes n x ++ l) 0 n = x := by
  rw [leAt, List.drop_zero, List.take_left' (leBytes_length n x), leNat_leBytes h]

theorem leAt_skip {k i n x : Nat} (h : k ≤ i) (l : Bytes) : leAt (leBytes k x ++ l) i n = leAt l (i - k) n := by
  rw [leAt, List.drop_append, List.drop_of_length_le (by simpa using h), leBytes_length, List.nil_append, leAt]

/-- The fields of a message lie one after the other, ten reserved bytes between them and its data. -/
theorem collMsg_collBytes {x : CollMsg} (hentry : x.entry < 2 ^ 16) (hkind : x.kind < 2 ^ 8) (hhops : x.hops < 2 ^ 8)
    (hfirst : x.firstRow < 2 ^ 32) (hrows : x.nrows < 2 ^ 16) (hcol : x.firstCol < 2 ^ 32) (hcount : x.count < 2 ^ 32) :
    collMsg (collBytes x) = some x := by
  have hstep : x.step.toNat < 256 ^ 4 := x.step.isLt
  have hlen : ¬(collBytes x).length < 32 := by
    simp only [collBytes, List.length_append, leBytes_length, List.length_replicate]
    omega
  have hdata : (collBytes x).drop 32 = x.data := List.drop_left' (by
    simp only [List.length_append, leBytes_length, List.length_replicate])
  have hzero : leAt (collBytes x) 22 10 = 0 := by
    simp only [collBytes, List.append_assoc, leAt_skip, Nat.reduceLeDiff, Nat.reduceSub, ← leBytes_zero]
    exact leAt_first (by decide) _
  rw [collMsg, if_neg (by rintro (h | h); exacts [hlen h, h hzero]), hdata]
  simp only [collBytes, List.append_assoc, leAt_skip, Nat.reduceLeDiff, Nat.reduceSub]
  rw [leAt_first hstep, leAt_first hentry, leAt_first hkind, leAt_first hhops, leAt_first hfirst, leAt_first hrows, leAt_first hcol,
    leAt_first hcount, BitVec.ofNat_toNat, BitVec.setWidth_eq]

/-! ### The engine's notes -/

theorem collOf_key {t : Tag} {entry : Nat} (h : s.collOf t entry = some cv) : cv.tag = t ∧ cv.entry = entry := by
  simpa using List.find?_some h

/-- The notes of a run are found again as they were written. -/
theorem collOf_setColl {old : Coll} (h : s.collOf cv.tag cv.entry = some old) : (s.setColl cv).collOf cv.tag cv.entry = some cv := by
  have hkey : ((fun x : Coll => x.tag == cv.tag && x.entry == cv.entry) ∘ fun x => if x.tag == cv.tag && x.entry == cv.entry then cv else x) =
      fun x => x.tag == cv.tag && x.entry == cv.entry := by
    funext x
    rw [Function.comp_apply]
    split
    · next hx => rw [hx]; simp
    · rfl
  obtain ⟨htag, hentry⟩ := collOf_key h
  unfold State.collOf State.setColl
  rw [List.find?_map, hkey, show s.coll.find? (fun x => x.tag == cv.tag && x.entry == cv.entry) = some old from h, Option.map_some,
    if_pos (by simp [htag, hentry])]

/-- A signal leaves the engine's notes and memory; one to a semaphore of this node leaves the chain too. -/
theorem signalTo_leaves (s : State) (t : Tag) (r : SemRef) (n : W32) (sub : Byte) :
    (s.signalTo t r n sub).coll = s.coll ∧ (s.signalTo t r n sub).mem = s.mem ∧
      (r.node = s.lnk.node → (s.signalTo t r n sub).lnk = s.lnk) := by
  unfold State.signalTo
  split
  · obtain ⟨e, m, js, b, o, h⟩ := signalSem_only s t r.cluster.val r.index n sub
    rw [h]
    exact ⟨rfl, rfl, fun _ => rfl⟩
  · next hn =>
    rcases sendTo_only s r.node t (.signal r.node t (s.dataVc t) r.word n) with h | ⟨e, l, h⟩ <;> rw [h] <;>
      exact ⟨rfl, rfl, fun h => absurd h hn⟩

/-- No reads meet no failure, whatever is said of their parity. -/
theorem readThen_nil (s : State) (w : Who) (bad : List Nat) (k : State → State) : s.readThen w [] bad k = k s := rfl

/-! ### A run (R301) -/

/-- The state after the engine took 1 from a start semaphore. -/
def State.started (s : State) (cv : Coll) : State :=
  s.setClu cv.start.cluster.val ((s.clu cv.start.cluster.val).setSem cv.start.index ((s.clu cv.start.cluster.val).sem cv.start.index - 1))

theorem collectiveRun_busy {t : Tag} {entry : Nat} {bad : List Nat} (hj : s.job t = some j) (hc : s.collOf t entry = some cv)
    (hb : cv.busy = true) : collectiveRun t entry bad s = s := by
  unfold collectiveRun
  rw [hj, hc]
  exact if_pos (.inr (.inl hb))

/-- A run that starts without reads of own rows: 1 is taken, and the engine goes on at once. -/
theorem collectiveRun_starts {t : Tag} {entry : Nat} (hj : s.job t = some j) (hc : s.collOf t entry = some cv) (hs : j.stop = none)
    (hb : cv.busy = false) (hn : 0 < ((s.clu cv.start.cluster.val).sem cv.start.index).toNat)
    (hd : j.members.length ≤ 1 → cv.deliver = false) (hf : s.firstRows j cv = []) (bad : List Nat) :
    collectiveRun t entry bad s = (((s.started cv).collBegin j cv).collTry j entry) := by
  have hsem : (s.clu cv.start.cluster.val).sem cv.start.index ≠ 0 := fun h => by simp [h] at hn
  have hrows : (s.started cv).firstRows j cv = [] := hf
  unfold collectiveRun
  rw [hj, hc]
  dsimp only
  rw [if_neg (by rintro (h | h | h); exacts [by simp [hs] at h, by simp [hb] at h, hsem h]), if_neg (fun h => by simp [hd h.1] at h)]
  exact (congrArg (fun l => (s.started cv).readThen j.who (cv.reads (l.map (·.2))) bad _) hrows).trans (readThen_nil _ _ _ _)

/-- Without rows to send or to hand on, a run's start is its note alone. -/
theorem collBegin_quiet (hf : s.firstRows j cv = []) (hd : j.members.length ≤ 1 → cv.deliver = false) :
    s.collBegin j cv = s.setColl { cv with busy := true, due := (s.collOwes j cv).1, place := (s.collOwes j cv).2, told := false } := by
  unfold State.collBegin
  dsimp only
  rw [hf, if_neg (fun h => by simp [hd h.1] at h)]
  rfl

/-- A run that owes nothing ends at once: done is signalled and the run's messages are given up. -/
theorem collEnd_owesNothing {entry : Nat} (hc : s.collOf cv.tag entry = some cv) (hb : cv.busy = true) (hp : cv.place = 0)
    (hd : cv.due = []) (ht : cv.told = false) :
    (s.collEnd cv.tag entry).collOf cv.tag entry = some { cv with
        busy := false, run := cv.run + 1, told := false, sent := [], held := cv.held.filter fun x => x.2.step != cv.step } ∧
      (s.collEnd cv.tag entry).mem = s.mem ∧ (cv.done.node = s.lnk.node → (s.collEnd cv.tag entry).lnk = s.lnk) := by
  obtain ⟨-, rfl⟩ := collOf_key hc
  obtain ⟨hcoll, hmem, hlnk⟩ := signalTo_leaves (s.setColl { cv with told := true }) cv.tag cv.done 1 0xFF
  have hu : ((s.setColl { cv with told := true }).signalTo cv.tag cv.done 1).collOf cv.tag cv.entry = some { cv with told := true } := by
    unfold State.collOf
    rw [hcoll]
    exact collOf_setColl (cv := { cv with told := true }) hc
  generalize hv : (s.setColl { cv with told := true }).signalTo cv.tag cv.done 1 = v at hu hmem hlnk
  have hend : s.collEnd cv.tag cv.entry = v.setColl { cv with
      busy := false, run := cv.run + 1, told := false, sent := [], held := cv.held.filter fun x => x.2.step != cv.step } := by
    unfold State.collEnd
    rw [hc]
    dsimp only
    rw [if_neg (by simp [hb]), if_pos ⟨hp, by simp [ht]⟩, hv, hu]
    exact if_pos ⟨hp, hd⟩
  rw [hend]
  exact ⟨collOf_setColl hu, hmem, hlnk⟩

/-- The run of a member that is alone on its chain. -/
theorem collectiveRun_alone (hj : s.job cv.tag = some j) (hc : s.collOf cv.tag cv.entry = some cv) (hs : j.stop = none)
    (hb : cv.busy = false) (hn : 0 < ((s.clu cv.start.cluster.val).sem cv.start.index).toNat) (ha : j.members.length ≤ 1)
    (hd : cv.deliver = false) (bad : List Nat) :
    ∃ t, exec (.collectiveRun cv.tag cv.entry bad) s = .next t ∧
      t.collOf cv.tag cv.entry = some { cv with
        busy := false, run := cv.run + 1, told := false, due := [], place := 0, sent := []
        held := cv.held.filter fun x => x.2.step != cv.step } ∧ t.mem = s.mem ∧
      (cv.done.node = s.lnk.node → t.lnk = s.lnk) := by
  have hfirst (u : State) : u.firstRows j cv = [] := if_pos ha
  have howes : (s.started cv).collOwes j cv = ([], 0) := if_pos ha
  have hfound : ((s.started cv).setColl { cv with busy := true, due := [], place := 0, told := false }).collOf cv.tag cv.entry =
      some { cv with busy := true, due := [], place := 0, told := false } :=
    collOf_setColl (cv := { cv with busy := true, due := [], place := 0, told := false }) hc
  refine ⟨_, congrArg Host.Outcome.next (collectiveRun_starts hj hc hs hb hn (fun _ => hd) (hfirst s) bad), ?_⟩
  have htry : ((s.started cv).collBegin j cv).collTry j cv.entry =
      ((s.started cv).setColl { cv with busy := true, due := [], place := 0, told := false }).collEnd cv.tag cv.entry := by
    rw [collBegin_quiet (hfirst _) fun _ => hd, howes, State.collTry, State.job_tag hj]
    dsimp only
    rw [hfound]
    rfl
  rw [htry]
  exact collEnd_owesNothing (cv := { cv with busy := true, due := [], place := 0, told := false }) hfound rfl rfl rfl rfl

/-! ### A receiver of a broadcast (R304) -/

/-- While no message is held, no row has come whole. -/
theorem collParts_none (h : cv.held = []) (hk : cv.kind ≠ 4) (k : Bool × Bool × Nat) : s.collParts j cv k = none := by
  unfold State.collParts Coll.whole
  rw [if_neg hk, h]
  rfl

theorem collRow_waits {entry : Nat} (hc : s.collOf j.tag entry = some cv) (h : cv.held = []) (hk : cv.kind ≠ 4)
    (k : Bool × Bool × Nat) : s.collRow j entry k = s := by
  unfold State.collRow
  rw [hc]
  dsimp only
  rw [collParts_none h hk k]

/-- While no message is held, no row that is owed is handled. -/
theorem foldS_collRow_waits {entry : Nat} (hc : s.collOf j.tag entry = some cv) (h : cv.held = []) (hk : cv.kind ≠ 4)
    (l : List (Bool × Bool × Nat)) : foldS s l (fun s k => s.collRow j entry k) = s :=
  foldS_keeps (p := (· = s)) _ (fun u k hu => by rw [hu, collRow_waits hc h hk k]) l rfl

theorem collEnd_owes {t : Tag} {entry : Nat} (hc : s.collOf t entry = some cv) (hp : cv.place ≠ 0) : s.collEnd t entry = s := by
  unfold State.collEnd
  rw [hc]
  cases hb : cv.busy with
  | false => simp [hb]
  | true => simp [hb, hp, hc]

/-- A member of a broadcast below the root waits for every row. -/
theorem collectiveRun_receives (hj : s.job cv.tag = some j) (hc : s.collOf cv.tag cv.entry = some cv) (hs : j.stop = none)
    (hb : cv.busy = false) (hn : 0 < ((s.clu cv.start.cluster.val).sem cv.start.index).toNat) (hm : 1 < j.members.length)
    (hk : cv.kind = 5) (hr : s.jobRoot j = false) (hrows : 0 < cv.rows) (hheld : cv.held = []) (bad : List Nat) :
    collectiveRun cv.tag cv.entry bad s = (s.started cv).setColl { cv with
      busy := true, told := false, place := cv.rows, due := (List.range cv.rows).map fun r => (false, true, r) } := by
  have hmany : ¬j.members.length ≤ 1 := by omega
  have hroot : (s.started cv).jobRoot j = false := hr
  have hfirst : s.firstRows j cv = [] := by simp [State.firstRows, hmany, hk, hr]
  have howes : (s.started cv).collOwes j cv = ((List.range cv.rows).map fun r => (false, true, r), cv.rows) := by
    simp [State.collOwes, hmany, hk, hroot]
  have htag := State.job_tag hj
  generalize hcv : ({ cv with
      busy := true, told := false, place := cv.rows, due := (List.range cv.rows).map fun r => (false, true, r) } : Coll) = w
  have hfound : ((s.started cv).setColl w).collOf j.tag cv.entry = some w := by
    rw [htag, ← hcv]
    exact collOf_setColl hc
  have hwaits : w.held = [] ∧ w.kind ≠ 4 ∧ w.place ≠ 0 ∧ w.busy = true := by
    subst hcv
    exact ⟨hheld, by simp [hk], by simpa using Nat.ne_of_gt hrows, rfl⟩
  obtain ⟨hnone, hkind, hplace, hbusy⟩ := hwaits
  rw [collectiveRun_starts hj hc hs hb hn (fun h => absurd h hmany) hfirst bad, collBegin_quiet (s := s.started cv) hfirst fun h => absurd h hmany,
    howes, hcv, State.collTry, hfound]
  dsimp only
  rw [if_pos hbusy, foldS_collRow_waits hfound hnone hkind, collEnd_owes hfound hplace]

/-! ### Messages (R302, R304) -/

section Messages

variable {m : Msg} {data : Bytes} {x : CollMsg}

theorem collective_noHeader (h : Heard s m [2]) (hx : collMsg data = none) (bad : List Nat) :
    collective m data bad s = s.wakeUp.badMsg m.port m.vc.toNat := by
  rw [collective, receive_heard h, hx]

theorem collOf_wakeUp (s : State) (t : Tag) (n : Nat) : s.wakeUp.collOf t n = s.collOf t n := wakeUp_keeps (·.collOf t n) fun _ => rfl

/-- A message for a collective of a live job. -/
structure ForColl (s : State) (m : Msg) (data : Bytes) (x : CollMsg) (j : Job) (cv : Coll) : Prop where
  heard : Heard s m [2]
  bytes : collMsg data = some x
  job : s.job m.tag = some j
  coll : s.collOf m.tag x.entry = some cv
  live : j.stop = none

theorem collective_misfit (h : ForColl s m data x j cv) (hf : cv.fits x = false) (bad : List Nat) :
    collective m data bad s = s.wakeUp.badMsg m.port m.vc.toNat := by
  rw [collective, receive_heard h.heard, h.bytes]
  dsimp only
  rw [wakeUp_job, collOf_wakeUp, h.job, h.coll]
  simp [h.live, hf]

theorem collective_otherStep (h : ForColl s m data x j cv) (hf : cv.fits x = true) (hs : x.step ≠ cv.step) (bad : List Nat) :
    collective m data bad s =
      (s.wakeUp.countBadMsg m.port).faultJob m.tag Ev.collStep (lnkInfo s.wakeUp m.port m.vc.toNat) := by
  rw [collective, receive_heard h.heard, h.bytes]
  dsimp only
  rw [wakeUp_job, collOf_wakeUp, h.job, h.coll]
  simp [h.live, hf, hs]

/-- Before its run starts, a message of the run's step is kept, and nothing is owed that it could complete. -/
theorem collective_kept (h : ForColl s m data x j cv) (hf : cv.fits x = true) (hs : x.step = cv.step) (hb : cv.busy = false)
    (bad : List Nat) :
    collective m data bad s = s.wakeUp.setColl { cv with held := cv.held ++ [(m.port, x)] } := by
  obtain ⟨htag, hentry⟩ := collOf_key h.coll
  generalize hcv : ({ cv with held := cv.held ++ [(m.port, x)] } : Coll) = w
  have hfound : (s.wakeUp.setColl w).collOf j.tag x.entry = some w := by
    rw [State.job_tag h.job, ← hcv, ← htag, ← hentry]
    refine collOf_setColl (old := cv) ?_
    rw [collOf_wakeUp, htag, hentry]
    exact h.coll
  have hidle : w.busy = false := by rw [← hcv]; exact hb
  have hreads : (s.wakeUp.setColl w).combinesNow j w x = [] := by simp [State.combinesNow, hidle]
  have htry : (s.wakeUp.setColl w).collTry j x.entry = s.wakeUp.setColl w := by simp [State.collTry, hfound, hidle]
  rw [collective, receive_heard h.heard, h.bytes]
  dsimp only
  rw [wakeUp_job, collOf_wakeUp, h.job, h.coll]
  dsimp only
  rw [if_neg (by simp [h.live]), if_neg (by simp [hf]), if_neg (by simp [hs]), hcv, hreads]
  exact (readThen_nil _ _ _ _).trans htry

end Messages

/-- Settles O42: by the layout of a message, the starts of a run that read no own row, and the branches of COLLECTIVE. -/
theorem collectiveResult : Obligations.CollectiveResult := by
  unfold Obligations.CollectiveResult
  refine ⟨fun x hentry hkind hhops hfirst hrows hcol hcount => collMsg_collBytes hentry hkind hhops hfirst hrows hcol hcount,
    fun s j cv hj hc hs => ⟨fun bad hb hn => ⟨fun ha hd => ?_, fun hm hk hr hrows hheld => ?_⟩, fun _ hb bad => ?_,
      fun m data bad hm htag => ⟨fun hx => ?_, fun x hx hentry => ?_⟩⟩⟩
  · exact collectiveRun_alone hj hc hs hb hn ha hd bad
  · exact congrArg Host.Outcome.next (collectiveRun_receives hj hc hs hb hn hm hk hr hrows hheld bad)
  · exact congrArg Host.Outcome.next (collectiveRun_busy hj hc hb)
  · exact congrArg Host.Outcome.next (collective_noHeader hm hx bad)
  · have h : ForColl s m data x j cv := ⟨hm, hx, htag ▸ hj, htag ▸ hentry ▸ hc, hs⟩
    exact ⟨fun hb hf hstep => congrArg Host.Outcome.next (collective_kept h hf hstep hb bad),
      fun hf hstep => congrArg Host.Outcome.next (collective_otherStep h hf hstep bad),
      fun hf => congrArg Host.Outcome.next (collective_misfit h hf bad)⟩

end Sys2Proof.Machine
end

section
/-! PROOFS. The chain (chapter 11), the layer of the ports: a port's record after an update, events that turn on the node and the clock, the
fields of a flit under an update, and what is left of a port's link layer when it starts again. -/

namespace Sys2Proof.Machine

open Sys2Proof Sys2Proof.Safety

variable {s t u : State} {p : PortId} {x : Port}

/-! ### A port's record -/

theorem port_setPort_ne {p q : Nat} (y : Port) (h : q ≠ p) : (s.setPort p y).port q = s.port q := mget_mset_ne _ _ _ _ h

theorem setPort_setPort (s : State) (p : Nat) (y z : Port) : (s.setPort p y).setPort p z = s.setPort p z := by
  simp only [State.setPort, mset_mset]

theorem port_modPort (s : State) (p : Nat) (f : Port → Port) : (s.modPort p f).port p = f (s.port p) := State.port_setPort s p _

theorem port_modPort_ne {p q : Nat} (f : Port → Port) (h : q ≠ p) : (s.modPort p f).port q = s.port q := port_setPort_ne _ h

theorem modPort_setPort (s : State) (p : Nat) (y : Port) (f : Port → Port) : (s.setPort p y).modPort p f = s.setPort p (f y) := by
  rw [State.modPort, State.port_setPort, setPort_setPort]

theorem modPort_modPort (s : State) (p : Nat) (f g : Port → Port) : (s.modPort p f).modPort p g = s.modPort p fun x => g (f x) :=
  modPort_setPort _ _ _ _

@[simp] theorem wakeUp_port (s : State) (p : Nat) : s.wakeUp.port p = s.port p := wakeUp_keeps (·.port p) fun _ => rfl

theorem wakeUp_lnkInfo (s : State) (p : PortId) (vc : Nat) : lnkInfo s.wakeUp p vc = lnkInfo s p vc :=
  wakeUp_keeps (lnkInfo · p vc) fun _ => rfl

theorem raise_port (s : State) (c : W16) (i : EvInfo) (p : Nat) : (s.raise c i).port p = s.port p := by
  rw [State.port, raise_lnk, State.port]

theorem emit_port (s : State) (o : Out) (p : Nat) : (s.emit o).port p = s.port p := rfl

theorem only_setPort (s : State) (p : Nat) (y : Port) : Only [.lnk] s (s.setPort p y) := only_lnk s _

/-! ### Events -/

/-- What a raise makes of the events turns on the events, the node's ID and the clock. -/
theorem raise_evt_of_clock (he : t.evt = s.evt) (hn : t.lnk.node = s.lnk.node) (hc : t.life.clock = s.life.clock) (c : W16)
    (i : EvInfo) : (t.raise c i).evt = (s.raise c i).evt := by
  unfold State.raise
  rw [he, hn, hc]
  dsimp only
  split <;> rfl

/-! ### The ports of a cold start (15 R403) -/

theorem portsTry_of_phase (h : s.glb.phase ≠ 3) : s.portsTry = s := if_neg (by simp [h])

theorem portDown_eq (s : State) (p : PortId) (code : W16) :
    s.portDown p code = (s.setPort p.val { s.port p.val with state := .down, trained := false }).raise code (lnkInfo s p 0xFF) := rfl

/-- Outside the port step of a start a port that goes down is waited for by nothing. -/
theorem portDown_portsTry (h : s.glb.phase ≠ 3) (p : PortId) (code : W16) : (s.portDown p code).portsTry = s.portDown p code :=
  portsTry_of_phase (by rw [portDown_eq, (only_raise _ _ _).2 .glb (by decide)]; exact h)

/-! ### LNK_CMD (Table 11.20) -/

theorem lnkOp_runs {v : W64} {op : Nat} (hu : s.up = true) (hb : s.lnk.cmdState ≠ .busy) (ho : bitsOf v 63 60 = op) (k : State → State) :
    s.lnkOp v op k = k s := by
  unfold State.lnkOp State.hostReg
  dsimp only
  rw [if_pos hu, if_neg (by simp [ho]), if_neg hb, if_neg (by simp [ho])]

/-! ### Receive slots that become free -/

/-- Nothing changes but counts of freed receive slots. -/
def SlotsFreed (s t : State) : Prop :=
  (∃ l, t = { s with lnk := { s.lnk with ports := l } }) ∧ ∀ q, t.port q = { s.port q with freed := (t.port q).freed }

theorem SlotsFreed.refl (s : State) : SlotsFreed s s := ⟨⟨_, rfl⟩, fun _ => rfl⟩

theorem SlotsFreed.trans (h : SlotsFreed s t) (k : SlotsFreed t u) : SlotsFreed s u := by
  obtain ⟨⟨l, hl⟩, hq⟩ := h
  obtain ⟨⟨m, hm⟩, hr⟩ := k
  refine ⟨⟨m, by rw [hm, hl]⟩, fun q => ?_⟩
  have hq := hq q
  have hr := hr q
  generalize (t.port q).freed = f at hq
  generalize (u.port q).freed = g at hr ⊢
  rw [hr, hq]

theorem slotsFreed_release (s : State) (p : Nat) (vc n : Nat) : SlotsFreed s (s.modPort p fun x => x.release vc n) := by
  refine ⟨⟨_, rfl⟩, fun q => ?_⟩
  by_cases hq : q = p
  · subst hq
    rw [port_modPort]
    rfl
  · rw [port_modPort_ne _ hq]

theorem slotsFreed_freeSrc (s : State) (e : TxFlit) : SlotsFreed s (s.freeSrc e) := by
  unfold State.freeSrc
  split
  · exact slotsFreed_release _ _ _ _
  · exact .refl s

theorem slotsFreed_foldS (l : List TxFlit) (s : State) : SlotsFreed s (foldS s l fun s e => s.freeSrc e) :=
  foldS_keeps (p := SlotsFreed s) _ (fun _ e h => h.trans (slotsFreed_freeSrc _ e)) l (.refl s)

/-! ### A link layer that starts again (15 R396) -/

/-- What of a port's queue does not wait behind a message under way. -/
def Port.unbegun (x : Port) : List TxFlit := (splitUnder x.under x.txQ).2

/-- A port whose link layer has started again: idle flits go out, and VC0 is granted anew. -/
def Port.fresh (x : Port) : Port := { { x with txQ := x.unbegun }.restarted.grant 0 with idleOnly := true }

theorem restartPort_eq (s : State) (p : PortId) : ∃ u, SlotsFreed s u ∧ s.restartPort p = u.setPort p.val (s.port p.val).fresh := by
  have hfreed := slotsFreed_foldS (splitUnder (s.port p.val).under (s.port p.val).txQ).1 s
  refine ⟨_, hfreed, ?_⟩
  unfold State.restartPort State.modPort
  dsimp only
  rw [hfreed.2 p.val]
  rfl

theorem port_restartPort (s : State) (p : PortId) : (s.restartPort p).port p.val = (s.port p.val).fresh := by
  obtain ⟨u, -, h⟩ := restartPort_eq s p
  rw [h, State.port_setPort]

theorem port_restartPort_ne {q : Nat} (h : q ≠ p.val) :
    (s.restartPort p).port q = { s.port q with freed := ((s.restartPort p).port q).freed } := by
  obtain ⟨u, hu, he⟩ := restartPort_eq s p
  rw [he, port_setPort_ne _ h]
  exact hu.2 q

theorem restartPort_only (s : State) (p : PortId) : ∃ l, s.restartPort p = { s with lnk := { s.lnk with ports := l } } := by
  obtain ⟨u, ⟨⟨l, rfl⟩, -⟩, he⟩ := restartPort_eq s p
  exact ⟨_, he⟩

/-! ### A port that opens (R283) -/

/-- The channels that a port carries once it opens. -/
def State.opensTo (s : State) : PortState := if s.glb.ready then .up else .upVc0

theorem grant_eq (x : Port) (vc : Nat) : ∃ f g, x.grant vc = { x with freed := f, granted := g } := by
  unfold Port.grant
  split
  · exact ⟨_, _, rfl⟩
  · exact ⟨_, _, rfl⟩

/-- Opening changes a port's state and what its receive slots are granted. -/
theorem open'_eq (x : Port) (ready : Bool) :
    ∃ f g, x.open' ready = { x with state := if ready then .up else .upVc0, freed := f, granted := g } := by
  obtain ⟨f₀, g₀, h₀⟩ := grant_eq x 0
  unfold Port.open'
  dsimp only
  rw [h₀]
  cases ready with
  | false => exact ⟨f₀, g₀, rfl⟩
  | true =>
    obtain ⟨f₁, g₁, h₁⟩ := grant_eq { x with freed := f₀, granted := g₀, state := .up } 1
    obtain ⟨f₂, g₂, h₂⟩ := grant_eq { x with freed := f₁, granted := g₁, state := .up } 2
    obtain ⟨f₃, g₃, h₃⟩ := grant_eq { x with freed := f₂, granted := g₂, state := .up } 3
    refine ⟨f₃, g₃, ?_⟩
    simp only [if_true]
    rw [h₁, h₂, h₃]

theorem fresh_keeps (x : Port) : x.fresh.state = x.state ∧ x.fresh.secret = x.secret := by
  obtain ⟨f, g, h⟩ := grant_eq { x with txQ := x.unbegun }.restarted 0
  unfold Port.fresh
  rw [h]
  exact ⟨rfl, rfl⟩

/-! ### Fields of a flit -/

theorem testBit_fld (n lo len i : Nat) : (fld n lo len).testBit i = (decide (i < len) && n.testBit (lo + i)) := by
  rw [fld, Nat.testBit_mod_two_pow, Nat.testBit_div_two_pow, Nat.add_comm]

/-- A field takes its bits from the value placed in it, every other bit stays. -/
theorem testBit_setFld (n lo len v i : Nat) :
    (setFld n lo len v).testBit i = if lo ≤ i ∧ i < lo + len then v.testBit (i - lo) else n.testBit i := by
  have hlow : n % 2 ^ lo < 2 ^ lo := Nat.mod_lt _ (Nat.two_pow_pos lo)
  have hval : v % 2 ^ len < 2 ^ len := Nat.mod_lt _ (Nat.two_pow_pos len)
  have hsplit : setFld n lo len v = 2 ^ lo * (2 ^ len * (n / 2 ^ lo / 2 ^ len) + v % 2 ^ len) + n % 2 ^ lo := by
    have h₁ := Nat.div_add_mod n (2 ^ lo)
    have h₂ := Nat.div_add_mod (n / 2 ^ lo) (2 ^ len)
    unfold setFld fld
    generalize n / 2 ^ lo / 2 ^ len = c at *
    generalize n / 2 ^ lo % 2 ^ len = b at *
    rw [← h₂] at h₁
    rw [Nat.mul_add] at h₁ ⊢
    rw [Nat.mul_comm b, Nat.mul_comm (v % 2 ^ len)]
    omega
  rw [hsplit, Nat.testBit_two_pow_mul_add _ hlow, Nat.testBit_two_pow_mul_add _ hval]
  by_cases h₁ : i < lo
  · rw [if_pos h₁, if_neg (by omega), Nat.testBit_mod_two_pow]
    simp [h₁]
  · by_cases h₂ : i - lo < len
    · rw [if_neg h₁, if_pos h₂, if_pos (by omega), Nat.testBit_mod_two_pow]
      simp [h₂]
    · rw [if_neg h₁, if_neg h₂, if_neg (by omega), Nat.testBit_div_two_pow, Nat.testBit_div_two_pow]
      congr 1
      omega

theorem fld_setFld_ne {n lo len v lo' len' : Nat} (h : lo' + len' ≤ lo ∨ lo + len ≤ lo') :
    fld (setFld n lo len v) lo' len' = fld n lo' len' := by
  refine Nat.eq_of_testBit_eq fun i => ?_
  rw [testBit_fld, testBit_fld, testBit_setFld]
  by_cases hi : i < len'
  · rw [if_neg (by omega)]
  · simp [hi]

theorem fld_setFld_within {n lo len v lo' len' : Nat} (h₁ : lo ≤ lo') (h₂ : lo' + len' ≤ lo + len) :
    fld (setFld n lo len v) lo' len' = fld v (lo' - lo) len' := by
  refine Nat.eq_of_testBit_eq fun i => ?_
  rw [testBit_fld, testBit_fld, testBit_setFld]
  by_cases hi : i < len'
  · rw [if_pos (by omega), show lo' + i - lo = lo' - lo + i by omega]
  · simp [hi]

theorem fld_ofNat {w n lo len : Nat} (h : lo + len ≤ w) : fld (BitVec.ofNat w n).toNat lo len = fld n lo len := by
  refine Nat.eq_of_testBit_eq fun i => ?_
  rw [testBit_fld, testBit_fld, BitVec.toNat_ofNat, Nat.testBit_mod_two_pow]
  by_cases hi : i < len
  · simp [show lo + i < w by omega]
  · simp [hi]

/-- A flit that takes a link word and its parity keeps its header and its payload. -/
theorem bitsOf_withLink (f : BitVec 2048) (link : Nat) {hi lo : Nat} (h : hi < 128 ∨ 256 ≤ lo) (hhi : hi < 2048) (hlo : lo ≤ hi) :
    bitsOf (withLink f link) hi lo = bitsOf f hi lo := by
  have hlen : lo + (hi + 1 - lo) ≤ 2048 := by omega
  unfold bitsOf withLink
  dsimp only
  rw [fld_ofNat hlen, fld_setFld_ne (by omega), fld_setFld_ne (by omega), fld_setFld_ne (by omega)]

/-- The link word of a flit is the one it was given. -/
theorem bitsOf_withLink_link (f : BitVec 2048) (link : Nat) {hi lo : Nat} (h : 128 ≤ lo) (hhi : hi < 192) (hlo : lo ≤ hi) :
    bitsOf (withLink f link) hi lo = fld link (lo - 128) (hi + 1 - lo) := by
  have hlen : lo + (hi + 1 - lo) ≤ 2048 := by omega
  unfold bitsOf withLink
  dsimp only
  rw [fld_ofNat hlen, fld_setFld_ne (by omega), fld_setFld_ne (by omega),
    fld_setFld_within (by omega) (by omega)]

/-! ### The link word of a port (Table 11.4) -/

/-- The fields below the number and the acknowledgement fill no more than their 40 bits. -/
theorem linkWord_fields (x : Port) (idle : Bool) (h : x.restart = false) :
    ∃ low, low < 2 ^ 40 ∧ x.linkWord idle = x.txSeq.toNat * 2 ^ 52 + x.ack.toNat * 2 ^ 40 + low := by
  have hfreed (i : Nat) : (x.freed.getD i 0).toNat < 512 := (x.freed.getD i 0).isLt
  have h0 := hfreed 0
  have h1 := hfreed 1
  have h2 := hfreed 2
  have h3 := hfreed 3
  have hbit (b : Bool) : b2n b ≤ 1 := by cases b <;> decide
  have hn := hbit x.nakNext
  have hi := hbit idle
  refine ⟨b2n x.nakNext * 2 ^ 39 + b2n idle * 2 ^ 37 + (x.freed.getD 3 0).toNat * 2 ^ 27 + (x.freed.getD 2 0).toNat * 2 ^ 18 +
    (x.freed.getD 1 0).toNat * 2 ^ 9 + (x.freed.getD 0 0).toNat, by omega, ?_⟩
  rw [Port.linkWord]
  simp only [h, Bool.false_eq_true, if_false]
  omega

theorem linkSeq_dress (f : BitVec 2048) (h : x.restart = false) : linkSeq (x.dress f) = x.txSeq := by
  obtain ⟨low, hlow, hw⟩ := linkWord_fields x false h
  have hs := x.txSeq.isLt
  have ha := x.ack.isLt
  have hfld : fld (x.linkWord false) 52 12 = x.txSeq.toNat := by
    rw [hw, fld]
    omega
  rw [linkSeq, Port.dress, bitsOf_withLink_link _ _ (by omega) (by omega) (by omega)]
  exact (congrArg (BitVec.ofNat 12) hfld).trans (by simp)

theorem linkAck_dress (f : BitVec 2048) (h : x.restart = false) : linkAck (x.dress f) = x.ack := by
  obtain ⟨low, hlow, hw⟩ := linkWord_fields x false h
  have ha := x.ack.isLt
  have hfld : fld (x.linkWord false) 40 12 = x.ack.toNat := by
    rw [hw, fld]
    omega
  rw [linkAck, Port.dress, bitsOf_withLink_link _ _ (by omega) (by omega) (by omega)]
  exact (congrArg (BitVec.ofNat 12) hfld).trans (by simp)

theorem flitWord_dress (x : Port) (f : BitVec 2048) {w : Nat} (hw : w < 64) (h : w < 4 ∨ 8 ≤ w) :
    flitWord (x.dress f) w = flitWord f w := bitsOf_withLink _ _ (by omega) (by omega) (by omega)

end Sys2Proof.Machine
end

section
/-! PROOFS. The chain (chapter 11), the life of a port (R283, R284, R288, R313, R396; 13 R354; 15 R403): training, key agreement, rekeys,
retrains and what is sent again after them. -/

namespace Sys2Proof.Machine

open Sys2Proof Sys2Proof.Safety

variable {s t u : State} {p : PortId} {x : Port}

/-! ### Training (R283) -/

/-- A port whose lanes have trained: its keys are to be agreed. -/
def Port.keyless (x : Port) : Port :=
  { x with
    state := .training, trained := true, agreed := false, secret := none, heldKey := none, heldCount := [], epoch := 0
    peerIdd := [], peerExchange := [], txCount := [], rxCount := [], stopped := [], rekeying := false, restart := false
    idleOnly := false }

/-- Trained lanes start the port's link layer, and this end's offer goes out. -/
theorem beginKeys_begins (s : State) (p : PortId) :
    (s.beginKeys p).port p.val = (s.port p.val).fresh.keyless ∧ (s.beginKeys p).out = s.out ++ [.keyOffer p s.offer] := by
  obtain ⟨l, h⟩ := restartPort_only s p
  have hbegin : s.beginKeys p = ((s.restartPort p).modPort p.val Port.keyless).emit (.keyOffer p s.offer) := rfl
  rw [hbegin, emit_port, port_modPort, port_restartPort, h]
  exact ⟨rfl, rfl⟩

theorem portTrained_trained (he : (s.port p.val).enabled = true)
    (hs : (s.port p.val).state = .untrained ∨ (s.port p.val).state = .training) (hr : s.rst.held = .none) (ok : Bool) :
    portTrained p ok s = if ok then s.beginKeys p else (s.portDown p Ev.lnkTrainFail).portsTry := by
  refine if_neg ?_
  rintro (h | ⟨h, h'⟩ | h)
  · simp [he] at h
  · rcases hs with hs | hs
    · exact h hs
    · exact h' hs
  · exact h hr

/-! ### Key agreement (13 R354) -/

/-- A port that has agreed a secret: its counters start again, what it held is the secret before. -/
def Port.keyed (x : Port) (z : Bytes) (e : W32) : Port :=
  { x with
    secret := some z, heldKey := x.secret, heldCount := x.rxCount, heldEnds := false, epoch := e, agreed := true
    opening := x.opening.map fun c => c.map fun c => { c with old := true }
    txCount := [], rxCount := [], stopped := [], rekeying := false }

/-- The link secret of a port's ends under a shared one and an epoch. -/
def State.linkSecret (s : State) (x : Port) (ss : Bytes) (e : W32) : Bytes :=
  kdf (ss ++ (if s.lower x then s.idd else x.peerIdd) ++ (if s.lower x then x.peerIdd else s.idd) ++ leBytes 4 e.toNat) 64

/-- A first agreement opens the port, and HELLO goes out. -/
theorem agree_first (ha : (s.port p.val).agreed = false) (hg : s.glb.phase ≠ 3) (ss : Bytes) :
    ∃ z, s.agree p ss = (s.setPort p.val (((s.port p.val).keyed z 0).open' s.glb.ready)).sayHello p := by
  refine ⟨s.linkSecret (s.port p.val) ss 0, ?_⟩
  unfold State.agree
  dsimp only
  rw [if_neg (by simp [ha]), State.setPort_glb, if_neg hg, ha]
  rfl

/-- A LNK_REKEY of a port is done. -/
def State.rekeyDone (s : State) (p : PortId) : State :=
  if s.lnk.rekeyPort = some p then s.setLnk fun l => { l with cmdState := .done, reason := 0, rekeyPort := none } else s

theorem rekeyDone_keeps (s : State) (p : PortId) (q : Nat) : (s.rekeyDone p).port q = s.port q ∧ (s.rekeyDone p).evt = s.evt := by
  unfold State.rekeyDone
  split <;> exact ⟨rfl, rfl⟩

/-- An agreement on a port that has a secret is a rekey to the next epoch. -/
theorem agree_rekey (ha : (s.port p.val).agreed = true) (ss : Bytes) :
    (∃ z, (s.agree p ss).port p.val = (s.port p.val).keyed z ((s.port p.val).epoch + 1)) ∧
      (s.agree p ss).evt = (s.raise Ev.lnkRekey (lnkInfo s p 0xFF)).evt := by
  have hagree : s.agree p ss = ((s.setPort p.val ((s.port p.val).keyed
      (s.linkSecret (s.port p.val) ss ((s.port p.val).epoch + 1)) ((s.port p.val).epoch + 1))).raise Ev.lnkRekey
        (lnkInfo s p 0xFF)).rekeyDone p := by
    unfold State.agree
    dsimp only
    rw [if_pos ha, ha]
    rfl
  rw [hagree, (rekeyDone_keeps _ p p.val).1, (rekeyDone_keeps _ p p.val).2, raise_port, State.port_setPort]
  exact ⟨⟨_, rfl⟩, raise_evt_of_clock (by rfl) (by rfl) (by rfl) _ _⟩

/-- A port that opened with a secret of its own. -/
structure OpenedWith (x y : Port) (st : PortState) : Prop where
  agreed : y.agreed = true
  state : y.state = st
  epoch : y.epoch = 0
  secret : y.secret.isSome = true
  txCount : y.txCount = []

theorem openedWith_keyed (x : Port) (z : Bytes) (ready : Bool) :
    OpenedWith x ((x.keyed z 0).open' ready) (if ready then .up else .upVc0) := by
  obtain ⟨f, g, h⟩ := open'_eq (x.keyed z 0) ready
  rw [h]
  exact ⟨rfl, rfl, rfl, rfl, rfl⟩

/-- Random bytes use up free values and count a request. -/
theorem random_only (s : State) (n : Nat) : ∃ f x, (s.random n).2 = { s with free := f, sec := x } := by
  obtain ⟨f, h⟩ := freeBytes_only s (ceilDiv n 64)
  refine ⟨f, { s.sec with drbgRequests := (if 2 ^ 16 ≤ (s.freeBytes (ceilDiv n 64)).2.sec.drbgRequests then 0
    else (s.freeBytes (ceilDiv n 64)).2.sec.drbgRequests) + 1 }, ?_⟩
  unfold State.random
  dsimp only
  rw [h]

/-- The lower end answers an offer with a ciphertext, and its port opens. -/
theorem encapsulate_lower (hl : s.lower (s.port p.val) = true) (he : s.sec.entropyOk = true) (ha : (s.port p.val).agreed = false)
    (hg : s.glb.phase ≠ 3) :
    OpenedWith (s.port p.val) ((s.encapsulate p).port p.val) s.opensTo ∧ (∃ c, Out.keyCiphertext p c ∈ (s.encapsulate p).out) ∧
      Out.hello p s.lnk.node glbId ∈ (s.encapsulate p).out := by
  obtain ⟨f, x, hr⟩ := random_only s 32
  generalize hc : Config.kemEncap (s.port p.val).peerExchange (s.random 32).1 = c
  have henc : s.encapsulate p = ((s.random 32).2.emit (.keyCiphertext p c.1)).agree p c.2 := by
    unfold State.encapsulate
    dsimp only
    rw [if_neg (by simp [hl, he]), hc]
  generalize hu : (s.random 32).2.emit (.keyCiphertext p c.1) = u at henc
  have hu : u = { s with free := f, sec := x, out := s.out ++ [.keyCiphertext p c.1] } := by rw [← hu, hr]; rfl
  have hport : u.port p.val = s.port p.val := by rw [hu]; rfl
  obtain ⟨z, hz⟩ := agree_first (s := u) (p := p) (by rw [hport]; exact ha) (by rw [hu]; exact hg) c.2
  have hout : (s.encapsulate p).out = s.out ++ [.keyCiphertext p c.1] ++ [.hello p s.lnk.node glbId] := by
    rw [henc, hz, hu]
    rfl
  have hat : (s.encapsulate p).port p.val = ((s.port p.val).keyed z 0).open' s.glb.ready := by
    rw [henc, hz, hport, hu]
    exact State.port_setPort _ _ _
  rw [hat, hout]
  exact ⟨openedWith_keyed _ _ _, ⟨c.1, by simp⟩, by simp⟩

theorem encapsulate_higher (hl : s.lower (s.port p.val) = false) : s.encapsulate p = s := if_pos (by simp [hl])

/-- A port that waits for its peer's offer. -/
structure AwaitsKey (s : State) (p : PortId) : Prop where
  state : (s.port p.val).state = .training
  trained : (s.port p.val).trained = true
  agreed : (s.port p.val).agreed = false
  held : s.rst.held = .none

theorem keyOffer_checks (h : AwaitsKey s p) (o : KeyOffer) :
    keyOffer p o s = if !offerOk o then (s.wakeUp.portDown p Ev.secPeerBad).portsTry
      else (s.wakeUp.modPort p.val fun y => { y with
        peerIdd := Config.shake256 (certKey o.idCert) 32, peerExchange := o.exchange }).encapsulate p := by
  refine if_neg ?_
  rintro (h' | h' | h' | h')
  · exact h' h.state
  · simp [h.trained] at h'
  · simp [h.agreed] at h'
  · exact h' h.held

theorem keyOffer_bad (h : AwaitsKey s p) (hg : s.glb.phase ≠ 3) {o : KeyOffer} (ho : offerOk o = false) :
    keyOffer p o s = (s.wakeUp.setPort p.val { s.port p.val with state := .down, trained := false }).raise Ev.secPeerBad (lnkInfo s p 0xFF) := by
  rw [keyOffer_checks h, if_pos (by simp [ho]), portDown_portsTry (by rwa [wakeUp_glb]), portDown_eq, wakeUp_port, wakeUp_lnkInfo]

/-- A good offer is kept, and the lower end answers it. -/
theorem keyOffer_good (h : AwaitsKey s p) (hg : s.glb.phase ≠ 3) {o : KeyOffer} (ho : offerOk o = true) (he : s.sec.entropyOk = true)
    {y : Port} (hy : y = { s.port p.val with peerIdd := Config.shake256 (certKey o.idCert) 32, peerExchange := o.exchange }) :
    if s.lower y = true then
      OpenedWith y ((keyOffer p o s).port p.val) s.opensTo ∧ (∃ c, Out.keyCiphertext p c ∈ (keyOffer p o s).out) ∧
        Out.hello p s.lnk.node glbId ∈ (keyOffer p o s).out
    else keyOffer p o s = s.wakeUp.setPort p.val y := by
  have hkept : keyOffer p o s = (s.wakeUp.setPort p.val y).encapsulate p := by
    rw [keyOffer_checks h, if_neg (by simp [ho]), hy, State.modPort, wakeUp_port]
  have hlower : (s.wakeUp.setPort p.val y).lower ((s.wakeUp.setPort p.val y).port p.val) = s.lower y := by
    rw [State.port_setPort]
    exact wakeUp_keeps (·.lower y) fun _ => rfl
  have hagreed : ((s.wakeUp.setPort p.val y).port p.val).agreed = false := by
    rw [State.port_setPort, hy]
    exact h.agreed
  obtain ⟨r, hr⟩ := wakeUp_only s
  rw [hkept]
  split
  · next hl =>
    have hanswer := encapsulate_lower (hlower.trans hl) (by rw [hr]; exact he) hagreed (by rw [State.setPort_glb, wakeUp_glb]; exact hg)
    have hopens : (s.wakeUp.setPort p.val y).opensTo = s.opensTo := by rw [hr]; rfl
    have hnode : (s.wakeUp.setPort p.val y).lnk.node = s.lnk.node := by rw [hr]; rfl
    rwa [State.port_setPort, hopens, hnode] at hanswer
  · next hl => exact encapsulate_higher (hlower.trans (Bool.eq_false_iff.mpr hl))

/-- The higher end takes a ciphertext where its port waits for it, or has a secret that it replaces. -/
theorem keyCiphertext_taken (hx : (s.port p.val).peerExchange ≠ []) (hl : s.lower (s.port p.val) = false) (hr : s.rst.held = .none)
    (ho : ((s.port p.val).state = .training ∧ (s.port p.val).agreed = false) ∨ (s.portRuns p = true ∧ (s.port p.val).agreed = true))
    {seed : Bytes} (hs : s.sec.exchangeSeed = some seed) (ct : Bytes) :
    keyCiphertext p ct s = s.wakeUp.agree p (Config.kemDecap seed ct) := by
  unfold keyCiphertext
  dsimp only
  rw [if_neg, hs]
  rintro (h | h | h | h)
  · exact hx h
  · simp [hl] at h
  · exact h hr
  · rcases ho with ⟨h₁, h₂⟩ | ⟨h₁, h₂⟩
    · simp [h₁, h₂] at h
    · rw [State.portRuns] at h₁
      rw [h₁, h₂] at h
      simp at h

theorem keyCiphertext_opens (h : AwaitsKey s p) (hg : s.glb.phase ≠ 3) (hx : (s.port p.val).peerExchange ≠ [])
    (hl : s.lower (s.port p.val) = false) {seed : Bytes} (hs : s.sec.exchangeSeed = some seed) (ct : Bytes) :
    OpenedWith (s.port p.val) ((keyCiphertext p ct s).port p.val) s.opensTo ∧
      (keyCiphertext p ct s).out = s.out ++ [.hello p s.lnk.node glbId] := by
  obtain ⟨z, hz⟩ := agree_first (s := s.wakeUp) (p := p) (by rw [wakeUp_port]; exact h.agreed) (by rw [wakeUp_glb]; exact hg)
    (Config.kemDecap seed ct)
  rw [keyCiphertext_taken hx hl h.held (.inl ⟨h.state, h.agreed⟩) hs, hz, wakeUp_port, wakeUp_glb]
  have hopened := openedWith_keyed (s.port p.val) z s.glb.ready
  constructor
  · rw [show ∀ (v : State) (y : Port), ((v.setPort p.val y).sayHello p).port p.val = y from fun v y => State.port_setPort _ _ _]
    exact hopened
  · show s.wakeUp.out ++ [Out.hello p s.wakeUp.lnk.node glbId] = _
    rw [wakeUp_out, wakeUp_lnk]

/-! ### Retrains (R284) -/

/-- A port that stops for a retrain. -/
def Port.stopped' (x : Port) : Port :=
  { x with state := .retraining, naks := 0, retrains := if x.retrains = 0xFF then 0xFF else x.retrains + 1 }

theorem retrain_runs (h : s.portRuns p = true) :
    s.retrain p = ((s.setPort p.val (s.port p.val).stopped').bumpLife 4).raise Ev.lnkRetrain (lnkInfo s p 0xFF) := by
  have hopen : ¬((s.port p.val).state ≠ .up ∧ (s.port p.val).state ≠ .upVc0) := by
    rintro ⟨h₁, h₂⟩
    simp [State.portRuns, h₁, h₂] at h
  have hinfo : lnkInfo (s.setPort p.val (s.port p.val).stopped') p 0xFF = lnkInfo s p 0xFF := by
    rw [lnkInfo, State.port_setPort]
    rfl
  rw [← hinfo]
  unfold State.retrain
  exact if_neg hopen

/-- A retrain changes the one port, a life counter and the events. -/
theorem retrain_does (h : s.portRuns p = true) :
    Only [.lnk, .evt, .life] s (s.retrain p) ∧ (s.retrain p).port p.val = (s.port p.val).stopped' ∧
      (s.retrain p).evt = (s.raise Ev.lnkRetrain (lnkInfo s p 0xFF)).evt ∧ ∀ q, q ≠ p.val → (s.retrain p).port q = s.port q := by
  rw [retrain_runs h]
  refine ⟨?_, (raise_port _ _ _ _).trans (State.port_setPort _ _ _), raise_evt_of_clock (by rfl) (by rfl) (by rfl) _ _,
    fun q hq => (raise_port _ _ _ _).trans (port_setPort_ne _ hq)⟩
  exact only_step (b := .evt) (only_step (b := .life) (only_mono (only_setPort s _ _) (by decide)) (only_life _ _) (by decide))
    (only_raise _ _ _) (by decide)

/-! ### Rekeys (R313) -/

/-- At the higher end a rekey waits for the lower one. -/
theorem rekey_higher (hl : s.lower (s.port p.val) = false) : s.rekey p = s.modPort p.val fun x => { x with rekeying := true } := by
  refine encapsulate_higher ?_
  rw [port_modPort]
  exact hl

theorem rekeyThreshold_higher (hr : s.portRuns p = true) (ha : (s.port p.val).agreed = true) (hl : s.lower (s.port p.val) = false)
    (d : Option Dom) :
    rekeyThreshold p d s = s.setPort p.val { s.port p.val with
      txCount := mset 0 (s.port p.val).txCount (linkKeyNo d) (BitVec.ofNat 64 (2 ^ 39)), rekeying := true } := by
  unfold rekeyThreshold
  rw [if_neg (by simp [hr, ha]), rekey_higher, modPort_modPort]
  · rfl
  · rw [port_modPort]
    exact hl

/-- The port after its counter under a key has come to its end. -/
def Port.exhausted (x : Port) (k : Nat) : Port :=
  { x with txCount := mset 0 x.txCount k (BitVec.ofNat 64 (2 ^ 40)), stopped := k :: x.stopped }

theorem keyExhausted_retrains (hr : s.portRuns p = true) (ha : (s.port p.val).agreed = true) {d : Option Dom}
    (hd : linkKeyNo d ∉ (s.port p.val).stopped) :
    keyExhausted p d s = (s.setPort p.val ((s.port p.val).exhausted (linkKeyNo d))).retrain p := by
  refine if_neg ?_
  simp [hr, ha, hd]

theorem lnkRekey_starts {v : W64} (hu : s.up = true) (hb : s.lnk.cmdState ≠ .busy) (ho : bitsOf v 63 60 = 3) (hp : bitsOf v 59 56 = p.val)
    (hr : s.portRuns p = true) (ha : (s.port p.val).agreed = true) (hl : s.lower (s.port p.val) = false) :
    lnkRekey v s = (s.setLnk fun l => { l with cmdState := .busy, reason := 0, rekeyPort := some p }).setPort p.val
      { s.port p.val with rekeying := true } := by
  have hn : bitsOf v 59 56 < 12 := hp ▸ p.isLt
  have hport : (⟨bitsOf v 59 56, hn⟩ : PortId) = p := Fin.ext hp
  unfold lnkRekey
  rw [lnkOp_runs hu hb ho]
  dsimp only
  rw [dif_pos hn, hport, if_neg (by simp [hr, hp, ha]), rekey_higher]
  · rfl
  · exact hl

/-! ### What is sent again (R288, R289) -/

/-- A port before another flit of its replay buffer leaves, and every flit that has left: under its own number, with the port's
acknowledgement. -/
structure SendsAgain (s : State) (p : PortId) (y : Port) (l : List (BitVec 2048)) (t : State) : Prop where
  only : Only [.lnk, .out] s t
  port : ∃ n b, t.port p.val = { y with nakNext := n, said := b }
  out : ∃ fs : List (BitVec 2048), t.out = s.out ++ fs.map (Out.flit p) ∧ List.Forall₂ (fun g h => linkSeq h = linkSeq g ∧
    linkAck h = y.ack ∧ ∀ w, w < 64 → (w < 4 ∨ 8 ≤ w) → flitWord h w = flitWord g w) l fs

theorem SendsAgain.next {y : Port} {l : List (BitVec 2048)} (h : SendsAgain s p y l t) (hr : y.restart = false) (g : BitVec 2048) :
    SendsAgain s p y (l ++ [g]) (t.sendAgain p g) := by
  obtain ⟨n, b, hp⟩ := h.port
  obtain ⟨fs, hout, hfs⟩ := h.out
  refine ⟨only_step (b := .out) (only_step (b := .lnk) h.only (only_setPort _ _ _) (by decide)) (only_emit _ _) (by decide),
    ⟨false, true, ?_⟩, fs ++ [({ y with nakNext := n, said := b, txSeq := linkSeq g } : Port).dress g], ?_, ?_⟩
  · exact (State.port_setPort _ _ _).trans (by rw [hp])
  · show t.out ++ [_] = _
    rw [hout, hp, List.map_append, List.append_assoc]
    rfl
  · refine List.rel_append hfs (.cons ⟨?_, ?_, fun w hw h48 => ?_⟩ .nil)
    · exact linkSeq_dress _ hr
    · exact linkAck_dress _ hr
    · exact flitWord_dress _ _ hw h48

theorem sendsAgain_foldS {y : Port} (hr : y.restart = false) (l : List (BitVec 2048)) :
    ∀ {l' : List (BitVec 2048)} {t : State}, SendsAgain s p y l' t → SendsAgain s p y (l' ++ l) (foldS t l fun s g => s.sendAgain p g) := by
  induction l with
  | nil => intro l' t h; rwa [List.append_nil]
  | cons g l ih =>
    intro l' t h
    rw [foldS_cons, List.append_cons]
    exact ih (h.next hr g)

/-- A retrain that succeeds on a port with nothing in its queue sends every unacknowledged flit again. -/
theorem retrainDone_resends (hs : (s.port p.val).state = .retraining) (ha : (s.port p.val).agreed = true) (hq : (s.port p.val).txQ = [])
    (hm : (s.port p.val).missing = []) (hr : (s.port p.val).restart = false) :
    ∃ y, (y.state = s.opensTo ∧ y.replayBuf = (s.port p.val).replayBuf ∧ y.ack = (s.port p.val).ack) ∧
      SendsAgain s p y (s.port p.val).replayBuf (retrainDone p true s) := by
  obtain ⟨f, g, ho⟩ := open'_eq (s.port p.val) s.glb.ready
  generalize hy : ({ s.port p.val with state := if s.glb.ready then .up else .upVc0, freed := f, granted := g, wantReplay := false } : Port) = y
  have hstart : SendsAgain s p y [] (s.setPort p.val y) :=
    ⟨only_mono (only_setPort s _ _) (by decide), ⟨y.nakNext, y.said, State.port_setPort _ _ _⟩, [], by simp, .nil⟩
  have hfields : y.restart = false ∧ y.txQ = [] ∧ y.state = s.opensTo ∧ y.replayBuf = (s.port p.val).replayBuf ∧
      y.ack = (s.port p.val).ack := by
    rw [← hy]
    exact ⟨hr, hq, rfl, rfl, rfl⟩
  obtain ⟨hrestart, hqueue, hstate, hbuf, hack⟩ := hfields
  have hsent := sendsAgain_foldS hrestart (s.port p.val).replayBuf hstart
  rw [List.nil_append] at hsent
  refine ⟨y, ⟨hstate, hbuf, hack⟩, ?_⟩
  generalize hv : (foldS (s.setPort p.val y) (s.port p.val).replayBuf fun s g => s.sendAgain p g) = v at hsent
  have hdone : retrainDone p true s = v.drainAll p := by
    unfold retrainDone State.resend
    dsimp only
    rw [if_neg (by simp [hs]), if_pos rfl, if_pos ha, ho, State.port_setPort, if_neg (by simp [hm]), setPort_setPort, ← hv, ← hy]
  obtain ⟨n, b, hport⟩ := hsent.port
  rw [hdone, drainAll_empty v p (by rw [hport]; exact hqueue)]
  exact hsent

/-! ### Quiet links (15 R419) -/

theorem quiet_heard {m : Msg} (hs : (s.port m.port.val).state = .up) (h : Heard s m [0]) :
    quiet m s = s.setPort m.port.val { s.port m.port.val with
      peerQuiet := true, quiet := (s.port m.port.val).quiet || s.rst.pwr == .restQuiet } := by
  obtain ⟨hport, hvc, hkey, hlive, hverifies⟩ := h
  have hkeyLive : s.retiredKey m.tag = false := (wakeUp_keeps (·.retiredKey m.tag) fun _ => rfl).symm.trans hlive
  unfold quiet State.checked
  rw [if_neg (by simp [hport, hs]), if_neg (by simp only [hvc, hkey]; simp), if_neg (by simp [hkeyLive]), if_neg (by simp [hverifies])]
  rfl

/-! ### Boot images (15 R403) -/

theorem bootImageRequest_gives (hr : s.portRuns p = true) (hh : s.rst.held = .none) (hi : s.sec.runningSet.isSome = true) :
    bootImageRequest p s = s.wakeUp.emit (.image p) := if_pos ⟨hh, by simp [State.portLives, hr], hi⟩

theorem bootImageRequest_none (hi : s.sec.runningSet = none) : bootImageRequest p s = s := if_neg (by simp [hi])

/-! ### The clauses about a port -/

theorem portTrained_begins (he : (s.port p.val).enabled = true)
    (hs : (s.port p.val).state = .untrained ∨ (s.port p.val).state = .training) (hr : s.rst.held = .none) :
    exec (.portTrained p true) s = .next (s.beginKeys p) := congrArg Host.Outcome.next (portTrained_trained he hs hr true)

theorem portTrained_fails (he : (s.port p.val).enabled = true)
    (hs : (s.port p.val).state = .untrained ∨ (s.port p.val).state = .training) (hr : s.rst.held = .none) (hg : s.glb.phase ≠ 3) :
    exec (.portTrained p false) s =
      .next ((s.setPort p.val { s.port p.val with state := .down, trained := false }).raise Ev.lnkTrainFail (lnkInfo s p 0xFF)) :=
  congrArg Host.Outcome.next ((portTrained_trained he hs hr false).trans (portDown_portsTry hg p _))

theorem retrainDone_down (hs : (s.port p.val).state = .retraining) (hg : s.glb.phase ≠ 3) :
    retrainDone p false s =
      (s.setPort p.val { s.port p.val with state := .down, trained := false }).raise Ev.lnkDown (lnkInfo s p 0xFF) := by
  unfold retrainDone
  dsimp only
  rw [if_neg (by simp [hs]), if_neg (by decide), portDown_portsTry hg, portDown_eq]

/-- A port that runs retrains on silence, where it is not quiet, and on a loss of lock. -/
theorem retrains_on {cmd : Instr} (hc : cmd ∈ [Instr.rxSilenceTimeout p, .laneLockLoss p])
    (hq : cmd = .laneLockLoss p ∨ (s.port p.val).quiet = false) : exec cmd s = .next (s.retrain p) := by
  have hloss : exec (.laneLockLoss p) s = .next (s.retrain p) := rfl
  rcases List.mem_cons.mp hc with rfl | hc
  · rcases hq with hq | hq
    · cases hq
    · exact congrArg Host.Outcome.next (if_neg (by simp [hq]))
  · rw [List.mem_singleton.mp hc, hloss]

theorem keyExhausted_does (hr : s.portRuns p = true) (ha : (s.port p.val).agreed = true) {d : Option Dom}
    (hd : linkKeyNo d ∉ (s.port p.val).stopped) :
    Does (.keyExhausted p d) s [.lnk, .evt, .life] fun t =>
      (t.port p.val).state = .retraining ∧ linkKeyNo d ∈ (t.port p.val).stopped := by
  have hruns : (s.setPort p.val ((s.port p.val).exhausted (linkKeyNo d))).portRuns p = true := by
    unfold State.portRuns
    rw [State.port_setPort]
    exact hr
  obtain ⟨honly, hport, -, -⟩ := retrain_does hruns
  rw [State.port_setPort] at hport
  refine ⟨_, congrArg Host.Outcome.next (keyExhausted_retrains hr ha hd),
    only_trans (only_mono (only_setPort s _ _) (by decide)) honly, ?_⟩
  beta_reduce
  rw [hport]
  exact ⟨rfl, List.mem_cons_self⟩

theorem retrainDone_does (hs : (s.port p.val).state = .retraining) (ha : (s.port p.val).agreed = true) (hq : (s.port p.val).txQ = [])
    (hm : (s.port p.val).missing = []) (hr : (s.port p.val).restart = false) :
    Does (.retrainDone p true) s [.lnk, .out] fun t =>
      (t.port p.val).state = s.opensTo ∧ (t.port p.val).replayBuf = (s.port p.val).replayBuf ∧
      ∃ fs : List (BitVec 2048), t.out = s.out ++ fs.map (Out.flit p) ∧ fs.length = (s.port p.val).replayBuf.length ∧
        ∀ (i : Nat) (g h : BitVec 2048), (s.port p.val).replayBuf[i]? = some g → fs[i]? = some h →
          linkSeq h = linkSeq g ∧ linkAck h = (s.port p.val).ack ∧
            ∀ w, w < 64 → (w < 4 ∨ 8 ≤ w) → flitWord h w = flitWord g w := by
  obtain ⟨y, ⟨hstate, hbuf, hack⟩, hsent⟩ := retrainDone_resends hs ha hq hm hr
  obtain ⟨n, b, hport⟩ := hsent.port
  obtain ⟨fs, hout, hfs⟩ := hsent.out
  refine ⟨_, rfl, hsent.only, ?_⟩
  show (State.port (retrainDone p true s) p.val).state = _ ∧ _
  rw [hport]
  refine ⟨hstate, hbuf, fs, hout, hfs.length_eq.symm, fun i g h hg hh => ?_⟩
  obtain ⟨hi, rfl⟩ := List.getElem?_eq_some_iff.mp hg
  obtain ⟨hi', rfl⟩ := List.getElem?_eq_some_iff.mp hh
  rw [← hack]
  exact hfs.get hi hi'

theorem restartPort_does (s : State) (p : PortId) :
    Does (.rstFlit p) s [.lnk] fun t => (t.port p.val).idleOnly = true ∧ (t.port p.val).replayBuf = [] ∧
      (t.port p.val).txSeq = 0 ∧ (t.port p.val).rxSeq = 0 ∧ (t.port p.val).state = (s.port p.val).state ∧
      (t.port p.val).secret = (s.port p.val).secret ∧ ∀ q, q ≠ p.val → t.port q = { s.port q with freed := (t.port q).freed } := by
  obtain ⟨l, hl⟩ := restartPort_only s p
  refine ⟨s.restartPort p, rfl, hl ▸ only_lnk s _, ?_⟩
  beta_reduce
  rw [port_restartPort]
  obtain ⟨hstate, hsecret⟩ := fresh_keeps (s.port p.val)
  exact ⟨rfl, rfl, rfl, rfl, hstate, hsecret, fun q hq => port_restartPort_ne hq⟩

/-- Settles O44: each command of a port's life by the lemma above that says what it does, and, after a retrain, the flits sent again by
induction on the replay buffer (`sendsAgain_foldS`). -/
theorem portLifeResult : Obligations.PortLifeResult := by
  unfold Obligations.PortLifeResult
  intro s p hg x u put opened
  have awaits (hs : (s.port p.val).state = .training) (ht : (s.port p.val).trained = true) (ha : (s.port p.val).agreed = false)
      (hr : s.rst.held = .none) : AwaitsKey s p := ⟨hs, ht, ha, hr⟩
  refine ⟨fun he hs hr => ⟨?_, portTrained_fails he hs hr hg⟩, fun hs ht ha hr => ⟨fun o ho => ?_, fun o ho hent => ?_,
    fun ct seed hx hl hseed => ?_⟩, fun hr ha hx hl hheld ct seed hseed => ?_, fun hr => ⟨fun cmd hc hq => ?_, fun hq => ?_,
    fun ha hl d => ?_, fun ha d hd => keyExhausted_does hr ha hd, fun v hu hb ho hp ha hl => ?_, fun hh hi => ?_, fun hi => ?_⟩,
    fun hs => ⟨retrainDone_does hs, ?_⟩, restartPort_does s p, fun hs m hm hp => ?_⟩
  · obtain ⟨hport, hout⟩ := beginKeys_begins s p
    refine ⟨_, portTrained_begins he hs hr, ?_⟩
    rw [hport]
    exact ⟨rfl, rfl, rfl, rfl, rfl, rfl, rfl, rfl, rfl, rfl, hout⟩
  · exact congrArg Host.Outcome.next (keyOffer_bad (awaits hs ht ha hr) hg ho)
  · intro y
    have hy : y = { s.port p.val with peerIdd := Config.shake256 (certKey o.idCert) 32, peerExchange := o.exchange } := by rfl
    clear_value y
    have hgood := keyOffer_good (awaits hs ht ha hr) hg ho hent hy
    refine ⟨keyOffer p o s, rfl, ?_⟩
    split
    · next hl =>
      rw [if_pos hl] at hgood
      obtain ⟨hopened, hct, hhello⟩ := hgood
      exact ⟨hopened.agreed, hopened.state, hopened.epoch, hopened.secret, hopened.txCount, hct, hhello⟩
    · next hl => rwa [if_neg hl] at hgood
  · obtain ⟨hopened, hout⟩ := keyCiphertext_opens (awaits hs ht ha hr) hg hx hl hseed ct
    exact ⟨_, rfl, hopened.agreed, hopened.state, hopened.secret, hout⟩
  · obtain ⟨⟨z, hport⟩, hevt⟩ := agree_rekey (s := s.wakeUp) (p := p) (by rw [wakeUp_port]; exact ha) (Config.kemDecap seed ct)
    rw [wakeUp_port] at hport
    refine ⟨_, congrArg Host.Outcome.next (keyCiphertext_taken hx hl hheld (.inr ⟨hr, ha⟩) hseed ct), ?_⟩
    rw [hport]
    refine ⟨rfl, rfl, rfl, rfl, rfl, rfl, rfl, hevt.trans ?_⟩
    rw [wakeUp_lnkInfo]
    exact raise_evt_congr (wakeUp_evt s) (wakeUp_lnk s) (wakeUp_life s) _ _
  · obtain ⟨honly, hport, hevt, hothers⟩ := retrain_does hr
    exact ⟨_, retrains_on hc hq, honly, hport, hevt, hothers⟩
  · exact congrArg Host.Outcome.next (if_pos hq)
  · refine ⟨_, congrArg Host.Outcome.next (rekeyThreshold_higher hr ha hl d), only_setPort s _ _, ?_⟩
    beta_reduce
    rw [State.port_setPort]
    exact ⟨rfl, rfl, mget_mset_same (0 : W64) (s.port p.val).txCount (linkKeyNo d) (BitVec.ofNat 64 (2 ^ 39))⟩
  · exact ⟨_, congrArg Host.Outcome.next (lnkRekey_starts hu hb ho hp hr ha hl), only_trans (only_lnk s _) (only_setPort _ _ _), rfl,
      rfl, State.port_setPort _ _ _⟩
  · exact congrArg Host.Outcome.next (bootImageRequest_gives hr hh hi)
  · exact congrArg Host.Outcome.next (bootImageRequest_none hi)
  · exact congrArg Host.Outcome.next (retrainDone_down hs hg)
  · subst hp
    exact congrArg Host.Outcome.next (quiet_heard hs hm)

end Sys2Proof.Machine
end

section
/-! PROOFS. The chain (chapter 11), flits that arrive (R286 to R292, R297, R312, R313; 08 R198) and WRITE (R293). -/

namespace Sys2Proof.Machine

open Sys2Proof Sys2Proof.Safety

variable {s t u : State} {p q : PortId} {x y z : Port} {f : BitVec 2048} {old : Bool}

/-! ### Changes of one port -/

/-- A state that differs in the record of one port alone. -/
structure OnPort (s t : State) (p : PortId) (y : Port) : Prop where
  only : ∃ l, t = { s with lnk := { s.lnk with ports := l } }
  port : t.port p.val = y
  others : ∀ q, q ≠ p.val → t.port q = s.port q

theorem OnPort.refl (s : State) (p : PortId) : OnPort s s p (s.port p.val) := ⟨⟨_, rfl⟩, rfl, fun _ _ => rfl⟩

theorem OnPort.trans (h : OnPort s t p y) (k : OnPort t u p z) : OnPort s u p z := by
  obtain ⟨l, rfl⟩ := h.only
  obtain ⟨m, rfl⟩ := k.only
  exact ⟨⟨m, rfl⟩, k.port, fun q hq => (k.others q hq).trans (h.others q hq)⟩

theorem onPort_setPort (s : State) (p : PortId) (y : Port) : OnPort s (s.setPort p.val y) p y :=
  ⟨⟨_, rfl⟩, State.port_setPort _ _ _, fun _ hq => port_setPort_ne _ hq⟩

theorem OnPort.setPort (h : OnPort s t p y) (z : Port) : OnPort s (t.setPort p.val z) p z := h.trans (onPort_setPort t p z)

theorem OnPort.modPort (h : OnPort s t p y) (g : Port → Port) : OnPort s (t.modPort p.val g) p (g y) := by
  rw [State.modPort, h.port]
  exact h.setPort _

theorem OnPort.lnk (h : OnPort s t p y) : Only [.lnk] s t := by
  obtain ⟨l, rfl⟩ := h.only
  exact only_lnk s _

/-! ### A flit that fails (R286, R289) -/

theorem portLives_of_runs (h : s.portRuns p = true) : s.portLives p = true := by simp [State.portLives, h]

theorem flitReceive_fails (hr : s.portRuns p = true) (hh : s.rst.held = .none) (hf : groupOk f 0 = false) :
    flitReceive p f old s = s.nakFlit p := by
  have hstomp : s.stompTry p f old = s := if_pos (.inl (by simp [hf]))
  have hall : (List.range 4).all (fun i => groupOk f i) = false := by
    rw [List.all_eq_false]
    exact ⟨0, by simp, by simp [hf]⟩
  unfold flitReceive
  rw [if_neg (by simp [portLives_of_runs hr, hh]), if_pos (by simp [hall]), hstomp]

/-- A NAK before the eighth in a row, with a counter that goes on. -/
theorem nakFlit_counts (hn : (s.port p.val).naks + 1 < 8) (hc : (s.port p.val).replays.toNat + 1 < 2 ^ 64 - 1) :
    s.nakFlit p = (s.setPort p.val { s.port p.val with
      discarding := true, nakNext := true, naks := (s.port p.val).naks + 1, replays := (s.port p.val).replays + 1 }).bumpLife 5 := by
  unfold State.nakFlit
  dsimp only
  rw [(bump_below hc).2, bump_fst_below hc, if_neg (by omega), Bool.or_false]
  rfl

/-! ### A flit that came in order (R288) -/

/-- A port that took the acknowledgement and the credits of a flit. -/
def Port.acked (x : Port) (f : BitVec 2048) : Port :=
  { x with
    credit := (List.range 4).map fun i => linkCredit f i
    replayBuf := x.replayBuf.filter fun g => seqAhead (linkSeq g) (linkAck f)
    missing := x.missing.filter fun n => seqAhead n (linkAck f) }

/-- A port that took a flit other than an idle one. -/
def Port.received (x : Port) (f : BitVec 2048) : Port :=
  { x.acked f with discarding := false, rxSeq := x.rxSeq + 1, ack := linkSeq f, naks := 0, quiet := false, peerQuiet := false }

/-- A flit without a NAK that comes in order at a port with nothing queued. -/
structure InOrder (s : State) (p : PortId) (f : BitVec 2048) : Prop where
  runs : s.portRuns p = true
  held : s.rst.held = .none
  groups : (List.range 4).all (fun i => groupOk f i) = true
  rst : linkRst f = false
  nak : linkNak f = false
  seq : linkSeq f = (s.port p.val).rxSeq
  txQ : (s.port p.val).txQ = []

theorem flitReceive_inOrder (h : InOrder s p f) :
    flitReceive p f old s =
      if linkIdle f then (s.setPort p.val { (s.port p.val).acked f with discarding := false }).drainAll p
      else
        (match (s.port p.val).cut with
          | some (q, n, c) => (s.setPort p.val ((s.port p.val).received f)).placeCopy p q n c f old
          | none => (s.setPort p.val ((s.port p.val).received f)).acceptFlit p f old).drainAll p := by
  have htake : s.takeLink p f = s.setPort p.val ((s.port p.val).acked f) := if_neg (by simp [h.nak])
  have hseq : ¬linkSeq f ≠ ((s.port p.val).acked f).rxSeq := not_not.mpr h.seq
  unfold flitReceive
  rw [if_neg (by simp [portLives_of_runs h.runs, h.held]), if_neg (by simp [h.groups]), if_neg (by simp [h.rst]), htake]
  dsimp only
  rw [State.port_setPort, if_neg hseq, setPort_setPort, setPort_setPort]
  rfl

theorem flitReceive_idle (h : InOrder s p f) (hi : linkIdle f = true) :
    flitReceive p f old s = s.setPort p.val { (s.port p.val).acked f with discarding := false } := by
  rw [flitReceive_inOrder h, if_pos hi]
  refine drainAll_empty _ _ ?_
  rw [State.port_setPort]
  exact h.txQ

/-- A flit that came in order and may be taken: its type, channel and header are sound. -/
structure Sound (s : State) (p : PortId) (f : BitVec 2048) : Prop extends InOrder s p f where
  busy : linkIdle f = false
  cut : (s.port p.val).cut = none
  vcs : (typeVcs (hdrType f)).contains (hdrVc f) = true
  granted : (s.port p.val).granted.getD (hdrVc f) false = true
  header : headerOk f = true

/-- The state in which a flit that came in order is taken. -/
def State.takes (s : State) (p : PortId) (f : BitVec 2048) : State := s.setPort p.val ((s.port p.val).received f)

theorem port_takes (s : State) (p : PortId) (f : BitVec 2048) : (s.takes p f).port p.val = (s.port p.val).received f :=
  State.port_setPort _ _ _

theorem flitReceive_accepts (h : Sound s p f) : flitReceive p f old s = ((s.takes p f).acceptFlit p f old).drainAll p := by
  rw [flitReceive_inOrder h.toInOrder, if_neg (by simp [h.busy]), h.cut]
  rfl

/-- A sound flit passes the checks of its type, channel and header. -/
theorem Sound.accepted (h : Sound s p f) :
    ¬((!(typeVcs (hdrType f)).contains (hdrVc f)) = true ∨ (!((s.takes p f).port p.val).granted.getD (hdrVc f) false) = true ∨
      (!headerOk f) = true) := by
  have hgranted : ((s.takes p f).port p.val).granted.getD (hdrVc f) false = true := by
    rw [port_takes]
    exact h.granted
  rw [h.vcs, h.header, hgranted]
  simp

theorem flitReceive_here (h : Sound s p f) (he : s.egress f = none) :
    flitReceive p f old s = ((((s.takes p f).openAt p f old).st.countJobRx f).keepFlit p f).drainAll p := by
  have hegress : (s.takes p f).egress f = none := he
  rw [flitReceive_accepts h]
  unfold State.acceptFlit
  dsimp only
  rw [if_neg h.accepted, hegress]

theorem flitReceive_passes (h : Sound s p f) (he : s.egress f = some (some q)) :
    flitReceive p f old s = ((s.takes p f).passFlit p q f old).drainAll p := by
  have hegress : (s.takes p f).egress f = some (some q) := he
  rw [flitReceive_accepts h]
  unfold State.acceptFlit
  dsimp only
  rw [if_neg h.accepted, hegress]

/-! ### Decryption (R312) -/

/-- A port at which a message under a per-link key, or the next flit of one, came in. -/
structure Deciphers (x y : Port) : Prop where
  rest : ∃ o r k c e, y = { x with opening := o, rxCount := r, heldKey := k, heldCount := c, heldEnds := e }

theorem Deciphers.refl (x : Port) : Deciphers x x := ⟨_, _, _, _, _, rfl⟩

theorem Deciphers.trans (h : Deciphers x y) (k : Deciphers y z) : Deciphers x z := by
  obtain ⟨_, _, _, _, _, rfl⟩ := h
  obtain ⟨_, _, _, _, _, rfl⟩ := k
  exact ⟨_, _, _, _, _, rfl⟩

theorem deciphers_dropHeld (x : Port) : Deciphers x x.dropHeld := by
  unfold Port.dropHeld
  split <;> exact ⟨_, _, _, _, _, rfl⟩

theorem dropHeld_rxCount (x : Port) : x.dropHeld.rxCount = x.rxCount := by
  unfold Port.dropHeld
  split <;> rfl

/-- After a flit of a message has been deciphered. -/
def Port.deciphered (x : Port) (f : BitVec 2048) (c : Crypt) : Port :=
  { x with opening := x.opening.set (hdrVc f) (if hdrLast f then none else some c) }.dropHeld

theorem deciphers_deciphered (x : Port) (f : BitVec 2048) (c : Crypt) : Deciphers x (x.deciphered f c) :=
  .trans ⟨_, _, _, _, _, rfl⟩ (deciphers_dropHeld _)

theorem beginOpen_onPort (s : State) (p : PortId) (k : Nat) (old : Bool) :
    ∃ y, OnPort s (s.beginOpen p k old).2 p y ∧ Deciphers (s.port p.val) y := by
  unfold State.beginOpen
  dsimp only
  split
  · exact ⟨_, onPort_setPort _ _ _, ⟨_, _, _, _, _, rfl⟩⟩
  · exact ⟨_, onPort_setPort _ _ _, ⟨_, _, _, _, _, rfl⟩⟩
  · exact ⟨_, .refl s p, .refl _⟩

/-- What a flit is deciphered with, as its message begins or goes on. -/
def State.opener (s : State) (p : PortId) (f : BitVec 2048) (old : Bool) : Option Crypt × State :=
  if !hdrFirst f then ((s.port p.val).opening.getD (hdrVc f) none, s)
  else if hdrType f = 8 then (none, s)
  else
    match s.linkNo (hdrTag f) with
    | some k => s.beginOpen p k old
    | none => (none, s)

theorem openAt_eq (s : State) (p : PortId) (f : BitVec 2048) (old : Bool) :
    s.openAt p f old =
      match (s.opener p f old).1 with
      | none => ⟨none, f, true, (s.opener p f old).2⟩
      | some c => ⟨some c.no, (c.opened f).1, (c.opened f).2.1,
          (s.opener p f old).2.modPort p.val fun x => x.deciphered f (c.opened f).2.2⟩ := by
  unfold State.openAt State.opener
  rfl

theorem opener_onPort (s : State) (p : PortId) (f : BitVec 2048) (old : Bool) :
    ∃ y, OnPort s (s.opener p f old).2 p y ∧ Deciphers (s.port p.val) y := by
  unfold State.opener
  split
  · exact ⟨_, .refl s p, .refl _⟩
  · split
    · exact ⟨_, .refl s p, .refl _⟩
    · split
      · exact beginOpen_onPort s p _ old
      · exact ⟨_, .refl s p, .refl _⟩

theorem openAt_onPort (s : State) (p : PortId) (f : BitVec 2048) (old : Bool) :
    ∃ y, OnPort s (s.openAt p f old).st p y ∧ Deciphers (s.port p.val) y := by
  obtain ⟨y, hy, hd⟩ := opener_onPort s p f old
  rw [openAt_eq]
  split
  · exact ⟨y, hy, hd⟩
  · next c _ => exact ⟨_, hy.modPort (·.deciphered f (c.opened f).2.2), hd.trans (deciphers_deciphered _ _ _)⟩

/-- A message under a key of the secret in force begins. -/
structure BeginsUnder (s : State) (p : PortId) (f : BitVec 2048) (k : Nat) : Prop where
  first : hdrFirst f = true
  plain : hdrType f ≠ 8
  linkNo : s.linkNo (hdrTag f) = some k
  secret : (s.port p.val).secret.isSome = true

theorem openAt_begins {k : Nat} (h : BeginsUnder s p f k) :
    ∃ c : Crypt, (s.openAt p f false).link = some k ∧ (s.openAt p f false).flit = (c.opened f).1 ∧
      (s.openAt p f false).ok = (c.opened f).2.1 ∧
      mget 0 ((s.openAt p f false).st.port p.val).rxCount k = mget 0 (s.port p.val).rxCount k + 1 := by
  obtain ⟨w, hw⟩ := Option.isSome_iff_exists.mp h.secret
  have hopener : s.opener p f false = s.beginOpen p k false := by
    unfold State.opener
    rw [if_neg (by simp [h.first]), if_neg h.plain, h.linkNo]
  have hbegin : ∃ c y, s.beginOpen p k false = (some c, s.setPort p.val y) ∧ c.no = k ∧
      mget 0 y.rxCount k = mget 0 (s.port p.val).rxCount k + 1 := by
    unfold State.beginOpen
    dsimp only
    rw [hw]
    exact ⟨_, _, rfl, rfl, mget_mset_same (0 : W64) _ _ _⟩
  obtain ⟨c, y, hc, hno, hcount⟩ := hbegin
  refine ⟨c, ?_⟩
  rw [openAt_eq, hopener, hc]
  dsimp only
  refine ⟨congrArg some hno, rfl, rfl, ?_⟩
  rw [port_modPort, State.port_setPort]
  exact (congrArg (mget 0 · k) (dropHeld_rxCount _)).trans hcount

/-! ### A flit for this node (R292; 08 R198) -/

theorem countJobRx_plain (h : hdrFirst f = false ∨ s.sec.jobKeys.any (fun e => e.1 == hdrTag f) = false) : s.countJobRx f = s := by
  refine if_pos ?_
  rcases h with h | h <;> simp [h]

/-- Flits of a channel's message that wait for the rest of it. -/
def Port.waiting (x : Port) (vc : Nat) : List (BitVec 2048) := x.partialMsg.filter fun g => hdrVc g == vc

/-- A port that has kept a flit: the last one of a message ends what waited and frees its slots, or leaves them to an installation. -/
def Port.keeps (x : Port) (f : BitVec 2048) : Port :=
  if hdrLast f then
    let y := { x with partialMsg := x.partialMsg.filter fun g => hdrVc g != hdrVc f }
    let n := (x.waiting (hdrVc f)).length
    if hdrType f = 6 then { y with owed := y.owed + n + 1 } else y.release (hdrVc f) (n + 1)
  else { x with partialMsg := x.partialMsg ++ [f] }

theorem OnPort.keepFlit (h : OnPort s t p y) (hn : (y.waiting (hdrVc f)).length < 18) :
    OnPort s (t.keepFlit p f) p (y.keeps f) := by
  have hlen : ¬18 ≤ ((t.port p.val).partialMsg.filter fun g => hdrVc g == hdrVc f).length := by rw [h.port]; exact not_le.mpr hn
  unfold State.keepFlit Port.keeps
  dsimp only
  rw [if_neg hlen]
  by_cases hl : hdrLast f = true
  · rw [if_pos hl, if_pos hl, h.port]
    exact (h.modPort _).modPort _
  · rw [if_neg hl, if_neg hl]
    exact h.modPort _

/-- A sound flit for this node is kept, its port's record the only one that changes. -/
theorem flitReceive_kept (h : Sound s p f) (he : s.egress f = none) (hn : ((s.port p.val).waiting (hdrVc f)).length < 18)
    (hk : hdrFirst f = false ∨ s.sec.jobKeys.any (fun e => e.1 == hdrTag f) = false) :
    ∃ y, Deciphers ((s.port p.val).received f) y ∧ OnPort s (flitReceive p f old s) p (y.keeps f) ∧
      ∀ k, BeginsUnder s p f k → old = false → mget 0 y.rxCount k = mget 0 (s.port p.val).rxCount k + 1 := by
  generalize hu : s.takes p f = u
  have hport : u.port p.val = (s.port p.val).received f := by rw [← hu, port_takes]
  obtain ⟨y, hy, hd⟩ := openAt_onPort u p f old
  rw [hport] at hd
  have hon : OnPort s (u.openAt p f old).st p y := by
    rw [← hu] at hy ⊢
    exact (onPort_setPort s p _).trans hy
  have hplain : (u.openAt p f old).st.countJobRx f = (u.openAt p f old).st := by
    obtain ⟨l, hl⟩ := hon.only
    exact countJobRx_plain (by rw [hl]; exact hk)
  have hfields : (y.waiting (hdrVc f)).length < 18 ∧ (y.keeps f).txQ = [] := by
    obtain ⟨o, r, k, c, e, rfl⟩ := hd.rest
    refine ⟨hn, ?_⟩
    unfold Port.keeps
    dsimp only
    split
    · split <;> exact h.txQ
    · exact h.txQ
  have hkept := hon.keepFlit (f := f) hfields.1
  refine ⟨y, hd, ?_, fun k hb hold => ?_⟩
  · rw [flitReceive_here h he, hu, hplain, drainAll_empty _ _ (by rw [hkept.port]; exact hfields.2)]
    exact hkept
  · subst hold
    have hbegins : BeginsUnder u p f k := by
      refine ⟨hb.first, hb.plain, ?_, ?_⟩
      · rw [← hu]
        exact hb.linkNo
      · rw [hport]
        exact hb.secret
    obtain ⟨c, -, -, -, hcount⟩ := openAt_begins hbegins
    rw [hy.port, hport] at hcount
    exact hcount

/-! ### The next flit of a port (R292, R294) -/

section Picks

variable {e : TxFlit}

theorem nextOn_other (hq : x.txQ = [e]) {vc : Nat} (hv : hdrVc e.flit ≠ vc) : x.nextOn vc = none := by
  have hnone : x.txQ.filter (fun e => hdrVc e.flit == vc) = [] := by simp [hq, hv]
  unfold Port.nextOn
  dsimp only
  rw [hnone]
  cases x.mid.getD vc none <;> simp

theorem nextOn_first (hq : x.txQ = [e]) (hs : e.src = some p) (hm : x.mid.getD (hdrVc e.flit) none = none)
    (hb : x.mayBegin e = true) : x.nextOn (hdrVc e.flit) = some e := by
  have hall : x.txQ.filter (fun g => hdrVc g.flit == hdrVc e.flit) = [e] := by simp [hq]
  have hown : [e].find? (fun g => g.src.isNone) = none := by simp [hs]
  have hpass : [e].find? (fun g => g.src.isSome) = some e := by simp [hs]
  have hbegins : Option.filter x.mayBegin (some e) = some e := by simp [Option.filter, hb]
  unfold Port.nextOn
  dsimp only
  rw [hall, hm]
  dsimp only
  rw [hown, hpass, hbegins]
  cases x.localNext.getD (hdrVc e.flit) false <;> rfl

theorem hdrVc_lt (f : BitVec 2048) : hdrVc f < 4 := Nat.mod_lt _ (by decide)

/-- The flit of another port that waits alone at a port leaves next, where its channel has credit and its message may begin. -/
theorem pickFlit_alone (hpwr : s.rst.pwr ≠ .waking) (hq : (s.port q.val).txQ = [e]) (hs : e.src = some p)
    (hm : (s.port q.val).mid.getD (hdrVc e.flit) none = none) (hb : (s.port q.val).mayBegin e = true)
    (hl : s.mayLeave q (hdrVc e.flit) = true) (hc : hdrVc e.flit = 3 → (s.port q.val).vc3Sent < s.vc3Limit) :
    s.pickFlit q = some e := by
  have hon (vc : Nat) : (if s.mayLeave q vc then (s.port q.val).nextOn vc else none) = if vc = hdrVc e.flit then some e else none := by
    by_cases hv : vc = hdrVc e.flit
    · rw [hv, if_pos hl, if_pos rfl, nextOn_first hq hs hm hb]
    · rw [if_neg hv, nextOn_other hq (Ne.symm hv), ite_self]
  have hlt := hdrVc_lt e.flit
  unfold State.pickFlit
  rw [if_neg hpwr]
  dsimp only
  simp only [hon]
  generalize hdrVc e.flit = vc at *
  interval_cases vc
  · rfl
  · simp [Option.orElse]
  · simp [Option.orElse]
  · simp [Option.orElse, hc rfl]

theorem drainAll_one (hq : (s.port q.val).txQ = [e]) (hp : s.pickFlit q = some e) :
    s.drainAll q = ((s.setPort q.val { s.port q.val with txQ := [] }).freeSrc e).leave q e := by
  rw [State.drainAll, hq]
  show s.drain q 1 = _
  rw [State.drain, hp]
  dsimp only
  rw [State.modPort, hq, List.erase_cons_head]
  rfl

/-! ### A flit that leaves (R288, R297, R312) -/

/-- A port that sends is quiet no longer, and restarts no longer. -/
def Port.sends (x : Port) : Port := { x with restart := false, quiet := false, peerQuiet := false }

/-- The flit g left by port q. -/
structure Left (s t : State) (q : PortId) (g : BitVec 2048) : Prop where
  out : t.out = s.out ++ [.flit q g]
  txSeq : (t.port q.val).txSeq = (s.port q.val).txSeq + 1
  replayBuf : (t.port q.val).replayBuf = (s.port q.val).replayBuf ++ [g]
  mem : t.mem = s.mem
  others : ∀ r, r ≠ q.val → t.port r = s.port r

/-- A flit leaves under the port's next number, as it was encrypted. -/
theorem left_of_sealAt {g : BitVec 2048} (h : (s.setPort q.val (s.port q.val).sends).sealAt q e = (g, s.setPort q.val y))
    (ht : y.txSeq = (s.port q.val).txSeq) (hb : y.replayBuf = (s.port q.val).replayBuf) :
    Left s (s.leave q e) q (y.dress g) ∧ ((s.leave q e).port q.val).txCount = y.txCount := by
  generalize hz : (y.take (hdrVc e.flit)).took (s.cfg.live.vc1Weight + s.cfg.live.vc2Weight) e.src e.flit = z
  have hfields : z.txSeq = y.txSeq + 1 ∧ z.replayBuf = y.replayBuf ∧ z.txCount = y.txCount := by
    rw [← hz]
    exact ⟨rfl, rfl, rfl⟩
  obtain ⟨hseq, hbuf, hcount⟩ := hfields
  have hleave : s.leave q e = (s.setPort q.val { z with replayBuf := z.replayBuf ++ [y.dress g] }).emit (.flit q (y.dress g)) := by
    unfold State.leave
    rw [show (s.modPort q.val fun x => { x with restart := false, quiet := false, peerQuiet := false }) =
      s.setPort q.val (s.port q.val).sends from rfl, h]
    dsimp only
    rw [State.port_setPort, setPort_setPort, hz]
  rw [hleave]
  refine ⟨⟨rfl, ?_, ?_, rfl, fun r hr => ?_⟩, ?_⟩
  · rw [emit_port, State.port_setPort, ← ht]
    exact hseq
  · rw [emit_port, State.port_setPort, ← hb, ← hbuf]
  · rw [emit_port, port_setPort_ne _ hr]
  · rw [emit_port, State.port_setPort]
    exact hcount

/-- A flit goes as it is where it is not protected per link. -/
theorem leave_plain (s : State) (q : PortId) (hl : e.link = none) : Left s (s.leave q e) q ((s.port q.val).sends.dress e.flit) := by
  refine (left_of_sealAt (y := (s.port q.val).sends) ?_ rfl rfl).1
  simp [State.sealAt, State.sealing, hl]

/-- A message that begins to leave under a per-link key is encrypted, and counted under its key. -/
theorem leave_sealed (s : State) (q : PortId) {k : Nat} (hl : e.link = some k) (hf : hdrFirst e.flit = true)
    (hs : (s.port q.val).secret.isSome = true) :
    ∃ g, Left s (s.leave q e) q g ∧ mget 0 ((s.leave q e).port q.val).txCount k = mget 0 (s.port q.val).txCount k + 1 := by
  obtain ⟨w, hw⟩ := Option.isSome_iff_exists.mp hs
  have hsecret : (s.port q.val).sends.secret = some w := hw
  have hseal : ∃ g y, (s.setPort q.val (s.port q.val).sends).sealAt q e = (g, s.setPort q.val y) ∧ y.txSeq = (s.port q.val).txSeq ∧
      y.replayBuf = (s.port q.val).replayBuf ∧ mget 0 y.txCount k = mget 0 (s.port q.val).txCount k + 1 := by
    unfold State.sealAt State.sealing State.beginSeal
    rw [hl]
    dsimp only
    rw [if_pos hf, State.port_setPort, hsecret]
    dsimp only
    rw [modPort_setPort, setPort_setPort]
    exact ⟨_, _, rfl, rfl, rfl, mget_mset_same (0 : W64) (s.port q.val).txCount k _⟩
  obtain ⟨g, y, hg, ht, hb, hk⟩ := hseal
  obtain ⟨hleft, hcount⟩ := left_of_sealAt hg ht hb
  exact ⟨_, hleft, by rw [hcount, hk]⟩

end Picks

/-! ### A flit that passes through (R297, R312, R313) -/

theorem wakeUp_rst_congr (h : t.rst = s.rst) : t.wakeUp.rst = s.wakeUp.rst := by
  unfold State.wakeUp
  rw [h]
  split <;> simp [h]

theorem mayLeave_congr (hr : t.rst.held = s.rst.held) {l : List TxFlit} (hq : t.port q.val = { s.port q.val with txQ := l }) (vc : Nat) :
    t.mayLeave q vc = s.mayLeave q vc := by
  unfold State.mayLeave State.portLives State.portRuns State.portCarries
  rw [hr, hq]

/-- A sound flit that begins a message for another node, which the port of its route may send at once. -/
structure Passes (s : State) (p q : PortId) (f : BitVec 2048) : Prop where
  sound : Sound s p f
  egress : s.egress f = some (some q)
  ne : q ≠ p
  stays : s.lnk.left = false
  first : hdrFirst f = true
  queue : (s.port q.val).txQ = []
  may : s.mayLeave q (hdrVc f) = true
  awake : s.wakeUp.rst.pwr ≠ .waking
  mid : (s.port q.val).mid.getD (hdrVc f) none = none
  restart : (s.port q.val).restart = false
  runs : s.portRuns q = true
  ceiling : hdrVc f = 3 → (s.port q.val).vc3Sent < s.vc3Limit

/-- What a flit that came in order becomes as it is taken. -/
def State.opens (s : State) (p : PortId) (f : BitVec 2048) (old : Bool) : Opened :=
  (s.takes p f).openAt p f old

/-- A state from which a flit leaves by port q: it has waited there, and its receive slot at port p is free. -/
structure Handed (s w : State) (p q : PortId) (r : Opened) : Prop where
  egress : w.port q.val = { s.port q.val with txQ := [] }
  ingress : (w.port p.val).txQ = [] ∧ (w.port p.val).rxCount = (r.st.port p.val).rxCount
  out : w.out = s.out
  mem : w.mem = s.mem

theorem mayBegin_runs {e : TxFlit} (hs : x.state ≠ .training) (hr : x.restart = false)
    (hk : ∀ k, e.link = some k → x.secret.isSome = true ∧ k ∉ x.stopped) : x.mayBegin e = true := by
  unfold Port.mayBegin
  cases hl : e.link with
  | none => simp [hr]
  | some k =>
    obtain ⟨hsecret, hstopped⟩ := hk k hl
    simp [hs, hr, hsecret, hstopped]

theorem Passes.leaves (h : Passes s p q f) (hok : (s.opens p f old).ok = true)
    (hgo : s.perLink (hdrTag f) = false ∨ s.retiredKey (hdrTag f) = false) (hvc : hdrVc (s.opens p f old).flit = hdrVc f)
    (hk : ∀ k, (s.opens p f old).link = some k → (s.port q.val).secret.isSome = true ∧ k ∉ (s.port q.val).stopped) :
    ∃ w, Handed s w p q (s.opens p f old) ∧
      flitReceive p f old s = (w.leave q ⟨some p, (s.opens p f old).flit, (s.opens p f old).link, false⟩).drainAll p := by
  have hqp : q.val ≠ p.val := fun hv => h.ne (Fin.ext hv)
  generalize hr : s.opens p f old = r at *
  generalize he : (⟨some p, r.flit, r.link, false⟩ : TxFlit) = e
  have heflit : hdrVc e.flit = hdrVc f := by rw [← he]; exact hvc
  obtain ⟨z, hz, hd⟩ := openAt_onPort (s.takes p f) p f old
  rw [port_takes] at hd
  rw [show State.openAt _ p f old = r from hr] at hz
  have hon : OnPort s r.st p z := (onPort_setPort s p _).trans hz
  have hpass : (s.takes p f).passFlit p q f old =
      (r.st.wakeUp.modPort q.val fun x => { x with txQ := x.txQ ++ [e] }).drainAll q := by
    have hopen : (s.takes p f).openPassing p f old = r := by
      unfold State.openPassing
      dsimp only
      rw [show State.openAt _ p f old = r from hr, if_pos hok]
    have hstays : (s.takes p f).lnk.left = false := h.stays
    unfold State.passFlit
    dsimp only
    rw [if_neg (by simp [h.first, hstays]), if_neg, hopen, ← he, hok]
    · rfl
    · rintro ⟨-, hlink, hretired⟩
      rcases hgo with hgo | hgo
      · exact Bool.false_ne_true (hgo.symm.trans hlink)
      · exact Bool.false_ne_true (hgo.symm.trans hretired)
  generalize hv : (r.st.wakeUp.modPort q.val fun x => { x with txQ := x.txQ ++ [e] }) = v at hpass
  have hvport : v.port q.val = { s.port q.val with txQ := [e] } := by
    rw [← hv, port_modPort, wakeUp_port, hon.others _ hqp, h.queue]
    rfl
  have hvingress : v.port p.val = z := by rw [← hv, port_modPort_ne _ (Ne.symm hqp), wakeUp_port, hon.port]
  obtain ⟨l, hl⟩ := hon.only
  have hrst : v.rst = s.wakeUp.rst := by
    rw [← hv]
    exact wakeUp_rst_congr (by rw [hl])
  have hkept : v.out = s.out ∧ v.mem = s.mem ∧ v.cfg = s.cfg := by
    rw [← hv, hl]
    exact ⟨wakeUp_out _, wakeUp_mem _, wakeUp_cfg _⟩
  obtain ⟨hout, hmem, hcfg⟩ := hkept
  have hpick : v.pickFlit q = some e := by
    have hlimit : v.vc3Limit = s.vc3Limit := by unfold State.vc3Limit; rw [hcfg]
    have htraining : (s.port q.val).state ≠ .training := fun ht => by simpa [State.portRuns, ht] using h.runs
    refine pickFlit_alone (p := p) (by rw [hrst]; exact h.awake) (by rw [hvport]) (by rw [← he]) ?_ ?_ ?_ ?_
    · rw [hvport, heflit]
      exact h.mid
    · rw [hvport]
      exact mayBegin_runs htraining h.restart (by rw [← he]; exact hk)
    · rw [mayLeave_congr (by rw [hrst, wakeUp_held]) hvport, heflit]
      exact h.may
    · rw [hvport, heflit, hlimit]
      exact h.ceiling
  refine ⟨(v.setPort q.val { v.port q.val with txQ := [] }).freeSrc e, ?_, ?_⟩
  · have hsrc : (v.setPort q.val { v.port q.val with txQ := [] }).freeSrc e =
        (v.setPort q.val { v.port q.val with txQ := [] }).modPort p.val fun x => x.release (hdrVc e.flit) 1 := by rw [← he]; rfl
    rw [hsrc]
    refine ⟨?_, ?_, hout, hmem⟩
    · rw [port_modPort_ne _ hqp, State.port_setPort, hvport]
    · rw [port_modPort, port_setPort_ne _ (Ne.symm hqp), hvingress, hon.port]
      obtain ⟨o, n, k, c, d, rfl⟩ := hd.rest
      exact ⟨h.sound.txQ, rfl⟩
  · rw [flitReceive_passes h.sound h.egress, hpass, drainAll_one (by rw [hvport]) hpick]

/-- The flit leaves, and nothing waits at the port it came by. -/
theorem Handed.left {w v : State} {r : Opened} {g : BitVec 2048} (h : Handed s w p q r) (hne : q ≠ p) (hv : Left w v q g) :
    v.drainAll p = v ∧ v.out = s.out ++ [.flit q g] ∧ (v.port q.val).txSeq = (s.port q.val).txSeq + 1 ∧
      (v.port q.val).replayBuf = (s.port q.val).replayBuf ++ [g] ∧ v.mem = s.mem ∧ (v.port p.val).rxCount = (r.st.port p.val).rxCount := by
  have hpq : p.val ≠ q.val := fun hv => hne (Fin.ext hv.symm)
  obtain ⟨hout, hseq, hbuf, hmem, hothers⟩ := hv
  rw [h.egress] at hseq hbuf
  refine ⟨drainAll_empty v p ?_, by rw [hout, h.out], hseq, hbuf, by rw [hmem, h.mem], ?_⟩
  · rw [hothers _ hpq]
    exact h.ingress.1
  · rw [hothers _ hpq]
    exact h.ingress.2

theorem dress_sends (hr : x.restart = false) : ({ x with txQ := [] } : Port).sends.dress f = x.dress f := by
  unfold Port.dress Port.linkWord
  rw [hr]
  rfl

theorem linkNo_endToEnd {j : Job} (hj : s.job (hdrTag f) = some j) (hm : j.members.length ≤ 32) (ht : hdrTag f ≠ 0) :
    s.linkNo (hdrTag f) = none := by
  unfold State.linkNo State.tagInfo
  rw [if_neg ht, hj]
  simp [hm]

/-- A flit of a job with end-to-end keys goes on as it is. -/
theorem Passes.plain (h : Passes s p q f) (hn : s.linkNo (hdrTag f) = none) :
    ∃ t, exec (.flitReceive p f old) s = .next t ∧ t.out = s.out ++ [.flit q ((s.port q.val).dress f)] ∧
      (t.port q.val).txSeq = (s.port q.val).txSeq + 1 ∧
      (t.port q.val).replayBuf = (s.port q.val).replayBuf ++ [(s.port q.val).dress f] ∧ t.mem = s.mem := by
  have hopens : s.opens p f old = ⟨none, f, true, s.takes p f⟩ := by
    have hopener (u : State) (hu : u.linkNo (hdrTag f) = none) : u.opener p f old = (none, u) := by
      unfold State.opener
      rw [if_neg (by simp [h.first]), hu]
      split <;> rfl
    unfold State.opens
    rw [openAt_eq, hopener (s.takes p f) hn]
  obtain ⟨w, hw, hleaves⟩ := h.leaves (old := old) (by rw [hopens]) (.inl (by simp [State.perLink, hn])) (by rw [hopens])
    (by rw [hopens]; rintro k ⟨⟩)
  rw [hopens] at hw hleaves
  have hleft := leave_plain w q (e := ⟨some p, f, none, false⟩) rfl
  rw [hw.egress, dress_sends h.restart] at hleft
  obtain ⟨hdrain, hout, hseq, hbuf, hmem, -⟩ := hw.left h.ne hleft
  exact ⟨_, congrArg Host.Outcome.next (hleaves.trans hdrain), hout, hseq, hbuf, hmem⟩

theorem fld_putText (f : BitVec 2048) (l : Bytes) {lo len : Nat} (h : lo + len ≤ 256) :
    fld (putText f l).toNat lo len = fld f.toNat lo len := by
  have hlen : lo + len ≤ 2048 := by omega
  unfold putText
  rw [fld_ofNat hlen, fld_setFld_ne (.inl h)]

/-- Decryption leaves the header. -/
theorem opened_header (c : Crypt) (f : BitVec 2048) :
    hdrVc (c.opened f).1 = hdrVc f ∧ hdrFirst (c.opened f).1 = hdrFirst f := by
  have hvc : fld (c.opened f).1.toNat 58 2 = fld f.toNat 58 2 := fld_putText _ _ (by decide)
  have hfirst : fld (c.opened f).1.toNat 53 1 = fld f.toNat 53 1 := fld_putText _ _ (by decide)
  exact ⟨hvc, congrArg (· == 1) hfirst⟩

/-- A flit that begins a message under a per-link key is decrypted, and encrypted again under the egress port's key. -/
theorem Passes.sealed (h : Passes s p q f) {k : Nat} (hb : BeginsUnder s p f k) (hr : s.retiredKey (hdrTag f) = false)
    (hl : hdrLast f = false) (hs : (s.port q.val).secret.isSome = true) (hk : k ∉ (s.port q.val).stopped) :
    ∃ t g, exec (.flitReceive p f false) s = .next t ∧ t.out = s.out ++ [.flit q g] ∧
      (t.port q.val).txSeq = (s.port q.val).txSeq + 1 ∧ (t.port q.val).replayBuf = (s.port q.val).replayBuf ++ [g] ∧
      mget 0 (t.port p.val).rxCount k = mget 0 (s.port p.val).rxCount k + 1 ∧
      mget 0 (t.port q.val).txCount k = mget 0 (s.port q.val).txCount k + 1 ∧ t.mem = s.mem := by
  have hbegins : BeginsUnder (s.takes p f) p f k := by
    refine ⟨hb.first, hb.plain, hb.linkNo, ?_⟩
    rw [port_takes]
    exact hb.secret
  obtain ⟨c, hlink, hflit, hok, hcount⟩ := openAt_begins hbegins
  rw [port_takes] at hcount
  obtain ⟨hvc, hfirst⟩ := opened_header c f
  have hverified : (s.opens p f false).ok = true := hok.trans (by simp [Crypt.opened, hl])
  obtain ⟨w, hw, hleaves⟩ := h.leaves hverified (.inr hr) ((congrArg hdrVc hflit).trans hvc) fun k' hk' => by
    obtain rfl : k' = k := Option.some.inj (hk'.symm.trans hlink)
    exact ⟨hs, hk⟩
  have hsecret : (w.port q.val).secret.isSome = true := by rw [hw.egress]; exact hs
  obtain ⟨g, hleft, hsent⟩ := leave_sealed w q (e := ⟨some p, (s.opens p f false).flit, (s.opens p f false).link, false⟩) hlink
    ((congrArg hdrFirst hflit).trans (hfirst.trans h.first)) hsecret
  rw [hw.egress] at hsent
  obtain ⟨hdrain, hout, hseq, hbuf, hmem, hreceived⟩ := hw.left h.ne hleft
  exact ⟨_, g, congrArg Host.Outcome.next (hleaves.trans hdrain), hout, hseq, hbuf, (congrArg (mget 0 · k) hreceived).trans hcount, hsent,
    hmem⟩

/-! ### WRITE (R293) -/

section Writes

variable {m : Msg} {a : BitVec 44} {data : Bytes} {j : Job}

/-- A WRITE that R293 admits. -/
def WriteOk (a : BitVec 44) (data : Bytes) : Prop :=
  bitsOf a 42 41 = 0 ∧ (bitOf a 43 = true ∨ bitsOf a 40 0 < 2 ^ 33) ∧ data ≠ [] ∧ data.length ≤ 4016

theorem writeOk_iff : ¬WriteOk a data ↔
    bitsOf a 42 41 ≠ 0 ∨ (!bitOf a 43 ∧ 2 ^ 33 ≤ bitsOf a 40 0) ∨ data = [] ∨ 4016 < data.length := by
  unfold WriteOk
  simp only [not_and_or, not_or, not_not, not_le, not_lt, ne_eq, Bool.not_eq_true', Bool.not_eq_true]

theorem writeMsg_ok (h : Heard s m [1, 3]) (hd : m.dst = s.lnk.node) (hj : s.job m.tag = some j) (hok : WriteOk a data) :
    writeMsg m a data s = s.wakeUp.store j.who ⟨bitOf a 43, bitsOf a 40 0⟩ data := by
  unfold writeMsg
  rw [receiveTo_heard h hd, if_neg (fun hbad => writeOk_iff.mpr hbad hok)]
  dsimp only
  rw [wakeUp_job, hj]

theorem writeMsg_malformed (h : Heard s m [1, 3]) (hd : m.dst = s.lnk.node) (hbad : ¬WriteOk a data) :
    writeMsg m a data s = s.wakeUp.badMsg m.port m.vc.toNat := by
  unfold writeMsg
  rw [receiveTo_heard h hd]
  exact if_pos (writeOk_iff.mp hbad)

end Writes

/-! ### The clauses about a flit -/

theorem nakFlit_does (hr : s.portRuns p = true) (hh : s.rst.held = .none) (hf : groupOk f 0 = false) (hn : (s.port p.val).naks + 1 < 8)
    (hc : (s.port p.val).replays.toNat + 1 < 2 ^ 64 - 1) :
    Does (.flitReceive p f old) s [.lnk, .life] fun t =>
      t.port p.val = { s.port p.val with
        discarding := true, nakNext := true, naks := (s.port p.val).naks + 1, replays := (s.port p.val).replays + 1 } ∧
      ∀ q, q ≠ p.val → t.port q = s.port q :=
  ⟨_, congrArg Host.Outcome.next ((flitReceive_fails hr hh hf).trans (nakFlit_counts hn hc)),
    only_step (b := .life) (only_mono (only_setPort s _ _) (by decide)) (only_life _ _) (by decide),
    State.port_setPort _ _ _, fun _ hq => port_setPort_ne _ hq⟩

/-- What a port keeps of a flit for this node, by its place in its message. -/
theorem keeps_fields (x : Port) (f : BitVec 2048) :
    (hdrLast f = false → (x.keeps f).partialMsg = x.partialMsg ++ [f] ∧ (x.keeps f).freed = x.freed) ∧
    (hdrLast f = true → (x.keeps f).partialMsg = x.partialMsg.filter (fun g => hdrVc g != hdrVc f) ∧
      (hdrType f = 6 → (x.keeps f).freed = x.freed ∧ (x.keeps f).owed = x.owed + (x.waiting (hdrVc f)).length + 1) ∧
      (hdrType f ≠ 6 → (x.keeps f).freed =
        x.freed.set (hdrVc f) (x.freed.getD (hdrVc f) 0 + BitVec.ofNat 9 ((x.waiting (hdrVc f)).length + 1)))) := by
  unfold Port.keeps
  constructor
  · intro h
    rw [if_neg (by simp [h])]
    exact ⟨rfl, rfl⟩
  · intro h
    rw [if_pos h]
    dsimp only
    by_cases h6 : hdrType f = 6
    · rw [if_pos h6]
      exact ⟨rfl, fun _ => ⟨rfl, rfl⟩, fun hn => absurd h6 hn⟩
    · rw [if_neg h6]
      exact ⟨rfl, fun hn => absurd hn h6, fun _ => rfl⟩

/-- Keeping a flit leaves the numbers, the keys and the replay buffer of a port. -/
theorem keeps_keeps (x : Port) (f : BitVec 2048) :
    (x.keeps f).rxSeq = x.rxSeq ∧ (x.keeps f).ack = x.ack ∧ (x.keeps f).discarding = x.discarding ∧
      (x.keeps f).rxCount = x.rxCount ∧ (x.keeps f).replayBuf = x.replayBuf := by
  unfold Port.keeps
  dsimp only
  split
  · split <;> exact ⟨rfl, rfl, rfl, rfl, rfl⟩
  · exact ⟨rfl, rfl, rfl, rfl, rfl⟩

theorem flitReceive_keeps (h : Sound s p f) (he : s.egress f = none) (hn : ((s.port p.val).waiting (hdrVc f)).length < 18)
    (hj : hdrFirst f = false ∨ s.sec.jobKeys.any (fun e => e.1 == hdrTag f) = false) :
    Does (.flitReceive p f old) s [.lnk] fun t =>
      (t.port p.val).rxSeq = (s.port p.val).rxSeq + 1 ∧ (t.port p.val).ack = linkSeq f ∧ (t.port p.val).discarding = false ∧
      (hdrLast f = false → (t.port p.val).partialMsg = (s.port p.val).partialMsg ++ [f] ∧
        (t.port p.val).freed = (s.port p.val).freed) ∧
      (hdrLast f = true → (t.port p.val).partialMsg = (s.port p.val).partialMsg.filter (fun g => hdrVc g != hdrVc f) ∧
        (hdrType f = 6 → (t.port p.val).freed = (s.port p.val).freed ∧
          (t.port p.val).owed = (s.port p.val).owed + ((s.port p.val).waiting (hdrVc f)).length + 1) ∧
        (hdrType f ≠ 6 → (t.port p.val).freed = (s.port p.val).freed.set (hdrVc f)
          ((s.port p.val).freed.getD (hdrVc f) 0 + BitVec.ofNat 9 (((s.port p.val).waiting (hdrVc f)).length + 1)))) ∧
      (∀ k, BeginsUnder s p f k → old = false → mget 0 (t.port p.val).rxCount k = mget 0 (s.port p.val).rxCount k + 1) ∧
      (t.port p.val).replayBuf = (s.port p.val).replayBuf.filter (fun g => seqAhead (linkSeq g) (linkAck f)) ∧
      ∀ q, q ≠ p.val → t.port q = s.port q := by
  obtain ⟨y, hd, hon, hcount⟩ := flitReceive_kept (old := old) h he hn hj
  refine ⟨_, rfl, hon.lnk, ?_⟩
  beta_reduce
  rw [show State.port (flitReceive p f old s) p.val = y.keeps f from hon.port]
  obtain ⟨hseq, hack, hdiscarding, hrx, hbuf⟩ := keeps_keeps y f
  obtain ⟨hpart, hwhole⟩ := keeps_fields y f
  rw [hseq, hack, hdiscarding, hrx, hbuf]
  obtain ⟨o, r, k, c, e, rfl⟩ := hd.rest
  exact ⟨rfl, rfl, rfl, hpart, hwhole, hcount, rfl, hon.others⟩

/-- Settles O45: a NAK, an idle flit, a flit for this node and one that passes each change the ports that the lemmas above name, and a
WRITE is a store by its job (`writeMsg_ok`). -/
theorem flitAndWriteResult : Obligations.FlitAndWriteResult := by
  unfold Obligations.FlitAndWriteResult
  refine ⟨fun s p f old hr hh => ?_, fun s m a data j hm hd hj => ?_⟩
  · have inOrder (h : (List.range 4).all (fun i => groupOk f i) = true ∧ linkRst f = false ∧ linkNak f = false ∧
        linkSeq f = (s.port p.val).rxSeq ∧ (s.port p.val).txQ = []) : InOrder s p f := by
      obtain ⟨hgroups, hrst, hnak, hseq, hq⟩ := h
      exact ⟨hr, hh, hgroups, hrst, hnak, hseq, hq⟩
    intro x
    refine ⟨nakFlit_does hr hh, ?_⟩
    intro inOrd sound
    have isSound (h : sound) : Sound s p f := by
      obtain ⟨hord, hbusy, hcut, hvcs, hgranted, hheader⟩ := h
      exact { inOrder hord with busy := hbusy, cut := hcut, vcs := hvcs, granted := hgranted, header := hheader }
    refine ⟨fun h hi => ?_, ?_, fun q => ?_⟩
    · refine ⟨_, congrArg Host.Outcome.next (flitReceive_idle (inOrder h) hi), only_setPort s _ _, ?_⟩
      beta_reduce
      rw [State.port_setPort]
      exact ⟨rfl, rfl, rfl, rfl, fun _ hq => port_setPort_ne _ hq⟩
    · intro mine h he hn hj
      obtain ⟨t, hexec, honly, hseq, hack, hdis, hpart, hwhole, hcount, hbuf, hothers⟩ :=
        flitReceive_keeps (old := old) (isSound h) he hn hj
      exact ⟨t, hexec, honly, hseq, hack, hdis, hpart, hwhole, fun k hf hp hl hs => hcount k ⟨hf, hp, hl, hs⟩, hbuf, hothers⟩
    · intro y h he hne hleft hfirst hqueue hmay hawake hmid hrestart hruns hceil
      have hp : Passes s p q f := ⟨isSound h, he, hne, hleft, hfirst, hqueue, hmay, hawake, hmid, hrestart, hruns, hceil⟩
      refine ⟨fun ⟨j, hj, hlen⟩ ht => hp.plain (linkNo_endToEnd hj hlen ht), fun k hk h8 hret hl hold hsx hsy hst => ?_⟩
      subst hold
      exact hp.sealed ⟨hfirst, h8, hk, hsx⟩ hret hl hsy hst
  · intro at' good
    refine ⟨fun hok hfit => ⟨_, congrArg Host.Outcome.next (writeMsg_ok hm hd hj hok), fun k hk => ?_, fun b hb hne => ?_, ?_, ?_⟩,
      fun hbad => congrArg Host.Outcome.next (writeMsg_malformed hm hd hbad)⟩
    · rw [rawByte_store_in _ _ _ hfit.symm k hk, wakeUp_mayAccess, wakeUp_rawByte]
    · rw [rawByte_store_other _ hfit.symm hb hne, wakeUp_rawByte]
    · rw [(lanes_store _ _ _ _).2 .sec (by decide), (only_wakeUp s).2 .sec (by decide)]
    · rw [(lanes_store _ _ _ _).2 .lnk (by decide), wakeUp_lnk]

end Sys2Proof.Machine
end

section
/-! PROOFS. The chain (chapters 11, 12), the jobs of a node under updates of its other state: what an admission made of a job stays, and a stop
is not taken back; the reads that an admission makes. -/

namespace Sys2Proof.Machine

open Sys2Proof Sys2Proof.Safety

variable {s t u : State}

/-! ### Jobs that go on as they were admitted -/

/-- A job as it was admitted: its keys, its phase, its generation and descriptor stay, and a stop is not taken back. -/
structure Job.Kept (j k : Job) : Prop where
  admitted : k.admitted = j.admitted
  tag : k.tag = j.tag
  phase : k.phase = j.phase
  gen : k.gen = j.gen
  fn : k.fn = j.fn
  q : k.q = j.q
  d : k.d = j.d
  stop : j.stop ≠ none → k.stop ≠ none

theorem Job.Kept.trans {i j k : Job} (h : i.Kept j) (h' : j.Kept k) : i.Kept k where
  admitted := h'.admitted.trans h.admitted
  tag := h'.tag.trans h.tag
  phase := h'.phase.trans h.phase
  gen := h'.gen.trans h.gen
  fn := h'.fn.trans h.fn
  q := h'.q.trans h.q
  d := h'.d.trans h.d
  stop := h'.stop ∘ h.stop

theorem Job.Kept.refl (j : Job) : j.Kept j := ⟨rfl, rfl, rfl, rfl, rfl, rfl, rfl, id⟩

/-- The jobs of `s` in their order, each kept, and the last tag given. -/
structure JobsFollow (s t : State) : Prop where
  list : ∃ g : Job → Job, t.jobs.list = s.jobs.list.map g ∧ ∀ j : Job, j.Kept (g j)
  count : t.jobs.tagCount = s.jobs.tagCount

theorem JobsFollow.of_eq (h : t.jobs.list = s.jobs.list) (hc : t.jobs.tagCount = s.jobs.tagCount) : JobsFollow s t :=
  ⟨⟨id, by simpa using h, .refl⟩, hc⟩

theorem JobsFollow.refl (s : State) : JobsFollow s s := .of_eq rfl rfl

/-- An update of other blocks. -/
theorem JobsFollow.of_only {l : List Block} (h : Only l s t) (hl : .jobs ∉ l) : JobsFollow s t := by
  have hjobs : t.jobs = s.jobs := h.2 .jobs hl
  exact .of_eq (by rw [hjobs]) (by rw [hjobs])

theorem JobsFollow.trans (h : JobsFollow s t) (k : JobsFollow t u) : JobsFollow s u := by
  obtain ⟨f, hf, hkeep⟩ := h.list
  obtain ⟨g, hg, hkeep'⟩ := k.list
  exact ⟨⟨g ∘ f, by rw [hg, hf, List.map_map], fun j => (hkeep j).trans (hkeep' (f j))⟩, k.count.trans h.count⟩

/-- An update of jobs that keeps each. -/
theorem JobsFollow.modJobs {f : Job → Job} (hf : ∀ j : Job, j.Kept (f j)) (s : State) : JobsFollow s (s.modJobs f) := ⟨⟨f, rfl, hf⟩, rfl⟩

theorem JobsFollow.modJob {f : Job → Job} (hf : ∀ j : Job, j.Kept (f j)) (s : State) (t : Tag) : JobsFollow s (s.modJob t f) := by
  refine .modJobs (fun j => ?_) s
  split
  · exact hf j
  · exact .refl j

theorem JobsFollow.job (h : JobsFollow s t) (tag : Tag) :
    ∃ g : Job → Job, t.job tag = (s.job tag).map g ∧ ∀ j : Job, j.Kept (g j) := by
  obtain ⟨g, hg, hkeep⟩ := h.list
  have hkey : ((fun j : Job => j.admitted && j.tag == tag && j.phase != .ended) ∘ g) =
      fun j => j.admitted && j.tag == tag && j.phase != .ended := by
    funext j
    simp only [Function.comp_apply, (hkeep j).admitted, (hkeep j).tag, (hkeep j).phase]
  refine ⟨g, ?_, hkeep⟩
  unfold State.job
  rw [hg, List.find?_map, hkey]

theorem JobsFollow.mem (h : JobsFollow s t) {j : Job} (hj : j ∈ s.jobs.list) : ∃ k ∈ t.jobs.list, j.Kept k := by
  obtain ⟨g, hg, hkeep⟩ := h.list
  exact ⟨g j, by rw [hg]; exact List.mem_map_of_mem hj, hkeep j⟩

/-- The live job of a tag, where there is one, has been stopped. -/
def StoppedJob (s : State) (tag : Tag) : Prop := ∀ j, s.job tag = some j → j.stop ≠ none

theorem JobsFollow.stopped (h : JobsFollow s t) {tag : Tag} (hs : StoppedJob s tag) : StoppedJob t tag := by
  obtain ⟨g, hg, hkeep⟩ := h.job tag
  intro j' hj'
  rw [hg] at hj'
  obtain ⟨j, hj, rfl⟩ := Option.map_eq_some_iff.mp hj'
  exact (hkeep j).stop (hs j hj)

theorem JobsFollow.admitted (h : JobsFollow s t) (hs : ∀ j ∈ s.jobs.list, j.admitted = true) : ∀ j ∈ t.jobs.list, j.admitted = true := by
  obtain ⟨g, hg, hkeep⟩ := h.list
  intro j' hj'
  rw [hg] at hj'
  obtain ⟨j, hj, rfl⟩ := List.mem_map.mp hj'
  exact (hkeep j).admitted.trans (hs j hj)

theorem follow_foldS {α : Type} {f : State → α → State} (hf : ∀ s a, JobsFollow s (f s a)) (l : List α) (s : State) :
    JobsFollow s (foldS s l f) :=
  foldS_keeps (p := JobsFollow s) f (fun _ a h => h.trans (hf _ a)) l (.refl s)

/-! ### Stops -/

theorem follow_slotIdle (s : State) (c : CId) (k : SId) : JobsFollow s (s.slotIdle c k) := by
  refine JobsFollow.trans (t := s.setSlot c.val k.val _) (.of_eq rfl rfl) (.modJob ?_ _ _)
  exact fun _ => ⟨rfl, rfl, rfl, rfl, rfl, rfl, rfl, id⟩

theorem follow_abortSlot (s : State) (c : CId) (k : SId) : JobsFollow s (s.abortSlot c k) := by
  unfold State.abortSlot
  dsimp only
  split
  · exact JobsFollow.trans (t := (s.modClu c.val _).modClu c.val _) (.of_eq rfl rfl) (follow_slotIdle _ c k)
  · exact .of_eq rfl rfl

theorem follow_haltJob (s : State) (tag : Tag) (st : Nat) (ev : W16) (tell : Out) : JobsFollow s (s.haltJob tag st ev tell) := by
  unfold State.haltJob
  split
  · exact .refl s
  · next j _ =>
    split
    · exact .refl s
    · have hmod : JobsFollow s (s.modJob tag fun j => { j with stop := some (st, ev) }) := by
        refine .modJob ?_ s tag
        exact fun _ => ⟨rfl, rfl, rfl, rfl, rfl, rfl, rfl, fun _ => Option.some_ne_none _⟩
      have habort := hmod.trans (follow_foldS (fun s (e : CId × SId) => follow_abortSlot s e.1 e.2) j.live _)
      obtain ⟨m, hm⟩ := foldS_grant_only (clustersOf j.d.clusters)
        (foldS (s.modJob tag fun j => { j with stop := some (st, ev) }) j.live fun s e => s.abortSlot e.1 e.2)
      dsimp only
      rw [hm]
      split
      · exact habort.trans (.of_eq rfl rfl)
      · exact habort.trans (.of_eq rfl rfl)

theorem follow_faultJob (s : State) (tag : Tag) (c : W16) (i : EvInfo) : JobsFollow s (s.faultJob tag c i) := by
  obtain ⟨e, he⟩ := raiseJob_only s tag c i
  refine JobsFollow.trans ?_ (follow_haltJob (s.raiseJob tag c i) tag _ _ _)
  rw [he]
  exact .of_eq rfl rfl

/-- After a stop the job of the tag is stopped. -/
theorem stoppedJob_stopJob (s : State) (tag : Tag) (st : Nat) (ev : W16) : StoppedJob (s.stopJob tag st ev) tag := by
  intro j' hj'
  cases hj : s.job tag with
  | none =>
    have hsame : s.stopJob tag st ev = s := by rw [State.stopJob, State.haltJob, hj]
    rw [hsame, hj] at hj'
    cases hj'
  | some j =>
    by_cases hs : j.stop = none
    · rw [stopJob_stops hj hs j' hj']
      exact Option.some_ne_none _
    · rw [stopJob_stopped hj hs, hj] at hj'
      cases hj'
      exact hs

/-! ### Reads outside a job's instructions (07 R157, R159, R162) -/

/-- What reads leave: they count, raise events, mark a job that missed, and bring a line of the shared base back. -/
structure AfterReads (s t : State) : Prop where
  only : Only [.mem, .cl, .jobs, .evt, .life] s t
  pages : t.mem.pages = s.mem.pages
  jobs : JobsFollow s t

theorem AfterReads.refl (s : State) : AfterReads s s := ⟨only_refl _ s, rfl, .refl s⟩

theorem AfterReads.trans (h : AfterReads s t) (k : AfterReads t u) : AfterReads s u :=
  ⟨only_trans h.only k.only, k.pages.trans h.pages, h.jobs.trans k.jobs⟩

theorem reads_raise (s : State) (c : W16) (i : EvInfo) : AfterReads s (s.raise c i) :=
  ⟨only_mono (only_raise s c i) (by decide), congrArg Mem.pages ((only_raise s c i).2 .mem (by decide)),
    .of_only (only_raise s c i) (by decide)⟩

theorem reads_countMiss (s : State) (a : Addr) : AfterReads s (s.countMiss a) := by
  have hraise (u : State) (c : W16) (i : EvInfo) (h : AfterReads s u) := h.trans (reads_raise u c i)
  unfold State.countMiss
  split
  · exact satEvent_keeps hraise _ _ _ ⟨only_mono (only_mem s _) (by decide), rfl, .of_eq rfl rfl⟩
  · exact satEvent_keeps hraise _ _ _ ⟨only_mono (only_cl s _) (by decide), rfl, .of_eq rfl rfl⟩

theorem reads_missed (s : State) (tag : Tag) : AfterReads s (s.modJob tag fun j => { j with missed := true }) := by
  refine ⟨only_mono (only_jobs s _) (by decide), rfl, .modJob ?_ s tag⟩
  exact fun _ => ⟨rfl, rfl, rfl, rfl, rfl, rfl, rfl, id⟩

theorem reads_noteMiss (s : State) (w : Who) (a : Addr) (n : Nat) (wr : Bool) : AfterReads s (s.noteMiss w a n wr) := by
  unfold State.noteMiss
  split
  · exact .refl s
  · next k l _ =>
    have hcount := foldS_keeps (p := AfterReads s) _ (fun u k hu => hu.trans (reads_countMiss u ⟨a.dev, 64 * k⟩)) (k :: l) (.refl s)
    dsimp only
    split
    · split
      · exact hcount
      · exact (hcount.trans (reads_missed _ _)).trans (reads_raise _ _ _)
    · exact foldS_keeps (p := AfterReads s) _ (fun u _ hu => hu.trans (reads_raise u _ _)) _ hcount

theorem reads_noteReads (s : State) (w : Who) (l : List (Addr × Nat)) : AfterReads s (s.noteReads w l) :=
  foldS_keeps (p := AfterReads s) _ (fun _ _ h => h.trans (reads_noteMiss _ _ _ _ _)) l (.refl s)

theorem reads_putByte (s : State) (a : Addr) (b : Byte) : AfterReads s (s.putByte a b) := by
  unfold State.putByte
  split
  · exact ⟨only_mono (only_mem s _) (by decide), rfl, .of_eq rfl rfl⟩
  · exact ⟨only_mono (only_cl s _) (by decide), rfl, .of_eq rfl rfl⟩

theorem reads_refillLine (s : State) (a : Addr) : AfterReads s (s.refillLine a) := by
  refine foldS_keeps (p := AfterReads s) _ (fun u i hu => ?_) _ (.refl s)
  split
  · exact hu
  · exact hu.trans (reads_putByte _ _ _)

/-- Reads with failures keep what a first and what a second failure keep. -/
theorem parityReads_keeps {p : State → Prop} {once : State → Addr → State} {twice : State → Addr → State × Option Fail}
    (hone : ∀ s a, p s → p (once s a)) (htwo : ∀ s a, p s → p (twice s a).1) (l : List (Addr × Nat)) (hs : p s) :
    p (parityReads once twice s l).1 := by
  induction l generalizing s with
  | nil => exact hs
  | cons e l ih =>
    obtain ⟨a, n⟩ := e
    match n with
    | 0 => exact ih hs
    | 1 => exact ih (hone s a hs)
    | n + 2 =>
      have hstep := htwo _ a (hone s a hs)
      rw [parityReads]
      · split
        · next hgo =>
          rw [hgo] at hstep
          exact ih hstep
        · exact hstep
      · simp
      · simp

theorem reads_spdParity (s : State) (w : Who) (reads : List (Addr × Nat)) (bad : List Nat) :
    AfterReads s (spdParity s w reads bad).1 := by
  refine parityReads_keeps (p := AfterReads s) (fun u a hu => ?_) (fun u a hu => ?_) _ (.refl s)
  · split
    · exact hu
    · exact hu.trans ⟨only_mono (only_life u _) (by decide), rfl, .of_eq rfl rfl⟩
  · split
    · exact hu
    · split
      · exact (hu.trans (reads_refillLine _ _)).trans (reads_raise _ _ _)
      · exact hu

end Sys2Proof.Machine
end

section
/-! PROOFS. The chain (chapter 11), membership (R306 to R309; 15 R406, R422): HELLO, JOIN, ADMIT, announcements, lost nodes and leaving. -/

namespace Sys2Proof.Machine

open Sys2Proof Sys2Proof.Safety

variable {s t u : State} {m : Msg} {n : NodeId}

/-! ### What does not turn on a device's rest -/

theorem wakeUp_coordStarts (s : State) : s.wakeUp.coordStarts = s.coordStarts := by
  rw [State.coordStarts, starting_wakeUp, wakeUp_lnk, wakeUp_firn, State.coordStarts]

theorem wakeUp_isRoot (s : State) : s.wakeUp.isRoot = s.isRoot := isRoot_congr (wakeUp_cfg s) (wakeUp_lnk s)

theorem wakeUp_isChildPort (s : State) (p : PortId) : s.wakeUp.isChildPort p = s.isChildPort p :=
  isChildPort_congr (wakeUp_cfg s) (wakeUp_lnk s) p

theorem wakeUp_placedOn (s : State) (p : PortId) (n : NodeId) : s.wakeUp.placedOn p n = s.placedOn p n :=
  wakeUp_keeps (·.placedOn p n) fun _ => rfl

/-! ### HELLO (R306; 15 R422) -/

theorem hello_refused (h : Heard s m [0]) (hg : s.glb.phase ≠ 3) {sameHash : Bool}
    (hbad : sameHash = false ∨ s.placedOn m.port m.src = false) (pp : PortId) (glb : W64) :
    hello m pp sameHash glb s = s.wakeUp.portDown m.port Ev.lnkPeerBad := by
  unfold hello
  rw [receive_heard h]
  dsimp only
  rw [if_pos, portDown_portsTry (by rwa [wakeUp_glb])]
  rw [wakeUp_placedOn]
  rcases hbad with hbad | hbad <;> simp [hbad]

/-- A port that knows its neighbour. -/
def Port.meets (x : Port) (ready : Bool) (node : NodeId) (pp : PortId) (glb : W64) : Port :=
  { x.open' ready with peer := node, peerPort := pp.val, peerGlb := glb, idleOnly := false }

theorem meets_txQ (x : Port) (ready : Bool) (node : NodeId) (pp : PortId) (glb : W64) : (x.meets ready node pp glb).txQ = x.txQ := by
  obtain ⟨f, g, h⟩ := open'_eq x ready
  rw [Port.meets, h]

theorem State.setPort_lnk_members (p : Nat) (y : Port) : (s.setPort p y).lnk.members = s.lnk.members := rfl

/-- A HELLO of a node that is no member sets the port's neighbour; a node that joins asks its parent. -/
theorem hello_meets (h : Heard s m [0]) (hp : s.placedOn m.port m.src = true) (hn : m.src ∉ s.lnk.members)
    (hq : (s.port m.port.val).txQ = []) (hi : (s.port m.port.val).idleOnly = false) (pp : PortId) (glb : W64) :
    hello m pp true glb s =
      let t := s.wakeUp.setPort m.port.val ((s.port m.port.val).meets s.glb.ready m.src pp glb)
      if s.joins = true ∧ s.isParentPort m.port = true then t.emit (.join s.lnk.node s.firn.greatest s.myExchange) else t := by
  have hgood : ¬((!true) = true ∨ (!s.wakeUp.placedOn m.port m.src) = true) := by rw [wakeUp_placedOn, hp]; simp
  have hidle : ¬(s.wakeUp.port m.port.val).idleOnly = true := by rw [wakeUp_port, hi]; decide
  have hjoins (y : Port) : (s.wakeUp.setPort m.port.val y).joins = s.joins := wakeUp_keeps (·.joins) fun _ => rfl
  have hparent (y : Port) : (s.wakeUp.setPort m.port.val y).isParentPort m.port = s.isParentPort m.port :=
    wakeUp_keeps (·.isParentPort m.port) fun _ => rfl
  have hsend (y : Port) : (s.wakeUp.setPort m.port.val y).sendJoin =
      (s.wakeUp.setPort m.port.val y).emit (.join s.lnk.node s.firn.greatest s.myExchange) := by
    obtain ⟨r, hr⟩ := wakeUp_only s
    rw [hr]
    rfl
  have hqueue := meets_txQ (s.port m.port.val) s.glb.ready m.src pp glb
  unfold Port.meets at hqueue ⊢
  unfold hello
  rw [receive_heard h]
  dsimp only at hqueue ⊢
  rw [if_neg hgood, if_neg hidle, if_neg (c := (_ ∨ _) ∧ _), drainAll_empty, hjoins, hparent, hsend, wakeUp_port, wakeUp_glb]
  · rw [State.port_setPort, wakeUp_port, wakeUp_glb]
    exact hqueue.trans hq
  · rintro ⟨-, hc⟩
    rw [State.setPort_lnk_members, wakeUp_lnk] at hc
    exact hn (by simpa using hc)

/-! ### JOIN (R306; 08 R208, 13 R356) -/

/-- A node's greatest generation number and its exchange key are noted. -/
def State.noteJoin (s : State) (n : NodeId) (seen : W32) (key : Bytes) : State :=
  (s.setFirn fun x => { x with seen := genMax seen x.seen }).noteKey n key

/-- The answer to a JOIN that this node takes. -/
def State.admits (s : State) (n : NodeId) (members : List NodeId) (g : W32) (slot : FSlotId) : State :=
  s.sendTo n 0 (.admitOk n members s.keyList g slot s.registryList (genMax s.firn.seen s.firn.greatest))

/-- What the answer to a JOIN changes. -/
theorem admits_noteJoin (hr : (s.route n).isSome = true) (seen : W32) (key : Bytes) (members : List NodeId) (g : W32) (slot : FSlotId) :
    ∃ t, (s.wakeUp.noteJoin n seen key).admits n members g slot = t ∧ Only [.firn, .out, .rst, .lnk] s t ∧
      t.firn = { s.firn with seen := genMax seen s.firn.seen } ∧
      t.lnk = { s.lnk with memberKeys := (n, key) :: s.lnk.memberKeys.filter fun e => e.1 != n } ∧
      t.out = s.out ++ [.admitOk n members t.keyList g slot s.registryList
        (genMax (genMax seen s.firn.seen) s.firn.greatest)] := by
  obtain ⟨r, hw⟩ := wakeUp_only s
  rw [hw]
  refine ⟨_, sendTo_routed _ hr, ?_, rfl, rfl, rfl⟩
  exact ⟨rfl, fun b hb => by cases b <;> simp_all [Block.Same] <;> rfl⟩

theorem join_coordStarts (h : Heard s m [0]) (hc : s.coordStarts = true) (hn : n ∈ topoMembers s.cfg.live.topo) (seen : W32)
    (key : Bytes) : join m n seen key s = (s.wakeUp.noteJoin n seen key).admits n [] 0 0 := by
  unfold join
  rw [receive_heard h]
  dsimp only
  rw [if_pos ((wakeUp_coordStarts s).trans hc), if_neg (by rw [wakeUp_cfg]; simpa using hn)]
  rfl

theorem not_coordStarts_of_isCoord (h : s.isCoord = true) : s.coordStarts = false := by
  refine coordStarts_of_not_starting ?_
  simp only [State.isCoord, Bool.and_eq_true] at h
  simp [State.starting, h.1]

theorem join_coord (h : Heard s m [0]) (hc : s.isCoord = true) (hn : n ∈ topoMembers s.cfg.live.topo)
    (hp : joinPlace s.cfg.live.topo s.lnk.members n = true) (hm : n ∉ s.lnk.members) (seen : W32) (key : Bytes) :
    join m n seen key s = (s.wakeUp.noteJoin n seen key).admits n s.lnk.members
      (match s.firn.current with | some g => g.num | none => 0) (match s.firn.current with | some g => g.slot | none => 0) := by
  obtain ⟨r, hw⟩ := wakeUp_only s
  unfold join
  rw [receive_heard h]
  dsimp only
  rw [if_neg (by rw [wakeUp_coordStarts, not_coordStarts_of_isCoord hc]; decide), if_neg (by rw [wakeUp_isCoord, hc]; decide),
    if_neg (by rw [wakeUp_cfg, wakeUp_lnk]; simp [hn, hm, hp]), hw]
  rfl

theorem join_up (h : Heard s m [0]) (hc : s.isCoord = false) (hs : s.coordStarts = false) (hr : s.isRoot = false) (seen : W32)
    (key : Bytes) : join m n seen key s = s.wakeUp.emit (.join n seen key) := by
  unfold join
  rw [receive_heard h]
  dsimp only
  rw [if_neg (by rw [wakeUp_coordStarts, hs]; decide), if_pos (by rw [wakeUp_isCoord, hc]; rfl), if_neg (by rw [wakeUp_isRoot, hr]; decide)]

/-! ### MEMBER_ANNOUNCE (R306) -/

theorem memberAnnounce_up (h : Heard s m [0]) (hp : s.isChildPort m.port = true) (hc : s.isCoord = false) (hr : s.isRoot = false)
    (seen : W32) (key : Bytes) : memberAnnounce m n seen key s = s.wakeUp.emit (.announce .up n seen key) := by
  unfold memberAnnounce
  rw [receive_heard h]
  dsimp only
  rw [if_pos (by rw [wakeUp_isChildPort, wakeUp_isCoord, hp, hc]; decide), if_neg (by rw [wakeUp_isRoot, hr]; decide)]

/-- A member notes the node that joined, and sends the announcement on down the tree. -/
theorem memberAnnounce_notes (h : Heard s m [0]) (hm : s.lnk.member = true) (hp : s.isChildPort m.port = true → s.isCoord = true)
    (hn : n ∉ s.lnk.members) (seen : W32) (key : Bytes) :
    memberAnnounce m n seen key s = ((s.wakeUp.sendDown (.announce .down n seen key)).noteJoin n seen key).addMember n := by
  have hlnk (o : Out) : (s.wakeUp.sendDown o).lnk = s.lnk := ((only_sendDown _ o).2 .lnk (by decide)).trans (wakeUp_lnk s)
  have hhere : ¬(s.wakeUp.isChildPort m.port = true ∧ (!s.wakeUp.isCoord) = true) := by
    rw [wakeUp_isChildPort, wakeUp_isCoord]
    rintro ⟨hc, hn⟩
    simp [hp hc] at hn
  have hnew : ¬((!(s.wakeUp.sendDown (.announce .down n seen key)).lnk.member) = true ∨
      (s.wakeUp.sendDown (.announce .down n seen key)).lnk.members.contains n = true) := by
    rw [hlnk]
    simp [hm, hn]
  unfold memberAnnounce
  rw [receive_heard h]
  dsimp only
  rw [if_neg hhere]
  exact if_neg hnew

theorem only_of_announced (s : State) (r : Rst) (o : List Out) (f : Firn) (l : Lnk) :
    Only [.lnk, .evt, .out, .rst, .firn] s { s with rst := r, out := o, firn := f, lnk := l } :=
  ⟨rfl, fun b hb => by cases b <;> simp_all [Block.Same]⟩

theorem memberAnnounce_does (h : Heard s m [0]) (hm : s.lnk.member = true) (hp : s.isChildPort m.port = true → s.isCoord = true)
    (hn : n ∉ s.lnk.members) (seen : W32) (key : Bytes) :
    Does (.memberAnnounce m n seen key) s [.lnk, .evt, .out, .rst, .firn] fun t =>
      t.lnk = { s.lnk with
        memberKeys := (n, key) :: s.lnk.memberKeys.filter (fun e => e.1 != n), members := s.inOrder (n :: s.lnk.members)
        lost := s.lnk.lost.filter (· != n) } ∧
      t.firn = { s.firn with seen := genMax seen s.firn.seen } ∧
      t.out = (if s.childEdges = [] then s.out else s.out ++ [.announce .down n seen key]) ∧
      t.evt = (s.raise Ev.lnkMemberJoined { aux := n }).evt := by
  refine ⟨_, congrArg Host.Outcome.next (memberAnnounce_notes h hm hp hn seen key), ?_⟩
  obtain ⟨r, hr⟩ := wakeUp_only s
  generalize ho : (if s.childEdges = [] then s.out else s.out ++ [.announce .down n seen key]) = o
  have hdown : s.wakeUp.sendDown (.announce .down n seen key) = { s with rst := r, out := o } := by
    rw [← ho, hr]
    unfold State.sendDown
    by_cases hc : s.childEdges = []
    · rw [if_pos hc, if_pos (show (State.childEdges { s with rst := r }).isEmpty = true from List.isEmpty_iff.mpr hc)]
    · rw [if_neg hc, if_neg (show ¬(State.childEdges { s with rst := r }).isEmpty = true from fun h => hc (List.isEmpty_iff.mp h))]
      rfl
  rw [hdown]
  generalize hl : ({ s.lnk with
    memberKeys := (n, key) :: s.lnk.memberKeys.filter (fun e => e.1 != n), members := s.inOrder (n :: s.lnk.members)
    lost := s.lnk.lost.filter (· != n) } : Lnk) = l
  have hnoted : (State.noteJoin { s with rst := r, out := o } n seen key).addMember n = State.raise { s with
      rst := r, out := o, firn := { s.firn with seen := genMax seen s.firn.seen }, lnk := l } Ev.lnkMemberJoined { aux := n } := by
    rw [← hl]
    rfl
  have hnode : l.node = s.lnk.node := by rw [← hl]
  rw [hnoted]
  refine ⟨only_step (b := .evt) (only_of_announced s r o _ l) (only_raise _ _ _) (by decide), raise_lnk _ _ _, raise_firn _ _ _,
    raise_out _ _ _, raise_evt_of_node (by rfl) hnode (by rfl) _ _⟩

/-! ### LNK_CMD and leaving (R306, R309) -/

theorem lnkLeave_starts {v : W64} (hu : s.up = true) (hb : s.lnk.cmdState ≠ .busy) (ho : bitsOf v 63 60 = 1) (hm : s.lnk.member = true) :
    lnkLeave v s = { s with lnk := { s.lnk with leaving := true, cmdState := .busy, reason := 0 } } := by
  rw [lnkLeave, lnkOp_runs hu hb ho, if_neg (by simp [hm])]
  rfl

theorem lnkRejoin_joins {v : W64} (hu : s.up = true) (hb : s.lnk.cmdState ≠ .busy) (ho : bitsOf v 63 60 = 2) (hm : s.lnk.member = false) :
    lnkRejoin v s =
      { s with lnk := { s.lnk with cmdState := .busy, reason := 0 } }.emit (.join s.lnk.node s.firn.greatest s.myExchange) := by
  rw [lnkRejoin, lnkOp_runs hu hb ho, if_neg (by simp [hm])]
  rfl

theorem leaveSend_leaves (hl : s.lnk.leaving = true) (ha : s.anyLive = false) :
    Does .leaveSend s [.lnk, .out] fun t =>
      t.lnk.left = true ∧ t.lnk.member = false ∧ t.lnk.members = [] ∧ t.lnk.cmdState = .done ∧ t.out = s.out ++ [.leave] :=
  ⟨_, congrArg Host.Outcome.next (if_neg (by simp [hl, ha])),
    only_step (b := .out) (only_mono (only_lnk s _) (by decide)) (only_emit _ _) (by decide), rfl, rfl, rfl, rfl, rfl⟩

theorem leaveSend_waits (ha : s.anyLive = true) : leaveSend s = s := if_pos (.inr ha)

/-- Every port to a neighbour is down or retraining, and none of them quiet. -/
theorem neighbourLossTimeout_loses (p : PortId)
    (hp : p ∈ (List.finRange 12).filter (fun q : PortId => (s.port q.val).enabled && ((s.port q.val).peer == n || s.placedOn q n)))
    (h : ∀ q : PortId, (s.port q.val).enabled = true → ((s.port q.val).peer = n ∨ s.placedOn q n = true) →
      ((s.port q.val).state = .down ∨ (s.port q.val).state = .retraining) ∧ (s.port q.val).quiet = false) :
    neighbourLossTimeout n s =
      s.loseNodes (s.lostAmong (if s.starting then topoMembers s.cfg.live.topo else s.lnk.members) [n]) false := by
  unfold neighbourLossTimeout
  dsimp only
  refine if_neg ?_
  rintro (hnone | hsome)
  · rw [List.isEmpty_iff.mp hnone] at hp
    cases hp
  · rw [Bool.not_eq_true', List.all_eq_false] at hsome
    obtain ⟨q, hq, hbad⟩ := hsome
    simp only [List.mem_filter, Bool.and_eq_true, Bool.or_eq_true, beq_iff_eq] at hq
    obtain ⟨hstate, hquiet⟩ := h q hq.2.1 hq.2.2
    refine hbad ?_
    rcases hstate with hstate | hstate <;> simp [hstate, hquiet]

/-! ### ADMIT (R306; 08 R214, 09 R221) -/

theorem only_freeCache (s : State) (v : Nat) : Only [.cl, .var] s (s.freeCache v) := by
  unfold State.freeCache
  split
  · exact only_refl _ s
  · next x _ =>
    obtain ⟨c, hc⟩ := foldS_retag_free_only (x.cacheParcels ++ x.oldCopies.flatMap (·.2)) s
    rw [hc]
    exact only_step (b := .var) (only_mono (only_cl s c) (by decide)) (only_setVariant _ _ _) (by decide)

theorem only_modVariant (s : State) (v : Nat) (f : Variant → Variant) : Only [.var] s (s.modVariant v f) := by
  unfold State.modVariant
  split
  · exact only_setVariant _ _ _
  · exact only_refl _ s

theorem only_freeVariant (s : State) (v : Nat) (x : Variant) : Only [.mem, .cl, .var] s (s.freeVariant v x) := by
  have hscrub := (scrubPages_frees s x.first x.pages false).1.trans (scrubPages_frees _ x.sfirst x.spages false).1
  exact only_trans (only_trans (only_mono (only_of_storesOnly hscrub) (by decide)) (only_mono (only_freeCache _ v) (by decide)))
    (only_mono (only_modVariant _ v _) (by decide))

theorem only_adoptRegistry (s : State) (l : List (BitVec 512)) : Only [.mem, .cl, .var] s (s.adoptRegistry l) := by
  unfold State.adoptRegistry
  refine only_trans (only_foldS (fun s e => ?_) _ _) (only_foldS (fun s d => ?_) _ _)
  · exact only_step (b := .var) (only_freeVariant s e.1 e.2) (only_dropVariant _ _) (by decide)
  · split
    · exact only_refl _ s
    · exact only_mono (only_setVariant _ _ _) (by decide)

/-- A node gives up the generation it holds. -/
def State.withoutGen (s : State) : State :=
  match s.firn.current with
  | some x => (s.dropGen x).setFirn fun y => { y with current := none }
  | none => s

theorem StoresOnly.setFirn (h : StoresOnly s u) (f : Firn → Firn) : Only [.mem, .cl, .firn] s (u.setFirn f) :=
  only_step (b := .firn) (only_mono (only_of_storesOnly h) (by decide)) (only_setFirn u f) (by decide)

theorem only_withoutGen (s : State) : Only [.mem, .cl, .firn] s s.withoutGen := by
  unfold State.withoutGen
  cases s.firn.current with
  | none => exact only_refl _ s
  | some x => exact (dropGen_frees s x).1.setFirn _

/-- A generation that a node adopts changes its memory and its firmware's records. -/
theorem only_adoptGen {k : FSlotId} {g : W32} {bad unread : List Nat} (h : s.adoptGen k g bad unread = (t, .ok ())) :
    Only [.mem, .cl, .firn] s t := by
  unfold State.adoptGen at h
  split at h
  · cases h
    exact only_refl _ s
  · split at h
    · cases h
    · dsimp only at h
      split at h
      · cases h
      · next v x htake =>
        obtain ⟨⟨p, c, hv⟩, -⟩ := takeGen_takes htake
        split at h
        · cases h
        · next w y hthaw =>
          cases h
          have htaken : StoresOnly s.withoutGen v := ⟨_, _, hv⟩
          exact only_trans (only_withoutGen s)
            (only_trans ((htaken.trans (thawGen_ok hthaw)).setFirn _) (only_mono (only_catalogue _) (by decide)))

/-- This node is a member, of a chain with the members that ADMIT lists. -/
def State.asMember (s : State) (ms : List NodeId) : State :=
  s.setLnk fun l => { l with
    member := true, left := false, members := s.inOrder (l.node :: ms), lost := []
    cmdState := if l.cmdState = .busy ∧ l.rekeyPort.isNone then .done else l.cmdState }

/-- The member tells the coordinator. -/
def State.tellsJoined (s : State) (ms : List NodeId) : State :=
  ((s.asMember ms).raise Ev.lnkMemberJoined { aux := s.lnk.node }).emit (.announce .up s.lnk.node s.firn.greatest s.myExchange)

theorem joined_eq (s : State) (ms : List NodeId) :
    s.joined ms = if (s.tellsJoined ms).glb.phase = 4 ∧ !(s.tellsJoined ms).glb.ready ∧ !(s.tellsJoined ms).glb.fatal
      then (s.tellsJoined ms).openDevice else s.tellsJoined ms := rfl

/-- What a node that has joined says and notes. -/
theorem joined_fields (s : State) (ms : List NodeId) :
    (s.joined ms).lnk.member = true ∧ (s.joined ms).lnk.lost = [] ∧ (s.joined ms).firn = s.firn ∧
      (s.joined ms).lnk.members = s.inOrder (s.lnk.node :: ms) ∧
      (s.glb.ready = true → (s.joined ms).out = s.out ++ [.announce .up s.lnk.node s.firn.greatest s.myExchange]) ∧
      ((s.glb.phase = 4 ∨ s.glb.ready = true) → s.glb.fatal = false → (s.joined ms).glb.ready = true) := by
  have hlnk : (s.tellsJoined ms).lnk = (s.asMember ms).lnk := raise_lnk _ _ _
  have hfirn : (s.tellsJoined ms).firn = s.firn := raise_firn _ _ _
  have hglb : (s.tellsJoined ms).glb = s.glb := (only_raise _ _ _).2 .glb (by decide)
  have hout : (s.tellsJoined ms).out = s.out ++ [.announce .up s.lnk.node s.firn.greatest s.myExchange] :=
    congrArg (· ++ _) (raise_out _ _ _)
  rw [joined_eq]
  generalize s.tellsJoined ms = u at *
  split
  · next hopen =>
    obtain ⟨⟨honly, q, hq⟩, hready⟩ := opens_openDevice u
    rw [hq, hlnk, show u.openDevice.firn = u.firn from honly.2 .firn (by decide)]
    refine ⟨rfl, rfl, hfirn, rfl, fun hr => ?_, fun _ _ => hready⟩
    rw [hglb, hr] at hopen
    simp at hopen
  · next hclosed =>
    rw [hglb] at hclosed
    rw [hlnk, hglb]
    refine ⟨rfl, rfl, hfirn, rfl, fun _ => hout, fun hs hf => ?_⟩
    rcases hs with hs | hs
    · simpa [hs, hf] using hclosed
    · exact hs

/-- The state in which a node that ADMIT names takes the chain's generation. -/
def State.admitted (s : State) (reg : List (BitVec 512)) (seen : W32) (keys : List (NodeId × Bytes)) : State :=
  ((s.adoptRegistry reg).setFirn fun x => { x with seen := genMax seen x.seen }).setLnk fun l => { l with memberKeys := keys }

section Admits

variable {ms : List NodeId} {g : W32} {keys : List (NodeId × Bytes)} {k : FSlotId} {reg : List (BitVec 512)} {seen : W32}
variable {bad unread : List Nat}

theorem admitMsg_adopted (h : Heard s m [0]) (hd : m.dst = s.lnk.node) (hj : s.joins = true) (hg : g ≠ 0 ∨ ms ≠ [])
    (hr : (s.wakeUp.admitted reg seen keys).adoptGen k g bad unread = (t, .ok ())) :
    admitMsg m ms keys g k reg seen bad unread s = t.joined ms := by
  have hjoins : s.wakeUp.joins = true := (wakeUp_keeps (·.joins) fun _ => rfl).trans hj
  unfold State.admitted at hr
  unfold admitMsg
  rw [receiveTo_heard h hd, if_neg (by simp [hjoins])]
  dsimp only
  rw [if_neg (fun hz => hg.elim (· hz.1) (· hz.2)), hr]

theorem admitMsg_failed (h : Heard s m [0]) (hd : m.dst = s.lnk.node) (hj : s.joins = true) (hg : g ≠ 0 ∨ ms ≠ []) {e : Nat}
    (hr : (s.wakeUp.admitted reg seen keys).adoptGen k g bad unread = (t, .error e)) :
    admitMsg m ms keys g k reg seen bad unread s = t.raise Ev.baseSwapFail (argReason e) := by
  have hjoins : s.wakeUp.joins = true := (wakeUp_keeps (·.joins) fun _ => rfl).trans hj
  unfold State.admitted at hr
  unfold admitMsg
  rw [receiveTo_heard h hd, if_neg (by simp [hjoins])]
  dsimp only
  rw [if_neg (fun hz => hg.elim (· hz.1) (· hz.2)), hr]

theorem admitMsg_joins (h : Heard s m [0]) (hd : m.dst = s.lnk.node) (hj : s.joins = true) (hg : g ≠ 0 ∨ ms ≠ [])
    (hr : (s.wakeUp.admitted reg seen keys).adoptGen k g bad unread = (t, .ok ())) :
    ∃ v, exec (.admitMsg m ms keys g k reg seen bad unread) s = .next v ∧
      v.lnk.member = true ∧ v.lnk.lost = [] ∧ v.firn = t.firn ∧ v.lnk.members = t.inOrder (t.lnk.node :: ms) ∧
      (s.glb.ready = true → v.out = t.out ++ [.announce .up t.lnk.node t.firn.greatest t.myExchange]) ∧
      (s.glb.fatal = false → v.glb.ready = true) := by
  have hglb : t.glb = s.glb := by
    rw [(only_adoptGen hr).2 .glb (by decide)]
    exact ((only_adoptRegistry _ _).2 .glb (by decide)).trans (wakeUp_glb s)
  obtain ⟨hmember, hlost, hfirn, hmembers, hout, hready⟩ := joined_fields t ms
  rw [hglb] at hout hready
  refine ⟨t.joined ms, congrArg Host.Outcome.next (admitMsg_adopted h hd hj hg hr), hmember, hlost, hfirn, hmembers, hout, hready ?_⟩
  simp only [State.joins, Bool.and_eq_true, Bool.or_eq_true, beq_iff_eq] at hj
  exact hj.2

end Admits

/-! ### Lost nodes (R308) -/

/-- What holds once a step was made for an element, and is kept by every further step, holds after all of them. -/
theorem foldS_reaches {α : Type} {f : State → α → State} {p : α → State → Prop} (hnew : ∀ s a, p a (f s a))
    (hkeep : ∀ s a b, p a s → p a (f s b)) {l : List α} {a : α} (ha : a ∈ l) (s : State) : p a (foldS s l f) := by
  induction l generalizing s with
  | nil => cases ha
  | cons b l ih =>
    rw [foldS_cons]
    rcases List.mem_cons.mp ha with rfl | ha
    · exact foldS_keeps (p := p a) f (fun s b h => hkeep s a b h) l (hnew s a)
    · exact ih ha _

theorem follow_freeJobCtx (s : State) (tag : Tag) : JobsFollow s (s.freeJobCtx tag) := by
  unfold State.freeJobCtx
  split
  · exact .of_eq rfl rfl
  · dsimp only
    split
    · exact .of_eq rfl rfl
    · refine JobsFollow.trans (t := s.setCtx _ _) (.of_eq rfl rfl) (.modJob ?_ _ tag)
      exact fun _ => ⟨rfl, rfl, rfl, rfl, rfl, rfl, rfl, id⟩

theorem only_freeJobCtx (s : State) (tag : Tag) : Only [.jobs, .upd] s (s.freeJobCtx tag) := by
  unfold State.freeJobCtx
  split
  · exact only_refl _ s
  · dsimp only
    split
    · exact only_refl _ s
    · exact only_step (b := .jobs) (only_mono (only_setCtx s _ _) (by decide)) (only_jobs _ _) (by decide)

/-- A job with a lost member is stopped, and its context is given up. -/
def State.loseJob (s : State) (j : Job) : State := (s.stopJob j.tag Stat.memberLost Ev.lnkMemberLost).freeJobCtx j.tag

theorem follow_loseJob (s : State) (j : Job) : JobsFollow s (s.loseJob j) := (follow_haltJob s j.tag _ _ _).trans (follow_freeJobCtx _ _)

theorem stopped_loseJob (s : State) (j : Job) : StoppedJob (s.loseJob j) j.tag :=
  (follow_freeJobCtx _ _).stopped (stoppedJob_stopJob s j.tag _ _)

theorem only_loseJob (s : State) (j : Job) : Only [.cl, .jobs, .bars, .out, .upd] s (s.loseJob j) := by
  obtain ⟨m, js, b, o, h⟩ := stopJob_only s j.tag Stat.memberLost Ev.lnkMemberLost
  have hstop : Only [.cl, .jobs, .bars, .out, .upd] s (s.stopJob j.tag Stat.memberLost Ev.lnkMemberLost) := by
    rw [h]
    exact ⟨rfl, fun b hb => by cases b <;> simp_all [Block.Same]⟩
  exact only_trans hstop (only_mono (only_freeJobCtx _ _) (by decide))

/-- Setups that include a lost node are forgotten, and every job that includes one is stopped. -/
def State.loseJobs (s : State) (l : List NodeId) : State :=
  foldS { s with jobs := { s.jobs with setups := s.jobs.setups.filter fun u => !u.members.any fun n => l.contains n } }
    (s.jobs.list.filter fun j => j.admitted && j.phase != .ended && j.members.any fun n => l.contains n) State.loseJob

theorem follow_loseJobs (s : State) (l : List NodeId) : JobsFollow s (s.loseJobs l) :=
  JobsFollow.trans (t := { s with jobs := { s.jobs with setups := s.jobs.setups.filter fun u => !u.members.any fun n => l.contains n } })
    (.of_eq rfl rfl) (follow_foldS follow_loseJob _ _)

theorem only_loseJobs (s : State) (l : List NodeId) : Only [.cl, .jobs, .bars, .out, .upd] s (s.loseJobs l) :=
  only_trans (only_mono (only_jobs s _) (by decide)) (only_foldS only_loseJob _ _)

theorem stopped_loseJobs {l : List NodeId} {j : Job} (hj : j ∈ s.jobs.list) (ha : j.admitted = true) (hp : j.phase ≠ .ended)
    (hn : n ∈ j.members) (hl : n ∈ l) : StoppedJob (s.loseJobs l) j.tag := by
  refine foldS_reaches (f := State.loseJob) (p := fun j s => StoppedJob s j.tag) stopped_loseJob
    (fun s a b h => (follow_loseJob s b).stopped h) (List.mem_filter.mpr ⟨hj, ?_⟩) _
  simp only [ha, Bool.true_and, Bool.and_eq_true, bne_iff_ne, List.any_eq_true]
  exact ⟨hp, n, hn, by simpa using hl⟩

/-- Signals to lost nodes are waited for no longer, and a job that only waited for them is dropped. -/
def State.loseRemote (s : State) (l : List NodeId) : State :=
  (s.modJobs fun j => { j with remote := j.remote.filter fun r => !l.contains r.2.2.1.node }).dropEnded

theorem job_dropEnded (s : State) (tag : Tag) : s.dropEnded.job tag = s.job tag := by
  unfold State.job State.dropEnded
  rw [List.find?_filter]
  congr 1
  funext j
  by_cases hp : j.phase = .ended
  · simp [hp]
  · simp [hp, bne_iff_ne.mpr hp, beq_eq_decide]

theorem stopped_loseRemote {tag : Tag} (l : List NodeId) (h : StoppedJob s tag) : StoppedJob (s.loseRemote l) tag := by
  intro j hj
  unfold State.loseRemote at hj
  rw [job_dropEnded] at hj
  refine JobsFollow.stopped (.modJobs ?_ s) h j hj
  exact fun _ => ⟨rfl, rfl, rfl, rfl, rfl, rfl, rfl, id⟩

theorem only_loseRemote (s : State) (l : List NodeId) : Only [.jobs] s (s.loseRemote l) := only_jobs s _

/-- Lost nodes leave the list of members. -/
def State.loseMembers (s : State) (l : List NodeId) : State :=
  s.setLnk fun k => { k with
    members := k.members.filter fun n => !l.contains n, lost := k.lost ++ l.filter fun n => !k.lost.contains n }

/-- Each lost node is reported. -/
def State.sayLost (s : State) (l : List NodeId) : State := foldS s l fun s n => s.raise Ev.lnkMemberLost { aux := n }

theorem only_sayLost (s : State) (l : List NodeId) : Only [.evt] s (s.sayLost l) := only_foldS (fun s _ => only_raise s _ _) _ s

theorem only_losePublish (h : s.isCoord = false) : Only [.var] s s.losePublish := by
  unfold State.losePublish
  dsimp only
  split
  · next hc => exact absurd (show s.isCoord = true from hc) (by simp [h])
  · exact only_setVar _ _

/-- The members among lost nodes. -/
def State.lostHere (s : State) (l : List NodeId) : List NodeId := s.lnk.members.filter fun n => n != s.lnk.node && l.contains n

/-- A member that neither coordinates nor swaps, installs nor starts, and holds jobs that were admitted. -/
structure PlainMember (s : State) : Prop where
  starting : s.starting = false
  coord : s.isCoord = false
  swap : s.firn.swap = none
  install : s.firn.install = none
  admitted : ∀ j ∈ s.jobs.list, j.admitted = true

/-- What such a member does when nodes other than the coordinator are lost. -/
theorem loseNodes_plain (h : PlainMember s) {l : List NodeId} (hl : s.lostHere l ≠ []) (hc : s.lnk.coordinator ∉ s.lostHere l) :
    ∃ u, s.loseNodes l false = u.losePublish ∧ u.isCoord = false ∧
      u = (((((s.emit (.lost (s.lostHere l) false)).loseJobs (s.lostHere l)).loseRemote (s.lostHere l)).loseMembers
        (s.lostHere l)).sayLost (s.lostHere l)) := by
  generalize hL : s.lostHere l = L at *
  generalize hv : (s.emit (.lost L false)).loseJobs L = v
  have honly : Only [.cl, .jobs, .bars, .out, .upd] s v := by
    rw [← hv]
    exact only_trans (only_mono (only_emit s _) (by decide)) (only_loseJobs _ _)
  have hlate : (v.jobs.list.filter fun j => !j.admitted && (j.phase == .accepted || j.phase == .setup) &&
      j.members.any fun n => L.contains n) = [] := by
    rw [List.filter_eq_nil_iff]
    intro j hj
    have hfollow : JobsFollow (s.emit (.lost L false)) v := hv ▸ follow_loseJobs _ _
    simp [hfollow.admitted h.admitted j hj]
  have hfirn : (v.loseRemote L).firn = s.firn := ((only_loseRemote v L).2 .firn (by decide)).trans (honly.2 .firn (by decide))
  generalize hw : ((v.loseRemote L).loseMembers L).sayLost L = w
  have hwfirn : w.firn = s.firn := by
    rw [← hw]
    exact ((only_sayLost _ L).2 .firn (by decide)).trans hfirn
  have hwlnk : w.lnk = ((v.loseRemote L).loseMembers L).lnk := by
    rw [← hw]
    exact (only_sayLost _ L).2 .lnk (by decide)
  have hlnk : (v.loseRemote L).lnk = s.lnk := ((only_loseRemote v L).2 .lnk (by decide)).trans (honly.2 .lnk (by decide))
  have hmembers : ((v.loseRemote L).loseMembers L).lnk = { s.lnk with
      members := s.lnk.members.filter fun n => !L.contains n, lost := s.lnk.lost ++ L.filter fun n => !s.lnk.lost.contains n } := by
    rw [← hlnk]
    rfl
  have hnode : w.lnk.node = s.lnk.node ∧ w.lnk.coordinator = s.lnk.coordinator ∧ w.lnk.member = s.lnk.member := by
    rw [hwlnk, hmembers]
    exact ⟨rfl, rfl, rfl⟩
  obtain ⟨hn, hco, hm⟩ := hnode
  have hcoord : w.isCoord = false := by
    have := h.coord
    unfold State.isCoord at this ⊢
    rwa [hn, hco, hm]
  have hplnk : w.losePublish.lnk = w.lnk := (only_losePublish hcoord).2 .lnk (by decide)
  refine ⟨w, ?_, hcoord, rfl⟩
  have hstart : ¬s.starting = true := by rw [h.starting]; decide
  have hempty : ¬L.isEmpty = true := fun he => hl (List.isEmpty_iff.mp he)
  unfold State.loseNodes
  rw [if_neg hstart]
  dsimp only
  rw [show s.lnk.members.filter (fun n => n != s.lnk.node && l.contains n) = L from hL, if_neg hempty,
    show (foldS { s.emit (.lost L false) with jobs := { (s.emit (.lost L false)).jobs with
      setups := (s.emit (.lost L false)).jobs.setups.filter fun u => !u.members.any fun n => L.contains n } }
      ((s.emit (.lost L false)).jobs.list.filter fun j => j.admitted && j.phase != .ended && j.members.any fun n => L.contains n)
        fun s j => (s.stopJob j.tag Stat.memberLost Ev.lnkMemberLost).freeJobCtx j.tag) = v from hv]
  rw [hlate, show foldS v [] _ = v from rfl,
    show (v.modJobs fun j => { j with remote := j.remote.filter fun r => !L.contains r.2.2.1.node }).dropEnded = v.loseRemote L from rfl,
    show (v.loseRemote L).firn.swap = none from (congrArg Firn.swap hfirn).trans h.swap]
  dsimp only
  rw [show (foldS ((v.loseRemote L).setLnk fun k => { k with
      members := k.members.filter fun n => !L.contains n, lost := k.lost ++ L.filter fun n => !k.lost.contains n })
        L fun s n => s.raise Ev.lnkMemberLost { aux := n }) = w from hw,
    show w.firn.install = none from (congrArg Firn.install hwfirn).trans h.install]
  dsimp only
  rw [if_neg (show ¬L.contains w.losePublish.lnk.coordinator = true by rw [hplnk, hco]; simpa using hc), if_neg]
  rw [isCoord_congr hplnk, hcoord]
  decide

/-- Where one other member is lost, it is all that is lost here. -/
theorem lostHere_single (hn : n ∈ s.lnk.members) (hself : n ≠ s.lnk.node) :
    n ∈ s.lostHere [n] ∧ ∀ k ∈ s.lostHere [n], k = n := by
  unfold State.lostHere
  refine ⟨List.mem_filter.mpr ⟨hn, by simp [hself]⟩, fun k hk => ?_⟩
  obtain ⟨-, hk⟩ := List.mem_filter.mp hk
  simp only [List.contains_cons, Bool.and_eq_true] at hk
  simpa using hk.2

theorem loseNodes_single (h : PlainMember s) (hn : n ∈ s.lnk.members) (hself : n ≠ s.lnk.node) (hcoord : n ≠ s.lnk.coordinator) :
    (s.loseNodes [n] false).lnk.members = s.lnk.members.filter (fun k => k != n) ∧ n ∈ (s.loseNodes [n] false).lnk.lost ∧
      (s.loseNodes [n] false).mem = s.mem ∧
      ∀ j ∈ s.jobs.list, j.phase ≠ .ended → n ∈ j.members → StoppedJob (s.loseNodes [n] false) j.tag := by
  obtain ⟨hmem, hall⟩ := lostHere_single hn hself
  obtain ⟨u, hlose, hu, heq⟩ := loseNodes_plain h (List.ne_nil_of_mem hmem) fun hc => hcoord (hall _ hc).symm
  generalize s.lostHere [n] = L at *
  have hjobs : Only [.cl, .jobs, .bars, .out, .upd] s ((s.emit (.lost L false)).loseJobs L) :=
    only_trans (only_mono (only_emit s _) (by decide)) (only_loseJobs _ _)
  generalize hv : (s.emit (.lost L false)).loseJobs L = v at *
  have hremote : Only [.cl, .jobs, .bars, .out, .upd] s (v.loseRemote L) :=
    only_trans hjobs (only_mono (only_loseRemote v L) (by decide))
  have hpublish : Only [.evt, .var] ((v.loseRemote L).loseMembers L) (s.loseNodes [n] false) := by
    rw [hlose, heq]
    rw [heq] at hu
    exact only_trans (only_mono (only_sayLost _ L) (by decide)) (only_mono (only_losePublish hu) (by decide))
  have hlnk : (s.loseNodes [n] false).lnk = { s.lnk with
      members := s.lnk.members.filter fun n => !L.contains n, lost := s.lnk.lost ++ L.filter fun n => !s.lnk.lost.contains n } := by
    rw [hpublish.2 .lnk (by decide), ← hremote.2 .lnk (by decide)]
    rfl
  have hcontains (k : NodeId) : L.contains k = (k == n) := by
    rw [Bool.eq_iff_iff, List.contains_iff_mem, beq_iff_eq]
    exact ⟨hall k, fun he => he ▸ hmem⟩
  refine ⟨?_, ?_, ?_, fun j hj hp hm => ?_⟩
  · rw [hlnk]
    exact List.filter_congr fun k _ => by rw [hcontains, bne]
  · rw [hlnk]
    by_cases hk : n ∈ s.lnk.lost
    · exact List.mem_append_left _ hk
    · exact List.mem_append_right _ (List.mem_filter.mpr ⟨hmem, by simpa using hk⟩)
  · rw [hpublish.2 .mem (by decide)]
    exact hremote.2 .mem (by decide)
  · have hstop : StoppedJob (v.loseRemote L) j.tag := by
      rw [← hv]
      exact stopped_loseRemote L (stopped_loseJobs (s := s.emit (.lost L false)) hj (h.admitted j hj) hp hm hmem)
    have hsame : (s.loseNodes [n] false).jobs = (v.loseRemote L).jobs := hpublish.2 .jobs (by decide)
    intro j' hj'
    refine hstop j' ?_
    rwa [State.job, hsame] at hj'

theorem plainMember_wakeUp (h : PlainMember s) : PlainMember s.wakeUp where
  starting := (starting_wakeUp s).trans h.starting
  coord := (wakeUp_isCoord s).trans h.coord
  swap := (congrArg Firn.swap (wakeUp_firn s)).trans h.swap
  install := (congrArg Firn.install (wakeUp_firn s)).trans h.install
  admitted := by
    rw [wakeUp_keeps (·.jobs) fun _ => rfl]
    exact h.admitted

theorem lost_leaves (h : Heard s m [0]) (hp : PlainMember s) (hn : n ∈ s.lnk.members) (hself : n ≠ s.lnk.node)
    (hcoord : n ≠ s.lnk.coordinator) :
    ∃ t, exec (.lost m [n] false) s = .next t ∧ t.lnk.members = s.lnk.members.filter (fun k => k != n) ∧ n ∈ t.lnk.lost ∧
      t.mem = s.mem ∧
      ∀ j ∈ s.jobs.list, j.phase ≠ .ended → n ∈ j.members → ∀ j', t.job j.tag = some j' → j'.stop ≠ none := by
  have hw := loseNodes_single (n := n) (plainMember_wakeUp hp)
  rw [wakeUp_lnk, wakeUp_mem, wakeUp_keeps (·.jobs) fun _ => rfl] at hw
  exact ⟨_, congrArg Host.Outcome.next (receive_heard h _), hw hn hself hcoord⟩

/-! ### The obligation -/

/-- Settles O46: each message and command of membership by the lemma that says what it does; a lost member is followed through the
jobs that it stops, whose tags and phases stay. -/
theorem membershipResult : Obligations.MembershipResult := by
  unfold Obligations.MembershipResult
  intro s m n seen u
  refine ⟨fun h hg pp sameHash glb => ⟨fun hbad => ?_, fun hh hp hn hq hi => ?_⟩, fun key h hn => ⟨?_, ?_, ?_, ?_, ?_⟩,
    fun ms keys g k reg bad unread r h hd hj hg => ⟨fun hr => ?_, fun e hr => ?_⟩, ?_, fun h => ?_, ?_, ?_, ?_, ?_⟩
  · exact congrArg Host.Outcome.next (hello_refused h hg hbad pp glb)
  · subst hh
    exact congrArg Host.Outcome.next (hello_meets h hp hn hq hi pp glb)
  · intro hc ht hr
    obtain ⟨t, ht', hrest⟩ := admits_noteJoin hr seen key [] 0 0
    exact ⟨t, congrArg Host.Outcome.next ((join_coordStarts h hc ht seen key).trans ht'), hrest⟩
  · intro hc ht hp hr
    obtain ⟨t, ht', hrest⟩ := admits_noteJoin hr seen key s.lnk.members _ _
    exact ⟨t, congrArg Host.Outcome.next ((join_coord h hc ht hp hn seen key).trans ht'), hrest⟩
  · exact fun hc hs hr => congrArg Host.Outcome.next (join_up h hc hs hr seen key)
  · exact fun hp hc hr => congrArg Host.Outcome.next (memberAnnounce_up h hp hc hr seen key)
  · exact fun hm hp => memberAnnounce_does h hm hp hn seen key
  · exact admitMsg_joins h hd hj hg hr
  · exact congrArg Host.Outcome.next (admitMsg_failed h hd hj hg hr)
  · exact fun h hn hself hco hc hs ht hi ha => lost_leaves h ⟨ht, hc, hs, hi, ha⟩ hn hself hco
  · exact congrArg Host.Outcome.next (receive_heard h _)
  · exact fun p hp h => congrArg Host.Outcome.next (neighbourLossTimeout_loses p hp h)
  · exact fun v hu hb => ⟨fun ho hm => congrArg Host.Outcome.next (lnkLeave_starts hu hb ho hm),
      fun ho hm => congrArg Host.Outcome.next (lnkRejoin_joins hu hb ho hm)⟩
  · exact leaveSend_leaves
  · exact fun ha => congrArg Host.Outcome.next (leaveSend_waits ha)

end Sys2Proof.Machine
end

section
/-! PROOFS. Jobs (chapter 12), what an admission leaves (R324): the job that it takes, and the queues. -/

namespace Sys2Proof.Machine

open Sys2Proof Sys2Proof.Safety

variable {s t u : State}

/-- The jobs follow, and the queues stay. -/
structure Carried (s t : State) : Prop where
  jobs : JobsFollow s t
  queues : t.hif.queues = s.hif.queues

theorem Carried.trans (h : Carried s t) (k : Carried t u) : Carried s u := ⟨h.jobs.trans k.jobs, k.queues.trans h.queues⟩

theorem Carried.refl (s : State) : Carried s s := ⟨.refl s, rfl⟩

theorem Carried.of_eq (hj : t.jobs = s.jobs) (hq : t.hif.queues = s.hif.queues) : Carried s t :=
  ⟨.of_eq (congrArg Jobs.list hj) (congrArg Jobs.tagCount hj), hq⟩

theorem Carried.of_only {l : List Block} (h : Only l s t) (hj : .jobs ∉ l) (hh : .hif ∉ l) : Carried s t :=
  .of_eq (h.2 .jobs hj) (congrArg Hif.queues (h.2 .hif hh))

theorem Carried.of_reads (h : AfterReads s t) : Carried s t := ⟨h.jobs, congrArg Hif.queues (h.only.2 .hif (by decide))⟩

theorem Carried.queue (h : Carried s t) (f : FnId) (q : QId) : t.queue f q = s.queue f q := by
  rw [State.queue, State.queue, h.queues]

theorem carried_foldS {α : Type} {f : State → α → State} (hf : ∀ s a, Carried s (f s a)) (l : List α) (s : State) :
    Carried s (foldS s l f) :=
  foldS_keeps (p := Carried s) f (fun _ a h => h.trans (hf _ a)) l (.refl s)

theorem carried_faultJob (s : State) (tag : Tag) (c : W16) (i : EvInfo) : Carried s (s.faultJob tag c i) := by
  refine ⟨follow_faultJob s tag c i, ?_⟩
  obtain ⟨e, m, j, b, o, h⟩ := faultJob_only s tag c i
  rw [h]

/-! ### Reads and stores of a job (07 R159, R162, R174) -/

theorem only_cacheFault (s : State) (f : Fail) : Only [.var] s (s.cacheFault f) := by
  unfold State.cacheFault
  split
  · split
    · exact only_var s _
    · exact only_refl _ s
  · exact only_refl _ s

theorem carried_readThen {k : State → State} (hk : ∀ u, Carried u (k u)) (w : Who) (reads : List (Addr × Nat)) (bad : List Nat) :
    Carried s (s.readThen w reads bad k) := by
  have hstop (u : State) (f : Fail) (i : EvInfo) : Carried u ((u.cacheFault f).faultJob w.tag f.code i) :=
    (Carried.of_only (only_cacheFault u f) (by decide) (by decide)).trans (carried_faultJob _ _ _ _)
  have hreads : Carried s (s.noteReads w reads) := .of_reads (reads_noteReads s w reads)
  unfold State.readThen
  dsimp only
  split
  · exact hreads.trans (hstop _ _ _)
  · have hparity := hreads.trans (.of_reads (reads_spdParity (s.noteReads w reads) w reads bad))
    split
    · next heq =>
      rw [heq] at hparity
      exact hparity.trans (hstop _ _ _)
    · next heq =>
      rw [heq] at hparity
      exact hparity.trans (hk _)

theorem carried_store (s : State) (w : Who) (a : Addr) (l : Bytes) : Carried s (s.store w a l) := by
  obtain ⟨b, k, c, h⟩ := rewrite_only (s.noteMiss w a l.length true) w.req a l
  refine (Carried.of_reads (reads_noteMiss s w a l.length true)).trans ?_
  rw [State.store, h]
  exact .of_eq rfl rfl

/-! ### What a job takes (12 R324) -/

theorem carried_zeroWindow (s : State) (d : JobDesc) : Carried s (s.zeroWindow d) :=
  carried_foldS (f := fun u (c : CId) => u.modClu c.val _) (fun _ _ => .of_eq rfl rfl) _ s

theorem carried_beginStep (s : State) (x : CtxId) (step : W64) (bad : List Nat) : Carried s (s.beginStep x step bad) := by
  unfold State.beginStep
  dsimp only
  refine Carried.trans (t := s.setCtx x.val _) (.of_eq rfl rfl) (carried_readThen (fun u => ?_) _ _ bad)
  exact .of_eq rfl rfl

theorem carried_loadCtx (s : State) (tag : Tag) (p : Option (CtxId × Ctx)) (bad : List Nat) : Carried s (s.loadCtx tag p bad) := by
  unfold State.loadCtx
  split
  · exact .refl s
  · next x cx => exact Carried.trans (t := s.setCtx x.val _) (.of_eq rfl rfl) (carried_beginStep _ x cx.firstStep bad)

theorem carried_clearParks (s : State) (p : Option (CtxId × Ctx)) : Carried s (s.clearParks p) := by
  unfold State.clearParks
  split
  · exact .refl s
  · refine carried_foldS (fun u v => ?_) _ s
    unfold State.clearPark
    split
    · exact carried_store _ _ _ _
    · exact .refl u

/-- A job's write where its pointer is set. -/
def State.storeAt (s : State) (w : Who) (a : Option Addr) (l : Bytes) : State :=
  match a with
  | some a => s.store w a l
  | none => s

/-- The status of each request of a table is clear (09 Table 9.8). -/
def State.clearStatus (s : State) (w : Who) (t : Option ReqTable) (a : Option Addr) : State :=
  match t, a with
  | some t, some a => foldS s (List.range t.reqs.length) fun s i => s.store w (a.plus (64 + 16 * i + 8)) (leBytes 1 0)
  | _, _ => s

theorem admRecords_eq (s : State) (j : Job) (p : Plan) (bs : List Binding) :
    s.admRecords j p bs = ((s.storeAt j.who (ptrAddr j.d.admRecord.toNat)
      (leBytes 4 p.gen.num.toNat ++ leBytes 4 s.cfg.gen.toNat ++ leBytes 8 (Addr.ptr ⟨true, p.gen.first * 2 ^ 23⟩))).clearStatus
        j.who p.table (ptrAddr j.d.requestTable.toNat)).storeAt j.who (p.table.bind fun t => ptrAddr t.bind.toNat) (bindBytes bs) := rfl

theorem carried_storeAt (s : State) (w : Who) (a : Option Addr) (l : Bytes) : Carried s (s.storeAt w a l) := by
  cases a with
  | none => exact .refl s
  | some a => exact carried_store s w a l

theorem carried_clearStatus (s : State) (w : Who) (t : Option ReqTable) (a : Option Addr) : Carried s (s.clearStatus w t a) := by
  unfold State.clearStatus
  split
  · exact carried_foldS (fun _ _ => carried_store _ _ _ _) _ s
  · exact .refl s

theorem carried_admRecords (s : State) (j : Job) (p : Plan) (bs : List Binding) : Carried s (s.admRecords j p bs) := by
  rw [admRecords_eq]
  exact ((carried_storeAt s _ _ _).trans (carried_clearStatus _ _ _ _)).trans (carried_storeAt _ _ _ _)

/-! ### The fills that an admission starts (09 R240) -/

theorem carried_satEvent (s : State) (b : Bool) (k o : Nat) : Carried s (s.satEvent b k o) := by
  obtain ⟨e, h⟩ := satEvent_only s b k o
  rw [h]
  exact .of_eq rfl rfl

theorem carried_raise (s : State) (c : W16) (i : EvInfo) : Carried s (s.raise c i) := .of_reads (reads_raise s c i)

theorem carried_countFillFail (s : State) : Carried s s.countFillFail :=
  Carried.trans (t := s.setVar _) (.of_eq rfl rfl) (carried_satEvent _ _ _ _)

theorem carried_modVariant (s : State) (n : Nat) (f : Variant → Variant) : Carried s (s.modVariant n f) :=
  .of_only (only_modVariant s n f) (by decide) (by decide)

theorem carried_releaseCache (s : State) (n : Nat) (x : Variant) : Carried s (s.releaseCache n x) := by
  have hnull : Carried s (s.nullSpd n x) :=
    .of_only (only_trans (only_mono (only_setVariant s n _) (by decide)) (only_mono (only_of_storesOnly (redir_stores s n _)) (by decide)))
      (l := [.mem, .cl, .var]) (by decide) (by decide)
  have hparcels := hnull.trans (carried_foldS
    (f := fun u (e : CId × Nat) => u.retag e.1.val e.2 {}) (fun _ _ => .of_eq rfl rfl) x.cacheParcels _)
  have hcount (u : State) : Carried u u.countEviction := by
    unfold State.countEviction
    exact Carried.trans (t := u.setVar _) (.of_eq rfl rfl) (carried_satEvent _ _ _ _)
  exact ((hparcels.trans (carried_modVariant _ n _)).trans (hcount _)).trans (carried_raise _ _ _)

/-- The parcels of one tensor are taken in a cluster, and then those of the rest. -/
def State.takeOne (s : State) (d : Dom) (used : Nat → Nat) (c : CId) (n : Nat)
    (rest : State → (Nat → Nat) → Option (State × List (CId × Nat))) : Option (State × List (CId × Nat)) :=
  if (s.contract d).cacheShare < used c.val + n then none
  else
    match s.cacheRun c.val n with
    | none => none
    | some p =>
      match rest (s.tagParcels c.val p n { mode := .priv, cache := true, domain := d }) fun k =>
        if k = c.val then used k + n else used k with
      | none => none
      | some (t, r) => some (t, (List.range n).map (fun i => (c, p + i)) ++ r)

theorem takeCache_cons (s : State) (d : Dom) (used : Nat → Nat) (e : DirEntry) (l : List DirEntry) :
    s.takeCache d used (e :: l) = s.takeOne d used ⟨e.spdCluster % 64, Nat.mod_lt _ (by decide)⟩ (ceilDiv e.bytes 65536)
      fun s used => s.takeCache d used l := rfl

theorem carried_takeOne {d : Dom} {used : Nat → Nat} {c : CId} {n : Nat} {r : List (CId × Nat)}
    {rest : State → (Nat → Nat) → Option (State × List (CId × Nat))}
    (hrest : ∀ {s : State} {used : Nat → Nat} {r : List (CId × Nat)}, rest s used = some (t, r) → Carried s t)
    (h : s.takeOne d used c n rest = some (t, r)) : Carried s t := by
  unfold State.takeOne at h
  split at h
  · cases h
  · split at h
    · cases h
    · next p _ =>
      split at h
      · cases h
      · next htail =>
        cases h
        refine Carried.trans (t := s.tagParcels c.val p n _) ?_ (hrest htail)
        exact carried_foldS (f := fun u i => u.retag _ (_ + i) _) (fun _ _ => .of_eq rfl rfl) _ s

theorem carried_takeCache {d : Dom} {l : List DirEntry} {used : Nat → Nat} {r : List (CId × Nat)}
    (h : s.takeCache d used l = some (t, r)) : Carried s t := by
  induction l generalizing s used r with
  | nil =>
    cases h
    exact .refl _
  | cons e l ih => exact carried_takeOne ih ((takeCache_cons s d used e l).symm.trans h)

theorem carried_makeRoom {x : Variant} {n : Nat} {r : List (CId × Nat)} (h : s.makeRoom x n = some (t, r)) : Carried s t := by
  induction n generalizing s with
  | zero => exact carried_takeCache h
  | succ n ih =>
    rw [State.makeRoom] at h
    split at h
    · next htake =>
      cases h
      exact carried_takeCache htake
    · split at h
      · cases h
      · exact (carried_releaseCache _ _ _).trans (ih h)

theorem carried_startFill (s : State) (n : Nat) : Carried s (s.startFill n) := by
  unfold State.startFill
  split
  · exact .refl s
  · split
    · exact .refl s
    · split
      · exact carried_countFillFail s
      · split
        · exact carried_countFillFail s
        · next hroom => exact (carried_makeRoom hroom).trans (carried_modVariant _ n _)

/-! ### Admission -/

/-- The record of a job that is admitted by a plan. -/
def Job.admittedBy (j : Job) (s : State) (p : Plan) : Job := { j with
  admitted := true, gen := p.gen.num, cfgGen := s.cfg.gen, bindings := p.vids.map (s.bindingOf p.reqs), reqs := p.reqs
  ctx := p.ctx.map (·.1)
  tokenBar := match p.table with | some t => t.tokenBar | none => 0xFF
  area := match p.table with | some t => t.area.truncate 48 | none => 0
  areaRows := match p.table with | some t => t.areaRows | none => 0
  areaPitch := match p.table with | some t => t.areaPitch | none => 0
  reqBase := j.d.requestTable.truncate 48 }

theorem carried_ite {c : Prop} [Decidable c] (ht : Carried s t) (hu : Carried s u) : Carried s (if c then t else u) := by
  split
  · exact ht
  · exact hu

/-- A job's window is zero, its barrier objects are armed, and its collectives stand. -/
def State.takeObjects (s : State) (j : Job) (p : Plan) : State :=
  let s := foldS (s.zeroWindow j.d) p.bars fun s b => s.setBar b.1.val b.2
  { s with coll := s.coll ++ p.colls }

/-- The credits and evidence slots of a job (12 R325, R338). -/
def State.takeCredits (s : State) (j : Job) : State :=
  let s := if j.d.serving then { s with hif := { s.hif with committed := s.hif.committed + j.d.est } } else s
  if j.d.evidence then { s with hif := { s.hif with evidReserved := s.hif.evidReserved + j.d.evidCount } } else s

/-- The admission of a variant is noted, and its fill starts. -/
def State.noteAdmit (s : State) (n : Nat) : State :=
  ((s.setVar fun y => { y with clock := s.var.clock + 1 }).modVariant n fun x => { x with lastAdmit := s.var.clock + 1 }).startFill n

theorem takeJob_eq (s : State) (j : Job) (p : Plan) (bad : List Nat) :
    s.takeJob j p bad = foldS ((((((s.wakeUp.putJob (j.admittedBy s p)).takeObjects (j.admittedBy s p) p).loadCtx j.tag p.ctx
      bad).clearParks p.ctx).admRecords (j.admittedBy s p) p (p.vids.map (s.bindingOf p.reqs))).takeCredits (j.admittedBy s p))
        p.vids State.noteAdmit := rfl

theorem carried_takeObjects (s : State) (j : Job) (p : Plan) : Carried s (s.takeObjects j p) := by
  have hbars := (carried_zeroWindow s j.d).trans
    (carried_foldS (f := fun u (b : BarId × Bar) => u.setBar b.1.val b.2) (fun _ _ => .of_eq rfl rfl) p.bars _)
  exact hbars.trans (.of_eq rfl rfl)

theorem carried_takeCredits (s : State) (j : Job) : Carried s (s.takeCredits j) := by
  have hserving : Carried s (if j.d.serving then { s with hif := { s.hif with committed := s.hif.committed + j.d.est } } else s) :=
    carried_ite (.of_eq rfl rfl) (.refl s)
  exact hserving.trans (carried_ite (.of_eq rfl rfl) (.refl _))

theorem carried_noteAdmit (s : State) (n : Nat) : Carried s (s.noteAdmit n) := by
  have hclock : Carried s (s.setVar fun y => { y with clock := s.var.clock + 1 }) := .of_eq rfl rfl
  exact (hclock.trans (carried_modVariant _ n _)).trans (carried_startFill _ n)

theorem carried_takeJob (s : State) (j : Job) (p : Plan) (bad : List Nat) :
    Carried (s.wakeUp.putJob (j.admittedBy s p)) (s.takeJob j p bad) := by
  rw [takeJob_eq]
  have hctx := (carried_takeObjects (s.wakeUp.putJob (j.admittedBy s p)) (j.admittedBy s p) p).trans (carried_loadCtx _ j.tag p.ctx bad)
  have hparks := hctx.trans (carried_clearParks _ p.ctx)
  exact ((hparks.trans (carried_admRecords _ _ p _)).trans (carried_takeCredits _ _)).trans (carried_foldS carried_noteAdmit p.vids _)

/-- The job that an admission takes is on the list, as it was admitted. -/
theorem takeJob_mem (s : State) (j : Job) (p : Plan) (bad : List Nat) : ∃ k ∈ (s.takeJob j p bad).jobs.list, (j.admittedBy s p).Kept k :=
  (carried_takeJob s j p bad).jobs.mem (List.mem_append_right _ (List.mem_singleton_self _))

theorem takeJob_count (s : State) (j : Job) (p : Plan) (bad : List Nat) : (s.takeJob j p bad).jobs.tagCount = s.jobs.tagCount :=
  (carried_takeJob s j p bad).jobs.count.trans (wakeUp_keeps (fun u => u.jobs.tagCount) fun _ => rfl)

theorem takeJob_queue (s : State) (j : Job) (p : Plan) (bad : List Nat) (f : FnId) (q : QId) :
    (s.takeJob j p bad).queue f q = s.queue f q :=
  ((carried_takeJob s j p bad).queue f q).trans (wakeUp_keeps (fun u => u.queue f q) fun _ => rfl)

end Sys2Proof.Machine
end

section
/-! PROOFS. Jobs (chapter 12), admission and setup (R322, R324, R328, R329; 11 R298): the descriptor at the head of a queue, a job of one
member, SETUP and its answers, GO and ABORT. -/

namespace Sys2Proof.Machine

open Sys2Proof Sys2Proof.Safety

variable {s t u : State} {m : Msg} {f : FnId} {q : QId} {j : Job} {raw : Bytes} {bad : List Nat}

/-! ### Completions (12 R331, R448) -/

/-- An interrupt vector of a queue was signalled: its completions stay as they are. -/
structure Signalled (f : FnId) (q : QId) (s t : State) : Prop where
  only : Only [.hif, .out] s t
  committed : t.hif.committed = s.hif.committed
  sqHead : (t.queue f q).sqHead = (s.queue f q).sqHead
  cqTail : (t.queue f q).cqTail = (s.queue f q).cqTail
  cqReserved : (t.queue f q).cqReserved = (s.queue f q).cqReserved
  out : s.out ⊆ t.out

theorem only_hif (s : State) (h : Hif) : Only [.hif] s { s with hif := h } := ⟨rfl, fun b hb => by cases b <;> simp_all [Block.Same]⟩

theorem Signalled.trans (h : Signalled f q s t) (k : Signalled f q t u) : Signalled f q s u where
  only := only_trans h.only k.only
  committed := k.committed.trans h.committed
  sqHead := k.sqHead.trans h.sqHead
  cqTail := k.cqTail.trans h.cqTail
  cqReserved := k.cqReserved.trans h.cqReserved
  out := fun _ ho => k.out (h.out ho)

theorem signalVector_signals (s : State) (f : FnId) (q : QId) (v : Nat) : Signalled f q s (s.signalVector f v) := by
  unfold State.signalVector
  dsimp only
  split
  · exact ⟨only_mono (only_hif s _) (by decide), rfl, rfl, rfl, rfl, fun _ h => h⟩
  · exact ⟨only_mono (only_emit s _) (by decide), rfl, rfl, rfl, rfl, fun _ => List.mem_append_left _⟩

/-- The signals that a queue has gathered are its own affair. -/
theorem signalled_gathered (s : State) (f : FnId) (q : QId) (n : Nat) :
    Signalled f q s (s.setQueue f q { s.queue f q with gathered := n }) := by
  refine ⟨only_mono (only_hif s _) (by decide), rfl, ?_, ?_, ?_, fun _ h => h⟩ <;> rw [State.queue_setQueue]

theorem signalQueue_signals (s : State) (f : FnId) (q : QId) : Signalled f q s (s.signalQueue f q) := by
  unfold State.signalQueue
  dsimp only
  split
  · exact ⟨only_refl _ s, rfl, rfl, rfl, rfl, fun _ h => h⟩
  · split
    · exact (signalled_gathered s f q 0).trans (signalVector_signals _ f q _)
    · exact signalled_gathered s f q _

/-- The completion record that a job gets at the tail of its queue. -/
def State.completionOf (s : State) (j : Job) (st : Nat) (ev : W16) : Out :=
  let x := s.queue j.fn j.q
  .completion j.fn j.q x.cqTail (j.record st ev (x.cqTail.toNat / 2 ^ x.cqLog2 % 2 == 0))

/-- A job has completed into the slot that was reserved for it. -/
structure Completed (j : Job) (st : Nat) (ev : W16) (s t : State) : Prop where
  only : Only [.jobs, .hif, .out] s t
  committed : t.hif.committed = s.hif.committed
  sqHead : (t.queue j.fn j.q).sqHead = (s.queue j.fn j.q).sqHead
  cqTail : (t.queue j.fn j.q).cqTail = (s.queue j.fn j.q).cqTail + 1
  cqReserved : (t.queue j.fn j.q).cqReserved = (s.queue j.fn j.q).cqReserved - 1
  out : s.completionOf j st ev ∈ t.out

/-- A queue whose completion ring has one more record. -/
def Queue.completed (x : Queue) : Queue := { x with cqTail := x.cqTail + 1, cqReserved := x.cqReserved - 1 }

/-- A job is removed and its completion record written. -/
def State.recorded (s : State) (j : Job) (st : Nat) (ev : W16) : State :=
  ((s.removeJob j).setQueue j.fn j.q (s.queue j.fn j.q).completed).emit (s.completionOf j st ev)

theorem recorded_queue (s : State) (j : Job) (st : Nat) (ev : W16) :
    (s.recorded j st ev).queue j.fn j.q = (s.queue j.fn j.q).completed := State.queue_setQueue _ _ _ _

theorem only_recorded (s : State) (j : Job) (st : Nat) (ev : W16) : Only [.jobs, .hif, .out] s (s.recorded j st ev) := by
  have hset : Only [.jobs, .hif, .out] s ((s.removeJob j).setQueue j.fn j.q (s.queue j.fn j.q).completed) :=
    only_step (b := .hif) (only_mono (only_jobs s _) (by decide)) (only_hif _ _) (by decide)
  exact only_step (b := .out) hset (only_emit _ _) (by decide)

theorem complete_eq (s : State) (hj : j.cfgFence = false) (st : Nat) (ev : W16) :
    s.complete j st ev = (s.recorded j st ev).signalQueue j.fn j.q := if_neg (by rw [hj]; decide)

theorem complete_completes (s : State) (hj : j.cfgFence = false) (st : Nat) (ev : W16) : Completed j st ev s (s.complete j st ev) := by
  rw [complete_eq s hj]
  have hsignal := signalQueue_signals (s.recorded j st ev) j.fn j.q
  have hqueue := recorded_queue s j st ev
  refine ⟨only_trans (only_recorded s j st ev) (only_mono hsignal.only (by decide)), hsignal.committed, ?_, ?_, ?_,
    hsignal.out (List.mem_append_right _ (List.mem_singleton_self _))⟩
  · rw [hsignal.sqHead, hqueue]
    rfl
  · rw [hsignal.cqTail, hqueue]
    rfl
  · rw [hsignal.cqReserved, hqueue]
    rfl

theorem only_sayTurned (s : State) (d : Dom) (x : Turned) : Only [.evt] s (s.sayTurned d x) := by
  unfold State.sayTurned
  split
  · exact only_refl _ s
  · exact only_raise _ _ _

/-! ### The head of a queue (12 R322) -/

/-- DESCRIPTOR_CONSUME finds a descriptor that it may take. -/
structure State.Offers (s : State) (f : FnId) (q : QId) (d : JobDesc) : Prop where
  up : s.up = true
  running : (s.queue f q).state = .running
  unfenced : (s.queue f q).fencing = false
  posted : (s.queue f q).sqTail ≠ (s.queue f q).sqHead
  room : ((s.queue f q).cqTail + BitVec.ofNat 32 (s.queue f q).cqReserved - (s.queue f q).cqHead).toNat < 2 ^ (s.queue f q).cqLog2
  serial : d.serial = true → ∀ o ∈ s.jobs.list, ¬ (o.fn = f ∧ o.q = q ∧ o.phase ≠ .ended)

/-- The job that a queue's head posts. -/
def State.headJob (s : State) (f : FnId) (q : QId) (d : BitVec 1024) : Job := jobOf f q (s.queue f q).sqHead (leBytes 128 d.toNat)

/-- A queue whose head is taken, with a slot of its completion ring reserved. -/
def Queue.taken (x : Queue) : Queue := { x with sqHead := x.sqHead + 1, cqReserved := x.cqReserved + 1 }

/-- The head is taken, and a slot for its completion reserved. -/
def State.headTaken (s : State) (f : FnId) (q : QId) : State :=
  s.setQueue f q (s.queue f q).taken

theorem descriptorConsume_offers {d : BitVec 1024} (h : s.Offers f q (s.headJob f q d).d)
    (hrandom : ¬(1 < (s.headJob f q d).d.memberCount ∧ (!s.sec.entropyOk) = true ∧ (!s.glb.fatal) = true)) :
    descriptorConsume f q d bad s =
      if s.glb.fatal then (s.headTaken f q).admitOwn (s.headJob f q d) (leBytes 128 d.toNat) bad
      else
        match s.jobs.setups.find? fun u => u.jobId == (s.headJob f q d).d.jobId with
        | some u => ((s.headTaken f q).putJob (s.headJob f q d)).setupJoin u (s.headJob f q d) bad
        | none =>
          if 1 < (s.headJob f q d).d.memberCount ∧ (s.headJob f q d).d.origin ≠ s.lnk.node then
            (s.headTaken f q).putJob (s.headJob f q d)
          else (s.headTaken f q).admitOwn (s.headJob f q d) (leBytes 128 d.toNat) bad := by
  refine if_neg ?_
  rintro (hc | hc | hc | hc | hc | ⟨hs, ho⟩ | hc)
  · simp [h.up] at hc
  · exact hc h.running
  · simp [h.unfenced] at hc
  · exact h.posted hc
  · exact absurd h.room (Nat.not_lt.mpr hc)
  · obtain ⟨o, ho, hkey⟩ := List.any_eq_true.mp ho
    simp only [Bool.and_eq_true, beq_iff_eq, bne_iff_ne] at hkey
    exact h.serial hs o ho ⟨hkey.1.1, hkey.1.2, hkey.2⟩
  · exact hrandom hc

theorem descriptorConsume_own {d : BitVec 1024} (h : s.Offers f q (s.headJob f q d).d)
    (hsetup : s.glb.fatal = true ∨ s.jobs.setups.find? (fun u => u.jobId == (s.headJob f q d).d.jobId) = none)
    (hc : (s.headJob f q d).d.memberCount ≤ 1) :
    descriptorConsume f q d bad s = (s.headTaken f q).admitOwn (s.headJob f q d) (leBytes 128 d.toNat) bad := by
  rw [descriptorConsume_offers h (fun hm => by omega)]
  split
  · rfl
  · next hf =>
    rw [hsetup.resolve_left hf]
    exact if_neg (fun hm => by omega)

theorem descriptorConsume_matched {d : BitVec 1024} (h : s.Offers f q (s.headJob f q d).d) (hf : s.glb.fatal = false) {w : Setup}
    (hw : s.jobs.setups.find? (fun u => u.jobId == (s.headJob f q d).d.jobId) = some w)
    (hrandom : 1 < (s.headJob f q d).d.memberCount → s.sec.entropyOk = true) :
    descriptorConsume f q d bad s = ((s.headTaken f q).putJob (s.headJob f q d)).setupJoin w (s.headJob f q d) bad := by
  rw [descriptorConsume_offers h (fun hm => by simp [hrandom hm.1] at hm), if_neg (by rw [hf]; decide), hw]

/-! ### A SETUP that names another origin (12 R328) -/

/-- The refusal of a descriptor and a SETUP that do not fit. -/
def setupBad : Turned := { status := Stat.fault, event := Ev.hifSetupBad }

theorem setupJoin_refuses {w : Setup} (hf : s.glb.fatal = false) (ho : j.d.origin ≠ w.origin) (hr : (s.route w.origin).isSome = true) :
    ∃ k : Job, s.setupJoin w j bad =
      ((State.raise { s with jobs := { s.jobs with setups := s.jobs.setups.filter fun x => x.tag != w.tag } } Ev.hifSetupBad
        { domain := j.d.domain }).putJob k).emit (.refuse w.origin w.tag s.lnk.node (Stat.fault + 256 * Ev.hifSetupBad.toNat)) := by
  have hsay (u : State) (hu : u.glb.fatal = false) : u.sayTurned j.d.domain setupBad = u.raise Ev.hifSetupBad { domain := j.d.domain } :=
    if_neg (by simp only [setupBad, hu]; decide)
  unfold State.setupJoin
  dsimp only
  rw [if_neg (by simp [hf]), if_pos (.inl ho), sendTo_routed]
  · exact ⟨_, congrArg (fun u => (State.putJob u _).emit _) (hsay _ hf)⟩
  · exact (congrArg Option.isSome (route_congr ((only_sayTurned _ _ _).2 .lnk (by decide)) _)).trans hr

theorem descriptorConsume_refuses {d : BitVec 1024} (h : s.Offers f q (s.headJob f q d).d) (hf : s.glb.fatal = false) {w : Setup}
    (hw : s.jobs.setups.find? (fun u => u.jobId == (s.headJob f q d).d.jobId) = some w) (ho : (s.headJob f q d).d.origin ≠ w.origin)
    (hrandom : 1 < (s.headJob f q d).d.memberCount → s.sec.entropyOk = true) (hr : (s.route w.origin).isSome = true) :
    ∃ t, exec (.descriptorConsume f q d bad) s = .next t ∧
      Out.refuse w.origin w.tag s.lnk.node (Stat.fault + 256 * Ev.hifSetupBad.toNat) ∈ t.out ∧
      t.evt = (s.raise Ev.hifSetupBad { domain := (s.headJob f q d).d.domain }).evt ∧ t.mem = s.mem ∧
      t.hif.committed = s.hif.committed := by
  obtain ⟨k, hk⟩ := setupJoin_refuses (s := (s.headTaken f q).putJob (s.headJob f q d)) (bad := bad) hf ho hr
  refine ⟨_, congrArg Host.Outcome.next ((descriptorConsume_matched h hf hw hrandom).trans hk),
    List.mem_append_right _ (List.mem_singleton_self _), ?_, ?_, ?_⟩
  · exact raise_evt_congr (by rfl) (by rfl) (by rfl) _ _
  · exact (only_raise _ _ _).2 .mem (by decide)
  · exact .trans (b := (s.headTaken f q).hif.committed) (congrArg Hif.committed ((only_raise _ _ _).2 .hif (by decide))) rfl

/-! ### A job of one member (12 R324) -/

/-- The job as its only member would admit it. -/
def State.ownJob (s : State) (j : Job) : Job := { j with members := s.membersOf j.d, tag := s.nextTag.1 }

/-- The reads of a job's own admission, where its descriptor is well formed. -/
def State.readOwn (s : State) (j : Job) (raw : Bytes) (bad : List Nat) : State × Option Turned :=
  if s.glb.fatal || !descGood raw j.d then (s, none) else s.admReads j bad

theorem reads_admReads (s : State) (j : Job) (bad : List Nat) : AfterReads s (s.admReads j bad).1 := by
  have hnoted := reads_noteReads s { req := .dom j.d.domain, tag := 0, dom := j.d.domain } (s.admList j)
  unfold State.admReads
  dsimp only
  split
  · exact hnoted
  · exact hnoted.trans (reads_spdParity _ _ _ _)

theorem reads_readOwn (s : State) (j : Job) (raw : Bytes) (bad : List Nat) : AfterReads s (s.readOwn j raw bad).1 := by
  unfold State.readOwn
  split
  · exact .refl s
  · exact reads_admReads s j bad

theorem membersOf_single (hc : j.d.memberCount ≤ 1) : s.membersOf j.d = [s.lnk.node] := if_pos hc

/-- The next tag is noted. -/
def State.tagged (s : State) (n : BitVec 12) : State := { s with jobs := { s.jobs with tagCount := n } }

theorem admitOwn_takes (hc : j.d.memberCount ≤ 1) {p : Plan}
    (hp : (s.readOwn (s.ownJob j) raw bad).1.planJob (s.ownJob j) raw none (s.readOwn (s.ownJob j) raw bad).2 = .ok p) :
    ∃ b, s.admitOwn j raw bad = ((s.readOwn (s.ownJob j) raw bad).1.tagged s.nextTag.2.jobs.tagCount).takeJob
      { s.ownJob j with phase := .input } p b := by
  have hmulti : decide (1 < (s.membersOf j.d).length) = false := by rw [membersOf_single hc]; rfl
  unfold State.readOwn State.ownJob at hp ⊢
  unfold State.admitOwn
  dsimp only at hp ⊢
  rw [hp]
  dsimp only
  rw [hmulti]
  exact ⟨_, rfl⟩

theorem admitOwn_turns (hc : j.d.memberCount ≤ 1) {e : Turned}
    (he : (s.readOwn (s.ownJob j) raw bad).1.planJob (s.ownJob j) raw none (s.readOwn (s.ownJob j) raw bad).2 = .error e) :
    s.admitOwn j raw bad = (s.readOwn (s.ownJob j) raw bad).1.turnAway (s.ownJob j) e := by
  have hmulti : ¬decide (1 < (s.membersOf j.d).length) = true := by rw [membersOf_single hc]; exact Bool.false_ne_true
  unfold State.readOwn State.ownJob at he ⊢
  unfold State.admitOwn
  dsimp only at he ⊢
  rw [he]
  dsimp only
  split
  · rw [if_neg fun hm => hmulti hm.1]
  · rfl

theorem ownJob_headTaken (s : State) (f : FnId) (q : QId) (j : Job) : (s.headTaken f q).ownJob j = s.ownJob j := rfl

theorem nextTag_headTaken (s : State) (f : FnId) (q : QId) : (s.headTaken f q).nextTag.2.jobs.tagCount = s.nextTag.2.jobs.tagCount := rfl

theorem tagged_queue (s : State) (n : BitVec 12) (f : FnId) (q : QId) : (s.tagged n).queue f q = s.queue f q := rfl

theorem headTaken_queue (s : State) (f : FnId) (q : QId) : (s.headTaken f q).queue f q = (s.queue f q).taken := State.queue_setQueue _ _ _ _

theorem descriptorConsume_admits {d : BitVec 1024} (h : s.Offers f q (s.headJob f q d).d)
    (hsetup : s.glb.fatal = true ∨ s.jobs.setups.find? (fun u => u.jobId == (s.headJob f q d).d.jobId) = none)
    (hc : (s.headJob f q d).d.memberCount ≤ 1) {p : Plan}
    (hp : ((s.headTaken f q).readOwn (s.ownJob (s.headJob f q d)) (leBytes 128 d.toNat) bad).1.planJob (s.ownJob (s.headJob f q d))
      (leBytes 128 d.toNat) none ((s.headTaken f q).readOwn (s.ownJob (s.headJob f q d)) (leBytes 128 d.toNat) bad).2 = .ok p) :
    ∃ t k, exec (.descriptorConsume f q d bad) s = .next t ∧ k ∈ t.jobs.list ∧ k.tag = s.nextTag.1 ∧
      k.admitted = true ∧ k.phase = .input ∧ k.gen = p.gen.num ∧ k.fn = f ∧ k.q = q ∧ k.d = (s.headJob f q d).d ∧
      (t.queue f q).sqHead = (s.queue f q).sqHead + 1 ∧ (t.queue f q).cqReserved = (s.queue f q).cqReserved + 1 ∧
      t.jobs.tagCount = s.nextTag.2.jobs.tagCount := by
  have hreads := Carried.of_reads (reads_readOwn (s.headTaken f q) (s.ownJob (s.headJob f q d)) (leBytes 128 d.toNat) bad)
  obtain ⟨b, hb⟩ := admitOwn_takes (s := s.headTaken f q) hc (by rwa [ownJob_headTaken])
  rw [nextTag_headTaken, ownJob_headTaken] at hb
  generalize (s.headTaken f q).readOwn (s.ownJob (s.headJob f q d)) (leBytes 128 d.toNat) bad = u at *
  generalize s.nextTag.2.jobs.tagCount = n at *
  obtain ⟨k, hk, hkept⟩ := takeJob_mem (u.1.tagged n) { s.ownJob (s.headJob f q d) with phase := .input } p b
  have hqueue := (takeJob_queue (u.1.tagged n) { s.ownJob (s.headJob f q d) with phase := .input } p b f q).trans
    ((tagged_queue u.1 n f q).trans ((hreads.queue f q).trans (headTaken_queue s f q)))
  exact ⟨_, k, congrArg Host.Outcome.next ((descriptorConsume_own h hsetup hc).trans hb), hk, hkept.tag, hkept.admitted, hkept.phase,
    hkept.gen, hkept.fn, hkept.q, hkept.d, congrArg Queue.sqHead hqueue, congrArg Queue.cqReserved hqueue, takeJob_count _ _ _ _⟩

/-- What a job that is turned away leaves. -/
structure TurnedAway (s t : State) (f : FnId) (q : QId) (o : Out) : Prop where
  sqHead : (t.queue f q).sqHead = (s.queue f q).sqHead + 1
  cqTail : (t.queue f q).cqTail = (s.queue f q).cqTail + 1
  cqReserved : (t.queue f q).cqReserved = (s.queue f q).cqReserved
  said : o ∈ t.out
  pages : t.mem.pages = s.mem.pages
  bars : t.bars = s.bars
  coll : t.coll = s.coll
  committed : t.hif.committed = s.hif.committed
  var : t.var = s.var

theorem descriptorConsume_turns {d : BitVec 1024} (h : s.Offers f q (s.headJob f q d).d)
    (hsetup : s.glb.fatal = true ∨ s.jobs.setups.find? (fun u => u.jobId == (s.headJob f q d).d.jobId) = none)
    (hc : (s.headJob f q d).d.memberCount ≤ 1) {e : Turned}
    (he : ((s.headTaken f q).readOwn (s.ownJob (s.headJob f q d)) (leBytes 128 d.toNat) bad).1.planJob (s.ownJob (s.headJob f q d))
      (leBytes 128 d.toNat) none ((s.headTaken f q).readOwn (s.ownJob (s.headJob f q d)) (leBytes 128 d.toNat) bad).2 = .error e) :
    ∃ t, exec (.descriptorConsume f q d bad) s = .next t ∧
      TurnedAway s t f q (s.completionOf (s.ownJob (s.headJob f q d)) e.status e.event) := by
  have hreads := reads_readOwn (s.headTaken f q) (s.ownJob (s.headJob f q d)) (leBytes 128 d.toNat) bad
  have hturn := (admitOwn_turns (s := s.headTaken f q) hc (by rwa [ownJob_headTaken])).trans (by rw [ownJob_headTaken])
  generalize (s.headTaken f q).readOwn (s.ownJob (s.headJob f q d)) (leBytes 128 d.toNat) bad = u at *
  have hsay := only_sayTurned u.1 (s.ownJob (s.headJob f q d)).d.domain e
  have hdone := complete_completes (u.1.sayTurned (s.ownJob (s.headJob f q d)).d.domain e) (j := s.ownJob (s.headJob f q d)) rfl
    e.status e.event
  have hsaid : Only [.mem, .cl, .jobs, .evt, .life] (s.headTaken f q) (u.1.sayTurned (s.ownJob (s.headJob f q d)).d.domain e) :=
    only_trans hreads.only (only_mono hsay (by decide))
  have hkept : (u.1.sayTurned (s.ownJob (s.headJob f q d)).d.domain e).hif = (s.headTaken f q).hif := hsaid.2 .hif (by decide)
  have hqueue : (u.1.sayTurned (s.ownJob (s.headJob f q d)).d.domain e).queue (s.ownJob (s.headJob f q d)).fn (s.ownJob (s.headJob f q d)).q =
      (s.queue f q).taken := by
    rw [State.queue, hkept]
    exact headTaken_queue s f q
  have hall := only_trans (l := [.mem, .cl, .jobs, .evt, .life, .hif, .out]) (only_mono hsaid (by decide)) (only_mono hdone.only (by decide))
  refine ⟨_, congrArg Host.Outcome.next ((descriptorConsume_own h hsetup hc).trans hturn), ?_, ?_, ?_, ?_, ?_, hall.2 .bars (by decide),
    hall.2 .coll (by decide), ?_, hall.2 .var (by decide)⟩
  · exact hdone.sqHead.trans (by rw [hqueue]; rfl)
  · exact hdone.cqTail.trans (by rw [hqueue]; rfl)
  · exact hdone.cqReserved.trans (by rw [hqueue]; rfl)
  · have hsame : (u.1.sayTurned (s.ownJob (s.headJob f q d)).d.domain e).completionOf (s.ownJob (s.headJob f q d)) e.status e.event =
        s.completionOf (s.ownJob (s.headJob f q d)) e.status e.event := by
      rw [State.completionOf, hqueue]
      rfl
    exact hsame ▸ hdone.out
  · exact (congrArg Mem.pages (hdone.only.2 .mem (by decide))).trans ((congrArg Mem.pages (hsay.2 .mem (by decide))).trans hreads.pages)
  · exact hdone.committed.trans (.trans (b := (s.headTaken f q).hif.committed) (congrArg Hif.committed hkept) rfl)

/-! ### SETUP on its way (12 R328; 11 R298, R312) -/

theorem wakeUp_leadsOn (s : State) (p : PortId) : s.wakeUp.leadsOn p = s.leadsOn p := wakeUp_keeps (·.leadsOn p) fun _ => rfl

section Setup

variable {id : W64} {ms : List NodeId} {est g : W32} {dom : Dom} {keys : List (NodeId × Bytes)}

/-- A SETUP goes on along the tree, and how its job's messages are protected is noted. -/
def State.setupPassed (s : State) (m : Msg) (id : W64) (g : W32) (dom : Dom) (keys : List (NodeId × Bytes)) (small : Bool) : State :=
  (if s.leadsOn m.port = true then s.wakeUp.emit (.setup (.but m.port) m.tag id g dom keys) else s.wakeUp).notePassing m.tag dom small

theorem setupPassed_kept (s : State) (m : Msg) (id : W64) (g : W32) (dom : Dom) (keys : List (NodeId × Bytes)) (small : Bool) :
    (s.setupPassed m id g dom keys small).lnk = s.lnk ∧ (s.setupPassed m id g dom keys small).jobs.list = s.jobs.list ∧
      (s.setupPassed m id g dom keys small).jobs.setups = s.jobs.setups := by
  obtain ⟨r, hr⟩ := wakeUp_only s
  unfold State.setupPassed
  rw [hr]
  split <;> exact ⟨rfl, rfl, rfl⟩

theorem setup_waits (h : Heard s m [0]) (hm : s.lnk.node ∈ ms)
    (hj : ∀ j ∈ s.jobs.list, j.d.jobId = id → j.phase ≠ .held ∧ (j.phase = .setup → j.stop ≠ none)) :
    setup m id ms est g dom keys bad s =
      let u := s.setupPassed m id g dom keys (decide (ms.length ≤ 32))
      { u with jobs := { u.jobs with setups := s.jobs.setups ++ [⟨m.tag, id, m.src, ms, est, g, keys⟩] } } := by
  obtain ⟨hlnk, hlist, hsetups⟩ := setupPassed_kept s m id g dom keys (decide (ms.length ≤ 32))
  have hheld : s.jobs.list.find? (fun j => j.phase == .held && j.d.jobId == id) = none := by
    rw [List.find?_eq_none]
    intro j hmem hc
    simp only [Bool.and_eq_true, beq_iff_eq] at hc
    exact (hj j hmem hc.2).1 hc.1
  have hclash : s.jobs.list.find? (fun j => j.phase == .setup && j.stop.isNone && j.d.jobId == id) = none := by
    rw [List.find?_eq_none]
    intro j hmem hc
    simp only [Bool.and_eq_true, beq_iff_eq, Option.isNone_iff_eq_none] at hc
    exact (hj j hmem hc.2).2 hc.1.1 hc.1.2
  unfold setup
  rw [receive_heard h, wakeUp_leadsOn]
  unfold State.setupPassed at hlnk hlist hsetups ⊢
  dsimp only
  rw [if_neg (by rw [hlnk]; simpa using hm), hlist, hheld]
  dsimp only
  rw [hclash, hsetups]

theorem setup_passes (h : Heard s m [0]) (hm : s.lnk.node ∉ ms) :
    setup m id ms est g dom keys bad s = s.setupPassed m id g dom keys (decide (ms.length ≤ 32)) := by
  obtain ⟨hlnk, -, -⟩ := setupPassed_kept s m id g dom keys (decide (ms.length ≤ 32))
  unfold setup
  rw [receive_heard h, wakeUp_leadsOn]
  unfold State.setupPassed at hlnk ⊢
  exact if_pos (by rw [hlnk]; simpa using hm)

theorem setupHoldTimeout_refuses {w : Setup} (hs : s.jobs.setups = [w]) (hw : w.jobId = id)
    (hj : ∀ j ∈ s.jobs.list, ¬(j.phase = .held ∧ j.d.jobId = id)) (hr : (s.route w.origin).isSome = true) :
    setupHoldTimeout id s =
      { s with jobs := { s.jobs with setups := [] } }.emit (.refuse w.origin w.tag s.lnk.node Stat.notReady) := by
  have hheld : s.jobs.list.find? (fun j => j.phase == .held && j.d.jobId == id) = none := by
    rw [List.find?_eq_none]
    intro j hmem hc
    simp only [Bool.and_eq_true, beq_iff_eq] at hc
    exact hj j hmem hc
  have hfound : s.jobs.setups.find? (fun u => u.jobId == id) = some w := by simp [hs, hw]
  have hrest : s.jobs.setups.filter (fun x => x.tag != w.tag) = [] := by simp [hs]
  unfold setupHoldTimeout
  rw [hfound]
  dsimp only
  rw [hrest, sendTo_routed _ ((congrArg Option.isSome (route_congr (by rfl) _)).trans hr)]
  show (match s.jobs.list.find? (fun j => j.phase == .held && j.d.jobId == id) with | some j => _ | none => _) = _
  rw [hheld]

end Setup

/-! ### The answers to a SETUP (12 R328; 09 R235) -/

theorem foldl_const {α : Type} {f : α → α → α} {a : α} (hf : f a a = a) {l : List α} (h : ∀ x ∈ l, x = a) : l.foldl f a = a := by
  induction l with
  | nil => rfl
  | cons b l ih =>
    obtain ⟨rfl, hl⟩ := List.forall_mem_cons.mp h
    rw [List.foldl_cons, hf, ih hl]

/-- Members that refuse with one status decide for it. -/
theorem decideRefusal_const {st : Nat} {l : List Nat} (hl : l ≠ []) (h : ∀ x ∈ l, x = st) : decideRefusal l = some st := by
  obtain ⟨a, l, rfl⟩ := List.exists_cons_of_ne_nil hl
  obtain rfl : a = st := h a List.mem_cons_self
  unfold decideRefusal
  rw [List.head?_cons, Option.map_some]
  split
  · rfl
  · refine congrArg some (foldl_const ?_ h)
    split
    · exact ite_self a
    · rfl

/-- The refusals among the answers that the origin of a job has, those of its members in their order. -/
def Job.refusals (j : Job) (node n : NodeId) (st : Nat) : List Nat :=
  j.members.filterMap fun k => (((node, 0) :: (j.replies ++ [(n, st)])).find? fun r => r.1 == k && r.2 != 0).map (·.2)

/-- Where every earlier answer accepts, an answer that refuses is the last. -/
theorem answer_of_refusing {node n : NodeId} {st : Nat} (h : ∀ r ∈ j.replies, r.2 = 0) {r : NodeId × Nat}
    (hr : r ∈ (node, 0) :: (j.replies ++ [(n, st)])) (hz : r.2 ≠ 0) : r = (n, st) := by
  rcases List.mem_cons.mp hr with rfl | hr
  · exact absurd rfl hz
  · rcases List.mem_append.mp hr with hr | hr
    · exact absurd (h r hr) hz
    · exact List.mem_singleton.mp hr

theorem refusals_of_accepts {node n : NodeId} (h : ∀ r ∈ j.replies, r.2 = 0) : j.refusals node n 0 = [] := by
  refine List.filterMap_eq_nil_iff.mpr fun k _ => ?_
  rw [Option.map_eq_none_iff, List.find?_eq_none]
  intro r hr hc
  simp only [Bool.and_eq_true, bne_iff_ne] at hc
  exact hc.2 (congrArg Prod.snd (answer_of_refusing h hr hc.2))

theorem refusals_of_refuse {node n : NodeId} {st : Nat} (h : ∀ r ∈ j.replies, r.2 = 0) (hst : st ≠ 0) (hn : n ∈ j.members) :
    j.refusals node n st ≠ [] ∧ ∀ x ∈ j.refusals node n st, x = st := by
  have hall : ∀ x ∈ j.refusals node n st, x = st := by
    intro x hx
    obtain ⟨k, -, hk⟩ := List.mem_filterMap.mp hx
    obtain ⟨r, hr, rfl⟩ := Option.map_eq_some_iff.mp hk
    have hz := List.find?_some hr
    simp only [Bool.and_eq_true, bne_iff_ne] at hz
    exact congrArg Prod.snd (answer_of_refusing h (List.mem_of_find?_eq_some hr) hz.2)
  refine ⟨fun hnil => ?_, hall⟩
  have hnone := List.filterMap_eq_nil_iff.mp hnil n hn
  rw [Option.map_eq_none_iff, List.find?_eq_none] at hnone
  exact hnone (n, st) (by simp) (by simp [hst])

/-- The origin has the last answer to its SETUP. -/
structure State.LastAnswer (s : State) (t : Tag) (j : Job) (n : NodeId) : Prop where
  job : s.job t = some j
  asks : s.jobs.list.find? (·.asks t) = some j
  member : n ∈ j.members
  other : n ≠ s.lnk.node
  first : ∀ r ∈ j.replies, r.1 ≠ n
  last : j.replies.length + 2 = j.members.length

theorem State.job_admitted {t : Tag} (h : s.job t = some j) : j.admitted = true := by
  have hkey := List.find?_some h
  simp only [Bool.and_eq_true] at hkey
  exact hkey.1.1

theorem State.LastAnswer.counts {t : Tag} {n : NodeId} (h : s.LastAnswer t j n) :
    ¬((!j.members.contains n) = true ∨ n = s.lnk.node ∨ (j.replies.any fun r => r.1 == n) = true) := by
  rintro (hc | hc | hc)
  · simp [h.member] at hc
  · exact h.other hc
  · obtain ⟨r, hr, he⟩ := List.any_eq_true.mp hc
    exact h.first r hr (by simpa using he)

theorem State.LastAnswer.complete {t : Tag} {n : NodeId} (h : s.LastAnswer t j n) (st : Nat) :
    ¬(j.replies ++ [(n, st)]).length + 1 < j.members.length := by
  rw [List.length_append, List.length_singleton, ← h.last]
  omega

theorem setupReply_goes {t : Tag} {n : NodeId} {st : Nat} (h : s.LastAnswer t j n)
    (hd : decideRefusal (j.refusals s.lnk.node n st) = none) :
    s.setupReply t n st = (s.modJob t fun k => { k with replies := j.replies ++ [(n, st)], phase := .input }).emit (.go .all t) := by
  unfold Job.refusals at hd
  unfold State.setupReply
  rw [h.asks]
  dsimp only
  rw [if_neg h.counts, if_neg (h.complete st), if_pos (State.job_admitted h.job), hd]

theorem setupReply_aborts {t : Tag} {n : NodeId} {st r : Nat} (h : s.LastAnswer t j n)
    (hd : decideRefusal (j.refusals s.lnk.node n st) = some r) (hr : r < 256) :
    s.setupReply t n st = (s.modJob t fun k => { k with turned := true }).stopJob t r 0 := by
  unfold Job.refusals at hd
  unfold State.setupReply
  rw [h.asks]
  dsimp only
  rw [if_neg h.counts, if_neg (h.complete st), if_pos (State.job_admitted h.job), hd]
  dsimp only
  rw [Nat.div_eq_of_lt hr, Nat.mod_eq_of_lt hr, if_pos (State.job_admitted h.job), if_neg (by decide)]
  rfl

/-! ### What becomes of a job's record -/

/-- An update that leaves a job's keys acts on the live job of the tag. -/
theorem job_modJob {f : Job → Job} (hf : ∀ j, (f j).admitted = j.admitted ∧ (f j).tag = j.tag ∧ ((f j).phase != .ended) = (j.phase != .ended))
    (s : State) (t : Tag) : (s.modJob t f).job t = (s.job t).map f := by
  have hkey : ((fun j : Job => j.admitted && j.tag == t && j.phase != .ended) ∘
      fun j => if j.admitted && j.tag == t && j.phase != .ended then f j else j) =
      fun j => j.admitted && j.tag == t && j.phase != .ended := by
    funext j
    obtain ⟨ha, ht, hp⟩ := hf j
    rw [Function.comp_apply]
    split
    · rw [ha, ht, hp]
    · rfl
  unfold State.job State.modJob State.modJobs
  rw [List.find?_map, hkey]
  cases hj : s.jobs.list.find? fun j => j.admitted && j.tag == t && j.phase != .ended with
  | none => rfl
  | some j => rw [Option.map_some, Option.map_some, if_pos (List.find?_some hj)]

theorem haltJob_tells {t : Tag} (hj : s.job t = some j) (hs : j.stop = none) (hm : 1 < j.members.length) (st : Nat) (ev : W16) (tell : Out) :
    tell ∈ (s.haltJob t st ev tell).out := by
  unfold State.haltJob
  rw [hj]
  dsimp only
  rw [if_neg (by rw [hs]; decide), if_pos hm]
  exact List.mem_append_right _ (List.mem_singleton_self _)

/-- The origin stops its job after a refusal, and tells the members. -/
theorem stopJob_turned {t : Tag} (hj : s.job t = some j) (hs : j.stop = none) (hm : 1 < j.members.length) (st : Nat) :
    let u := (s.modJob t fun k => { k with turned := true }).stopJob t st 0
    Out.abort .all t st 0 ∈ u.out ∧ ∀ k, u.job t = some k → k.stop = some (st, 0) := by
  have hjob : (s.modJob t fun k => { k with turned := true }).job t = some { j with turned := true } := by
    rw [job_modJob, hj, Option.map_some]
    exact fun _ => ⟨rfl, rfl, rfl⟩
  exact ⟨haltJob_tells hjob hs hm st 0 _, stopJob_stops hjob hs⟩

/-! ### Answers, GO and ABORT (12 R328, R329) -/

theorem lastAnswer_wakeUp {t : Tag} {n : NodeId} (h : s.LastAnswer t j n) : s.wakeUp.LastAnswer t j n where
  job := (wakeUp_job s t).trans h.job
  asks := by
    rw [wakeUp_keeps (·.jobs) fun _ => rfl]
    exact h.asks
  member := h.member
  other := by
    rw [wakeUp_lnk]
    exact h.other
  first := h.first
  last := h.last

theorem accept_goes {n : NodeId} (h : Heard s m [0]) (hl : s.LastAnswer m.tag j n) (hr : ∀ r ∈ j.replies, r.2 = 0) :
    accept m n s.lnk.node s = (s.wakeUp.modJob m.tag fun k => { k with replies := j.replies ++ [(n, 0)], phase := .input }).emit
      (.go .all m.tag) :=
  (receiveHop_here h _ _).trans (setupReply_goes (lastAnswer_wakeUp hl) (by rw [refusals_of_accepts hr]; rfl))

theorem refuse_aborts {n : NodeId} {st : Nat} (h : Heard s m [0]) (hl : s.LastAnswer m.tag j n) (hs : j.stop = none)
    (hr : ∀ r ∈ j.replies, r.2 = 0) (h0 : 0 < st) (hst : st < 256) :
    ∃ t, exec (.refuse m n s.lnk.node st) s = .next t ∧ Out.abort .all m.tag st 0 ∈ t.out ∧
      ∀ k, t.job m.tag = some k → k.stop = some (st, 0) := by
  obtain ⟨hne, hall⟩ := refusals_of_refuse (node := s.wakeUp.lnk.node) hr (Nat.pos_iff_ne_zero.mp h0) hl.member
  have hreply := setupReply_aborts (lastAnswer_wakeUp hl) (decideRefusal_const hne hall) hst
  have hlen := hl.last
  refine ⟨_, congrArg Host.Outcome.next ((receiveHop_here h _ _).trans ((if_neg (Nat.pos_iff_ne_zero.mp h0)).trans hreply)), ?_⟩
  exact stopJob_turned ((wakeUp_job s _).trans hl.job) hs (by omega) st

theorem go_starts (h : Heard s m [0]) (hj : s.job m.tag = some j) (hs : j.stop = none) (hp : j.phase = .accepted)
    (hl : s.leadsOn m.port = false) :
    ∃ t, exec (.go m) s = .next t ∧ t.job m.tag = some { j with phase := .input } ∧ t.mem = s.mem ∧ t.evt = s.evt := by
  have hgo : go m s = s.wakeUp.modJob m.tag fun j => if j.phase = .accepted ∧ j.stop.isNone then { j with phase := .input } else j := by
    unfold go
    rw [receive_heard h, wakeUp_leadsOn, hl]
    rfl
  refine ⟨_, congrArg Host.Outcome.next hgo, ?_, wakeUp_mem s, wakeUp_evt s⟩
  rw [job_modJob, wakeUp_job, hj, Option.map_some, if_pos ⟨hp, by rw [hs]; rfl⟩]
  intro k
  split
  · next hc => exact ⟨rfl, rfl, by rw [hc.1]; rfl⟩
  · exact ⟨rfl, rfl, rfl⟩

theorem jobAbort_stops (h : Heard s m [0]) (hj : s.job m.tag = some j) (hs : j.stop = none) (st : Nat) :
    ∃ t, exec (.jobAbort m st 0) s = .next t ∧ (∀ k, t.job m.tag = some k → k.stop = some (st, 0)) ∧ t.mem = s.mem ∧ t.evt = s.evt := by
  generalize hu : ({ s.wakeUp with jobs := { s.wakeUp.jobs with setups := s.wakeUp.jobs.setups.filter fun u => u.tag != m.tag } } : State) = u
  have hjob : u.job m.tag = some j := by
    rw [← hu]
    exact (wakeUp_job s m.tag).trans hj
  have honly : Only [.rst, .jobs] s u := by
    rw [← hu]
    exact only_step (b := .jobs) (only_mono (only_wakeUp s) (by decide)) (only_jobs _ _) (by decide)
  have habort : ∃ f : Job → Job, jobAbort m st 0 s = (u.modJob m.tag f).haltJob m.tag st 0 (.abort (.but m.port) m.tag st 0) ∧
      (u.modJob m.tag f).job m.tag = some (f j) ∧ (f j).stop = none := by
    refine ⟨fun j => { j with turned := j.phase == .accepted && st != Stat.aborted && st != Stat.memberLost }, ?_, ?_, hs⟩
    · unfold jobAbort
      rw [receive_heard h]
      dsimp only
      rw [hu, hjob]
      dsimp only
      rw [if_neg (by rw [hs]; decide), if_neg (by decide)]
    · rw [job_modJob, hjob, Option.map_some]
      exact fun _ => ⟨rfl, rfl, rfl⟩
  obtain ⟨f, hf, hfj, hfs⟩ := habort
  obtain ⟨c, js, b, o, hhalt⟩ := haltJob_only (u.modJob m.tag f) m.tag st 0 (.abort (.but m.port) m.tag st 0)
  refine ⟨_, congrArg Host.Outcome.next hf, haltJob_stops _ hfj hfs, ?_, ?_⟩
  · rw [hhalt]
    exact honly.2 .mem (by decide)
  · rw [hhalt]
    exact honly.2 .evt (by decide)

/-! ### The obligation -/

/-- Settles O48: a descriptor at the head of a queue by what its admission leaves of the jobs and queues, and each message of a setup by
the lemma that says what it does. -/
theorem jobSetupResult : Obligations.JobSetupResult := by
  unfold Obligations.JobSetupResult
  intro s m f q d bad
  refine ⟨?_, fun id ms est g dom keys h => ⟨fun hm hj => ?_, fun hm => ?_⟩, fun id w hs hw hj hr => ?_, fun n origin st h ho hl => ⟨?_, ?_⟩,
    fun j h hj hs => ⟨fun n hp ha hm hn hnew => ⟨fun hlast hz => ?_, fun st hlast hz h0 hst => ?_⟩, fun hp hl => ?_, fun st => ?_⟩⟩
  · intro x raw j r u hup hrun hfence hpost hroom hserial
    have hoffers : s.Offers f q (s.headJob f q d).d := ⟨hup, hrun, hfence, hpost, hroom, hserial⟩
    refine ⟨fun w hf hw ho hrandom hr => descriptorConsume_refuses hoffers hf hw ho hrandom hr,
      fun hsetup hc => ⟨fun p hp => descriptorConsume_admits hoffers hsetup hc hp, fun e he => ?_⟩⟩
    obtain ⟨t, ht, haway⟩ := descriptorConsume_turns hoffers hsetup hc he
    exact ⟨t, ht, haway.sqHead, haway.cqTail, haway.cqReserved, haway.said, haway.pages, haway.bars, haway.coll, haway.committed,
      haway.var⟩
  · exact congrArg Host.Outcome.next (setup_waits h hm hj)
  · exact congrArg Host.Outcome.next (setup_passes h hm)
  · exact congrArg Host.Outcome.next (setupHoldTimeout_refuses hs hw hj hr)
  · exact congrArg Host.Outcome.next (receiveHop_elsewhere h ho hl _ _)
  · exact congrArg Host.Outcome.next (receiveHop_elsewhere h ho hl _ _)
  · exact congrArg Host.Outcome.next (accept_goes h ⟨hj, ha, hm, hn, hnew, hlast⟩ hz)
  · exact refuse_aborts h ⟨hj, ha, hm, hn, hnew, hlast⟩ hs hz h0 hst
  · exact go_starts h hj hs hp hl
  · exact jobAbort_stops h hj hs st

end Sys2Proof.Machine
end
